-- ==== Sys2Proof/Word.lean ====
section
/-! DEFINITION. The words of the module (chapter 0, Notation): bytes, token payloads, and the sparse table
that holds "one entry per key" state as plain data. -/

namespace Sys2Proof

/-- One byte (R54). -/
abbrev Byte := BitVec 8
/-- A 32-bit register or counter. -/
abbrev U32 := BitVec 32
/-- A 64-bit register or counter. -/
abbrev U64 := BitVec 64
/-- A token payload of 32 bytes; byte k is bits 8k+7 to 8k (R54). -/
abbrev Payload := BitVec 256

/-- A sparse table: pairs of key and value, keys strictly rising. What a key that is not listed holds is
said by whoever reads the table. -/
abbrev Tab (α : Type) := List (Nat × α)

namespace Tab

/-- The entry at `k`, or `d` where nothing is listed. -/
def get {α : Type} (d : α) : Tab α → Nat → α
  | [], _ => d
  | (j, v) :: m, k => if j = k then v else if k < j then d else get d m k

/-- The entry at `k`, if one is listed. -/
def find {α : Type} : Tab α → Nat → Option α
  | [], _ => none
  | (j, v) :: m, k => if j = k then some v else if k < j then none else find m k

/-- List `v` at `k`, keeping the keys rising. -/
def set {α : Type} : Tab α → Nat → α → Tab α
  | [], k, v => [(k, v)]
  | (j, w) :: m, k, v =>
    if k < j then (k, v) :: (j, w) :: m
    else if k = j then (k, v) :: m
    else (j, w) :: set m k v

/-- Take the entry at `k` out of the table. -/
def erase {α : Type} : Tab α → Nat → Tab α
  | [], _ => []
  | (j, w) :: m, k => if j = k then m else (j, w) :: erase m k

/-- Replace the entry at `k` by `f` of it. -/
def modify {α : Type} (d : α) (m : Tab α) (k : Nat) (f : α → α) : Tab α :=
  set m k (f (get d m k))

/-- `f` on every listed entry. -/
def map {α β : Type} (f : α → β) (m : Tab α) : Tab β := List.map (fun p => (p.1, f p.2)) m

end Tab

end Sys2Proof
end

