-- ==== Sys2Proof/Syntax.lean ====
section
/-! DEFINITION. The commands: one constructor of `Instr` for each row of spec/opcode_table.json, and the plain
data that their operands carry. -/

namespace Sys2Proof

/-- A logical tile position (c, r) of berth b (R19). -/
structure TileId where
  b : Fin 4
  col : Fin 20
  row : Fin 20
  deriving DecidableEq, Repr

/-- A physical tile of berth b: row 20 of a column is its spare (R51). -/
structure SiteId where
  b : Fin 4
  col : Fin 20
  row : Fin 21
  deriving DecidableEq, Repr

/-- The execution unit of a step (Table 5-1). -/
inductive ExecUnit where
  | none | array | vector | mover
  deriving DecidableEq, Repr

/-- A router port by which a flit arrives: from the neighbour or station on that side, or from the tile (R43). -/
inductive Port where
  | north | east | south | west | core
  /-- The relay lane's end at the spare of the column (R49). -/
  | lane
  deriving DecidableEq, Repr

/-- The scope of a hurdle (R140). -/
inductive Scope where
  | pipeline | berth | module
  deriving DecidableEq, Repr

/-- A link direction of the shuttle, named by its sending end (Table 9-1). -/
inductive LinkDir where
  /-- Station S of berth b toward its landing. -/
  | stationUp (b : Fin 4) (s : Fin 20)
  /-- The landing toward station S of berth b. -/
  | stationDown (b : Fin 4) (s : Fin 20)
  /-- Gangway lane n, from landing 0 to landing 1 or back. -/
  | lane (fromDie1 : Bool) (n : Fin 20)
  /-- A unit port toward landing d. -/
  | unitUp (die : Fin 2) (u : Fin 2048)
  /-- Landing d toward a unit port. -/
  | unitDown (die : Fin 2) (u : Fin 2048)
  deriving DecidableEq, Repr

/-- A transport of JOP frames (R389, R396, R397). -/
inductive Transport where
  | mailbox | udp | mctp
  deriving DecidableEq, Repr

/-- A purser core P0 to P5. -/
abbrev Core := Fin 6

/-- The part of a light request (R257). -/
structure LightReq where
  addr : Nat
  len : Nat
  write : Bool
  data : List Byte
  /-- Endpoint index of the requester. -/
  src : Nat
  deriving DecidableEq, Repr, Inhabited

/-- An RTP packet as the depacketiser sees it (R346): the fields that the spec names, after RFC 3550. -/
structure Rtp where
  version : Nat
  pt : Nat
  seq : BitVec 16
  ts : U32
  ssrc : U32
  marker : Bool
  /-- NAL unit type field of the payload (Table 14-1); for an FU, the type in the payload's own header. -/
  nal : Nat
  /-- FU start and end flags; both false for other structures. -/
  fuStart : Bool
  fuEnd : Bool
  /-- The payload holds a DONL or DOND field (Table 14-1). -/
  don : Bool
  /-- The payload holds an IDR, CRA or BLA picture or a recovery point SEI (Table 14-2, RAP). -/
  rap : Bool
  /-- The picture may be skipped: nal_ref_idc = 0 or a sub-layer non-reference type (Table 14-7). -/
  nonRef : Bool
  /-- NAL units of the payload, after removal of padding, CSRC entries and header extension. -/
  nals : List (List Byte)
  deriving DecidableEq, Repr, Inhabited

/-- The network part of an Ethernet frame (R343, R344). -/
inductive NetPart where
  /-- ARP request for an IPv4 address. -/
  | arp (target : U32)
  /-- ICMPv6 neighbour solicitation for an IPv6 address. -/
  | neighbour (target : BitVec 128)
  /-- IGMP or MLD query for a group (0: general query). -/
  | groupQuery (v6 : Bool) (group : BitVec 128)
  /-- An IP fragment. -/
  | fragment
  /-- IPv6 with an extension header, or a protocol that the port does not serve. -/
  | unserved
  /-- A UDP datagram. Addresses are 16 bytes, IPv4 as ::FFFF:a.b.c.d (Table 14-9). -/
  | udp (v6 : Bool) (src dst : BitVec 128) (dport : Nat) (checksumZero checksumOk : Bool) (body : List Byte)
      (rtp : Option Rtp)
  deriving DecidableEq, Repr, Inhabited

/-- An Ethernet frame as a port receives it (R342). -/
structure EthFrame where
  len : Nat
  fcsOk : Bool
  /-- VLAN identifiers of the 802.1Q tags, outermost first. -/
  tags : List Nat
  /-- Ethernet II framing. -/
  ethernetII : Bool
  net : NetPart
  deriving DecidableEq, Repr, Inhabited

/-- An MCTP control command (R397). -/
inductive MctpCmd where
  | setEid (eid : Byte) | getEid | getVersion | getTypes | getVendor
  deriving DecidableEq, Repr

/-- A datagram that reaches the management port (R396). -/
structure Datagram where
  /-- ARP for an IPv4 address, when it is one. -/
  arp : Option U32
  /-- Destination IPv4 address and UDP port. -/
  dst : U32
  udp : Bool
  dport : Nat
  /-- Sender's address and port, to which the reply goes. -/
  src : U32
  sport : Nat
  body : List Byte
  deriving DecidableEq, Repr, Inhabited

/-- What an event comes from (R381). -/
inductive EventSrc where
  | shared (n : Fin 1024)
  | priv (core : Core) (n : Fin 64)
  | queue (q : Fin 16384)
  deriving DecidableEq, Repr

/-- The producer end that a credit timeout reports for (R426). -/
inductive Producer where
  | context (t : TileId) (c : Fin 4)
  | engine (b : Fin 4) (e : Fin 16) (pt : Fin 4)
  /-- A memory-side unit's queue, named by the station pass port that carries it. -/
  | unit (b : Fin 4) (station : Fin 20) (port : Fin 64)
  /-- A link endpoint sender. -/
  | endpoint (b : Fin 4) (station : Fin 20) (port : Fin 64)
  deriving DecidableEq, Repr

/-- Why a Folsa port goes DOWN (R331). -/
inductive DownCause where
  | resends | laneLock | peerChanged
  deriving DecidableEq, Repr

/-- Readings of a telemetry sample (Table 18-8): temperatures in m°C, powers in mW. -/
structure Readings where
  sensors : List Int
  inputs : List Nat
  energyMj : Nat
  deriving DecidableEq, Repr, Inhabited

/-- The commands of the block, one for each row of the opcode table, in the table's order. -/
inductive Instr where
  | nop (t : TileId) (c : Fin 4)
  | stepComplete (t : TileId) (c : Fin 4) (u : ExecUnit)
  | sequencerWatchdog (t : TileId) (c : Fin 4) (u : ExecUnit)
  | wait (t : TileId) (c : Fin 4)
  | hurdle (t : TileId) (c : Fin 4)
  | band (t : TileId) (c : Fin 4)
  | bchk (t : TileId) (c : Fin 4)
  | rerunAck (t : TileId) (c : Fin 4)
  | scale (t : TileId) (c : Fin 4)
  | statSend (t : TileId) (c : Fin 4)
  | statUpdate (t : TileId) (c : Fin 4)
  | semit (t : TileId) (c : Fin 4)
  | send (t : TileId) (c : Fin 4)
  | copy (t : TileId) (c : Fin 4)
  | pass (t : TileId) (c : Fin 4)
  | conv (t : TileId) (c : Fin 4)
  | matw (t : TileId) (c : Fin 4)
  | dwconv (t : TileId) (c : Fin 4)
  | mata (t : TileId) (c : Fin 4)
  | spec (t : TileId) (c : Fin 4)
  | zpc (t : TileId) (c : Fin 4)
  | rq (t : TileId) (c : Fin 4)
  | accin (t : TileId) (c : Fin 4)
  | accout (t : TileId) (c : Fin 4)
  | rotw (t : TileId) (c : Fin 4)
  | tfn (t : TileId) (c : Fin 4)
  | elt (t : TileId) (c : Fin 4)
  | poolMax (t : TileId) (c : Fin 4)
  | poolAverage (t : TileId) (c : Fin 4)
  | gpoolMaxAccumulate (t : TileId) (c : Fin 4)
  | gpoolSumAccumulate (t : TileId) (c : Fin 4)
  | gpoolEmitMax (t : TileId) (c : Fin 4)
  | gpoolEmitAverage (t : TileId) (c : Fin 4)
  | resize (t : TileId) (c : Fin 4)
  | softmax (t : TileId) (c : Fin 4)
  | lnorm (t : TileId) (c : Fin 4)
  | xformFr (t : TileId) (c : Fin 4)
  | xformFs (t : TileId) (c : Fin 4)
  | xformIs (t : TileId) (c : Fin 4)
  | xformIc (t : TileId) (c : Fin 4)
  | steer (t : TileId) (c : Fin 4)
  | merge (t : TileId) (c : Fin 4)
  | select (t : TileId) (c : Fin 4)
  | crop (t : TileId) (c : Fin 4)
  | bwd (t : TileId) (c : Fin 4)
  | wgrad (t : TileId) (c : Fin 4)
  | opt (t : TileId) (c : Fin 4)
  | optFin (t : TileId) (c : Fin 4)
  | lossCe (t : TileId) (c : Fin 4)
  | lossBce (t : TileId) (c : Fin 4)
  | lossSmoothL1 (t : TileId) (c : Fin 4)
  | lossDrain (t : TileId) (c : Fin 4)
  /-- `err` is the pattern of bits that the link flipped (0: none), laid out as `Flit.bits`. -/
  | flitReceive (t : TileId) (p : Port) (err : BitVec 296)
  | creditReceive (t : TileId) (oq : Fin 16)
  | epochMarkReceive (t : TileId) (p : Port)
  | hurdlePortWrite (core : Core) (scope : Scope) (hid : Fin 256)
  | hurdleComplete (b : Fin 4) (scope : Scope) (hid : Fin 256)
  | hurdleTimeout (b : Fin 4) (scope : Scope) (hid : Fin 256)
  | shuttleSlotSend (l : LinkDir)
  | shuttleFlitReceive (l : LinkDir) (err : BitVec 336)
  | gangwaySpareTrained (fromDie1 : Bool) (n : Fin 20)
  | stationCreditForward (b : Fin 4) (s : Fin 20) (p : Fin 64)
  | linkUnitForward (b : Fin 4) (s : Fin 20) (p : Fin 64)
  | linkFreedSend (b : Fin 4) (s : Fin 20) (p : Fin 64)
  | linkFreedAccept (b : Fin 4) (s : Fin 20) (p : Fin 64)
  | timetableSwitch (l : LinkDir)
  | ledgerTick
  | ledgerCheck
  | seta (b : Fin 4) (e : Fin 16) (pt : Fin 4)
  | adda (b : Fin 4) (e : Fin 16) (pt : Fin 4)
  | sets (b : Fin 4) (e : Fin 16) (pt : Fin 4)
  | nexts (b : Fin 4) (e : Fin 16) (pt : Fin 4)
  | loop (b : Fin 4) (e : Fin 16) (pt : Fin 4)
  | endl (b : Fin 4) (e : Fin 16) (pt : Fin 4)
  | rd (b : Fin 4) (e : Fin 16) (pt : Fin 4)
  | wr (b : Fin 4) (e : Fin 16) (pt : Fin 4)
  | wrAcknowledge (b : Fin 4) (e : Fin 16)
  | pad (b : Fin 4) (e : Fin 16) (pt : Fin 4)
  | take (b : Fin 4) (e : Fin 16) (pt : Fin 4)
  | post (b : Fin 4) (e : Fin 16) (pt : Fin 4)
  | fence (b : Fin 4) (e : Fin 16) (pt : Fin 4)
  | endp (b : Fin 4) (e : Fin 16) (pt : Fin 4)
  | pacerGrant (b : Fin 4)
  | hbmAccessComplete (b : Fin 4)
  | lightRequest (b : Fin 4) (r : LightReq)
  | ethFrameReceive (port : Fin 2) (f : EthFrame)
  | reorderTimeout (n : Fin 1024)
  | decodeComplete (b : Fin 4) (slice : Fin 18)
  | decodeSliceTimeout (b : Fin 4) (slice : Fin 18)
  | feederFrameStart (b : Fin 4)
  | rawDescriptor (n : Fin 1024) (desc : BitVec 512)
  | rawCopyComplete (n : Fin 1024) (pic : List Byte)
  | cropGather (b : Fin 4)
  | resultFrame (b : Fin 4)
  | featureItem (b : Fin 4)
  | rerunPost (b : Fin 4)
  | queuePointerMismatch (q : Fin 16384)
  /-- A doorbell write of `bytes` bytes; the three rows name what the write asks for (Table 15-3). -/
  | queueDoorbellPointer (q : Fin 16384) (bytes : Nat) (w : U64)
  | queueDoorbellArm (q : Fin 16384) (bytes : Nat) (w : U64)
  | queueDoorbellFlush (q : Fin 16384) (bytes : Nat) (w : U64)
  | queueFlushCommand (q : Fin 16384)
  | queueEnable (q : Fin 16384)
  | queueDisable (q : Fin 16384)
  | queueDataRead (q : Fin 16384) (len : Nat)
  | queueDataWrite (q : Fin 16384) (item : List Byte) (gap : Bool)
  | eventOccurrence (src : EventSrc) (info : U32)
  | eventPendingEnter (h : Fin 32)
  | eventDoorbellCi (h : Fin 32) (bytes : Nat) (w : U64)
  | eventDoorbellArm (h : Fin 32) (bytes : Nat) (w : U64)
  | eventQueueEnable (h : Fin 32)
  | mbxGo (w : U32)
  | mbxDoneClear (w : U32)
  | mbxResponseDone
  | registerWrite (off : BitVec 20) (bytes : Nat) (v : U64)
  /-- A JOP request. On the mailbox and on UDP the frame is the one that MBX_GO or MGMT_DATAGRAM accepted and `msg` is not
  used; on MCTP `msg` is the frame. The same for the other JOP operations. -/
  | read (tr : Transport) (msg : List Byte)
  | write (tr : Transport) (msg : List Byte)
  | segInit (tr : Transport) (msg : List Byte)
  | segData (tr : Transport) (msg : List Byte)
  | segEnd (tr : Transport) (msg : List Byte)
  | segAbort (tr : Transport) (msg : List Byte)
  | segTransferTimeout (index : Nat) (sub : Nat)
  | open (tr : Transport) (msg : List Byte)
  | close (tr : Transport) (msg : List Byte)
  | info (tr : Transport) (msg : List Byte)
  | sessionIdleTimeout (sid : U32)
  | mctpControl (c : MctpCmd)
  | mgmtDatagram (d : Datagram)
  | journalCommit
  | fwBootNext
  | fwBootWarm
  | fwCancel
  | bootReadyTimeout
  | restoreDefaults
  | defaultsCauseClear (v : U32)
  | timeWrite (v : U64)
  /-- A rising edge of PPS_IN that was high for `samples` samples at 100 MHz, time-stamped `te` (R485). -/
  | ppsEdge (samples : Nat) (te : U64)
  | ppsMissed
  | anchorWrite (n : Fin 1024) (v : BitVec 96)
  | streamEnable (n : Fin 1024)
  | streamDisable (n : Fin 1024)
  | imageLoadCheckDone (b : Fin 4) (k : Fin 4)
  | slotWriteDone (b : Fin 4) (k : Fin 4)
  | slotUnload (b : Fin 4) (k : Fin 4)
  | changeoverOrderly (b : Fin 4) (k : Fin 4)
  | changeoverForcedRefeed (b : Fin 4) (k : Fin 4) (halted : Bool)
  | changeoverForcedDrop (b : Fin 4) (k : Fin 4) (halted : Bool)
  | changeoverForcedHold (b : Fin 4) (k : Fin 4) (halted : Bool)
  /-- Target slot 0xF; the mode is 0 orderly, 1 re-feed, 2 drop, 3 hold (Table 12-13). -/
  | changeoverStop (b : Fin 4) (mode : Fin 4)
  | releaseStageOutputs (b : Fin 4)
  | releaseStageWriteEnables (b : Fin 4)
  | releaseStageResets (b : Fin 4)
  | feederEpochMark (b : Fin 4)
  | contextDrained (t : TileId) (c : Fin 4)
  | changeoverTimeout (b : Fin 4)
  | halt (b : Fin 4)
  | haltComplete (b : Fin 4)
  | resume (b : Fin 4)
  | scanOut (b : Fin 4)
  | scanIn (b : Fin 4)
  | holdRelease (b : Fin 4)
  | berthReset (b : Fin 4)
  | targetItemAccept (b : Fin 4) (item : List Byte)
  | updateStart (b : Fin 4)
  | budgetRefill (t : TileId)
  | epochSnapshotDone (b : Fin 4)
  | entryTilesHeld (b : Fin 4)
  | adaptPause (b : Fin 4)
  | adaptResume (b : Fin 4)
  | rollbackOne (b : Fin 4)
  | rollbackZero (b : Fin 4)
  | rollbackTo (b : Fin 4)
  | adaptAbort (b : Fin 4)
  | folsaEnable (p : Fin 2)
  | folsaTrained (p : Fin 2)
  | folsaFrameSend (p : Fin 2)
  | folsaFrameReceive (p : Fin 2) (bytes : List Byte)
  | hello (p : Fin 2)
  | sem (p : Fin 2)
  | pair (p : Fin 2)
  | folsaLinkDown (p : Fin 2) (cause : DownCause)
  | linkHoldTimeout (p : Fin 2)
  | faultReport
  | stormClose
  | creditTimeout (who : Producer) (q : Fin 16)
  | purserWatchdog (core : Core)
  | spareLoadDone (b : Fin 4) (col : Fin 20)
  | reactionWrite (src : Fin 512) (v : BitVec 16)
  | clear (v : BitVec 16)
  /-- The write's session role, whether its frame had AUTH = 1, and the value (R440). -/
  | testEnter (role : Nat) (auth : Bool) (v : U32)
  | injectionArm (i : Fin 16)
  | injectionDisarm (i : Fin 16)
  | injectionFire (i : Fin 16)
  | testEnFall
  | selfTestComplete (pass : Bool)
  | bpowerHold (b : Fin 4)
  | bpowerDoze (b : Fin 4)
  | bpowerActive (b : Fin 4)
  | autoHoldIdle (b : Fin 4)
  | holdWake (b : Fin 4)
  | mpowerMoor
  | mpowerDock
  | mpowerActive
  | moorRestoreDone
  | rpllStep (up : Bool)
  /-- P10 in mW and every junction reading in m°C. -/
  | limiterEval (p10 : Nat) (tj : List Int)
  /-- Whether every critical-path monitor reports margin at 5 mV less, and at the present correction. -/
  | voltageLoop (b : Fin 4) (marginBelow : Bool) (marginNow : Bool)
  | droopHold (b : Fin 4)
  | thermalTrip
  /-- The cable 12 V input in mV and the two sense pins (true: open). -/
  | cableSenseRead (mv : Nat) (sense0 sense1 : Bool)
  | cableLoss
  /-- The board ID straps, BID2 first, and the level of TEST_EN. -/
  | powerOn (straps : BitVec 3) (testEn : Bool)
  /-- Whether 3.3VAUX was lost too. -/
  | powerDown (auxLost : Bool)
  | perst
  | hot
  | flr
  | warmReset
  | busMasterEnableChange (on : Bool)
  | railOutOfWindow (rail : Fin 11)
  /-- The highest rate that the inserted module's identification shows: 1 25GBASE-R, 2 50GBASE-R. -/
  | sfpModuleInsert (c : Fin 2) (rate : Nat)
  | sfpModuleRemove (c : Fin 2)
  | sfpTxFault (c : Fin 2)
  | telemetrySample (r : Readings)
  | sramScrub (t : SiteId) (granule : Fin 49152)
  | hbmPatrolScrub (b : Fin 4) (token : Nat)
  | sensorCalibration (sensor : Fin 10) (offset : Int)
  | ageingGuardband (b : Fin 4) (below : Bool)
  | msiXVectorUnmask (v : Fin 33)
  | perstNRise (straps : BitVec 3) (testEn : Bool)
  | slot12vValid
  | sfpPortLinkChange (c : Fin 2) (up : Bool)
  | folsaCableInserted (p : Fin 2)
  deriving DecidableEq, Repr

end Sys2Proof
end

