-- ==== Sys2Proof/Decode.lean ====
section
/-! DEFINITION. Words of the command table. -/

namespace Sys2Proof

/-- The command that a word spells by the bits that spec/opcode_table.json gives its rows. No row of the table gives bits, so no
word spells one. -/
def decodeTableWord (_nbits _w : Nat) : Option Instr := none

end Sys2Proof
end

