-- ==== Sys2Proof/Config.lean ====
section
/-! DEFINITION. What the specification leaves open: each constant here has no body, so nothing can be proved about its
value. Every one has an entry in the assumption log. -/

namespace Sys2Proof.Config

/-- The 22 lower fraction bits of a NaN that a binary32 operation on these two operands forms: the specification names
no NaN encoding. -/
opaque nanPayload : U32 → U32 → BitVec 22
/-- The bits an A48 register holds when an exact sum falls outside its range: R65 says the hardware has no overflow
detection and states no value. -/
opaque a48Overflow : Int → BitVec 48
/-- The bits a 32-bit sum file holds when an exact sum falls outside its range (R81, R276). -/
opaque i32Overflow : Int → U32
/-- The quotient of a division whose divisor field is 0 (POOL DIV, GPOOL N, SOFTMAX, LOSS), or its
remainder (NEXTS with IMM = 0): no result is stated. -/
opaque divZero : Int → Int
/-- The integer that rounding a binary32 infinity or NaN gives (R280): no result is stated. -/
opaque roundNonFinite : U32 → Int
/-- The rank-key workspace of SELECT (R182): the manual gives its size, not the layout of what SELECT leaves in it.
Byte n of the workspace of an issue with this step word. -/
opaque rankByte : BitVec 128 → Nat → Byte

/-- What a light read finds where firmware or the decoder lays the bytes out and no layout is given (R242, R352): the System region
and the picture buffers. By device time and byte address. -/
opaque hbmByte : Nat → Nat → Byte

/-- L of a PAD token under LCTL = 0b00, "as stored" (R248, R249): PAD reads no stored token. By token offset. -/
opaque padLast : Nat → Bool
/-- What POST leaves in an engine semaphore that already holds 255 (R246): no result is stated. By semaphore. -/
opaque semOverflow : Nat → BitVec 8

/-- The values that objects hold from the factory (Tables 14-8, 16-15, 16-16, 18-8), by key 256·index + subindex. -/
opaque factory : Nat → Nat
/-- Build, version and identity that the running firmware reports (FW_VERSION, OD_VERSION, LINK). -/
opaque firmware : Nat → Nat
/-- Random numbers that the device draws: nonces and session identities (R406), by draw. -/
opaque drawn : Nat → BitVec 128
/-- VTAB (R452): the fused setpoint table, mV by f_R in MHz. -/
opaque vtab : Nat → Nat
/-- The security block's verdict on a firmware image (R391): the version of a good one. -/
opaque fwVerify : List Byte → Option Nat
/-- Whether the start of the cores finds a flash journal record damaged (R403), by key and draw. -/
opaque flashDamaged : Nat → Nat → Bool
/-- Objects, by key, that the firmware of an update adds (R391), by draw. -/
opaque addedObjects : Nat → List Nat
/-- What the objects of a self-test find: the spares that fail it (R51), by berth, column and test. -/
opaque spareBad : Nat → Nat → Nat → Bool

/-- The pattern that a spare's block memories hold after power-up (R51), by byte address. -/
opaque sparePattern : Nat → Byte
/-- Whether a monitored rail is still outside its window when CLEAR arrives (R421, R480), by draw. -/
opaque railOut : Nat → Bool

end Sys2Proof.Config
end

