-- ==== Sys2Proof/Machine/Bits.lean ====
section
/-! DEFINITION. Bit fields, byte order and canonical byte memory. -/

namespace Sys2Proof.Machine

/-- Bits [hi:lo] of a natural number. -/
def nbits (w hi lo : Nat) : Nat := w / 2 ^ lo % 2 ^ (hi + 1 - lo)

/-- Bits [hi:lo] of a word, as an unsigned number (Notation, chapter 0). -/
def fld {n : Nat} (w : BitVec n) (hi lo : Nat) : Nat := nbits w.toNat hi lo

/-- Bit [i] of a word. -/
def bit {n : Nat} (w : BitVec n) (i : Nat) : Bool := w.getLsbD i

/-- A `width`-bit unsigned number read as two's complement. -/
def signed (width x : Nat) : Int := if x < 2 ^ (width - 1) then (x : Int) else (x : Int) - 2 ^ width

/-- Bits [hi:lo] of a word as two's complement. -/
def sfld {n : Nat} (w : BitVec n) (hi lo : Nat) : Int := signed (hi + 1 - lo) (fld w hi lo)

/-- An integer as `width`-bit two's complement. -/
def unsigned (width : Nat) (x : Int) : Nat := (x % 2 ^ width).toNat

/-- A word with bits [hi:lo] replaced. -/
def setFld {n : Nat} (w : BitVec n) (hi lo v : Nat) : BitVec n :=
  BitVec.ofNat n (w.toNat % 2 ^ lo + v % 2 ^ (hi + 1 - lo) * 2 ^ lo + w.toNat / 2 ^ (hi + 1) * 2 ^ (hi + 1))

/-- A Boolean as one bit. -/
def b2n (b : Bool) : Nat := if b then 1 else 0

/-- Saturating addition to a counter of the given greatest value. -/
def satAdd (top x n : Nat) : Nat := min (x + n) top

/-- The largest value of a U32 and of a U64. -/
def top32 : Nat := 4294967295
def top64 : Nat := 18446744073709551615

/-- The number that a list of bytes spells, first byte least significant (R54). -/
def leNat : List Byte → Nat
  | [] => 0
  | b :: bs => b.toNat + 256 * leNat bs

/-- `n` bytes of a number, least significant first (R54). -/
def leBytes : Nat → Nat → List Byte
  | 0, _ => []
  | n + 1, v => BitVec.ofNat 8 v :: leBytes n (v / 256)

/-- `n` bytes starting at byte `i` of a list; bytes beyond its end read as 0. -/
def sliceBytes (bs : List Byte) (i n : Nat) : List Byte :=
  let part := (bs.drop i).take n
  part ++ List.replicate (n - part.length) 0

/-- The number in `n` bytes at byte `i` of a list. -/
def leAt (bs : List Byte) (i n : Nat) : Nat := leNat (sliceBytes bs i n)

/-! Byte memory (assumption log 4): a list of cells with addresses strictly rising and no cell equal to what an
unlisted address reads as. -/

/-- A byte memory. -/
abbrev Mem := List Host.Cell

/-- What an address that is not listed reads as: the specification gives no power-on contents. DESIGN CHOICE. -/
def memDefault : Byte := 0

/-- The byte at an address. -/
def memRead : Mem → Nat → Byte
  | [], _ => memDefault
  | (j, b) :: m, a => if a = j then b else if a < j then memDefault else memRead m a

/-- Put a cell before memory `m` unless it holds the default. -/
def memCons (a : Nat) (b : Byte) (m : Mem) : Mem := if b = memDefault then m else (a, b) :: m

/-- Write one byte. -/
def memWrite : Mem → Nat → Byte → Mem
  | [], a, b => memCons a b []
  | (j, c) :: m, a, b =>
    if a < j then memCons a b ((j, c) :: m)
    else if a = j then memCons a b m
    else (j, c) :: memWrite m a b

/-- Write a list of bytes from an address upward. -/
def memWriteBytes : Mem → Nat → List Byte → Mem
  | m, _, [] => m
  | m, a, b :: bs => memWriteBytes (memWrite m a b) (a + 1) bs

/-- `n` bytes from an address upward. -/
def memReadBytes (m : Mem) (a : Nat) : Nat → List Byte
  | 0 => []
  | n + 1 => memRead m a :: memReadBytes m (a + 1) n

/-- The number in `n` bytes at an address, least significant first. -/
def memReadNat (m : Mem) (a n : Nat) : Nat := leNat (memReadBytes m a n)

/-- Write a number into `n` bytes at an address. -/
def memWriteNat (m : Mem) (a n v : Nat) : Mem := memWriteBytes m a (leBytes n v)

/-- Every address of `m` is above `a`. -/
def memAbove (a : Nat) : Mem → Bool
  | [] => true
  | (j, _) :: _ => decide (a < j)

/-- The canonical form of a byte memory. -/
def memWf : Mem → Bool
  | [] => true
  | (j, b) :: m => decide (b ≠ memDefault) && memAbove j m && memWf m

/-- Drop every cell of the address range [lo, hi). -/
def memClear (lo hi : Nat) (m : Mem) : Mem := m.filter (fun c => decide (c.1 < lo) || decide (hi ≤ c.1))

/-- A memory put together again from a list of cells. -/
def memOfCells (m : List Host.Cell) : Mem := m.foldl (fun n c => memWrite n c.1 c.2) []

/-! CRCs. -/

/-- One step of a CRC shift register of `width` bits, most significant bit first. -/
def crcBit (width poly : Nat) (reg : Nat) (b : Bool) : Nat :=
  let top := decide (reg / 2 ^ (width - 1) % 2 = 1)
  let sh := reg * 2 % 2 ^ width
  if top != b then Nat.xor sh poly else sh

/-- The CRC register after the bits `n-1 … 0` of `w`, most significant bit first. -/
def crcBits (width poly : Nat) (w : Nat) : Nat → Nat → Nat
  | 0, reg => reg
  | n + 1, reg => crcBits width poly w n (crcBit width poly reg (decide (w / 2 ^ n % 2 = 1)))

end Sys2Proof.Machine
end

