-- ==== Sys2Proof/Machine/TileState.lean ====
section
/-! DEFINITION. The state of a tile and its router (chapters 2 to 8, 11 and 12), as plain data. "Reset: image" in the
specification's tables means that the value comes from the loaded image; before any load the model holds 0 there
(assumption log 3). -/

namespace Sys2Proof.Machine

/-- Token sideband (R190, Table 8-1): 18 bits V, P, L, S, E[1:0], F[11:0]. -/
structure Sideband where
  v : Bool := false
  p : Bool := false
  l : Bool := false
  s : Bool := false
  e : BitVec 2 := 0
  f : BitVec 12 := 0
  deriving DecidableEq, Repr, Inhabited

/-- A token: 32-byte payload plus sideband. -/
structure Token where
  data : Payload := 0
  sb : Sideband := {}
  deriving DecidableEq, Repr, Inhabited

/-- A router flit (Table 2-10). `shut` says that the 14 destination bits are a shuttle endpoint index (R218); otherwise
they are logical column (5), logical row (5) and input virtual queue (4). -/
structure Flit where
  tok : Token
  shut : Bool
  dest : BitVec 14
  crc : BitVec 8
  deriving DecidableEq, Repr, Inhabited

/-- Queue kinds (R192, Table 8-2). -/
inductive QKind where
  | code | side | header | weight
  deriving DecidableEq, Repr, Inhabited

/-- Input virtual queue: descriptor (Table 2-5), kind (R192), consumer ledger counters (R231, Table 9-10), and what a
band or a step in flight holds (R32, R102). -/
structure InQueue where
  base : Nat := 0
  size : Nat := 0
  grain : Nat := 0
  window : Nat := 0
  src : Nat := 0
  /-- Tokens present (11 bits, reset 0). -/
  occ : Nat := 0
  /-- Token offset of the oldest token (10 bits, reset 0). -/
  head : Nat := 0
  kind : QKind := .code
  /-- Queue identity in the image (R297). -/
  qid : Nat := 0
  /-- Declared initial tokens (R196, R233). -/
  init : Nat := 0
  /-- An epoch mark has been received (R309). -/
  mark : Bool := false
  /-- The new epoch that the last mark carried (R309). -/
  markEpoch : BitVec 2 := 0
  /-- Tokens held back by an open tile-band (R102). -/
  held : Nat := 0
  /-- Tokens reserved by steps in flight (R32). -/
  reserved : Nat := 0
  /-- The frame's scale token on this queue failed its check (R89). -/
  scaleBad : Bool := false
  received : U32 := 0
  consumed : U32 := 0
  discc : U32 := 0
  returned : U32 := 0
  deriving DecidableEq, Repr, Inhabited

/-- Output virtual queue: descriptor (Table 2-6), producer ledger counters (R231), and credit messages that have
arrived on the return path and wait to be taken (R43, R200). -/
structure OutQueue where
  shut : Bool := false
  /-- Bits [62:49]: DCOL, DROW, DIQ, or a shuttle endpoint index. -/
  dest : BitVec 14 := 0
  grain : Nat := 0
  credmax : Nat := 0
  cred : Nat := 0
  kind : QKind := .code
  qid : Nat := 0
  init : Nat := 0
  produced : U32 := 0
  reserved : Nat := 0
  accepted : U32 := 0
  discp : U32 := 0
  creditIn : List Nat := []
  deriving DecidableEq, Repr, Inhabited

/-- Expansion table XTn: descriptor (Table 3-3) and its 256 KF9 entries (Table 3-4). -/
structure XTable where
  valid : Bool := false
  xoff : Int := 0
  w8 : Bool := false
  entries : Tab Nat := []
  deriving DecidableEq, Repr, Inhabited

/-- Counter Kn (Table 2-3), with the value it is loaded with (R195). -/
structure Counter where
  linken : Bool := false
  link : Nat := 0
  limit : Nat := 0
  value : Nat := 0
  load : Nat := 0
  deriving DecidableEq, Repr, Inhabited

/-- Context states (Table 2-7). -/
inductive CtxState where
  | idle | ready | wait | hurdle | halt
  deriving DecidableEq, Repr, Inhabited

/-- A thread context (chapter 2, Thread contexts) with its frame registers (R114), statistic register (R85), re-run state
(R103), band mark (R135) and workspace poison bit (R122). -/
structure Context where
  state : CtxState := .idle
  entry : Nat := 0
  ptr : Nat := 0
  f : BitVec 12 := 0
  e : BitVec 2 := 0
  stream : Nat := 0
  outTid : Nat := 0
  stat : Nat := 0
  any : Bool := false
  satcnt : Nat := 0
  runs : Nat := 0
  wide : Bool := false
  wp : Bool := false
  /-- Outputs of this frame carry P = 1 (R89, R132). -/
  frameP : Bool := false
  /-- The scale-token fault was raised for this frame (R83). -/
  factorFault : Bool := false
  bandOpen : Bool := false
  bandPtr : Nat := 0
  bandK : List Nat := []
  hmask : Nat := 0
  /-- First word of the band hold region, its capacity in tokens (image, R102) and the tokens it holds. -/
  holdBase : Nat := 0
  holdCap : Nat := 0
  holdCount : Nat := 0
  holdOq : Nat := 0
  /-- The queue manager has not yet acknowledged the re-run post (R104). -/
  ackWait : Bool := false
  hid : Nat := 0
  scope : Scope := .pipeline
  /-- Credit timer count at which the head step began to wait (R426). -/
  waitFrom : Nat := 0
  /-- The context has been drained for the changeover in progress (R311). -/
  drained : Bool := false
  /-- HALT stopped the context, and RESUME lets it go on (R320). -/
  halted : Bool := false
  deriving DecidableEq, Repr, Inhabited

/-- Adaptation register of an A-tile (Table 11-3). -/
structure AdaptReg where
  aen : Bool := false
  apl : Bool := false
  actx : Nat := 0
  hctx : Nat := 0
  adq : Nat := 0
  npair : Nat := 0
  pa0 : Nat := 0
  pb0 : Nat := 0
  pa1 : Nat := 0
  pb1 : Nat := 0
  pa2 : Nat := 0
  pb2 : Nat := 0
  shid : Nat := 0
  hold : Bool := false
  deriving DecidableEq, Repr, Inhabited

/-- Swap register of an A-tile (Table 11-4). -/
structure SwapReg where
  bmx : U32 := 0
  fpc : U32 := 0
  g : U32 := 0
  deriving DecidableEq, Repr, Inhabited

/-- A step that has issued and not completed (R32). -/
structure InFlight where
  ctx : Nat := 0
  unit : ExecUnit := .none
  /-- FCLK count at which it issued, and from which the array counts as free of it (R36, R116). -/
  start : Nat := 0
  freeAt : Nat := 0
  iqa : Nat := 0
  na : Nat := 0
  iqb : Nat := 0
  nb : Nat := 0
  siq : Nat := 0
  ns : Nat := 0
  oq : Nat := 0
  no : Nat := 0
  /-- Tokens it has sent or put into the band hold. -/
  sent : Nat := 0
  banksW : List Nat := []
  banksR : List Nat := []
  /-- It is charged to the adaptation budget (R283). -/
  budget : Bool := false
  cycles : Nat := 0
  /-- Saturated elements to add to a berth counter when it completes (R98): 0 none, else the counter's subindex. -/
  satSub : Nat := 0
  satN : Nat := 0
  /-- It has already raised the sequencer watchdog fault (R36). -/
  watched : Bool := false
  /-- It issued inside an open tile-band (R102). -/
  band : Bool := false
  /-- A HURDLE step: it completes when its hurdle does (R140). -/
  hurdle : Bool := false
  deriving DecidableEq, Repr, Inhabited

/-- A configuration plane of a tile (R300). -/
structure Plane where
  /-- Every word of the plane has been written (R302). -/
  loaded : Bool := false
  epoch : BitVec 2 := 0
  /-- Release stages taken (R305): 0 to 3. -/
  released : Nat := 0
  /-- Epochs still live for arriving flits (R308). -/
  live : Bool := false
  /-- Cut by a forced changeover or repair; the next release resets it (R314). -/
  cut : Bool := false
  steps : Tab (BitVec 128) := []
  g : Tab U32 := []
  k : Tab Counter := []
  iq : Tab InQueue := []
  oq : Tab OutQueue := []
  xt : Tab XTable := []
  /-- LT0 at keys 0 to 255, LT1 at keys 256 to 511. -/
  lt : Tab Nat := []
  /-- Hurdle membership by HID, one bit per context (R212). -/
  hurdles : Tab Nat := []
  adapt : AdaptReg := {}
  swap : SwapReg := {}
  /-- Sideband store (R191): key 1024 · queue + ring slot. -/
  side : Tab Sideband := []
  /-- Entries of the sideband store whose parity bit is wrong (R191). -/
  sideBad : Tab Bool := []
  ctx : Tab Context := []
  /-- By the first word of a scale state table: stream and F of the frame whose scale token SEMIT has sent and whose statistic
  STAT has not yet applied (R95). -/
  statOpen : Tab (Nat × Nat) := []
  deriving DecidableEq, Repr, Inhabited

/-- An accumulator or gradient bank: 256 A48 lanes, residues modulo 3 (R24), poison bit (R73), row-sum file (R120),
transposed-sum file (R276), and whether GPOOL met a valid token (R128). -/
structure Bank where
  acc : Tab (BitVec 48) := []
  res : Tab Nat := []
  poison : Bool := false
  rs : Tab U32 := []
  ts : Tab U32 := []
  anyTok : Bool := false
  deriving DecidableEq, Repr, Inhabited

/-- One output port of a router: flits waiting, those sent since the last good check (retry buffer, R46), consecutive
failures and whether outputs are enabled (R305). -/
structure RouterPort where
  queue : List Flit := []
  fails : Nat := 0
  faulted : Bool := false
  deriving DecidableEq, Repr, Inhabited

/-- ECC state of a granule that holds an error (R40, R41). -/
inductive Ecc where
  | single | double
  deriving DecidableEq, Repr, Inhabited

/-- A physical tile (Table 2-1). -/
structure Tile where
  planes : Tab Plane := []
  /-- Slot whose plane is active (R300). -/
  run : Nat := 0
  /-- Block memory, byte addresses 0 to 0x5_FFFF, in canonical form. -/
  mem : List Host.Cell := []
  /-- Granules (byte address / 8) that hold an error. -/
  ecc : Tab Ecc := []
  /-- Aspect modes of BM0 to BM11 (Table 2-8). -/
  bmMode : Tab Nat := []
  /-- AB0 to AB7 at keys 0 to 7, GB0 and GB1 at keys 8 and 9. -/
  banks : Tab Bank := []
  /-- csdelta (R280), one 32-bit sum per output channel. -/
  csdelta : Tab U32 := []
  inflight : List InFlight := []
  /-- Context that issued last (R37). -/
  lastCtx : Nat := 3
  /-- Correctable errors (R41). -/
  correctable : U32 := 0
  /-- Flit retries counted (R46). -/
  retries : U32 := 0
  /-- Stall cause counters in the order of Table 10-9. -/
  stall : Tab U32 := []
  /-- The counters as firmware read them last (R263). -/
  stallSeen : Tab U32 := []
  /-- Arrival bits of hurdles, key 256 · scope + HID, one bit per context (R212). -/
  arrival : Tab Nat := []
  /-- Core held in reset (R49). -/
  coreReset : Bool := true
  /-- Router in relay mode (R49). -/
  relay : Bool := false
  /-- Sending ports of the router: 0 north, 1 east, 2 south, 3 west, 4 the core's own, 5 the relay lane, 6 the station's port into
  row 0. -/
  ports : Tab RouterPort := []
  /-- Input that each output served last (R45), in the order of `Port`; output 4 is the core or the lane. -/
  served : Tab Nat := []
  outEnabled : Bool := false
  /-- Adaptation budget (R283). -/
  bud : Int := 0
  /-- Block memories in retention (R51, R451). -/
  retention : Bool := false
  /-- Whether a step issued since the last tick (R262). -/
  issued : Bool := false
  /-- Granules that port A and port B wrote in the present FCLK (R42). -/
  portA : List Nat := []
  portB : List Nat := []
  deriving DecidableEq, Repr, Inhabited

end Sys2Proof.Machine
end

