-- ==== Sys2Proof/Machine/FabricState.lean ====
section
/-! DEFINITION. The state of the shuttle, of the memory-side units and of a berth's HBM (chapters 9 and 10), and of the
hurdle tree (chapter 8), as plain data. -/

namespace Sys2Proof.Machine

/-- A shuttle flit (R222, Table 9-4): 336 bits. -/
structure ShFlit where
  data : Payload := 0
  sb : Sideband := {}
  dest : BitVec 14 := 0
  src : BitVec 14 := 0
  stamp : BitVec 16 := 0
  typ : BitVec 2 := 0
  crc : BitVec 16 := 0
  deriving DecidableEq, Repr, Inhabited

/-- A flit at the sending end of a link direction, with the link (key plus 1, 0 for none) and class whose receive buffer
it still occupies (R221). -/
structure Waiting where
  flit : ShFlit := {}
  via : Nat := 0
  cls : Nat := 0
  deriving DecidableEq, Repr, Inhabited

/-- A flow table entry (Table 9-6). -/
structure FlowEntry where
  valid : Bool := false
  tag : Nat := 0
  base : Nat := 0
  count : Nat := 0
  deriving DecidableEq, Repr, Inhabited

/-- A link direction (R222 to R229): lap counter, timetable and flow table, the flits at its sending end by flow tag, by
light and background class, those on the wire and those to resend, each with the class whose place it holds, and the receive
buffer slots in use. A class is 64 · berth + tag for the flows of a shared link, the tag on a link of one berth, 256 for light and 257
for background flits. -/
structure Link where
  lap : BitVec 8 := 0
  tt : Tab Nat := []
  flows : Tab FlowEntry := []
  /-- Timetable and flow table that wait for a lap start (R227), with the berth that owns the change. -/
  nextTt : List (Nat × Tab Nat × Tab FlowEntry) := []
  queues : Tab (List Waiting) := []
  light : List Waiting := []
  bg : List Waiting := []
  wire : List (ShFlit × Nat) := []
  retry : List (ShFlit × Nat) := []
  /-- Receive buffer slots in use, by class (R221). -/
  used : Tab Nat := []
  fails : Nat := 0
  /-- Retries counted (R46, R222). -/
  retries : U32 := 0
  /-- Class last lent to (R224). -/
  lent : Nat := 0
  /-- Gangway lane: quiesced for a switch to the spare (R229). -/
  quiesced : Bool := false
  faulted : Bool := false
  deriving DecidableEq, Repr, Inhabited

/-- Link endpoint descriptor (Table 8-6), with the queue end that it is toward its own tile (R233), the tokens that a
sender holds, and the state of the FREED updates (R210). -/
structure LinkEnd where
  filled : U32 := 0
  freed : U32 := 0
  cap : Nat := 0
  grain : Nat := 0
  kind : Nat := 0
  receiver : Bool := false
  peer : BitVec 14 := 0
  seqerr : Nat := 0
  /-- Sender: tokens that have arrived from the tile. -/
  buf : List Token := []
  /-- Receiver: tokens that the endpoint has taken and tokens that are in the ring, of the units that FILLED does not count yet, and
  tokens of a unit that is not written (R210, R211). -/
  taken : Nat := 0
  ringed : Nat := 0
  dropped : Nat := 0
  /-- Receiver: the FREED value last sent, and the FCLK count of the first change since. -/
  sentFreed : U32 := 0
  freedAt : Nat := 0
  /-- Receiver: tokens popped that do not yet make a whole unit. -/
  popRest : Nat := 0
  /-- An epoch mark waits at the sender behind the buffered tokens (R309). -/
  mark : Option (BitVec 2) := none
  /-- Sender: FREED values that have arrived, and those ignored (R210). -/
  freedIn : List U32 := []
  ignored : Nat := 0
  deriving DecidableEq, Repr, Inhabited

/-- One end of a credit loop kept by a memory-side unit or a link endpoint (R231): buffer, credits and ledger counters. -/
structure UEnd where
  valid : Bool := false
  qid : Nat := 0
  kind : QKind := .code
  grain : Nat := 0
  init : Nat := 0
  credmax : Nat := 0
  cred : Nat := 0
  tokens : List Token := []
  /-- Tokens at the front that a write transfer has taken and that have not left for the controller (R250). -/
  claimed : Nat := 0
  produced : U32 := 0
  reserved : Nat := 0
  accepted : U32 := 0
  discp : U32 := 0
  received : U32 := 0
  consumed : U32 := 0
  discc : U32 := 0
  returned : U32 := 0
  mark : Bool := false
  markEpoch : BitVec 2 := 0
  /-- Credit timer count at which the end began to wait for credits alone (R426). -/
  waitFrom : Nat := 0
  waiting : Bool := false
  deriving DecidableEq, Repr, Inhabited

/-- A station port: route word (Table 9-3), link endpoint, ledger end, and credits that wait to be forwarded (R219). -/
structure StationPort where
  valid : Bool := false
  link : Bool := false
  inbound : Bool := false
  dcol : Nat := 0
  drow : Nat := 0
  diq : Nat := 0
  peer : BitVec 14 := 0
  fin : LinkEnd := {}
  uend : UEnd := {}
  credits : Nat := 0
  /-- Slot whose image owns the port. -/
  slot : Nat := 0
  deriving DecidableEq, Repr, Inhabited

/-- Engine queue descriptor (Table 10-5). -/
structure EngineQueue where
  valid : Bool := false
  outbound : Bool := false
  peer : BitVec 14 := 0
  grain : Nat := 0
  credmax : Nat := 0
  rate : Nat := 0
  kind : QKind := .code
  deriving DecidableEq, Repr, Inhabited

/-- A program thread of a stride engine (R246). -/
structure Thread where
  used : Bool := false
  running : Bool := false
  entry : Nat := 0
  pc : Nat := 0
  a : Tab U32 := []
  l : Tab U32 := []
  lstart : Tab Nat := []
  sc : U32 := 0
  frF : BitVec 12 := 0
  frE : BitVec 2 := 0
  /-- Spill region that the image names: threads of one engine may share it (R246). -/
  region : Nat := 0
  base : Nat := 0
  /-- Region size in tokens. -/
  size : Nat := 0
  deriving DecidableEq, Repr, Inhabited

/-- A transfer outstanding (R251). -/
structure Transfer where
  engine : Nat := 0
  thread : Nat := 0
  eq : Nat := 0
  write : Bool := false
  /-- First token of HBM, in tokens. -/
  addr : Nat := 0
  len : Nat := 0
  lctl : Nat := 0
  tokens : List Token := []
  /-- A read that no later instruction of its thread has overtaken in setting FR (R249). -/
  fr : Bool := true
  admitted : Bool := false
  /-- A write that HBM has performed and not yet acknowledged. -/
  done : Bool := false
  deriving DecidableEq, Repr, Inhabited

/-- A stride engine (R246). -/
structure Engine where
  prog : Tab (BitVec 64) := []
  threads : Tab Thread := []
  sems : Tab Nat := []
  semLoad : Tab Nat := []
  eqs : Tab EngineQueue := []
  /-- Thread that issued last (R250). -/
  lastThread : Nat := 3
  deriving DecidableEq, Repr, Inhabited

/-- HBM error state of a token: payload and sideband code, 0 good, 1 single, 2 uncorrectable (R241). -/
structure HbmErr where
  payload : Nat := 0
  side : Nat := 0
  deriving DecidableEq, Repr, Inhabited

/-- A request that the pacer has admitted, or a light request that waits. -/
inductive Access where
  | transfer (engine : Nat) (index : Nat)
  | light (r : LightReq)
  deriving DecidableEq, Repr, Inhabited

/-- A berth's HBM with its pacer and light agent (R240 to R257). -/
structure Hbm where
  mem : List Host.Cell := []
  side : Tab Sideband := []
  err : Tab HbmErr := []
  transfers : List Transfer := []
  admission : List Access := []
  lightQ : List LightReq := []
  /-- Grants since the last light grant (R255), saturating at 15. -/
  sinceLight : Nat := 15
  /-- Answers of the light agent not yet taken: requester and data. -/
  lightOut : List (Nat × List Byte) := []
  /-- Pool granules of 64 KiB in use (R243), by first granule: count and owner (0x10000·kind + number). -/
  pool : Tab (Nat × Nat) := []
  selfRefresh : Bool := false
  deriving DecidableEq, Repr, Inhabited

/-- A hurdle's declaration in a berth's running image and its arrival state (R212, R215). Tile arrival bits are in the
tiles. -/
structure Hurdle where
  withPurser : Bool := false
  /-- Firmware work tied to the purser's arrival (0 none, 1 update, 2 swap). -/
  tied : Nat := 0
  purserArrived : Bool := false
  started : Bool := false
  since : Nat := 0
  deriving DecidableEq, Repr, Inhabited

end Sys2Proof.Machine
end

