-- ==== Sys2Proof/Machine/BerthState.lean ====
section
/-! DEFINITION. The state of images and slots (chapter 12), of adaptation (chapter 11), of the frame feeder, frame store
and streams (chapters 10 and 14), of the hardware and event queues (chapter 15) and of the Folsa ports (chapter 13),
as plain data. -/

namespace Sys2Proof.Machine

/-! Rings (chapter 15) -/

/-- A pending gap marker (R370, Table 15-4). -/
structure Gap where
  cause : Nat := 0
  count : Nat := 0
  firstSeq : U32 := 0
  lastSeq : U32 := 0
  firstKey : U64 := 0
  lastKey : U64 := 0
  deriving DecidableEq, Repr, Inhabited

/-- A ring of entries (R366): hardware queue, packet queue or frame-level input queue. The pointers stand in two copies
(R373). `slots` holds the flag byte and the bytes of entry e at key e mod ENTRIES. -/
structure Ring where
  enabled : Bool := false
  pi : U32 := 0
  ci : U32 := 0
  piCopy : U32 := 0
  ciCopy : U32 := 0
  fepoch : Byte := 0
  iseq : U32 := 0
  items : Nat := 0
  dropped : Nat := 0
  flushed : Nat := 0
  resets : U32 := 0
  badDoorbells : Nat := 0
  gapsSeen : Nat := 0
  /-- Published and consumed entries (R374), modulo 2^32. -/
  pube : U32 := 0
  conse : U32 := 0
  /-- Entries and entry size of a ring that has no queue record (R349, R352). -/
  entries : Nat := 0
  entryBytes : Nat := 0
  gaps : List Gap := []
  arm : Bool := false
  slots : Tab (Nat × List Byte) := []
  deriving DecidableEq, Repr, Inhabited

/-- Host event queue or purser event queue (R384): pointers, ARM, the records, and the event that the queue record of
object 0x8180 + h configures. -/
structure EventQueue where
  pi : U32 := 0
  ci : U32 := 0
  arm : Bool := false
  slots : Tab (BitVec 128) := []
  deriving DecidableEq, Repr, Inhabited

/-- A pending event record of a source (R383). -/
structure PendingEvent where
  time : Nat := 0
  info : U32 := 0
  count : Nat := 0
  target : Nat := 0
  deriving DecidableEq, Repr, Inhabited

/-! Streams (chapter 14) -/

/-- A picture in a stream's picture pool (R352): samples of the luma (or RGB) plane, then Cb, then Cr. -/
structure Picture where
  w : Nat := 0
  h : Nat := 0
  tenBit : Bool := false
  /-- RGB24 (R358). -/
  rgb : Bool := false
  y : List Nat := []
  cb : List Nat := []
  cr : List Nat := []
  cap : Nat := 0
  rtpts : U32 := 0
  concealed : Bool := false
  /-- Matrix and range that the bitstream's VUI signals: 0 absent. -/
  vuiMatrix : Nat := 0
  vuiRange : Nat := 0
  /-- Access unit that it was decoded from, counted since enable. -/
  unit : Nat := 0
  deriving DecidableEq, Repr, Inhabited

/-- What a decode slice makes of one access unit (R350 to R354): the decoder's next internal state, the pictures that
leave it in output order, whether it yielded a picture, concealed, met a bitstream error, and whether the bitstream
breaks Table 14-3 or the record. -/
structure DecodeOut where
  state : Nat := 0
  pictures : List Picture := []
  yielded : Bool := false
  concealed : Bool := false
  errors : Nat := 0
  mismatch : Bool := false
  /-- Pictures that the decoder holds for reference or output. -/
  held : Nat := 0
  deriving DecidableEq, Repr, Inhabited

/-- An access unit in assembly or in decode (R348, Table 14-2). -/
structure AccessUnit where
  arrival : Nat := 0
  rtpts : U32 := 0
  seqFirst : BitVec 16 := 0
  seqLast : BitVec 16 := 0
  rap : Bool := false
  partly : Bool := false
  marker : Bool := false
  ssrcNew : Bool := false
  nonRef : Bool := true
  nals : List (List Byte) := []
  cap : Nat := 0
  /-- Number of the access unit since enable. -/
  no : Nat := 0
  deriving DecidableEq, Repr, Inhabited

/-- A frame-store entry (R258 to R260). -/
structure FsEntry where
  addr : Nat := 0
  size : Nat := 0
  /-- FCOUNT of stripe 0. -/
  fcount : U32 := 0
  stripes : Nat := 1
  cap : Nat := 0
  rtpts : U32 := 0
  first : Bool := false
  concealed : Bool := false
  width : Nat := 0
  height : Nat := 0
  /-- Stripes fed in the present pass, and stripes whose frame record is written (R165). -/
  fed : Nat := 0
  recorded : Nat := 0
  /-- Bound to the berth's scan area (R316). -/
  held : Bool := false
  /-- Waits to be fed again (R315, R430). -/
  replay : Bool := false
  /-- Replayed pass whose last record has not been written (R430). -/
  replaying : Bool := false
  /-- Epoch of the present pass (R308). -/
  epoch : BitVec 2 := 0
  deriving DecidableEq, Repr, Inhabited

/-- The running state of a stream. -/
structure Stream where
  active : Bool := false
  /-- Berth that the stream was enabled on, while it holds buffers there. -/
  home : Option Nat := none
  /-- Learned SSRC (R346). -/
  ssrc : Option U32 := none
  ssrcNew : Bool := false
  /-- Reorder window (R347): packets held with their arrival times, in sequence order; next sequence number to release. -/
  window : List (Nat × Rtp) := []
  nextSeq : Option (BitVec 16) := none
  lost : Bool := false
  /-- Access unit in assembly, and the NAL unit of an FU sequence in progress (R348). -/
  au : Option AccessUnit := none
  fu : Option (List Byte) := none
  pktq : Ring := {}
  /-- Complete access units in the packet queue, oldest first. -/
  aus : List AccessUnit := []
  /-- Slice that decodes the stream's access unit, plus 1, and its berth; 0 none. -/
  slice : Nat := 0
  sliceBerth : Nat := 0
  /-- The stream has been disabled since that access unit went into decode: it is discarded when it is done (R362). -/
  stale : Bool := false
  inDecode : Option AccessUnit := none
  decodeFrom : Nat := 0
  /-- Access units numbered so far, and (number, capture time, RTP timestamp) of those whose pictures have not all left the
  decoder. -/
  auCount : Nat := 0
  caps : List (Nat × Nat × U32) := []
  /-- A raw picture's descriptor whose copy is in progress, and its arrival (R358). -/
  raw : Option (BitVec 512 × Nat) := none
  decoder : Nat := 0
  /-- Pictures that the decoder holds. -/
  dpb : Nat := 0
  concealing : Bool := false
  inq : Ring := {}
  pics : List Picture := []
  /-- The anchor (R359): (dev, ts); and, by sequence number, that of the packets which waited in the reorder window when it was
  written. -/
  anchor : Nat × U32 := (0, 0)
  heldAnchors : List (BitVec 16 × Nat × U32) := []
  fcount : U32 := 0
  firstDone : Bool := false
  entries : List FsEntry := []
  /-- Address of the frame-store ring, bytes of an entry, and the ring index of the next entry (R259). -/
  fsBase : Nat := 0
  fsBytes : Nat := 0
  fsNext : Nat := 0
  /-- First granules of the pool that the stream holds; of them, that of its packet queue (byte address) and those of its picture
  buffers, with the bytes of a buffer (R349, R352). -/
  granules : List Nat := []
  pktBase : Nat := 0
  bufs : List Nat := []
  bufBytes : Nat := 0
  rate : Nat := 0
  deriving DecidableEq, Repr, Inhabited

/-! Images and slots (chapter 12) -/

/-- The frame feeder, crop gather unit and queue manager bindings of a UNIT section (Table 12-3). Queue ends are station
port keys (1280 berth + 64 column + port). -/
structure UnitBind where
  wd : Nat := 0
  hd : Nat := 0
  bgr : Bool := false
  /-- Input size of a stripe and halo (R164). -/
  wi : Nat := 0
  hi : Nat := 0
  halo : Nat := 0
  /-- Pixels per token (R146). -/
  pack : Nat := 1
  /-- The input tensor, and its quantisation record (R79). -/
  tid : Nat := 0
  record : BitVec 320 := 0
  headerEnd : Nat := 0
  codeEnd : Nat := 0
  sideEnd : Option Nat := none
  cropIn : Option Nat := none
  cropA : Nat := 0
  cropB : Nat := 0
  cropW : Nat := 0
  cropH : Nat := 0
  resHeader : Nat := 0
  resBody : Nat := 0
  resSlots : Nat := 0
  /-- Tap queues (R266): end, TID and T_s. -/
  taps : List (Nat × Nat × Nat) := []
  sampleEnd : Nat := 0
  targetEnd : Nat := 0
  deriving DecidableEq, Repr, Inhabited

/-- A gradient tensor of an adapted head (R273, R274): TID, S2, code bounds, present code, drain tiles, and the record
copies as (tile key, word address of the record). -/
structure GradTensor where
  tid : Nat := 0
  s2 : U32 := 0
  sfloor : Nat := 1
  sceil : Nat := 255
  code : Nat := 1
  drains : List Nat := []
  copies : List (Nat × Nat) := []
  deriving DecidableEq, Repr, Inhabited

/-- An adapted layer's share on one tile (R279): the tile, PR, S_a, XOFF, RSH, the gradient tensor it is driven by. -/
structure HeadLayer where
  tile : Nat := 0
  pr : Nat := 0
  sa : U32 := 0
  xoff : Int := 0
  rsh : Nat := 0
  grad : Nat := 0
  /-- Expansion table of the layer, and its code words, state records and sum words: block memory, first word, length (R272, R282). -/
  xt : Nat := 0
  codes : Nat × Nat × Nat := (0, 0, 0)
  states : Nat × Nat × Nat := (0, 0, 0)
  sums : Nat × Nat × Nat := (0, 0, 0)
  deriving DecidableEq, Repr, Inhabited

/-- A HEAD section (Table 12-3, R264). -/
structure HeadDecl where
  batch : Nat := 1
  dHold : Nat := 0
  tiles : List Nat := []
  entryTiles : List Nat := []
  /-- TID, T_s and element count of the tap, mode of the LOSS step. -/
  tapTid : Nat := 0
  tapTokens : Nat := 1
  lossMode : Nat := 0
  classes : Nat := 0
  updateHid : Nat := 0
  swapHid : Nat := 0
  zp : Nat := 0
  s2m : U32 := 0
  s2v : U32 := 0
  grads : List GradTensor := []
  layers : List HeadLayer := []
  /-- Defaults of LR, BETA1, BETA2, EPSV (Table 11-12). -/
  lr : U32 := 0
  beta1 : U32 := 0
  beta2 : U32 := 0
  epsv : U32 := 0
  deriving DecidableEq, Repr, Inhabited

/-- A scale state table of an image: tile key, first byte, tensor (R96, R133). Entry x is 8 bytes at base + 8x. -/
structure ScaleTable where
  tile : Nat := 0
  base : Nat := 0
  tid : Nat := 0
  deriving DecidableEq, Repr, Inhabited

/-- A block-memory region record of BMEM (Table 10-1): tile key, kind, block memory, first word, length in words, mode,
persistent. -/
structure Region where
  tile : Nat := 0
  kind : Nat := 0
  bm : Nat := 0
  first : Nat := 0
  len : Nat := 0
  mode : Nat := 0
  persistent : Bool := false
  deriving DecidableEq, Repr, Inhabited

/-- A rate record (Table 12-4). -/
structure RateRec where
  dq : Nat := 0
  init : Nat := 0
  kind : Nat := 0
  adapt : Bool := false
  pend : Nat := 0
  cend : Nat := 0
  qid : Nat := 0
  grain : Nat := 0
  deriving DecidableEq, Repr, Inhabited

/-- A credit record (Table 12-5). -/
structure CreditRec where
  qid : Nat := 0
  lq : Nat := 0
  tq : Nat := 0
  nomax : Nat := 0
  rtt : Nat := 0
  route : Nat := 0
  hs : Nat := 0
  hr : Nat := 0
  wc : Nat := 0
  deriving DecidableEq, Repr, Inhabited

/-- What the loader knows of a layer in frequency-domain form (R168, R170, R176): groups, input channels, channels of one group that
are 1 (depthwise), PW, XOFF of its weights, and for each output channel Σ|w| and |b| in units of 2^(XOFF − 10). -/
structure SpectralDecl where
  groups : Nat := 1
  cin : Nat := 1
  depthwise : Bool := false
  pw : Int := 0
  xoff : Int := 0
  sums : List (Nat × Nat) := []
  deriving DecidableEq, Repr, Inhabited

/-- Geometry of a windowed operator of a stage (R147), with the tensors that it reads and produces. -/
structure LayerDecl where
  h : Nat := 1
  w : Nat := 1
  kh : Nat := 1
  kw : Nat := 1
  sh : Nat := 1
  sw : Nat := 1
  dh : Nat := 1
  dw : Nat := 1
  pt : Nat := 0
  pb : Nat := 0
  pl : Nat := 0
  pr : Nat := 0
  groups : Nat := 1
  tidIn : Nat := 0
  tidOut : Nat := 0
  spectral : Option SpectralDecl := none
  deriving DecidableEq, Repr, Inhabited

/-- A stage of the STAGE section: positions in order, contexts as (tile key, context), lead tiles, declared unit cycles (array,
vector, mover) of each position (R159, R188), and its layers' geometry. -/
structure StageRec where
  positions : List Nat := []
  cycles : List (Nat × Nat × Nat) := []
  contexts : List (Nat × Nat) := []
  leads : List Nat := []
  layers : List LayerDecl := []
  deriving DecidableEq, Repr, Inhabited

/-- The tensors that a step reads (operands A and B) and produces, by TID. -/
structure TensorUse where
  tile : Nat := 0
  step : Nat := 0
  a : Option Nat := none
  b : Option Nat := none
  out : Option Nat := none
  deriving DecidableEq, Repr, Inhabited

/-- An accumulation (R65): stage, term count, the width of its columns, the weight tables that it uses as (tile key, table) with the
codes that occur, the largest |bias|, and the rotation of its output tensor (R107). -/
structure AccumDecl where
  stage : Nat := 0
  terms : Nat := 1
  wide : Bool := false
  i9 : Bool := false
  tables : List (Nat × Nat) := []
  codes : List Nat := []
  bmax : Nat := 0
  rot : Nat := 0
  deriving DecidableEq, Repr, Inhabited

/-- The sections of an image whose byte layout the specification does not give, as the loader understands them (assumption
log 7), with the first failure of the checks that need more of them than the model holds. -/
structure Image where
  stages : List StageRec := []
  /-- Plane content by tile key 32·column + row. -/
  planes : Tab Plane := []
  regions : List Region := []
  /-- Initial content: tile key, byte address, bytes. -/
  content : List (Nat × Nat × List Byte) := []
  scaleTables : List ScaleTable := []
  /-- Station ports by key, timetables by link key. -/
  ports : Tab StationPort := []
  tables : Tab (Tab Nat × Tab FlowEntry) := []
  engines : Tab Engine := []
  hurdles : Tab Hurdle := []
  bind : UnitBind := {}
  head : Option HeadDecl := none
  /-- Ends of memory-side units by station port key. -/
  ends : Tab UEnd := []
  /-- Folsa channels: port, channel, station port key; and the identity expected at the peer, by port. -/
  channels : List (Nat × Nat × Nat) := []
  peers : Tab (BitVec 128) := []
  /-- Berths that the linked pipeline occupies besides this one (R319). -/
  partners : List Nat := []
  /-- Tensors that steps use, channel counts by TID, accumulations. -/
  uses : List TensorUse := []
  channelsOf : Tab Nat := []
  accums : List AccumDecl := []
  /-- DETAIL of every word that holds a non-zero reserved field (R5), and of every engine that has one in a queue descriptor (R247). -/
  reserved : List Nat := []
  reservedEq : List Nat := []
  /-- A section that the loader cannot take apart: code and DETAIL. -/
  failure : Option (Nat × Nat) := none
  deriving DecidableEq, Repr, Inhabited

/-- A configuration slot (R302): bytes received of the image, and the parsed image of a checked one. -/
structure Slot where
  received : Nat := 0
  image : Option Image := none
  rates : List RateRec := []
  credits : List CreditRec := []
  granules : List Nat := []
  /-- Declared pacer sum of the slot's engine queues (R256). -/
  rateSum : Nat := 0
  imgid : BitVec 128 := 0
  deriving DecidableEq, Repr, Inhabited

/-- A changeover in progress (R308 to R319). -/
structure Changeover where
  active : Bool := false
  mode : Nat := 0
  target : Nat := 15
  epoch : BitVec 2 := 0
  since : Nat := 0
  stage : Nat := 0
  marksSent : Bool := false
  arriveHalted : Bool := false
  /-- Physical tiles that have switched (key 32·column + row), and engines. -/
  switched : List Nat := []
  enginesSwitched : List Nat := []
  /-- The crop gather unit has handed its mark on. -/
  cropSwitched : Bool := false
  firstPending : Bool := false
  /-- A restart or repair release, not a change of slot (R428). -/
  repair : Bool := false
  deriving DecidableEq, Repr, Inhabited

/-- The memory-side configuration of a slot with its running state: engines, unit ends and station ports (R304, R308). -/
structure UnitTables where
  slot : Option Nat := none
  ports : Tab StationPort := []
  ends : Tab UEnd := []
  engines : Tab Engine := []
  deriving DecidableEq, Repr, Inhabited

/-- A snapshot of the weight planes of a head tile (R284): tile key, block memory, bytes. -/
structure PlaneCopy where
  tile : Nat := 0
  bm : Nat := 0
  bytes : List Host.Cell := []
  deriving DecidableEq, Repr, Inhabited

/-- A committed epoch of the epoch ring (R287). -/
structure Epoch where
  /-- The slot whose head it belongs to. -/
  slot : Nat := 0
  number : Nat := 0
  imgid : BitVec 128 := 0
  copies : List PlaneCopy := []
  deriving DecidableEq, Repr, Inhabited

/-- Adaptation state of a berth (R269 to R291). -/
structure Adapt where
  /-- Accepted target items, oldest first, with the time of acceptance. -/
  accepted : List (Nat × List Byte) := []
  updateNo : Nat := 0
  lastStart : Nat := 0
  started : Bool := false
  /-- Items of the update in progress. -/
  n : Nat := 0
  bad : Bool := false
  paused : Bool := false
  updating : Bool := false
  snapshotTaken : Bool := false
  committing : Bool := false
  rollback : Option Nat := none
  ring : List Epoch := []
  pendingEpoch : Option Epoch := none
  gm : Nat := 0
  featureSeq : U32 := 0
  /-- Scale token of the frame and units taken so far, by tap end (R266). -/
  tapScale : Tab Payload := []
  tapIndex : Tab Nat := []
  gradSum : Nat := 0
  deriving DecidableEq, Repr, Inhabited

/-- The saved running state of a berth (R321), in structured form beside its 64-byte header. -/
structure ScanArea where
  allocated : Bool := false
  header : List Byte := []
  tiles : Tab Tile := []
  engines : Tab Engine := []
  transfers : List Transfer := []
  ends : Tab UEnd := []
  ports : Tab StationPort := []
  /-- Frame-store entries that the saved state refers to: stream and FCOUNT. -/
  frames : List (Nat × U32) := []
  /-- Bytes of the area as written by the host beyond the header; none where the device wrote it. -/
  hostWritten : Bool := false
  /-- A SCAN-IN has restored the berth since its release arrived halted (R316, R322). -/
  restored : Bool := false
  deriving DecidableEq, Repr, Inhabited

/-- A repair in progress on a berth (R427 to R431). -/
structure Repair where
  active : Bool := false
  /-- Column of the spare being loaded, when one is bound. -/
  spare : Option Nat := none
  restarting : Bool := false
  replaying : Bool := false
  catching : Bool := false
  /-- The first replayed frame has been fed (R430). -/
  fed : Bool := false
  since : Nat := 0
  /-- Restart epoch and port of the remote repair notice that it follows (R432). -/
  notice : Option (BitVec 2 × Nat) := none
  deriving DecidableEq, Repr, Inhabited

/-- A berth (R7, Table 1-2). Tiles are keyed by physical position 32·column + row, rows 0 to 20. -/
structure Berth where
  tiles : Tab Tile := []
  hbm : Hbm := {}
  engines : Tab Engine := []
  /-- Hurdles, key 256·scope + HID. -/
  hurdles : Tab Hurdle := []
  slots : Tab Slot := []
  co : Changeover := {}
  /-- Slot whose memory-side configuration the units have loaded. -/
  unitSlot : Option Nat := none
  /-- The configuration of the incoming epoch during an orderly changeover. -/
  incoming : Option UnitTables := none
  feederOpen : Bool := false
  adapt : Adapt := {}
  scan : ScanArea := {}
  holdFrames : Bool := false
  repair : Repair := {}
  /-- Scale state mirror (R97), key 1024·TID + stream plus slot·2^26. -/
  mirror : Tab Nat := []
  /-- Re-run posts that wait for the queue manager: tile key, context, stream, F (R104). -/
  reruns : List (Nat × Nat × Nat × Nat) := []
  rerunAcks : List (Nat × Nat) := []
  /-- Stream in its first frame, with that frame's F (R96). -/
  first : Tab Nat := []
  /-- FCLK counts since release of the clocks, and the remainder in quarter FCLK. -/
  fclk : Nat := 0
  fclkRem : Nat := 0
  /-- FCLK counts for which the credit timers have run: it stands still while they are suspended (R426). -/
  cto : Nat := 0
  /-- Array issue held until this FCLK count (R452). -/
  droopUntil : Nat := 0
  /-- Core and router clocks stopped (R447), and last activity for the automatic hold. -/
  clocksOff : Bool := false
  idleSince : Nat := 0
  /-- A HALT has stopped the contexts and waits for the berth to be quiet, and its device time (R320). -/
  haltDone : Bool := false
  haltTime : Nat := 0
  deriving DecidableEq, Repr, Inhabited

/-! Folsa ports (chapter 13) -/

/-- A Folsa frame in the retry buffer, which holds the last 256 that were sent (R330). -/
structure FolsaSent where
  seq : BitVec 16 := 0
  bytes : List Byte := []
  /-- Tokens of linked channels in it, each with the stamp of the unit that it starts. -/
  toks : List (Nat × Token × Option (BitVec 16)) := []
  acked : Bool := false
  deriving DecidableEq, Repr, Inhabited

/-- A channel of a Folsa port: the linked queue's station port, the units stamped last (R328), units received complete,
and its pairing group. -/
structure FolsaChannel where
  used : Bool := false
  port : Nat := 0
  /-- Tokens that wait to be sent, and whether each starts a unit with which stamp. -/
  queue : List (Token × Option (BitVec 16)) := []
  lastStamp : Nat := 0
  /-- Token index within the unit being sent, and within the unit being received. -/
  txIndex : Nat := 0
  rxIndex : Nat := 0
  /-- Units received, and whether the one being received is not written (R211, R328). -/
  rxUnits : U32 := 0
  rxDrop : Bool := false
  /-- Tokens of a resent unit that were received before the link went down, and the wait for the peer's SEM (R331). -/
  rxSkip : Nat := 0
  restore : Bool := false
  berth : Nat := 0
  slot : Nat := 0
  deriving DecidableEq, Repr, Inhabited

/-- A Folsa port (R324 to R341). -/
structure Folsa where
  channels : Tab FolsaChannel := []
  control : List (List Byte) := []
  seq : BitVec 16 := 0
  lastStampSeq : Nat := 0
  sent : List FolsaSent := []
  resend : List FolsaSent := []
  rxNext : BitVec 16 := 1
  rxFailing : Bool := false
  retryReq : Bool := false
  /-- Sequence whose resends fail and how often. -/
  failSeq : BitVec 16 := 0
  fails : Nat := 0
  lap : Nat := 0
  tt : Tab Nat := []
  flows : Tab FlowEntry := []
  firstPeer : Option U64 := none
  /-- Device time at which the port went DOWN, until it is UP again (R331). -/
  downSince : Option Nat := none
  /-- The frame that left last, and the channel that a slot was lent to last. -/
  line : List Byte := []
  lent : Nat := 0
  cable : Bool := false
  /-- Records received: HELLO, SEM and PAIR, oldest first. -/
  hello : List (List Byte) := []
  sems : List (List Byte) := []
  pairs : List (List Byte) := []
  /-- PAIR records of the peer since its last HELLO, by channel: identity of the claiming slot, and the one that it expects; and
  first records whose second one has not arrived. -/
  peerClaims : Tab (List (BitVec 128 × BitVec 128)) := []
  halfPairs : List (List Byte) := []
  /-- Restart epochs of remote repair notices that no repair has taken up yet, by berth (R432). -/
  notices : Tab (BitVec 2) := []
  deriving DecidableEq, Repr, Inhabited

end Sys2Proof.Machine
end

