-- ==== Sys2Proof/Machine/State.lean ====
section
/-! DEFINITION. The whole state of the module as plain data (chapters 9 to 19), its faults and refusals, and the state right
after reset. The object dictionary's values live in `Device.od`; what an object reads when nothing is listed for it is its
default (Machine/Od.lean). Values of pointers and counters that a ring keeps are read out of the ring. -/

namespace Sys2Proof.Machine

/-- Latched counters of one credit loop (R231 to R233): blame, QID and berth of the loop, then the counters. `linked` marks
the semaphore pair of a linked queue, whose FILLED and FREED stand in `sFilled` to `rFreed`. -/
structure LoopLatch where
  berth : Nat := 0
  qid : Nat := 0
  blame : U32 := 0
  init : Nat := 0
  credmax : Nat := 0
  cred : Nat := 0
  reserved : Nat := 0
  produced : U32 := 0
  accepted : U32 := 0
  discp : U32 := 0
  received : U32 := 0
  consumed : U32 := 0
  discc : U32 := 0
  returned : U32 := 0
  occ : Nat := 0
  linked : Bool := false
  cap : Nat := 0
  sFilled : U32 := 0
  sFreed : U32 := 0
  rFilled : U32 := 0
  rFreed : U32 := 0
  bothEnds : Bool := true
  deriving DecidableEq, Repr, Inhabited

/-- Latched counters of a ring (R374): kind 0 hardware queue, 1 packet queue, 2 frame-level input queue; its number; the
berth of a stream. -/
structure RingLatch where
  kind : Nat := 0
  number : Nat := 0
  berth : Nat := 0
  ring : Ring := {}
  entries : Nat := 0
  deriving DecidableEq, Repr, Inhabited

/-- The latched counters that a ledger imbalance is about (R234, R374). -/
inductive Counters where
  | loop (l : LoopLatch)
  | ring (r : RingLatch)
  deriving DecidableEq, Repr, Inhabited

/-- A detector's report (R416). `inj` says that an injection point forced it (R439). -/
structure Report where
  source : Nat := 0
  time : Nat := 0
  reporter : U32 := 0
  blame : U32 := 0
  info : U32 := 0
  inj : Bool := false
  counters : Option Counters := none
  deriving DecidableEq, Repr, Inhabited

/-- A fault record (Table 17-5). -/
structure FaultRec where
  seq : U32 := 0
  time : Nat := 0
  blame : U32 := 0
  reporter : U32 := 0
  info : U32 := 0
  count : Nat := 1
  rootseq : BitVec 16 := 0
  source : Nat := 0
  action : Nat := 0
  outcome : Nat := 0
  root : Bool := false
  esc : Bool := false
  inj : Bool := false
  react : Nat := 0
  /-- Device time at which the record was written (R424). -/
  written : Nat := 0
  /-- Device time at which its repair completed (R427); 0 none. -/
  repaired : Nat := 0
  /-- Latched counters of the loop of a ledger imbalance (R234). -/
  counters : Option Counters := none
  deriving DecidableEq, Repr, Inhabited

/-- A discard record (Table 17-11). -/
structure Discard where
  time : Nat := 0
  qid : Nat := 0
  berth : Nat := 0
  cause : Nat := 0
  f : Nat := 0
  qkind : Nat := 0
  count : Nat := 0
  deriving DecidableEq, Repr, Inhabited

/-- A ledger tick's latched values, until they are checked (R232 to R235). -/
structure Latch where
  time : Nat := 0
  loops : List LoopLatch := []
  rings : List RingLatch := []
  deriving DecidableEq, Repr, Inhabited

/-- The fault hub (chapter 17). -/
structure Hub where
  /-- Reports on their way to the hub, oldest first. -/
  reports : List Report := []
  stormOpen : Bool := false
  stormAt : Nat := 0
  /-- Records of the open storm, in order of their first reports. -/
  storm : List FaultRec := []
  /-- The log (R425), oldest first, at most 256 records. -/
  log : List FaultRec := []
  nextSeq : U32 := 0
  /-- Uncleared sources (R421), and level sources whose condition holds. -/
  uncleared : List Nat := []
  level : List Nat := []
  /-- The discard log (R235), oldest first, at most 4,096 records. -/
  discards : List Discard := []
  latch : Option Latch := none
  /-- Queues whose imbalance has been recorded: source and QID (R234). -/
  imbalanced : List (Nat × Nat) := []
  /-- Sources whose next report an injection point forced (R439). -/
  injected : List Nat := []
  /-- Root records whose repair waits for another in the same pipeline (R433): berth and SEQ. -/
  waiting : List (Nat × Nat) := []
  deriving DecidableEq, Repr, Inhabited

/-- A JOP session (R405 to R407). -/
structure Session where
  sid : U32 := 0
  tr : Transport := .mailbox
  slot : Nat := 0
  key : List Byte := []
  lastSeq : U32 := 0
  lastTag : List Byte := []
  lastResp : List Byte := []
  fails : Nat := 0
  usedAt : Nat := 0
  deriving DecidableEq, Repr, Inhabited

/-- A JOP request that P5 has accepted (R398, R399), with the session it runs in and its role. -/
structure JopReq where
  tr : Transport := .mailbox
  op : Nat := 0
  seq : U32 := 0
  sid : U32 := 0
  index : Nat := 0
  sub : Nat := 0
  tag : U32 := 0
  offset : Nat := 0
  auth : Bool := false
  payload : List Byte := []
  authTag : List Byte := []
  header : List Byte := []
  role : Nat := 2
  /-- Where a UDP reply goes. -/
  peer : U32 := 0
  pport : Nat := 0
  deriving DecidableEq, Repr, Inhabited

/-- A journal record that waits for the flash (R403): object key and value, and the answer that its commit releases. -/
structure JournalRec where
  key : Nat := 0
  value : Nat := 0
  reply : Option (JopReq × List Byte) := none
  deriving DecidableEq, Repr, Inhabited

/-- An open segmented transfer (R408). -/
structure SegTransfer where
  index : Nat := 0
  sub : Nat := 0
  sid : U32 := 0
  tr : Transport := .mailbox
  write : Bool := false
  total : Nat := 0
  moved : Nat := 0
  data : List Byte := []
  lastAt : Nat := 0
  deriving DecidableEq, Repr, Inhabited

/-- The PCIe mailbox (Tables 16-3, 16-5). -/
structure Mailbox where
  req : List Host.Cell := []
  resp : List Host.Cell := []
  len : Nat := 0
  rlen : Nat := 0
  busy : Bool := false
  done : Bool := false
  irqen : Bool := false
  deriving DecidableEq, Repr, Inhabited

/-- A frame that an SFP56 port sends (R344). -/
inductive OutFrame where
  | arpReply (addr : U32)
  | neighbourAdvert (addr : BitVec 128)
  /-- IGMPv3 or MLDv2 report: group, INCLUDE source or none for EXCLUDE of an empty list. -/
  | report (group : BitVec 128) (src : Option (BitVec 128))
  | leave (group : BitVec 128)
  deriving DecidableEq, Repr, Inhabited

/-- An SFP56 cage with its port (R475). -/
structure SfpPort where
  present : Bool := false
  rate : Nat := 0
  txDisable : Bool := true
  /-- The inserted module cannot use the port's SPEED. -/
  unfit : Bool := false
  held : Bool := false
  link : Bool := false
  out : List OutFrame := []
  deriving DecidableEq, Repr, Inhabited

/-- The PCIe function (R392, R457, R458). -/
structure Pcie where
  up : Bool := false
  busMaster : Bool := false
  /-- Unmasked MSI-X vectors; a vector is masked after reset, as the PCIe standard has it (PRESUMED). -/
  unmasked : List Nat := []
  pending : List Nat := []
  /-- Vectors signalled, oldest first. -/
  signalled : List Nat := []
  /-- Address and data words of the MSI-X table (Table 16-3), by dword. -/
  table : Tab U32 := []
  deriving DecidableEq, Repr, Inhabited

/-- Firmware banks and boot (R391, R403). -/
structure Firmware where
  running : Bool := false
  active : Nat := 0
  bank0 : List Byte := []
  bank1 : List Byte := []
  inactiveValid : Bool := false
  marked : Bool := false
  tries : Nat := 0
  bootAt : Nat := 0
  selfTested : Bool := false
  /-- FWSTATE.STATE (Table 16-4). -/
  fwstate : Nat := 0
  /-- A WARM reset that object 0x8440:01 asked for is due once its response is sent (Table 18-8). -/
  warmDue : Bool := false
  deriving DecidableEq, Repr, Inhabited

/-- Discipline of device time (R445). -/
structure Pps where
  /-- The last accepted edge, in the present scale of device time, which a step or a write may have moved below 0. -/
  lastEdge : Option Int := none
  good : Nat := 0
  missed : Nat := 0
  /-- Counts still to add (positive) or skip (negative), and counts of the slew second elapsed. -/
  slew : Int := 0
  elapsed : Nat := 0
  deriving DecidableEq, Repr, Inhabited

/-- Power inputs, rails, pins and the limiter (chapters 18 and 19). -/
structure Power where
  aux : Bool := true
  slot12 : Bool := false
  control : Bool := false
  fabric : Bool := false
  cableMv : Nat := 0
  sense0 : Bool := false
  sense1 : Bool := false
  perstLow : Bool := true
  tripped : Bool := false
  testEn : Bool := false
  overTemp : Bool := false
  voltReq : Bool := false
  /-- 100 µs periods for which a berth's loop has needed more than 0.80 V, by berth (R452), and its correction in mV. -/
  above : Tab Nat := []
  corr : Tab Int := []
  /-- f_R in MHz, the f_R that the limiter asks for (R442, R453), and the f_R that MOOR entry saved (R449). -/
  fR : Nat := 2400
  want : Nat := 2400
  savedRate : Nat := 0
  /-- Board ID as sampled (R472). -/
  bid : Nat := 0
  /-- Berths that lost slot images and committed epochs at the last DOCK entry, reported at its exit (R462). -/
  lostSlots : Nat := 0
  lostEpochs : Nat := 0
  leavingMoor : Bool := false
  deriving DecidableEq, Repr, Inhabited

/-- The module. -/
structure Device where
  berths : Tab Berth := []
  /-- Link directions of the shuttle by link key, station ports and memory-side queue ends by station port key. -/
  links : Tab Link := []
  ports : Tab StationPort := []
  ends : Tab UEnd := []
  /-- Flits that stations hold for their tiles, by 20·berth + column (R218). -/
  toTile : Tab (List Flit) := []
  /-- The spare gangway lane is in use (R229), and the lane being switched: 32·(from die 1) + number. -/
  spareUsed : Bool := false
  laneSwitch : Option Nat := none
  streams : Tab Stream := []
  queues : Tab Ring := []
  evqs : Tab EventQueue := []
  purserEvq : Tab EventQueue := []
  /-- Pending event records: shared source n at n, source n of purser p at 1024 + 64 p + n, queue q at 65536 + q. -/
  pendingEv : Tab PendingEvent := []
  /-- Frame quality table (R380), key 4096·stream + F. -/
  quality : Tab Bool := []
  folsa : Tab Folsa := []
  hub : Hub := {}
  /-- Object dictionary values, key 256·index + subindex; their flash copies and the journal of RWP writes (R403). -/
  od : Tab Nat := []
  flash : Tab Nat := []
  journal : List JournalRec := []
  sessions : List Session := []
  transfers : List SegTransfer := []
  /-- Requests accepted, oldest first, and responses prepared, by transport: 0 mailbox, 1 UDP, 2 MCTP. -/
  requests : Tab (List JopReq) := []
  responses : Tab (JopReq × List Byte) := []
  mbx : Mailbox := {}
  udpOut : List (U32 × Nat × List Byte) := []
  arpOut : List U32 := []
  mgmtDiscards : U64 := 0
  mctpOut : List (List Byte) := []
  mctpControlOut : List (MctpCmd × Byte) := []
  mctpEid : Byte := 0
  sfp : Tab SfpPort := []
  pcie : Pcie := {}
  fw : Firmware := {}
  pps : Pps := {}
  power : Power := {}
  time : Nat := 0
  /-- Bytes of host memory that the device has written by DMA (R368). -/
  hostMem : List Host.Cell := []
  /-- Module hurdles' P4 arrival, key HID (R212). -/
  moduleHurdles : Tab Hurdle := []
  /-- Purser cores trapped by NMI (R420), and cores restarted. -/
  nmi : List Nat := []
  /-- 64-bit per-stage totals of the stall counters, by 2^20·berth + 8·stage + counter (R263). -/
  stallTotals : Tab U64 := []
  /-- Granules and HBM tokens scrubbed in the pass in progress. -/
  sramScrubbed : Nat := 0
  hbmScrubbed : Nat := 0
  /-- Injection points armed, with the injections left (R439). -/
  armed : Tab Nat := []
  /-- Counter of the free values drawn (nonces, session identities): the model's own field, DESIGN CHOICE. -/
  drawn : Nat := 0
  deriving DecidableEq, Repr, Inhabited

/-- The block's state: the device and the commands that wait, first in, first out. -/
structure State where
  dev : Device
  pending : List Instr
  deriving DecidableEq, Repr

/-- Outcomes that stop the model by fault. -/
inductive Fault where
  /-- An HBM access outside 0x0_0000_0000 to 0x2_FFFF_FFFF, which R240 gives no memory. Raised by LIGHT_REQUEST. Safe: the
  hardware has no such address. -/
  | hbmAddress
  deriving DecidableEq, Repr

/-- Outcomes that the model declines by name. -/
inductive Refusal where
  /-- The command has no meaning yet. Raised by Dispatch only. Safe. -/
  | notModelled (mnemonic : String)
  /-- The step word or stride instruction holds a value that its table marks reserved (such as CLR = 0b11 of Table 5-6 or
  LCTL = 0b11 of R248): the load check rejects such a word and no effect is stated. Raised by the tile steps, RD and PAD. Safe. -/
  | reservedField
  deriving DecidableEq, Repr

/-- The state right after the rise of 3.3VAUX (R478, Table 19-9 at t0): aux domain out of reset, every other rail off, FAULT_N
low, the LEDs amber, every object at its default, device time 0, no command waiting. -/
def State.reset : State := { dev := {}, pending := [] }

end Sys2Proof.Machine
end

