-- ==== Sys2Proof/Machine/Od.lean ====
section
/-! DEFINITION. The object dictionary (chapter 16): every object's type, access kind, persistence class, default and range
(Tables 12-13, 14-8, 14-9, 15-13, 15-14, 16-11 to 16-17, 17-10, 18-8, 19-20, 11-12, 13-5), and the store behind it. -/

namespace Sys2Proof.Machine

/-- A row of an object listing. Type codes are those of Table 16-9; access 0 RO, 1 RW, 2 WO, 3 RWP, 4 CMD and class 0 P, 1 M,
2 B, 3 V (R402). -/
structure OdRow where
  sub : Nat
  typ : Nat
  size : Nat
  acc : Nat
  cls : Nat
  dflt : Nat
  lo : Nat
  hi : Nat
  deriving DecidableEq, Repr, Inhabited

def odBool (sub acc cls d : Nat) : OdRow := ⟨sub, 1, 1, acc, cls, d, 0, 1⟩
def odU8 (sub acc cls d lo hi : Nat) : OdRow := ⟨sub, 2, 1, acc, cls, d, lo, hi⟩
def odU16 (sub acc cls d lo hi : Nat) : OdRow := ⟨sub, 3, 2, acc, cls, d, lo, hi⟩
def odU32 (sub acc cls d lo hi : Nat) : OdRow := ⟨sub, 4, 4, acc, cls, d, lo, hi⟩
def odU64 (sub acc cls d : Nat) : OdRow := ⟨sub, 5, 8, acc, cls, d, 0, top64⟩
def odI32 (sub acc cls d : Nat) : OdRow := ⟨sub, 6, 4, acc, cls, d, 0, top32⟩
def odF32 (sub acc cls d : Nat) : OdRow := ⟨sub, 7, 4, acc, cls, d, 0, top32⟩
def odStr (sub n acc cls d : Nat) : OdRow := ⟨sub, 8, n, acc, cls, d, 0, 256 ^ n - 1⟩
def odOct (sub n acc cls d : Nat) : OdRow := ⟨sub, 9, n, acc, cls, d, 0, 256 ^ n - 1⟩
def odDom (sub acc cls : Nat) : OdRow := ⟨sub, 12, 0, acc, cls, 0, 0, 0⟩
/-- Read-only counters. -/
def odRo8 (sub cls d : Nat) : OdRow := odU8 sub 0 cls d 0 255
def odRo16 (sub cls d : Nat) : OdRow := odU16 sub 0 cls d 0 65535
def odRo32 (sub cls d : Nat) : OdRow := odU32 sub 0 cls d 0 top32
def odRo64 (sub cls d : Nat) : OdRow := odU64 sub 0 cls d

/-- ASCII text as a value: first character in the lowest byte, zero-filled. -/
def odText (cs : List Char) : Nat := leNat (cs.map (fun c => BitVec.ofNat 8 c.toNat))

/-- The kinds of objects. -/
inductive OdKind where
  | identity | sizeTable | restored | restoredList | restoreDefaults | firmware | comm | key | time | port | exception
  | stream | slot | changeover | scanData | counters | spareMap | stallTotals | berthReset | queue | reaction | hub
  | repair | discardLog | discards | route | occur | overflow | eventQueue | power | berthPower | sensors | inputs
  | scrub | warmReset | hardware | adapt | adaptState | snapshot | folsa | moduleId | test | injection
  deriving DecidableEq, Repr

/-- The kind of the object at an index (Table 16-14); none where the firmware has no such object (R411). -/
def odKind (i : Nat) : Option OdKind :=
  if i = 0x1000 then some .identity
  else if i = 0x1001 then some .sizeTable
  else if i = 0x1010 then some .restored
  else if i = 0x1011 then some .restoredList
  else if i = 0x1012 then some .restoreDefaults
  else if i = 0x1020 then some .firmware
  else if i = 0x1100 then some .comm
  else if 0x1110 ≤ i ∧ i < 0x1114 then some .key
  else if i = 0x1200 then some .time
  else if 0x2000 ≤ i ∧ i < 0x2002 then some .port
  else if i = 0x2010 then some .exception
  else if 0x2400 ≤ i ∧ i < 0x2800 then some .stream
  else if 0x3000 ≤ i ∧ i < 0x3010 then some .slot
  else if 0x3010 ≤ i ∧ i < 0x3014 then some .changeover
  else if 0x3020 ≤ i ∧ i < 0x3024 then some .scanData
  else if 0x3100 ≤ i ∧ i < 0x3104 then some .counters
  else if 0x3110 ≤ i ∧ i < 0x3114 then some .spareMap
  else if 0x3120 ≤ i ∧ i < 0x3124 then some .stallTotals
  else if 0x3130 ≤ i ∧ i < 0x3134 then some .berthReset
  else if 0x4000 ≤ i ∧ i < 0x8000 then some .queue
  else if 0x8000 ≤ i ∧ i < 0x8004 then some .reaction
  else if i = 0x8010 then some .hub
  else if 0x8020 ≤ i ∧ i < 0x8024 then some .repair
  else if i = 0x8030 then some .discardLog
  else if i = 0x8031 then some .discards
  else if 0x8100 ≤ i ∧ i < 0x8108 then some .route
  else if 0x8110 ≤ i ∧ i < 0x8118 then some .occur
  else if 0x8120 ≤ i ∧ i < 0x8128 then some .overflow
  else if 0x8180 ≤ i ∧ i < 0x81A0 then some .eventQueue
  else if i = 0x8400 then some .power
  else if 0x8410 ≤ i ∧ i < 0x8414 then some .berthPower
  else if i = 0x8420 then some .sensors
  else if i = 0x8421 then some .inputs
  else if i = 0x8430 then some .scrub
  else if i = 0x8440 then some .warmReset
  else if i = 0x8450 then some .hardware
  else if 0x8800 ≤ i ∧ i < 0x8804 then some .adapt
  else if 0x8810 ≤ i ∧ i < 0x8814 then some .adaptState
  else if 0x8820 ≤ i ∧ i < 0x8824 then some .snapshot
  else if 0x8900 ≤ i ∧ i < 0x8902 then some .folsa
  else if i = 0x8920 then some .moduleId
  else if i = 0xF000 then some .test
  else if 0xF010 ≤ i ∧ i < 0xF020 then some .injection
  else none

/-- Element of an ARRAY object and its number of elements; none for other kinds. -/
def odArray : OdKind → Option (OdRow × Nat)
  | .restoredList => some (odRo32 1 1 0, 64)
  | .spareMap => some (odRo8 1 2 0, 20)
  | .reaction => some (odU16 1 3 0 0 0 65535, 128)
  | .route => some (odU16 1 3 0 0x8004 0 65535, 128)
  | .occur => some (odRo32 1 1 0, 128)
  | .overflow => some (odRo32 1 1 0, 128)
  | .sensors => some (odI32 1 0 3 0, 9)
  | .inputs => some (odRo32 1 3 0, 3)
  | _ => none

/-- The value at subindex 0 of an object named by its index alone. -/
def odSingle : OdKind → Option OdRow
  | .restoreDefaults => some (odU8 0 4 3 0 1 1)
  | .scanData => some (odDom 0 1 2)
  | .stallTotals => some (odDom 0 0 2)
  | .discardLog => some (odDom 0 0 1)
  | .discards => some (odRo64 0 1 0)
  | .snapshot => some (odDom 0 1 2)
  | .moduleId => some (odU64 0 3 0 0)
  | _ => none

def odRowsIdentity : List OdRow :=
  [odRo16 1 0 0, odRo16 2 0 0, odRo16 3 0 4, odRo8 4 0 0, odStr 5 16 0 0 0,
   odStr 6 16 0 0 (odText ['J', 'K', 'M', '-', '4', 'B', '4', '8', '-', 'P']),
   odRo32 7 3 0, odRo8 8 3 0, odRo32 9 3 0, odRo16 10 3 0]

/-- Object 0x1001 (Table 16-15); each value in the unit that the table writes beside it. -/
def odRowsSizeTable : List OdRow :=
  odRo16 1 0 0x0100 ::
    ([2, 4, 20, 21, 400, 20, 40, 12, 32, 2, 48, 588800, 1310720, 4, 18, 1024, 16384, 2, 2, 7, 12000, 200].zipIdx).map
      (fun p => odRo32 (p.2 + 2) 0 p.1)

def odRowsComm : List OdRow :=
  [odBool 1 3 0 0, odOct 2 4 3 0 0, odOct 3 4 3 0 0, odOct 4 4 3 0 0, odU16 5 3 0 17380 0 65535, odU8 6 3 0 0x32 0x08 0x77,
   odBool 7 3 0 0, odOct 8 6 0 0 0, odRo8 9 3 0, odRo32 10 1 0, odRo32 11 1 0, odRo32 12 1 0]

def odRowsStream : List OdRow :=
  [odBool 0x01 3 0 0, odU8 0x02 3 0 0 0 255, odU8 0x03 3 0 1 0 2, odU16 0x04 3 0 1920 0 65535, odU16 0x05 3 0 1088 0 65535,
   odU8 0x06 3 0 30 1 120, odU32 0x07 3 0 8000 0 top32, odOct 0x08 16 3 0 0, odOct 0x09 16 3 0 0, odU16 0x0A 3 0 0 0 65535,
   odU16 0x0B 3 0 0xFFFF 0 65535, odU32 0x0C 3 0 0 0 top32, odU8 0x0D 3 0 0 0 63, odU8 0x0E 3 0 96 0 127,
   odOct 0x0F 256 3 0 0, odU16 0x10 3 0 0xFFFF 0 65535, odU16 0x11 3 0 0xFFFF 0 65535, odU32 0x12 3 0 2048 256 65536] ++
  [odU8 0x13 3 0 3 1 17, odU8 0x14 3 0 3 2 64, odU8 0x15 3 0 8 4 16, odU8 0x16 3 0 0 0 3, odU8 0x17 3 0 0 0 2,
   odU8 0x18 3 0 0 0 1, odOct 0x19 12 1 3 0, odU16 0x1A 3 0 150 10 10000, odRo8 0x1B 3 0, odRo8 0x1C 3 0, odU8 0x1D 3 0 0 0 1,
   odRo64 0x20 2 0, odRo64 0x21 2 0, odRo64 0x22 2 0, odRo64 0x23 2 0, odRo64 0x24 2 0, odRo64 0x25 2 0, odRo64 0x26 2 0,
   odRo64 0x27 2 0, odRo64 0x28 2 0]

def odRowsQueue : List OdRow :=
  [odBool 0x01 1 1 0, odU8 0x02 1 1 0 0 1, odU8 0x03 1 1 0 0 1, odU8 0x04 1 1 0 0 3, odU16 0x05 1 1 64 0 65535,
   odU32 0x06 1 1 1024 0 top32, odU64 0x07 1 1 0, odU64 0x08 1 1 0, odU64 0x09 1 1 0, odU8 0x0A 1 1 0xFF 0 255,
   odU32 0x0B 1 1 0 0 top32, odU8 0x0C 4 3 0 1 1, odRo8 0x0D 3 0, odRo32 0x0E 3 0, odRo32 0x0F 3 0, odRo8 0x10 3 0,
   odRo64 0x11 1 0, odRo64 0x12 1 0, odRo64 0x13 1 0, odRo32 0x14 1 0, odRo32 0x15 1 0, odRo32 0x16 1 0, odDom 0x17 1 3]

def odRowsAdapt : List OdRow :=
  [odBool 1 3 0 0, odU16 2 3 0 0xFFFF 0 65535, odU16 3 3 0 0xFFFF 0 65535, odU32 4 3 0 1000 100 3600000,
   odU32 5 3 0 10000 0 top32, odF32 6 3 0 0, odF32 7 3 0 0, odF32 8 3 0 0, odF32 9 3 0 0, odU8 10 3 0 96 32 127,
   odU8 11 3 0 4 1 8, odU8 12 4 3 0 1 6, odU32 13 1 3 0 0 top32]

/-- The rows of a RECORD. -/
def odRecord : OdKind → List OdRow
  | .identity => odRowsIdentity
  | .sizeTable => odRowsSizeTable
  | .restored => [odU32 1 1 1 0 0 top32, odU8 2 1 1 0 0 15, odRo64 3 1 0, odRo16 4 1 0]
  | .firmware => [odDom 1 1 0, odRo8 2 3 0, odU8 3 4 3 0 1 3, odRo32 4 3 0]
  | .comm => odRowsComm
  | .key => [odOct 1 32 2 0 0, odU8 2 3 0 0 0 2, odBool 3 3 0 0]
  | .time => [odU64 1 1 3 0, odBool 2 3 0 0, odU64 3 1 3 0, odRo8 4 3 0, odRo32 5 1 0]
  | .port => [odBool 1 3 0 0, odU8 2 3 0 2 1 2, odOct 3 6 3 0 0, odOct 4 4 3 0 0, odOct 5 16 3 0 0, odRo64 6 2 0, odRo64 7 2 0,
      odRo64 8 2 0, odRo64 9 2 0]
  | .exception => [odU16 1 3 0 0xFFFF 0 65535]
  | .stream => odRowsStream
  | .slot => [odDom 1 1 2, odRo8 2 2 0, odOct 3 16 0 2 0, odRo16 4 2 0, odRo64 5 2 0, odU8 6 4 3 0 1 1]
  | .changeover => [odRo8 1 2 0xFF, odU16 2 4 3 0 0 65535, odRo8 3 3 0, odRo8 4 2 0, odRo32 5 2 0, odU32 6 3 0 100 1 10000,
      odRo16 7 3 0, odU8 8 4 3 0 1 5, odRo32 9 2 0]
  | .counters => (List.range 14).map (fun i => odRo32 (i + 1) 2 0)
  | .berthReset => [odU8 1 4 3 0 1 1]
  | .queue => odRowsQueue
  | .hub => [odDom 1 0 1, odRo32 2 1 0, odRo32 3 1 0, odRo16 4 3 0, odU16 5 4 3 0 0 65535, odU32 6 3 0 2000 500 20000,
      odU32 7 3 0 800000 16000 160000000, odU32 8 3 0 10 1 10000, odU32 9 3 0 1000 10 60000]
  | .repair => [odRo8 1 3 0, odRo32 2 2 0, odRo32 3 2 0, odRo32 4 2 0, odRo64 5 2 0, odRo32 6 2 0, odRo32 7 2 0]
  | .eventQueue => [odBool 1 1 1 0, odU64 2 1 1 0, odU32 3 1 1 256 16 65536, odU64 4 1 1 0, odRo32 5 3 0, odRo32 6 3 0,
      odRo32 7 3 0]
  | .power => [odU16 1 3 0 250 120 300, odU16 2 3 0 6400 2400 6400, odRo16 3 3 6400, odRo8 4 3 0, odRo32 5 3 0, odRo64 6 1 0,
      odRo32 7 1 0, odRo8 8 3 0, odU8 9 4 3 0 1 3, odRo32 10 0 0]
  | .berthPower => [odRo8 1 3 0, odU8 2 4 3 0 1 3, odBool 3 3 0 0, odU32 4 3 0 200 10 100000, odRo16 5 3 0, odRo8 6 0 0,
      odRo64 7 2 0]
  | .scrub => [odRo64 1 1 0, odRo32 2 1 0, odRo8 3 0 0]
  | .warmReset => [odU8 1 4 3 0 1 1]
  | .hardware => [odRo8 1 3 0, odRo8 2 3 0, odRo16 3 3 0, odRo16 4 3 0, odU8 5 1 3 0 0 1, odRo8 6 3 0, odRo32 7 1 0]
  | .adapt => odRowsAdapt
  | .adaptState => [odRo8 1 3 0, odRo32 2 2 0, odRo32 3 2 0, odRo64 4 2 0, odRo32 5 2 0, odRo32 6 2 0, odRo32 7 2 0, odRo32 8 2 0,
      odRo32 9 2 0, odRo32 10 2 0, odRo32 11 2 0, odRo64 12 3 0]
  | .folsa => [odBool 1 3 0 0, odRo8 2 3 0, odRo8 3 3 0, odU32 4 3 0 50 1 10000, odRo64 5 3 0, odRo32 6 3 0,
      ⟨7, 11, 63, 0, 3, 0, 0, 256 ^ 63 - 1⟩, odRo64 8 2 0, odRo32 9 2 0, odRo32 10 2 0, odRo32 11 2 0]
  | .test => [odRo8 1 3 0, odU32 2 4 3 0 0 top32, odBool 3 0 3 0]
  | .injection => [odU16 1 1 3 0 0 65535, odU32 2 1 3 0 0 top32, odU64 3 1 3 0, odU8 4 1 3 0 0 2, odU32 5 1 3 1 0 top32,
      odU8 6 4 3 0 0 1, odRo32 7 3 0]
  | _ => []

/-- Highest subindex of a RECORD or ARRAY (R401). -/
def odHighest (k : OdKind) : Nat :=
  match odArray k with
  | some (_, n) => n
  | none => (odRecord k).foldl (fun m r => max m r.sub) 0

/-- The listing row of a subindex: the value, or the count at subindex 0 of a RECORD or ARRAY (R401). -/
def odRow (k : OdKind) (sub : Nat) : Option OdRow :=
  match odSingle k with
  | some r => if sub = 0 then some r else none
  | none =>
    if sub = 0 then some (odRo8 0 0 (odHighest k))
    else match odArray k with
      | some (r, n) => if sub ≤ n then some { r with sub := sub } else none
      | none => (odRecord k).find? (fun r => r.sub = sub)

def odInfo (index sub : Nat) : Option OdRow := (odKind index).bind (fun k => odRow k sub)

/-- Default reaction words of the berth sources (Table 17-1). -/
def reactionBerth : List Nat :=
  [0x0185, 0x0185, 0x0000, 0x0185, 0x0185, 0x0181, 0x0011, 0x0201, 0x0181, 0x0181, 0x0181, 0x0181, 0x0181, 0x0001, 0x0001,
   0x0000, 0x0000, 0x0005, 0x0181, 0x0181, 0x0001, 0x0011]

/-- Default reaction words of the module and summary sources (Table 17-2). -/
def reactionModule : List (Nat × Nat) :=
  [(0x080, 0x0011), (0x081, 0x0001), (0x082, 0x0011), (0x083, 0x0001), (0x084, 0x0001), (0x085, 0x0101), (0x086, 0x0001),
   (0x087, 0x0005), (0x088, 0x0001), (0x089, 0x0011), (0x08A, 0x0011), (0x08B, 0x0011), (0x08C, 0x0001), (0x08D, 0x0001),
   (0x1F0, 0x0001), (0x1F1, 0x0011), (0x1F2, 0x0001)]

def reactionDefault (s : Nat) : Nat :=
  if s < 0x80 then reactionBerth.getD (s % 32) 0
  else ((reactionModule.find? (fun p => p.1 = s)).map (·.2)).getD 0

/-- Default routing entry of a shared source (R381, R417). -/
def routeDefault (s : Nat) : Nat := if s = 0x08C ∨ (0x1F0 ≤ s ∧ s ≤ 0x1F2) then 0x8010 else 0x8004

/-- Objects whose default is a factory value. -/
def odFactory : List Nat := [0x100001, 0x100002, 0x100004, 0x100005, 0x110008, 0x200003, 0x200103]

/-- Default of an object (the Default column of the listings). -/
def odDefault (index sub : Nat) : Nat :=
  let key := 256 * index + sub
  match odInfo index sub with
  | none => 0
  | some r =>
    if odFactory.contains key then Config.factory key % 256 ^ r.size
    else if key = 0x100007 ∨ key = 0x100009 ∨ key = 0x10000A then Config.firmware key % 256 ^ r.size
    else if 0x8000 ≤ index ∧ index < 0x8004 ∧ 1 ≤ sub then reactionDefault (128 * (index - 0x8000) + sub - 1)
    else if 0x8100 ≤ index ∧ index < 0x8108 ∧ 1 ≤ sub then routeDefault (128 * (index - 0x8100) + sub - 1)
    else r.dflt

/-- Stored value of an object. -/
def odGet (d : Device) (index sub : Nat) : Nat := Tab.get (odDefault index sub) d.od (256 * index + sub)

/-- Store a value, truncated to the object's size. -/
def odPut (d : Device) (index sub v : Nat) : Device :=
  let size := ((odInfo index sub).map (·.size)).getD 0
  { d with od := Tab.set d.od (256 * index + sub) (v % 256 ^ size) }

/-- Add to a counter that saturates at its type's greatest value (R414, R363, R387). -/
def odAdd (d : Device) (index sub n : Nat) : Device :=
  let size := ((odInfo index sub).map (·.size)).getD 0
  odPut d index sub (min (odGet d index sub + n) (256 ^ size - 1))

/-- Add to a counter that wraps. -/
def odAddWrap (d : Device) (index sub n : Nat) : Device := odPut d index sub (odGet d index sub + n)

def odFlag (d : Device) (index sub : Nat) : Bool := odGet d index sub % 2 = 1

/-- Return every object of which `p` holds to its default; class P values in flash stay (R403). -/
def odReset (p : Nat → Nat → OdRow → Bool) (d : Device) : Device :=
  { d with od := d.od.filter (fun e =>
      match odInfo (e.1 / 256) (e.1 % 256) with
      | some r => !(p (e.1 / 256) (e.1 % 256) r)
      | none => false) }

/-- Objects of a berth (Table 16-10: class B returns to default at a BERTH reset of its berth). -/
def odBerth (d : Device) (index : Nat) : Option Nat :=
  match odKind index with
  | some .stream => some (odGet d index 2)
  | some .slot => some ((index - 0x3000) / 4)
  | some .changeover => some (index - 0x3010)
  | some .scanData => some (index - 0x3020)
  | some .counters => some (index - 0x3100)
  | some .spareMap => some (index - 0x3110)
  | some .stallTotals => some (index - 0x3120)
  | some .repair => some (index - 0x8020)
  | some .berthPower => some (index - 0x8410)
  | some .adapt => some (index - 0x8800)
  | some .adaptState => some (index - 0x8810)
  | some .snapshot => some (index - 0x8820)
  | _ => none

end Sys2Proof.Machine
end

