-- ==== Sys2Proof/Machine/Arith.lean ====
section
/-! DEFINITION. The exact arithmetic of chapters 3 and 4: rounding, binary32, KF9, scale codes, SB16, the Hadamard
rotation. -/

namespace Sys2Proof.Machine

/-- rne(v · 2^−k) for an exact integer v (R68). -/
def rneShift (v : Int) (k : Nat) : Int :=
  if k = 0 then v else
  let q := v / 2 ^ k
  let r := v - q * 2 ^ k
  let half : Int := 2 ^ (k - 1)
  if r > half ∨ (r = half ∧ q % 2 = 1) then q + 1 else q

/-- rne(n / d) for an exact integer n and a positive d (R68). -/
def rneDiv (n : Int) (d : Nat) : Int :=
  if d = 0 then Config.divZero n else
  let q := n / d
  let r := n - q * d
  if 2 * r > d ∨ (2 * r = d ∧ q % 2 = 1) then q + 1 else q

/-- rne(m · 2^e) for an exact dyadic number. -/
def rneScale (m e : Int) : Int := if 0 ≤ e then m * 2 ^ e.toNat else rneShift m (-e).toNat

/-- Clamp to [lo, hi]. -/
def clampI (lo hi x : Int) : Int := max lo (min hi x)

/-! binary32 -/

/-- Sign, significand and exponent of a finite binary32: (−1)^s · mm · 2^em (R69). -/
def f32Sign (w : U32) : Bool := bit w 31
def f32Exp (w : U32) : Nat := fld w 30 23
def f32Frac (w : U32) : Nat := fld w 22 0
def f32Mant (w : U32) : Nat := if f32Exp w = 0 then f32Frac w else f32Frac w + 8388608
def f32Em (w : U32) : Int := if f32Exp w = 0 then -149 else (f32Exp w : Int) - 150
def f32Finite (w : U32) : Bool := decide (f32Exp w < 255)
def f32IsNan (w : U32) : Bool := decide (f32Exp w = 255 ∧ f32Frac w ≠ 0)
def f32IsInf (w : U32) : Bool := decide (f32Exp w = 255 ∧ f32Frac w = 0)
def f32IsZero (w : U32) : Bool := decide (f32Exp w = 0 ∧ f32Frac w = 0)
/-- Normal: neither zero, subnormal, infinite nor NaN. -/
def f32Normal (w : U32) : Bool := decide (0 < f32Exp w ∧ f32Exp w < 255)
/-- Positive normal (R78, R83). -/
def f32PosNormal (w : U32) : Bool := f32Normal w && !f32Sign w

/-- The signed significand of a finite binary32; its value is this times 2^`f32Em`. -/
def f32Int (w : U32) : Int := if f32Sign w then -(f32Mant w : Int) else (f32Mant w : Int)

def f32Zero (neg : Bool) : U32 := BitVec.ofNat 32 (if neg then 2147483648 else 0)
def f32Inf (neg : Bool) : U32 := BitVec.ofNat 32 (if neg then 4286578688 else 2139095040)
/-- A NaN whose lower fraction bits are free. -/
def f32Nan (a b : U32) : U32 := BitVec.ofNat 32 (2143289344 + (Config.nanPayload a b).toNat)

/-- The greatest e with 2^e ≤ n / d, for positive n and d. -/
def ratLog (n d : Nat) : Int :=
  let g : Int := (Nat.log2 n : Int) - (Nat.log2 d : Int)
  if 0 ≤ g then (if d * 2 ^ g.toNat ≤ n then g else g - 1)
  else (if d ≤ n * 2 ^ (-g).toNat then g else g - 1)

/-- rne32 of the exact magnitude n / d with the given sign (chapter 4: round to nearest, ties to even). -/
def rne32 (neg : Bool) (n d : Nat) : U32 :=
  if n = 0 ∨ d = 0 then f32Zero neg else
  let p : Int := max (ratLog n d) (-126) - 23
  let q : Nat := (if 0 ≤ p then rneDiv n (d * 2 ^ p.toNat) else rneDiv ((n : Int) * 2 ^ (-p).toNat) d).toNat
  let code : Nat := (p + 149).toNat * 8388608 + q
  if 2139095040 ≤ code then f32Inf neg else BitVec.ofNat 32 (code + (if neg then 2147483648 else 0))

/-- rne32 of m · 2^e. -/
def f32OfDyadic (m e : Int) : U32 :=
  if 0 ≤ e then rne32 (decide (m < 0)) (m.natAbs * 2 ^ e.toNat) 1
  else rne32 (decide (m < 0)) m.natAbs (2 ^ (-e).toNat)

/-- rne32 of an integer. -/
def f32OfInt (m : Int) : U32 := f32OfDyadic m 0

/-- rne32(a × b). -/
def f32Mul (a b : U32) : U32 :=
  if f32IsNan a || f32IsNan b then f32Nan a b
  else if f32IsInf a || f32IsInf b then
    (if f32IsZero a || f32IsZero b then f32Nan a b else f32Inf (f32Sign a != f32Sign b))
  else if f32Mant a = 0 ∨ f32Mant b = 0 then f32Zero (f32Sign a != f32Sign b)
  else f32OfDyadic (f32Int a * f32Int b) (f32Em a + f32Em b)

/-- rne32(a / b). -/
def f32Div (a b : U32) : U32 :=
  let neg := f32Sign a != f32Sign b
  if f32IsNan a || f32IsNan b then f32Nan a b
  else if f32IsInf a then (if f32IsInf b then f32Nan a b else f32Inf neg)
  else if f32IsInf b then f32Zero neg
  else if f32IsZero b then (if f32IsZero a then f32Nan a b else f32Inf neg)
  else
    let e := f32Em a - f32Em b
    if 0 ≤ e then rne32 neg (f32Mant a * 2 ^ e.toNat) (f32Mant b)
    else rne32 neg (f32Mant a) (f32Mant b * 2 ^ (-e).toNat)

/-- rne32(a + b). -/
def f32Add (a b : U32) : U32 :=
  if f32IsNan a || f32IsNan b then f32Nan a b
  else if f32IsInf a then (if f32IsInf b && (f32Sign a != f32Sign b) then f32Nan a b else a)
  else if f32IsInf b then b
  else
    let e := min (f32Em a) (f32Em b)
    let m := f32Int a * 2 ^ (f32Em a - e).toNat + f32Int b * 2 ^ (f32Em b - e).toNat
    if m = 0 then f32Zero (f32Sign a && f32Sign b) else f32OfDyadic m e

/-- −a. -/
def f32Neg (a : U32) : U32 := BitVec.ofNat 32 (f32Exp a * 8388608 + f32Frac a + (if f32Sign a then 0 else 2147483648))

/-- rne32(1 − a). -/
def f32OneMinus (a : U32) : U32 := f32Add (BitVec.ofNat 32 0x3F800000) (f32Neg a)

/-- rne32(a × 2^k). -/
def f32Scale (a : U32) (k : Int) : U32 :=
  if f32Exp a = 255 then a else if f32Mant a = 0 then a else f32OfDyadic (f32Int a) (f32Em a + k)

/-- a < b for finite or infinite binary32 values; false when either is NaN. -/
def f32Lt (a b : U32) : Bool :=
  if f32IsNan a || f32IsNan b then false
  else
    let key := fun (w : U32) => if f32Sign w then -((fld w 30 0 : Nat) : Int) else ((fld w 30 0 : Nat) : Int)
    decide (key a < key b)

def f32Le (a b : U32) : Bool := !f32Lt b a && !(f32IsNan a || f32IsNan b)
def f32Max (a b : U32) : U32 := if f32Lt a b then b else a
def f32Min (a b : U32) : U32 := if f32Lt b a then b else a

/-- rne of a binary32 value to an integer. -/
def f32Round (a : U32) : Int :=
  if f32Finite a then rneScale (f32Int a) (f32Em a) else Config.roundNonFinite a

/-- Integer square root, rounded down, found bit by bit from bit `k`. -/
def isqrtFrom (n : Nat) : Nat → Nat → Nat
  | 0, r => if (r + 1) * (r + 1) ≤ n then r + 1 else r
  | k + 1, r => let t := r + 2 ^ (k + 1); isqrtFrom n k (if t * t ≤ n then t else r)

def isqrt (n : Nat) : Nat := isqrtFrom n (Nat.log2 n / 2 + 1) 0

/-- The binary32 nearest 1/√(n/d), ties to even, for positive n and d (R131, R280). -/
def rsqrtRn (n d : Nat) : U32 :=
  if n = 0 then f32Inf false else
  -- exponent e of the result: 2^e ≤ √(d/n) < 2^(e+1)
  let e : Int := ratLog d n / 2
  let p : Int := e - 23
  let num : Nat := if 0 ≤ p then d else d * 2 ^ (2 * (-p)).toNat
  let den : Nat := if 0 ≤ p then n * 2 ^ (2 * p).toNat else n
  let q := isqrt (num / den)
  let up := decide (((2 * q + 1) * (2 * q + 1)) * den < 4 * num ∨
    (((2 * q + 1) * (2 * q + 1)) * den = 4 * num ∧ q % 2 = 1))
  BitVec.ofNat 32 ((p + 149).toNat * 8388608 + (if up then q + 1 else q))

/-- rsqrt_rn of a binary32 value. A negative or NaN operand has no stated result. -/
def f32Rsqrt (a : U32) : U32 :=
  if f32IsNan a then f32Nan a a
  else if f32IsZero a then f32Inf false
  else if f32Sign a then f32Nan a a
  else if f32IsInf a then f32Zero false
  else if 0 ≤ f32Em a then rsqrtRn (f32Mant a * 2 ^ (f32Em a).toNat) 1
  else rsqrtRn (f32Mant a) (2 ^ (-(f32Em a)).toNat)

/-! Requantisation (R69) and bounds (R84 to R86) -/

/-- scaled_rounded: the rounded scaled value of R69 before the zero point; `u` is XOFF − 10 or 0. -/
def scaledRounded (c : Int) (m : U32) (u : Int) : Int :=
  let t := rneScale (c * f32Mant m) (f32Em m + u)
  if f32Sign m then -t else t

/-- The narrowing bounds of R84. -/
def narrow (loen hien : Bool) (lo hi n : Int) : Int :=
  let n := if loen then max n lo else n
  if hien then min n hi else n

/-! KF9 (R60, R61) -/

/-- The exact signed integer of a KF9 entry (R61). -/
def wint (kf : Nat) : Int :=
  let s := kf / 256 % 2
  let e := kf / 16 % 16
  let f := kf % 16
  let mant := if e = 0 then f else 16 + f
  let sh := if e = 0 then 0 else e - 1
  if s = 1 then -((mant * 2 ^ sh : Nat) : Int) else ((mant * 2 ^ sh : Nat) : Int)

/-! Scale codes (R88) -/

/-- q(k) · 2^10, an integer for every code. -/
def scaleCodeInt (k : Nat) : Nat := if k / 16 % 16 = 0 then k % 16 else (16 + k % 16) * 2 ^ (k / 16 % 16 - 1)

/-- The effective scale rne32(q(k) × S2) of a scale code. -/
def scaleOfCode (s2 : U32) (k : Nat) : U32 :=
  if f32Exp s2 = 255 then f32Mul (f32OfDyadic (scaleCodeInt k) (-10)) s2
  else if f32Mant s2 = 0 ∨ scaleCodeInt k = 0 then f32Zero (f32Sign s2)
  else f32OfDyadic ((scaleCodeInt k : Int) * f32Int s2) (f32Em s2 - 10)

/-- The smallest code from `k` upward (at most `n` tries) for which the test holds. -/
def firstCode (ok : Nat → Bool) : Nat → Nat → Option Nat
  | 0, _ => none
  | n + 1, k => if ok k then some k else firstCode ok n (k + 1)

/-- encode_up (R88): the code, and whether no code sufficed. -/
def encodeUp (s2 s : U32) : Nat × Bool :=
  match firstCode (fun k => f32Le s (scaleOfCode s2 k)) 255 1 with
  | some k => (k, false)
  | none => (255, true)

/-! A48 and sum files -/

/-- An exact integer put into an A48 register (R63, R64). -/
def toA48 (x : Int) : BitVec 48 :=
  if -(140737488355328 : Int) ≤ x ∧ x ≤ 140737488355327 then BitVec.ofInt 48 x else Config.a48Overflow x

/-- An exact integer put into a 32-bit sum register (R81). -/
def toI32 (x : Int) : U32 :=
  if -(2147483648 : Int) ≤ x ∧ x ≤ 2147483647 then BitVec.ofInt 32 x else Config.i32Overflow x

/-- The residue modulo 3 of an integer, 0 to 2 (R24). -/
def res3 (x : Int) : Nat := (x % 3).toNat

/-! SB16 (R70 to R72, R172) -/

/-- A complex integer. -/
structure Cplx where
  re : Int
  im : Int
  deriving DecidableEq, Repr, Inhabited

/-- An SB16 vector: 64 mantissas and one exponent. -/
structure SbVec where
  e : Int
  els : List Cplx
  deriving DecidableEq, Repr, Inhabited

/-- The exact product of two mantissa pairs (R71). -/
def cmul (a b : Cplx) : Cplx := ⟨a.re * b.re - a.im * b.im, a.re * b.im + a.im * b.re⟩

/-- A product rounded onto a grid k places up (R71); a shift of 32 or more yields 0. -/
def gridRound (p : Cplx) (k : Nat) : Cplx := if 32 ≤ k then ⟨0, 0⟩ else ⟨rneShift p.re k, rneShift p.im k⟩

/-- The sum of rounded products on grid g; each term is a pair of elements and the sum of their exponents. -/
def sbSum (g : Int) (ts : List (Cplx × Cplx × Int)) : Cplx :=
  ts.foldl (fun acc t =>
    let p := gridRound (cmul t.1 t.2.1) (g - t.2.2).toNat
    ⟨acc.re + p.re, acc.im + p.im⟩) ⟨0, 0⟩

/-- rne_shift extended to negative shifts, which are exact. -/
def shiftRne (v : Int) (s : Int) : Int := if 0 ≤ s then rneShift v s.toNat else v * 2 ^ (-s).toNat

/-- The smallest shift from `s` upward for which every part fits 16 bits. -/
def fitShift (parts : List Int) : Nat → Int → Int
  | 0, s => s
  | n + 1, s =>
    if parts.all (fun v => decide (-32768 ≤ shiftRne v s ∧ shiftRne v s ≤ 32767)) then s else fitShift parts n (s + 1)

/-- Renormalisation (R72): the vector, and whether it was clamped at e = 127. -/
def renormalise (acc : List Cplx) (g : Int) : SbVec × Bool :=
  let parts := acc.map (·.re) ++ acc.map (·.im)
  if parts.all (fun v => decide (v = 0)) then (⟨-128, acc.map (fun _ => ⟨0, 0⟩)⟩, false)
  else
    let s := fitShift parts 64 (-16)
    let e := g + s
    if e < -128 then
      let s' := -128 - g
      (⟨-128, acc.map (fun a => ⟨shiftRne a.re s', shiftRne a.im s'⟩)⟩, false)
    else if 127 < e then
      let s' := 127 - g
      (⟨127, acc.map (fun a => ⟨clampI (-32768) 32767 (shiftRne a.re s'), clampI (-32768) 32767 (shiftRne a.im s')⟩)⟩,
        true)
    else (⟨e, acc.map (fun a => ⟨shiftRne a.re s, shiftRne a.im s⟩)⟩, false)

/-- rne(16,384 · cos(2πm/64)) for m from 0 to 16 (R172). -/
def cosQuarter : List Int :=
  [16384, 16305, 16069, 15679, 15137, 14449, 13623, 12665, 11585, 10394, 9102, 7723, 6270, 4756, 3196, 1606, 0]

/-- rne(16,384 · cos(2πm/64)). -/
def cos64 (m : Nat) : Int :=
  let k := m % 64
  if k ≤ 16 then cosQuarter.getD k 0
  else if k ≤ 32 then -(cosQuarter.getD (32 - k) 0)
  else if k ≤ 48 then -(cosQuarter.getD (k - 32) 0)
  else cosQuarter.getD (64 - k) 0

/-- Entry m of the twiddle table (R172); its exponent is −14. -/
def twiddle (forward : Bool) (m : Nat) : Cplx :=
  let s := cos64 (m + 48)
  ⟨cos64 m, if forward then -s else s⟩

/-! Hadamard rotation (R107) -/

/-- Parity of the population count of an 8-bit number. -/
def parity8 (x : Nat) : Bool :=
  let y := Nat.xor x (x / 16)
  let z := Nat.xor y (y / 4)
  let t := Nat.xor z (z / 2)
  decide (t % 2 = 1)

/-- The rotated value i of a group. -/
def hadamardAt (c : List Int) (i : Nat) : Int :=
  (c.zipIdx.map (fun p => if parity8 (Nat.land i p.2) then -p.1 else p.1)).foldl (· + ·) 0

/-- y = H c, exact. -/
def hadamard (c : List Int) : List Int := (List.range c.length).map (hadamardAt c)

end Sys2Proof.Machine
end

