-- ==== Sys2Proof/Machine/Ops.lean ====
section
/-! DEFINITION. The named operations over a tile's memory, registers, queues and banks, and the working record of one
step (`Xe`) that every step meaning transforms. -/

namespace Sys2Proof.Machine

/-- A token that a step sends. `keep` holds the sideband of a token that is moved (R114); without it F and E come from
the context's registers. -/
structure OutTok where
  data : Payload := 0
  v : Bool := true
  p : Bool := false
  s : Bool := false
  keep : Option Sideband := none
  deriving DecidableEq, Repr, Inhabited

/-- A scale state entry to write into the HBM mirror (R97): tensor, stream and the 64-bit entry. -/
structure MirrorWrite where
  tid : Nat
  stream : Nat
  entry : Nat
  deriving DecidableEq, Repr, Inhabited

/-- The working record of one issuing step. -/
structure Xe where
  t : Tile
  /-- The active plane and the context that issues. -/
  pl : Plane
  c : Nat
  ctx : Context
  w : BitVec 128
  /-- R35: a token or word read for this step was poisoned. -/
  poison : Bool := false
  /-- Fault reports: index i of Table 17-1 and INFO. -/
  reps : List (Nat × Nat) := []
  /-- Berth counters to raise: subindex of object 0x3100 + b, and by how much. -/
  cnts : List (Nat × Nat) := []
  /-- Counters of object 0x8810 + b to raise. -/
  acnts : List (Nat × Nat) := []
  out : List OutTok := []
  /-- Tokens read from the band hold region by a release (R136). -/
  release : List Token := []
  mirror : List MirrorWrite := []
  /-- Σ|off| of LOSS (R278). -/
  gradSum : Nat := 0
  /-- OPT met a poisoned bank or an uncorrectable read (Table 11-11). -/
  adaptBad : Bool := false
  satSub : Nat := 0
  satN : Nat := 0
  /-- FCLK for which the step holds its unit. -/
  cycles : Nat := 1
  /-- Cycles of the last group of an array step (R116). -/
  lastGroup : Nat := 16
  banksW : List Nat := []
  banksR : List Nat := []
  /-- The stream that is in its first frame, by stream, with that frame's F (R96). -/
  first : Tab Nat := []
  /-- The step holds its context in HURDLE (R140). -/
  hurdle : Bool := false
  /-- A re-run post for (stream, F) (R104). -/
  rerun : Bool := false
  deriving DecidableEq, Repr, Inhabited

/-! Registers, counters, queues -/

def regRead (pl : Plane) (n : Nat) : U32 := Tab.get 0 pl.g n
def regWrite (pl : Plane) (n : Nat) (v : U32) : Plane := { pl with g := Tab.set pl.g n v }
/-- A 64-bit descriptor in registers n and n + 1 (R112). -/
def regPair (pl : Plane) (n : Nat) : BitVec 64 := BitVec.ofNat 64 ((regRead pl n).toNat + 4294967296 * (regRead pl (n + 1)).toNat)

def counterAt (pl : Plane) (n : Nat) : Counter := Tab.get {} pl.k n
def iqAt (pl : Plane) (n : Nat) : InQueue := Tab.get {} pl.iq n
def oqAt (pl : Plane) (n : Nat) : OutQueue := Tab.get {} pl.oq n
def ctxAt (pl : Plane) (n : Nat) : Context := Tab.get {} pl.ctx n
def setIq (pl : Plane) (n : Nat) (q : InQueue) : Plane := { pl with iq := Tab.set pl.iq n q }
def setOq (pl : Plane) (n : Nat) (q : OutQueue) : Plane := { pl with oq := Tab.set pl.oq n q }
def setCtx (pl : Plane) (n : Nat) (x : Context) : Plane := { pl with ctx := Tab.set pl.ctx n x }
def stepAt (pl : Plane) (n : Nat) : BitVec 128 := Tab.get 0 pl.steps n
def sideAt (pl : Plane) (iq slot : Nat) : Sideband := Tab.get {} pl.side (1024 * iq + slot)
def bankAt (t : Tile) (n : Nat) : Bank := Tab.get {} t.banks n
def setBank (t : Tile) (n : Nat) (b : Bank) : Tile := { t with banks := Tab.set t.banks n b }
def planeAt (t : Tile) (k : Nat) : Plane := Tab.get {} t.planes k
def setPlane (t : Tile) (k : Nat) (p : Plane) : Tile := { t with planes := Tab.set t.planes k p }

/-- Ring size in tokens of an input queue. -/
def ringSize (q : InQueue) : Nat := 2 ^ q.size
/-- Ring offset of the first unit that no band holds and no step in flight will pop (R32, R102). DEDUCED (log 8). -/
def frontOffset (q : InQueue) : Nat := q.head + q.held + q.reserved
/-- Tokens that count under R31. -/
def available (q : InQueue) : Nat := q.occ - q.held - q.reserved
/-- Ring slot of the k-th available token. -/
def slotOf (q : InQueue) (k : Nat) : Nat := (frontOffset q + k) % ringSize q
/-- Sideband of the k-th available token. -/
def frontSide (pl : Plane) (iq k : Nat) : Sideband := sideAt pl iq (slotOf (iqAt pl iq) k)
/-- Tile byte address of a ring slot. -/
def slotAddr (q : InQueue) (slot : Nat) : Nat := 32 * (q.base + slot)

/-- The frame's last token is present among the available tokens (waiver of R31). -/
def lastPresent (pl : Plane) (iq : Nat) : Bool :=
  (List.range (available (iqAt pl iq))).any (fun k => (frontSide pl iq k).l)

/-- Condition 2 or 3 of R31 for `n` units. -/
def unitsPresent (pl : Plane) (iq n : Nat) : Bool :=
  let q := iqAt pl iq
  n = 0 || decide ((q.window + n) * 2 ^ q.grain ≤ available q)
    || (lastPresent pl iq && decide (n * 2 ^ q.grain ≤ available q))

/-! Fields of a step word (Tables 2-4, 5-2) -/

def wOpcode (w : BitVec 128) : Nat := fld w 7 0
def wNext (w : BitVec 128) : Nat := fld w 127 122
def wExit (w : BitVec 128) : Nat := fld w 121 116
def wLoopen (w : BitVec 128) : Bool := bit w 115
def wLoopk (w : BitVec 128) : Nat := fld w 114 111
def wCtx (w : BitVec 128) : Nat := fld w 110 109
def wIqa (w : BitVec 128) : Nat := fld w 108 105
def wNa (w : BitVec 128) : Nat := fld w 104 99
def wIqb (w : BitVec 128) : Nat := fld w 98 95
def wNb (w : BitVec 128) : Nat := fld w 94 89
def wOq (w : BitVec 128) : Nat := fld w 88 85
def wNo (w : BitVec 128) : Nat := fld w 84 80
def wDa (w : BitVec 128) : Nat := fld w 79 74
def wDb (w : BitVec 128) : Nat := fld w 73 68
def wDc (w : BitVec 128) : Nat := fld w 67 62
def wPr (w : BitVec 128) : Nat := fld w 61 56
def wLm (w : BitVec 128) : Nat := fld w 55 52

/-! Counters (R27) -/

/-- bump(n): a cascade, at most `fuel` long (R28 forbids cycles). -/
def bump : Nat → Plane → Nat → Plane
  | 0, pl, _ => pl
  | fuel + 1, pl, n =>
    let k := counterAt pl n
    if k.value = k.limit then
      let pl := { pl with k := Tab.set pl.k n { k with value := 0 } }
      if k.linken then bump fuel pl k.link else pl
    else { pl with k := Tab.set pl.k n { k with value := k.value + 1 } }

/-- issue_next (R27): the counters after an issue, and the context's next step. -/
def issueNext (pl : Plane) (w : BitVec 128) : Plane × Nat :=
  if !wLoopen w then (pl, wNext w) else
  let n := wLoopk w
  let k := counterAt pl n
  if k.value = k.limit then
    let pl := { pl with k := Tab.set pl.k n { k with value := 0 } }
    (if k.linken then bump 16 pl k.link else pl, wExit w)
  else ({ pl with k := Tab.set pl.k n { k with value := k.value + 1 } }, wNext w)

/-! Fault reports and counters of a step -/

def xRep (x : Xe) (i info : Nat) : Xe := { x with reps := x.reps ++ [(i, info)] }
def xCnt (x : Xe) (sub n : Nat) : Xe := if n = 0 then x else { x with cnts := x.cnts ++ [(sub, n)] }
def xPoison (x : Xe) (p : Bool) : Xe := { x with poison := x.poison || p }

/-- Take note of a read of granule `gr` (R41): a corrected error is counted and logged, an uncorrectable one poisons
the step and is reported. -/
def touchGranule (x : Xe) (gr : Nat) : Xe :=
  match Tab.find x.t.ecc gr with
  | none => x
  | some .single => xRep { x with t := { x.t with correctable := x.t.correctable + 1 } } 2 (8 * gr)
  | some .double => xRep (xPoison x true) 1 (8 * gr)

/-- Take note of a read of the sideband of a ring slot (R35, R191): a data token of a queue whose scale token failed its check
counts as poisoned (R89). A step reports a parity error once. -/
def touchSide (x : Xe) (iq slot : Nat) : Xe :=
  let sb := sideAt x.pl iq slot
  let x := xPoison x (sb.p || ((iqAt x.pl iq).scaleBad && !sb.s))
  if !Tab.get false x.pl.sideBad (1024 * iq + slot) then x
  else if x.reps.contains (5, 0) then xPoison x true
  else xRep (xPoison x true) 5 0

/-- Port A touches granule `gr` for a write: where port B wrote it in the same FCLK the collision is reported, and port A's data
stands (R42). -/
def portAWrite (x : Xe) (gr : Nat) : Xe :=
  let x := if x.t.portB.contains gr then xRep x 3 (8 * gr) else x
  { x with t := { x.t with portA := gr :: x.t.portA } }

/-- Write one 128-bit word at tile word `a`: whole granules, so their errors vanish (R40). -/
def writeWord (x : Xe) (a v : Nat) : Xe :=
  let x := portAWrite (portAWrite x (2 * a)) (2 * a + 1)
  { x with t := { x.t with
      mem := memWriteBytes x.t.mem (16 * a) (leBytes 16 v)
      ecc := Tab.erase (Tab.erase x.t.ecc (2 * a)) (2 * a + 1) } }

/-- Write one whole granule (R40). -/
def writeGranule (x : Xe) (gr v : Nat) : Xe :=
  let x := portAWrite x gr
  { x with t := { x.t with
      mem := memWriteBytes x.t.mem (8 * gr) (leBytes 8 v)
      ecc := Tab.erase x.t.ecc gr } }

/-- Write bytes of one granule, from byte address `a`, by read-modify-write (R40, R41): a single-bit error that it reads is counted
and logged, an uncorrectable granule stays as it was. -/
def writePart (x : Xe) (a : Nat) (bs : List Byte) : Xe :=
  let x := touchGranule x (a / 8)
  match Tab.find x.t.ecc (a / 8) with
  | some .double => x
  | _ =>
    let x := portAWrite x (a / 8)
    { x with t := { x.t with
        mem := memWriteBytes x.t.mem a bs
        ecc := Tab.erase x.t.ecc (a / 8) } }

/-! Popped tokens (R32): read in place at issue, taken out at completion. -/

/-- The first `n` available tokens of a queue with their payloads. -/
def frontTokens (t : Tile) (pl : Plane) (iq n : Nat) : List Token :=
  let q := iqAt pl iq
  (List.range n).map (fun k =>
    let slot := slotOf q k
    { data := BitVec.ofNat 256 (memReadNat t.mem (slotAddr q slot) 32), sb := sideAt pl iq slot })

/-- Take note of reading the first `n` available tokens of a queue. -/
def touchFront (x : Xe) (iq n : Nat) : Xe :=
  let q := iqAt x.pl iq
  (List.range n).foldl (fun x k =>
    let slot := slotOf q k
    let g := 4 * (q.base + slot)
    touchGranule (touchGranule (touchGranule (touchGranule (touchSide x iq slot) g) (g + 1)) (g + 2)) (g + 3)) x

/-- Tokens in the NA and NB units of a step. -/
def naTokens (x : Xe) : Nat := wNa x.w * 2 ^ (iqAt x.pl (wIqa x.w)).grain
def nbTokens (x : Xe) : Nat := wNb x.w * 2 ^ (iqAt x.pl (wIqb x.w)).grain
def noTokens (pl : Plane) (w : BitVec 128) : Nat := wNo w * 2 ^ (oqAt pl (wOq w)).grain
def tokensA (x : Xe) : List Token := frontTokens x.t x.pl (wIqa x.w) (naTokens x)
def tokensB (x : Xe) : List Token := frontTokens x.t x.pl (wIqb x.w) (nbTokens x)

/-! Accumulator banks -/

/-- The lane of channel i and pixel j. -/
def laneOf (i j : Nat) : Nat := 16 * i + j
def laneVal (b : Bank) (lane : Nat) : Int := (Tab.get 0 b.acc lane).toInt
def laneRes (b : Bank) (lane : Nat) : Nat := Tab.get 0 b.res lane
def rowSum (b : Bank) (i : Nat) : Int := (Tab.get 0 b.rs i).toInt
def transSum (b : Bank) (i : Nat) : Int := (Tab.get 0 b.ts i).toInt

/-- A cleared bank (R73, R24, R120). -/
def clearedBank : Bank := {}

/-- Add `d lane` into every lane, exactly, and update the residues (R24, R64). -/
def addLanes (b : Bank) (d : Nat → Int) : Bank :=
  { b with
    acc := (List.range 256).map (fun l => (l, toA48 (laneVal b l + d l)))
    res := (List.range 256).map (fun l => (l, (laneRes b l + res3 (d l)) % 3)) }

/-- Put `v lane` into every lane; the stored residues are recomputed (R121). -/
def setLanes (b : Bank) (v : Nat → Int) : Bank :=
  { b with
    acc := (List.range 256).map (fun l => (l, toA48 (v l)))
    res := (List.range 256).map (fun l => (l, res3 (toA48 (v l)).toInt)) }

def addRowSums (b : Bank) (d : Nat → Int) : Bank :=
  { b with rs := (List.range 16).map (fun i => (i, toI32 (rowSum b i + d i))) }

def addTransSums (b : Bank) (d : Nat → Int) : Bank :=
  { b with ts := (List.range 16).map (fun i => (i, toI32 (transSum b i + d i))) }

/-- Some lane's residue disagrees with its value (R24). -/
def residueMismatch (b : Bank) : Bool :=
  (List.range 256).any (fun l => decide (res3 (laneVal b l) ≠ laneRes b l))

/-- Key of bank BK of the step's context (R116). -/
def bankKey (x : Xe) (bk : Bool) : Nat := 2 * x.c + b2n bk

/-- The bank an array step starts from under its clear control; none where CLR holds its reserved value (R116). -/
def clearControl (x : Xe) (clr clrm : Nat) (b : Bank) : Option Bank :=
  if clr = 0 then some b
  else if clr = 1 then some clearedBank
  else if clr = 2 then
    some (if (List.range 4).all (fun n => decide (clrm / 2 ^ n % 2 = 0) || decide ((counterAt x.pl (4 * x.c + n)).value = 0))
      then clearedBank else b)
  else none

/-- Set a bank's poison bit from the operands that entered it (R73). -/
def poisonBank (b : Bank) (p : Bool) : Bank := { b with poison := b.poison || p }

/-! Expansion tables -/

def xtAt (pl : Plane) (n : Nat) : XTable := Tab.get {} pl.xt n
/-- The expanded integer of a weight code (R57, R61). -/
def expand (xt : XTable) (code : Nat) : Int := wint (Tab.get 0 xt.entries code)
/-- u = XOFF − 10 (R69). -/
def xtU (pl : Plane) (n : Nat) : Int := (xtAt pl n).xoff - 10
/-- LTn[code] (16 bits). -/
def ltAt (pl : Plane) (n code : Nat) : Nat := Tab.get 0 pl.lt (256 * n + code)

end Sys2Proof.Machine
end

