-- ==== Sys2Proof/Machine/DeviceOps.lean ====
section
/-! DEFINITION. The named operations over the device that every family uses: berths, tiles and spares, tags, fault reports,
discard records, the HBM pool and the pacer budget. -/

namespace Sys2Proof.Machine

/-- A command's effect on the device: the queue of commands is left to the step. -/
def onDev (f : Device → Device) (s : State) : Host.Outcome State Fault Refusal := .next { s with dev := f s.dev }

/-- `f` where the condition of the specification holds, else no change (assumption log 1). -/
def guarded (p : Device → Bool) (f : Device → Device) (d : Device) : Device := if p d then f d else d

/-! Berths and tiles -/

def berthAt (d : Device) (b : Nat) : Berth := Tab.get {} d.berths b
def setBerth (d : Device) (b : Nat) (x : Berth) : Device := { d with berths := Tab.set d.berths b x }
def modBerth (d : Device) (b : Nat) (f : Berth → Berth) : Device := setBerth d b (f (berthAt d b))
def tileAt (d : Device) (b k : Nat) : Tile := Tab.get {} (berthAt d b).tiles k
def setTile (d : Device) (b k : Nat) (t : Tile) : Device :=
  modBerth d b (fun x => { x with tiles := Tab.set x.tiles k t })
def modTile (d : Device) (b k : Nat) (f : Tile → Tile) : Device := setTile d b k (f (tileAt d b k))
def slotAt (d : Device) (b k : Nat) : Slot := Tab.get {} (berthAt d b).slots k
def setSlot (d : Device) (b k : Nat) (x : Slot) : Device :=
  modBerth d b (fun y => { y with slots := Tab.set y.slots k x })
def streamAt (d : Device) (n : Nat) : Stream := Tab.get {} d.streams n
def setStream (d : Device) (n : Nat) (x : Stream) : Device := { d with streams := Tab.set d.streams n x }
def modStream (d : Device) (n : Nat) (f : Stream → Stream) : Device := setStream d n (f (streamAt d n))
def portAt (d : Device) (k : Nat) : StationPort := Tab.get {} d.ports k
def setPort (d : Device) (k : Nat) (x : StationPort) : Device := { d with ports := Tab.set d.ports k x }
def endAt (d : Device) (k : Nat) : UEnd := Tab.get {} d.ends k
def setEnd (d : Device) (k : Nat) (x : UEnd) : Device := { d with ends := Tab.set d.ends k x }
def linkAt (d : Device) (k : Nat) : Link := Tab.get {} d.links k
def setLink (d : Device) (k : Nat) (x : Link) : Device := { d with links := Tab.set d.links k x }
def engineAt (x : Berth) (e : Nat) : Engine := Tab.get {} x.engines e
def folsaAt (d : Device) (p : Nat) : Folsa := Tab.get {} d.folsa p
def setFolsa (d : Device) (p : Nat) (x : Folsa) : Device := { d with folsa := Tab.set d.folsa p x }
def sfpAt (d : Device) (c : Nat) : SfpPort := Tab.get {} d.sfp c
def setSfp (d : Device) (c : Nat) (x : SfpPort) : Device := { d with sfp := Tab.set d.sfp c x }

/-- Key of a tile position: 32·column + row. -/
def tileKey (col row : Nat) : Nat := 32 * col + row

/-- Spare map entry of a column (object 0x3110 + b): [7] used, [6] unusable, [4:0] logical row served. -/
def spareEntry (d : Device) (b col : Nat) : Nat := odGet d (0x3110 + b) (col + 1)
def spareUsed (d : Device) (b col : Nat) : Bool := spareEntry d b col / 128 % 2 = 1
def spareUnusable (d : Device) (b col : Nat) : Bool := spareEntry d b col / 64 % 2 = 1
def spareRow (d : Device) (b col : Nat) : Nat := spareEntry d b col % 32

/-- Key of the physical tile that serves a logical position (R19, R49). -/
def physKey (d : Device) (b col row : Nat) : Nat :=
  if spareUsed d b col && decide (spareRow d b col = row) then tileKey col 20 else tileKey col row

/-- Key of the physical tile of a logical tile identity. -/
def keyOf (d : Device) (t : TileId) : Nat := physKey d t.b.val t.col.val t.row.val

/-- Logical row of a physical tile; row 20 for a spare that serves no position (R418). -/
def logicalRow (d : Device) (b k : Nat) : Nat :=
  if k % 32 = 20 then (if spareUsed d b (k / 32) then spareRow d b (k / 32) else 20) else k % 32

/-- Every logical position of a berth with its physical key. -/
def positions (d : Device) (b : Nat) : List (Nat × Nat × Nat) :=
  (List.range 20).flatMap (fun c => (List.range 20).map (fun r => (c, r, physKey d b c r)))

/-! Class P objects (R403) -/

/-- A value that the device itself keeps in flash. -/
def odKeep (d : Device) (index sub v : Nat) : Device :=
  let d := odPut d index sub v
  { d with flash := Tab.set d.flash (256 * index + sub) (odGet d index sub) }

/-- An accepted write: a class P value is in use at once and waits in the journal for its flash record. -/
def odStore (d : Device) (index sub v : Nat) : Device :=
  let d := odPut d index sub v
  if ((odInfo index sub).map (fun r => decide (r.cls = 0) && decide (2 ≤ r.acc))).getD false then { d with journal := d.journal ++ [{ key := 256 * index + sub, value := odGet d index sub }] } else d

/-! Berth state objects -/

def runSlot (d : Device) (b : Nat) : Nat := odGet d (0x3010 + b) 1
def bstate (d : Device) (b : Nat) : Nat := odGet d (0x3010 + b) 3
def berthEpoch (d : Device) (b : Nat) : Nat := odGet d (0x3010 + b) 4
def slotState (d : Device) (b k : Nat) : Nat := odGet d (0x3000 + 4 * b + k) 2
def mstate (d : Device) : Nat := odGet d 0x8400 8
def bpstate (d : Device) (b : Nat) : Nat := odGet d (0x8410 + b) 1

/-- The tile, router and shuttle clocks of a berth run (R447 to R450, R478). -/
def berthLive (d : Device) (b : Nat) : Bool :=
  d.power.fabric && decide (mstate d = 0) && decide (bpstate d b = 0) && !(berthAt d b).clocksOff

/-- The firmware runs and serves the object dictionary (R394, R395). -/
def firmwareReady (d : Device) : Bool := decide (d.fw.fwstate = 2)

/-! Tags (Table 17-3) -/

def tag (kind berth id : Nat) : U32 := BitVec.ofNat 32 (kind * 2 ^ 28 + berth % 4 * 2 ^ 26 + id % 65536)
def tileTag (b col row : Nat) : U32 := tag 0 b (32 * col + row)
/-- Tag of the physical tile with key k. -/
def physTag (d : Device) (b k : Nat) : U32 := tileTag b (k / 32) (logicalRow d b k)
def tagKind (t : U32) : Nat := fld t 31 28
def tagBerth (t : U32) : Nat := fld t 27 26
def tagId (t : U32) : Nat := fld t 15 0

/-! Reports and discards -/

def report (d : Device) (source : Nat) (blame reporter : U32) (info : Nat) : Device :=
  { d with hub := { d.hub with reports := d.hub.reports ++
      [{ source := source, time := d.time, blame := blame, reporter := reporter, info := BitVec.ofNat 32 info }] } }

/-- Report of berth source i (R415). -/
def berthReport (d : Device) (b i : Nat) (blame reporter : U32) (info : Nat) : Device :=
  report d (32 * b + i) blame reporter info

/-- Add a discard record (R235): the log holds the last 4,096. -/
def addDiscard (d : Device) (r : Discard) : Device :=
  if r.count = 0 then d
  else
    let log := d.hub.discards ++ [{ r with time := d.time }]
    odAdd { d with hub := { d.hub with discards := log.drop (log.length - 4096) } } 0x8031 0 1

/-- Saturating and wrapping 32-bit helpers of the ledger counters. -/
def inc32 (x : U32) (n : Nat) : U32 := x + BitVec.ofNat 32 n

/-! HBM pool (R242, R243): granules of 64 KiB from 0x0_5000_0000 -/

def poolBase : Nat := 0x50000000
def poolGranules : Nat := 176128
def granuleBytes : Nat := 65536
def granulesOf (bytes : Nat) : Nat := (bytes + granuleBytes - 1) / granuleBytes

/-- First granule of `n` free ones, searching the allocations in rising order. DESIGN CHOICE (assumption log 12). -/
def poolFind (n : Nat) : Nat → Tab (Nat × Nat) → Option Nat
  | at_, [] => if at_ + n ≤ poolGranules then some at_ else none
  | at_, (g, len, _) :: rest => if at_ + n ≤ g then some at_ else poolFind n (max at_ (g + len)) rest

/-- Allocate bytes of the pool: the first granule, and the berth's HBM with the allocation noted. Nothing is noted for 0 bytes. -/
def poolAlloc (h : Hbm) (bytes owner : Nat) : Option (Nat × Hbm) :=
  if granulesOf bytes = 0 then some (poolGranules, h)
  else (poolFind (granulesOf bytes) 0 h.pool).map (fun g => (g, { h with pool := Tab.set h.pool g (granulesOf bytes, owner) }))

def poolAddr (g : Nat) : Nat := poolBase + granuleBytes * g

def poolFree (h : Hbm) (gs : List Nat) : Hbm := { h with pool := gs.foldl (fun p g => Tab.erase p g) h.pool }

/-- Allocate a list of sizes; none where one finds too little. -/
def poolAllocAll (h : Hbm) (owner : Nat) : List Nat → Option (List Nat × Hbm)
  | [] => some ([], h)
  | n :: ns =>
    match poolAlloc h n owner with
    | none => none
    | some (g, h) => (poolAllocAll h owner ns).map (fun p => (g :: p.1, p.2))

/-! Pacer budget (R256) -/

def pacerBudget : Nat := 602931

def streamRates (d : Device) (b : Nat) : Nat :=
  (d.streams.filter (fun p => p.2.active && decide (odGet d (0x2400 + p.1) 2 = b))).foldl (fun n p => n + p.2.rate) 0

/-- Rates of the enabled HBM queues of a berth (R377). -/
def queueRates (d : Device) (b : Nat) : Nat :=
  (d.queues.filter (fun p => p.2.enabled && decide (odGet d (0x4000 + p.1) 3 = 1) && decide (odGet d (0x4000 + p.1) 4 = b))).foldl
    (fun n p => n + odGet d (0x4000 + p.1) 0x0B) 0

/-- Rate sum of the most demanding resident slot. -/
def slotRates (d : Device) (b : Nat) : Nat :=
  ((List.range 4).map (fun k => if 3 ≤ slotState d b k ∧ slotState d b k ≤ 6 then (slotAt d b k).rateSum else 0)).foldl max 0

def ratedSum (d : Device) (b : Nat) : Nat := streamRates d b + queueRates d b + slotRates d b

/-! HBM access -/

/-- Token of HBM at a token address, with its stored sideband. -/
def hbmToken (h : Hbm) (a : Nat) : Token :=
  { data := BitVec.ofNat 256 (memReadNat h.mem (32 * a) 32), sb := Tab.get {} h.side a }

/-- Write one token with its sideband (R241). -/
def hbmWriteToken (h : Hbm) (a : Nat) (t : Token) : Hbm :=
  { h with
    mem := memWriteNat h.mem (32 * a) 32 t.data.toNat
    side := if t.sb = {} then Tab.erase h.side a else Tab.set h.side a t.sb
    err := Tab.erase h.err a }

/-- The bytes [a, a + n) touch the token with address t, and cover all of it. -/
def touchesToken (a n t : Nat) : Bool := decide (32 * t < a + n) && decide (a < 32 * t + 32)
def coversToken (a n t : Nat) : Bool := decide (a ≤ 32 * t) && decide (32 * t + 32 ≤ a + n)

/-- Write bytes with sideband 0, as the light agent and firmware do (R257). Codes are written afresh (R241), but a token that reads
uncorrectable and is not written whole keeps its damaged payload. -/
def hbmWriteBytes (h : Hbm) (a : Nat) (bs : List Byte) : Hbm :=
  { h with
    mem := memWriteBytes h.mem a bs
    side := h.side.filter (fun p => !touchesToken a bs.length p.1)
    err := h.err.filter (fun e => !touchesToken a bs.length e.1 || (!coversToken a bs.length e.1 && decide (e.2.payload = 2))) }

/-- First byte of slot k's image in the configuration store (R242). -/
def slotStore (k : Nat) : Nat := 0x10000000 * k

/-! Time -/

/-- Device time counts in `ms` milliseconds. -/
def msCounts (ms : Nat) : Nat := 100000 * ms

/-- Change a Tab entry of a berth's counters (object 0x3100 + b). -/
def berthCount (d : Device) (b sub n : Nat) : Device := odAdd d (0x3100 + b) sub n

end Sys2Proof.Machine
end

