-- ==== Sys2Proof/Machine/Events.lean ====
section
/-! DEFINITION. Events (R381 to R386): routing, pending records, host event queues, interrupts, and their commands. -/

namespace Sys2Proof.Machine

def evqAt (d : Device) (h : Nat) : EventQueue := Tab.get {} d.evqs h
def setEvq (d : Device) (h : Nat) (q : EventQueue) : Device := { d with evqs := Tab.set d.evqs h q }
def evqEnabled (d : Device) (h : Nat) : Bool := odFlag d (0x8180 + h) 1
def evqEntries (d : Device) (h : Nat) : Nat := odGet d (0x8180 + h) 3

/-- Full for R383: disabled, no DMA (R458), or no free entry (R366). -/
def evqFull (d : Device) (h : Nat) : Bool :=
  let q := evqAt d h
  !evqEnabled d h || !d.pcie.busMaster || decide (evqEntries d h ≤ (q.pi - q.ci).toNat + 1)

/-- Event record (Table 15-11). -/
def eventRecord (cls source info count time : Nat) : BitVec 128 :=
  BitVec.ofNat 128 (time % 2 ^ 64 + source % 1024 * 2 ^ 64 + cls % 4 * 2 ^ 78 + count % 65536 * 2 ^ 80 + info % 2 ^ 32 * 2 ^ 96)

/-- Signal an MSI-X vector, or hold it pending while it is masked or Bus Master Enable is 0 (R385, R458). -/
def signalVector (d : Device) (v : Nat) : Device :=
  if d.pcie.unmasked.contains v && d.pcie.busMaster then
    { d with pcie := { d.pcie with signalled := d.pcie.signalled ++ [v] } }
  else if d.pcie.pending.contains v then d
  else { d with pcie := { d.pcie with pending := d.pcie.pending ++ [v] } }

/-- R385: with ARM set and records unread, clear ARM and signal vector h. -/
def evqInterrupt (d : Device) (h : Nat) : Device :=
  let q := evqAt d h
  if q.arm && decide (q.pi ≠ q.ci) then signalVector (setEvq d h { q with arm := false }) h else d

/-- Sources that hold a record pending for host event queue h. -/
def evqPending (d : Device) (h : Nat) : Nat := (d.pendingEv.filter (fun p => p.2.target = 0x10 + h)).length

/-- The 8-byte status block of a host event queue (R384). -/
def evqStatus (d : Device) (h : Nat) : Device :=
  let a := odGet d (0x8180 + h) 4
  if a = 0 || !d.pcie.busMaster then d
  else { d with hostMem := memWriteNat d.hostMem a 8 ((evqAt d h).pi.toNat + 2 ^ 32 * evqPending d h) }

/-- Write a record into a host event queue that has space. -/
def evqWrite (d : Device) (h : Nat) (r : BitVec 128) : Device :=
  let q := evqAt d h
  let e := q.pi.toNat % evqEntries d h
  let d := { d with hostMem := memWriteNat d.hostMem (odGet d (0x8180 + h) 2 + 16 * e) 16 r.toNat }
  evqInterrupt (evqStatus (setEvq d h { q with pi := q.pi + 1, slots := Tab.set q.slots e r }) h) h

/-- Deliver a record to a purser's event queue: its firmware takes it (assumption log 13). -/
def purserWrite (d : Device) (p : Nat) (r : BitVec 128) : Device :=
  let q := Tab.get {} d.purserEvq p
  { d with purserEvq := Tab.set d.purserEvq p { q with pi := q.pi + 1, ci := q.pi + 1, slots := [(0, r)] } }

/-- Class and source number of a pending key. -/
def eventClass (key : Nat) : Nat := if 65536 ≤ key then 2 else if 1024 ≤ key then 1 else 0
def eventNumber (key : Nat) : Nat := if 65536 ≤ key then 0 else if 1024 ≤ key then (key - 1024) % 64 else key

/-- An occurrence for a target (R383): a record of its own where there is space, else the source's pending record. -/
def deliver (d : Device) (key target info count : Nat) : Device :=
  if target < 6 then purserWrite d target (eventRecord (eventClass key) (eventNumber key) info count d.time)
  else if target < 0x10 ∨ 0x2F < target then d
  else
    let h := target - 0x10
    if !evqFull d h then evqWrite d h (eventRecord (eventClass key) (eventNumber key) info count d.time)
    else match Tab.find d.pendingEv key with
      | none =>
        { d with pendingEv := Tab.set d.pendingEv key { time := d.time, info := BitVec.ofNat 32 info, count := count, target := target } }
      | some p =>
        let total := p.count + count
        let d := { d with pendingEv := Tab.set d.pendingEv key { p with info := BitVec.ofNat 32 info, count := min total 65535 } }
        if key < 1024 ∧ 65535 < total then odAdd d (0x8120 + key / 128) (key % 128 + 1) (total - 65535) else d

/-- An occurrence of a shared source: counted, and delivered where its routing entry has EN = 1 (R381). -/
def sharedEvent (d : Device) (n info count : Nat) : Device :=
  let d := odAdd d (0x8110 + n / 128) (n % 128 + 1) 1
  let route := odGet d (0x8100 + n / 128) (n % 128 + 1)
  if route / 32768 % 2 = 1 then deliver d n (route % 256) info count else d

/-- Berth event k of Table 15-10. -/
def berthEvent (d : Device) (b k info : Nat) : Device := sharedEvent d (0x200 + 16 * b + k) info 1

/-- The pending record with the earliest TIME for host event queue h, ties to the lower source. -/
def firstPending (d : Device) (h : Nat) : Option (Nat × PendingEvent) :=
  (d.pendingEv.filter (fun p => p.2.target = 0x10 + h)).foldl
    (fun best p => match best with
      | none => some p
      | some q => if p.2.time < q.2.time then some p else some q) none

/-- Let one pending record enter its queue, if there is space. -/
def enterPending (d : Device) (h : Nat) : Device :=
  match firstPending d h with
  | none => d
  | some (key, p) =>
    if evqFull d h then d
    else evqWrite { d with pendingEv := Tab.erase d.pendingEv key } h
      (eventRecord (eventClass key) (eventNumber key) p.info.toNat p.count p.time)

/-- Let pending records enter while space lasts. -/
def enterAll : Nat → Device → Nat → Device
  | 0, d, _ => d
  | n + 1, d, h => if evqFull d h || decide (evqPending d h = 0) then d else enterAll n (enterPending d h) h

/-- Event-queue doorbell (Table 15-12): one update of CI and ARM; a narrow, early or impossible one is ignored (R384). -/
def eventDoorbell (d : Device) (h bytes : Nat) (w : U64) : Device :=
  let q := evqAt d h
  let civ := bit w 32
  let ci : U32 := BitVec.ofNat 32 (fld w 31 0)
  if bytes ≠ 8 || !firmwareReady d || !evqEnabled d h then d
  else if civ && decide ((q.pi - q.ci).toNat < (q.pi - ci).toNat) then d
  else
    let q := { q with
      ci := if civ then ci else q.ci
      arm := q.arm || bit w 62 }
    evqInterrupt (setEvq d h q) h

/-- Fields that ENABLE of a host event queue checks: ENTRIES a power of two and BASE aligned (Table 15-14). -/
def isPow2 (n : Nat) : Bool := (List.range 33).any (fun k => n = 2 ^ k)

/-- ENABLE of host event queue h becomes TRUE (R384). -/
def evqEnable (d : Device) (h : Nat) : Device :=
  if evqEnabled d h || !isPow2 (evqEntries d h) || decide (odGet d (0x8180 + h) 2 % min (16 * evqEntries d h) 4096 ≠ 0) then d
  else
    let d := odPut d (0x8180 + h) 1 1
    let d := setEvq d h { evqAt d h with pi := 0, ci := 0, arm := false, slots := [] }
    enterAll d.pendingEv.length (evqStatus d h) h

/-! The commands -/

def eventSrcKey : EventSrc → Nat
  | .shared n => n.val
  | .priv c n => 1024 + 64 * c.val + n.val
  | .queue q => 65536 + q.val

/-- EVENT_OCCURRENCE (R383). -/
def execEventOccurrence (src : EventSrc) (info : U32) (s : State) : Host.Outcome State Fault Refusal :=
  onDev (fun d => match src with
    | .shared n => sharedEvent d n.val info.toNat 1
    | .priv c n => deliver d (1024 + 64 * c.val + n.val) c.val info.toNat 1
    | .queue q =>
      let evq := odGet d (0x4000 + q.val) 0x0A
      if evq < 32 then deliver d (65536 + q.val) (0x10 + evq) q.val 1 else d) s

/-- EVENT_PENDING_ENTER (R383). -/
def execEventPendingEnter (h : Fin 32) (s : State) : Host.Outcome State Fault Refusal :=
  onDev (fun d => enterPending d h.val) s

/-- EVENT_DOORBELL_CI (R384). -/
def execEventDoorbellCi (h : Fin 32) (bytes : Nat) (w : U64) (s : State) : Host.Outcome State Fault Refusal :=
  onDev (fun d => eventDoorbell d h.val bytes w) s

/-- EVENT_DOORBELL_ARM (R385): the same doorbell write, named for its ARM bit. -/
def execEventDoorbellArm (h : Fin 32) (bytes : Nat) (w : U64) (s : State) : Host.Outcome State Fault Refusal :=
  onDev (fun d => eventDoorbell d h.val bytes w) s

/-- EVENT_QUEUE_ENABLE (R384). -/
def execEventQueueEnable (h : Fin 32) (s : State) : Host.Outcome State Fault Refusal :=
  onDev (fun d => evqEnable d h.val) s

/-- A vector is unmasked: one held pending is signalled (R385). -/
def unmaskVector (d : Device) (v : Nat) : Device :=
  let d := { d with pcie := { d.pcie with
    unmasked := if d.pcie.unmasked.contains v then d.pcie.unmasked else d.pcie.unmasked ++ [v] } }
  if d.pcie.pending.contains v && d.pcie.busMaster then
    signalVector { d with pcie := { d.pcie with pending := d.pcie.pending.filter (· ≠ v) } } v
  else d

def maskVector (d : Device) (v : Nat) : Device :=
  { d with pcie := { d.pcie with unmasked := d.pcie.unmasked.filter (· ≠ v) } }

/-- MSI_X_VECTOR_UNMASK (R385). -/
def execMsiXVectorUnmask (v : Fin 33) (s : State) : Host.Outcome State Fault Refusal :=
  onDev (fun d => unmaskVector d v.val) s

end Sys2Proof.Machine
end

