-- ==== Sys2Proof/Machine/Queues.lean ====
section
/-! DEFINITION. The ring model of the hardware queues and of the streams' internal queues (R364 to R377, R494), and the
commands of the queue records and doorbells. -/

namespace Sys2Proof.Machine

def qf (d : Device) (q sub : Nat) : Nat := odGet d (0x4000 + q) sub
def ringOf (d : Device) (q : Nat) : Ring := Tab.get {} d.queues q
def setRing (d : Device) (q : Nat) (r : Ring) : Device := { d with queues := Tab.set d.queues q r }
def qEntries (d : Device) (q : Nat) : Nat := qf d q 6
def qBytes (d : Device) (q : Nat) : Nat := qf d q 5
def qLoc (d : Device) (q : Nat) : Nat := qf d q 3
def qDir (d : Device) (q : Nat) : Nat := qf d q 2

/-- Entries that a ring holds (R366). -/
def ringHeld (r : Ring) : Nat := (r.pi - r.ci).toNat

def setPi (r : Ring) (v : U32) : Ring := { r with pi := v, piCopy := v }
def setCi (r : Ring) (v : U32) : Ring := { r with ci := v, ciCopy := v }

/-- Key of an item: KVALID, stream and FCOUNT (R371). -/
def itemKey (stream : Nat) (fcount : U32) : U64 := BitVec.ofNat 64 (2 ^ 63 + stream % 1024 * 2 ^ 32 + fcount.toNat)

/-- F of a key's frame, or 0 (R493). -/
def keyF (key : Nat) : Nat := if 2 ^ 63 ≤ key then key % 4096 else 0

/-- The 32 bytes of a gap marker (Table 15-4). -/
def gapBytes (g : Gap) : List Byte :=
  leBytes 32 (0xFE + g.cause * 2 ^ 8 + g.count % 2 ^ 32 * 2 ^ 32 + g.firstSeq.toNat * 2 ^ 64 + g.lastSeq.toNat * 2 ^ 96
    + g.firstKey.toNat * 2 ^ 128 + g.lastKey.toNat * 2 ^ 192)

/-- A drop joins the pending marker of its cause, or opens one (R370). -/
def joinGap (cause : Nat) (seq : U32) (key : U64) : List Gap → List Gap
  | [] => [{ cause := cause, count := 1, firstSeq := seq, lastSeq := seq, firstKey := key, lastKey := key }]
  | g :: gs =>
    if g.cause = cause then { g with count := g.count + 1, lastSeq := seq, lastKey := key } :: gs
    else g :: joinGap cause seq key gs

/-- Entries of an item: flag bits and bytes, padded with 0 (R367). -/
def itemEntries (ebytes : Nat) (item : List Byte) : List (Nat × List Byte) :=
  let n := (item.length + ebytes - 1) / ebytes
  (List.range n).map (fun i => ((if i = 0 then 1 else 0) + (if i + 1 = n then 2 else 0), sliceBytes item (ebytes * i) ebytes))

/-- A gap marker's entry: GAP, FIRST and LAST set (R371). -/
def gapEntry (ebytes : Nat) (g : Gap) : Nat × List Byte := (7, sliceBytes (gapBytes g) 0 ebytes)

/-- What an offer does to a ring (R370, R371): the ring after it, and the entries to publish; none of them where the item
is dropped. `up` says that the ring is enabled, `room` that entries may be written at all. -/
def ringOffer (r : Ring) (entries ebytes : Nat) (up room : Bool) (item : List Byte) (key : U64) :
    Ring × List (Nat × List Byte) :=
  let seq := r.iseq
  let r := { r with iseq := r.iseq + 1 }
  let es := itemEntries ebytes item
  if up && room && decide (es.length + r.gaps.length ≤ entries - 1 - ringHeld r) then
    ({ r with gaps := [], items := satAdd top64 r.items 1 }, r.gaps.map (gapEntry ebytes) ++ es)
  else
    ({ r with
      dropped := satAdd top64 r.dropped 1
      gaps := joinGap (if up then 0 else 2) seq key r.gaps }, [])

/-- Put published entries into the ring and advance PI over them (R366). The slot keeps flags and key; the bytes lie where the ring
lies, in host memory or HBM, unless `keep` says that the slot holds them. -/
def ringPublish (r : Ring) (entries : Nat) (keep : Bool) (key : Nat) : List (Nat × List Byte) → Ring
  | [] => r
  | (fl, bs) :: es =>
    ringPublish (setPi { r with
      slots := Tab.set r.slots (r.pi.toNat % entries) (fl + 8 * key, if keep then bs else [])
      pube := r.pube + 1 } (r.pi + 1)) entries keep key es

/-- Status block (Table 15-2). -/
def statusBlock (r : Ring) : Nat :=
  r.pi.toNat + r.ci.toNat * 2 ^ 32 + r.fepoch.toNat * 2 ^ 64 + b2n r.enabled * 2 ^ 72 + b2n (!r.gaps.isEmpty) * 2 ^ 73
    + r.iseq.toNat * 2 ^ 96 + r.dropped % 2 ^ 64 * 2 ^ 128 + r.resets.toNat * 2 ^ 192

/-- Write the status block of a host queue that names an address (R368, R458). -/
def writeStatus (d : Device) (q : Nat) : Device :=
  let a := qf d q 9
  if qLoc d q ≠ 0 ∨ a = 0 ∨ d.pcie.busMaster = false then d
  else { d with hostMem := memWriteNat d.hostMem a 32 (statusBlock (ringOf d q)) }

/-- Write entries and flag bytes of a host queue by DMA (R368). -/
def dmaEntries (d : Device) (q : Nat) (pi : Nat) : List (Nat × List Byte) → Device
  | [] => d
  | (fl, bs) :: es =>
    let e := pi % qEntries d q
    let m := memWriteBytes d.hostMem (qf d q 7 + e * qBytes d q) bs
    dmaEntries { d with hostMem := memWrite m (qf d q 8 + e) (BitVec.ofNat 8 fl) } q (pi + 1) es

/-- Write the bytes of entries into a ring that lies in HBM. -/
def storeEntries (h : Hbm) (base ebytes n : Nat) : Nat → List (Nat × List Byte) → Hbm
  | _, [] => h
  | pi, (_, bs) :: es => storeEntries (hbmWriteBytes h (base + pi % n * ebytes) bs) base ebytes n (pi + 1) es

/-- Write entries of an HBM queue into its berth's pool. Its flag ring lies behind the ring: DESIGN CHOICE (assumption log 126). -/
def hbmEntries (d : Device) (q pi : Nat) (es : List (Nat × List Byte)) : Device :=
  let n := qEntries d q
  let base := qf d q 7
  let flags := es.map (fun e => (e.1, [BitVec.ofNat 8 e.1]))
  let store := fun (h : Hbm) => storeEntries (storeEntries h base (qBytes d q) n pi es) (base + n * qBytes d q) 1 n pi flags
  modBerth d (qf d q 4) (fun x => { x with hbm := store x.hbm })

/-- R386: an armed queue that meets its condition delivers its queue event and clears ARM. -/
def queueEvent (d : Device) (q : Nat) : Device :=
  let r := ringOf d q
  let evq := qf d q 0x0A
  let due := if qDir d q = 0 then decide (r.pi ≠ r.ci) else decide (qEntries d q / 2 ≤ qEntries d q - 1 - ringHeld r)
  if r.enabled && r.arm && due && decide (evq < 32) then
    deliver (setRing d q { r with arm := false }) (65536 + q) (0x10 + evq) q 1
  else d

/-- Offer an item to hardware queue q (R370). -/
def offerItem (d : Device) (q : Nat) (item : List Byte) (key : U64) : Device :=
  let r := ringOf d q
  let room := decide (qLoc d q = 1) || d.pcie.busMaster
  let (r', es) := ringOffer r (qEntries d q) (qBytes d q) r.enabled room item key
  let d := if qLoc d q = 0 then dmaEntries d q r.pi.toNat es else hbmEntries d q r.pi.toNat es
  let d := setRing d q (ringPublish r' (qEntries d q) false key.toNat es)
  if es.isEmpty then d else queueEvent (writeStatus d q) q

/-- Offer to the queue that a binding names; 0xFFFF names none (R378). -/
def offerTo (d : Device) (q : Nat) (item : List Byte) (key : U64) : Device :=
  if q < 16384 ∧ qDir d q = 0 then offerItem d q item key else d

/-- Discard record of the hardware queue entries from `oldest` on (R493). -/
def discardEntries (d : Device) (q cause count : Nat) (oldest : U32) : Device :=
  let first := (Tab.get (0, []) (ringOf d q).slots (oldest.toNat % qEntries d q)).1 / 8
  addDiscard d { qid := q, berth := if qLoc d q = 1 then qf d q 4 else 0, cause := cause, f := keyF first, qkind := 1, count := count }

/-- Discard record of a hardware queue's unread entries. -/
def queueDiscard (d : Device) (q cause count : Nat) : Device := discardEntries d q cause count (ringOf d q).ci

/-- A flush (R372). -/
def flushQueue (d : Device) (q cause : Nat) : Device :=
  let r := ringOf d q
  let n := ringHeld r
  let d := queueDiscard d q cause n
  let r := setCi { r with flushed := satAdd top64 r.flushed n, fepoch := r.fepoch + 1, slots := [] } r.pi
  writeStatus (setRing d q r) q

/-- A queue reset (R373). -/
def resetQueue (d : Device) (q : Nat) : Device :=
  let r := ringOf d q
  let n := (r.pube - r.conse - BitVec.ofNat 32 r.flushed).toNat
  -- the oldest entry, by the pointer whose copies agree
  let oldest := if r.pi = r.piCopy then r.pi - BitVec.ofNat 32 n else r.ci
  let d := discardEntries d q 6 n oldest
  let gaps := r.gaps.filter (fun g => g.cause ≠ 0 ∧ g.cause ≠ 1)
  let r := setCi (setPi { r with
    flushed := satAdd top64 r.flushed n
    fepoch := r.fepoch + 1
    resets := r.resets + 1
    gaps := gaps ++ [{ cause := 1, count := n }]
    slots := [] } 0) 0
  report (writeStatus (setRing d q r) q) 0x086 (tag 8 0 q) (tag 8 0 q) q

def badDoorbell (d : Device) (q : Nat) : Device :=
  let r := ringOf d q
  setRing d q { r with badDoorbells := satAdd top32 r.badDoorbells 1 }

/-- A queue doorbell (R369, Table 15-3): one update, or ignored and counted. -/
def queueDoorbell (d : Device) (q bytes : Nat) (w : U64) : Device :=
  let r := ringOf d q
  let ptr : U32 := BitVec.ofNat 32 (fld w 31 0)
  let ptrv := bit w 32 && !bit w 63
  let moved := if qDir d q = 0 then (ptr - r.ci).toNat else (ptr - r.pi).toNat
  let room := if qDir d q = 0 then ringHeld r else qEntries d q - 1 - ringHeld r
  if !firmwareReady d then d
  else if bytes ≠ 8 || !r.enabled || decide (fld w 47 40 ≠ r.fepoch.toNat) || (ptrv && decide (room < moved)) then badDoorbell d q
  else
    let r := { r with arm := r.arm || bit w 62 }
    let d := setRing d q r
    let d :=
      if bit w 63 then flushQueue d q 0
      else if ptrv && decide (qDir d q = 0) then setRing d q (setCi { r with conse := inc32 r.conse moved } ptr)
      else if ptrv then setRing d q (setPi { r with pube := inc32 r.pube moved } ptr)
      else d
    queueEvent (writeStatus d q) q

/-- Fields that ENABLE checks (R365): 0 good, 1 pool, 2 pacer, 3 bad field. -/
def queueCheck (d : Device) (q : Nat) : Nat :=
  let n := qEntries d q
  let eb := qBytes d q
  if !(isPow2 n && decide (16 ≤ n ∧ n ≤ 65536) && ([32, 64, 128, 256].contains eb)) then 3
  else if qLoc d q = 0 then
    (if qf d q 7 % min (eb * n) 4096 = 0 ∧ qf d q 8 % n = 0 then 0 else 3)
  else if (poolFind (granulesOf (n * eb + n)) 0 (berthAt d (qf d q 4)).hbm.pool).isNone then 1
  else if pacerBudget < ratedSum d (qf d q 4) + qf d q 0x0B then 2
  else 0

/-- ENABLE becomes TRUE (R376): checks, cleared pointers and counters, FEPOCH, status block. The pending marker of the
disabled time stays pending. -/
def enableQueue (d : Device) (q : Nat) : Device :=
  let c := queueCheck d q
  if (ringOf d q).enabled then d
  else if c ≠ 0 then odPut d (0x4000 + q) 0x0D c
  else
    let r := ringOf d q
    let d := odPut (odPut d (0x4000 + q) 0x0D 0) (0x4000 + q) 1 1
    let d := if qLoc d q = 1 then
        (match poolAlloc (berthAt d (qf d q 4)).hbm (qEntries d q * qBytes d q + qEntries d q) (0x20000 + q) with
          | some (g, h) => odPut (modBerth d (qf d q 4) (fun x => { x with hbm := h })) (0x4000 + q) 7 (poolAddr g)
          | none => d)
      else d
    writeStatus (setRing d q { enabled := true, fepoch := r.fepoch + 1, gaps := r.gaps }) q

/-- ENABLE becomes FALSE (R376): a flush, and the pool of an HBM queue is freed (R243). -/
def disableQueue (d : Device) (q : Nat) : Device :=
  if (ringOf d q).enabled then
    let d := flushQueue d q 5
    let d := odPut (setRing d q { ringOf d q with enabled := false }) (0x4000 + q) 1 0
    let d := if qLoc d q = 1 then
        modBerth d (qf d q 4) (fun x => { x with hbm := { x.hbm with pool := x.hbm.pool.filter (fun p => p.2.2 ≠ 0x20000 + q) } })
      else d
    writeStatus d q
  else d

/-- Flag bytes of the first whole item of a ring, from entry i after its consumer pointer. -/
def firstItem (r : Ring) (entries : Nat) : Nat → Nat → List Nat
  | 0, _ => []
  | n + 1, i =>
    let fl := (Tab.get (0, []) r.slots ((r.ci.toNat + i) % entries)).1
    if fl / 2 % 2 = 1 then [fl % 8] else fl % 8 :: firstItem r entries n (i + 1)

/-- Byte address of entry i after the consumer pointer of an HBM queue. -/
def entryAddr (d : Device) (q i : Nat) : Nat := qf d q 7 + ((ringOf d q).ci.toNat + i) % qEntries d q * qBytes d q

/-- Flag byte and contents of entries of an HBM queue, as its berth's HBM holds them. -/
def readEntries (d : Device) (q : Nat) (fls : List Nat) : List Byte :=
  fls.zipIdx.flatMap (fun e => BitVec.ofNat 8 e.1 :: memReadBytes (berthAt d (qf d q 4)).hbm.mem (entryAddr d q e.2) (qBytes d q))

/-- A read of DATA of a DIR 0 HBM queue (R377): whole items with their flag bytes, up to `len` bytes. -/
def dataRead : Nat → Device → Nat → Nat → Device × List Byte
  | 0, d, _, _ => (d, [])
  | n + 1, d, q, len =>
    let r := ringOf d q
    let es := firstItem r (qEntries d q) (ringHeld r) 0
    let bytes := readEntries d q es
    if ringHeld r = 0 ∨ len < bytes.length ∨ es.isEmpty then (d, [])
    else
      let d := setRing d q (setCi { r with conse := inc32 r.conse es.length } (r.ci + BitVec.ofNat 32 es.length))
      let (d, rest) := dataRead n d q (len - bytes.length)
      (d, bytes ++ rest)

/-- An item appended to a DIR 1 HBM queue (R377). -/
def dataWrite (d : Device) (q : Nat) (item : List Byte) (gap : Bool) : Device :=
  let r := ringOf d q
  let es := itemEntries (qBytes d q) item
  let es := if gap then es.map (fun e => (7, e.2)) else es
  if r.enabled && decide (qLoc d q = 1) && decide (qDir d q = 1) && decide (es.length ≤ qEntries d q - 1 - ringHeld r) then
    setRing (hbmEntries d q r.pi.toNat es) q (ringPublish r (qEntries d q) false 0 es)
  else d

/-- The device consumes one item of `n` entries of a host-produced queue (R370, R494); a gap marker is counted. -/
def consumeItem (d : Device) (q n : Nat) (gap : Bool) : Device :=
  let r := ringOf d q
  let n := min n (ringHeld r)
  let r := setCi { r with
    conse := inc32 r.conse n
    items := satAdd top64 r.items 1
    iseq := r.iseq + 1
    gapsSeen := if gap then satAdd top32 r.gapsSeen 1 else r.gapsSeen } (r.ci + BitVec.ofNat 32 n)
  queueEvent (writeStatus (setRing d q r) q) q

/-- The oldest entry of a host-produced HBM queue is a gap marker of the host (R370). -/
def hostGap (d : Device) (q : Nat) : Bool :=
  let r := ringOf d q
  r.enabled && decide (qLoc d q = 1) && decide (qDir d q = 1) && decide (0 < ringHeld r)
    && decide ((Tab.get (0, []) r.slots (r.ci.toNat % qEntries d q)).1 / 4 % 2 = 1)

/-- What the device reads from a queue in host memory is a gap marker: its MTYPE is that of Table 15-4. The flag byte is the host's and no
command shows it: DESIGN CHOICE (assumption log 127). -/
def markerBytes (mtype : Nat) : Bool := decide (mtype = 0xFE)

/-- The device consumes the gap markers at the head of a host-produced queue and counts them (R370). -/
def takeHostGaps : Nat → Device → Nat → Device
  | 0, d, _ => d
  | k + 1, d, q => if hostGap d q then takeHostGaps k (consumeItem d q 1 true) q else d

/-- All of them. -/
def dropHostGaps (d : Device) (q : Nat) : Device := takeHostGaps (ringHeld (ringOf d q)) d q

/-! The commands -/

/-- QUEUE_POINTER_MISMATCH (R373): the copies are compared on every update. -/
def execQueuePointerMismatch (q : Fin 16384) (s : State) : Host.Outcome State Fault Refusal :=
  onDev (guarded (fun d => let r := ringOf d q.val; decide (r.pi ≠ r.piCopy) || decide (r.ci ≠ r.ciCopy))
    (fun d => resetQueue d q.val)) s

/-- QUEUE_DOORBELL_POINTER (R369). -/
def execQueueDoorbellPointer (q : Fin 16384) (bytes : Nat) (w : U64) (s : State) : Host.Outcome State Fault Refusal :=
  onDev (fun d => queueDoorbell d q.val bytes w) s

/-- QUEUE_DOORBELL_ARM (R386): the same doorbell write, named for its ARM bit. -/
def execQueueDoorbellArm (q : Fin 16384) (bytes : Nat) (w : U64) (s : State) : Host.Outcome State Fault Refusal :=
  onDev (fun d => queueDoorbell d q.val bytes w) s

/-- QUEUE_DOORBELL_FLUSH (R372): the same doorbell write, named for its FLUSH bit. -/
def execQueueDoorbellFlush (q : Fin 16384) (bytes : Nat) (w : U64) (s : State) : Host.Outcome State Fault Refusal :=
  onDev (fun d => queueDoorbell d q.val bytes w) s

/-- QUEUE_FLUSH_COMMAND (R372). -/
def execQueueFlushCommand (q : Fin 16384) (s : State) : Host.Outcome State Fault Refusal :=
  onDev (fun d => flushQueue d q.val 0) s

/-- QUEUE_ENABLE (R376). -/
def execQueueEnable (q : Fin 16384) (s : State) : Host.Outcome State Fault Refusal :=
  onDev (fun d => enableQueue d q.val) s

/-- QUEUE_DISABLE (R376). -/
def execQueueDisable (q : Fin 16384) (s : State) : Host.Outcome State Fault Refusal :=
  onDev (fun d => disableQueue d q.val) s

/-- QUEUE_DATA_READ (R377). -/
def execQueueDataRead (q : Fin 16384) (len : Nat) (s : State) : Host.Outcome State Fault Refusal :=
  onDev (guarded (fun d => decide (qLoc d q.val = 1) && decide (qDir d q.val = 0))
    (fun d => (dataRead (ringHeld (ringOf d q.val)) d q.val len).1)) s

/-- QUEUE_DATA_WRITE (R377). -/
def execQueueDataWrite (q : Fin 16384) (item : List Byte) (gap : Bool) (s : State) : Host.Outcome State Fault Refusal :=
  onDev (fun d => dataWrite d q.val item gap) s

end Sys2Proof.Machine
end

