-- ==== Sys2Proof/Machine/Frames.lean ====
section
/-! DEFINITION. Frame-store entries, a stream's internal queues and states, and what happens to frames that are fed, held,
dropped or released (R259, R260, R315, R316, R354, R362). -/

namespace Sys2Proof.Machine

def strm (d : Device) (n sub : Nat) : Nat := odGet d (0x2400 + n) sub
def strmBerth (d : Device) (n : Nat) : Nat := (streamAt d n).home.getD (strm d n 2)

/-- Set a stream's STATE and raise the stream state change event (Table 15-10). -/
def setStreamState (d : Device) (n st : Nat) : Device :=
  if strm d n 0x1B = st then d
  else berthEvent (odPut d (0x2400 + n) 0x1B st) (strmBerth d n) 4 (n + st * 4096)

/-- Streams of a berth, in rising order. -/
def berthStreams (d : Device) (b : Nat) : List Nat :=
  (d.streams.filter (fun p => strmBerth d p.1 = b)).map (·.1)

/-- Count an item as offered and dropped, without an entry (R354, R315): it joins the pending gap marker. -/
def ringDrop (r : Ring) (key : U64) : Ring :=
  { r with
    iseq := r.iseq + 1
    dropped := satAdd top64 r.dropped 1
    gaps := joinGap 0 r.iseq key r.gaps }

/-- Flush a stream's internal queue (R362, R493): 0 packet queue, 1 frame-level input queue. -/
def flushInner (d : Device) (n kind cause : Nat) (r : Ring) : Device × Ring :=
  let held := ringHeld r
  let first := (Tab.get (0, []) r.slots (r.ci.toNat % max r.entries 1)).1 / 8
  let d := addDiscard d { qid := kind * 32768 + n, berth := strmBerth d n, cause := cause, f := keyF first, qkind := 2, count := held }
  (d, setCi { r with flushed := satAdd top64 r.flushed held, fepoch := r.fepoch + 1, slots := [] } r.pi)

/-- A disabled stream with no entry left gives its buffers back (R362). -/
def freeStream (d : Device) (n : Nat) : Device :=
  let st := streamAt d n
  if strm d n 0x1B = 5 ∧ st.entries.isEmpty then
    let b := strmBerth d n
    let d := modBerth d b (fun x => { x with hbm := poolFree x.hbm st.granules })
    setStreamState (setStream d n
      { slice := st.slice
        sliceBerth := st.sliceBerth
        stale := st.stale
        inDecode := st.inDecode
        decodeFrom := st.decodeFrom
        anchor := st.anchor }) n 0
  else d

/-- Release a frame-store entry (R260). -/
def releaseEntry (d : Device) (n : Nat) (fc : U32) : Device :=
  let st := streamAt d n
  freeStream (setStream d n { st with entries := st.entries.filter (fun e => e.fcount ≠ fc) }) n

/-- Drop a fed frame (R315): its entry is released and a gap marker of the frame-level input queue counts it. -/
def dropEntry (d : Device) (n : Nat) (e : FsEntry) : Device :=
  let st := streamAt d n
  releaseEntry (setStream d n { st with inq := ringDrop st.inq (itemKey n e.fcount) }) n e.fcount

/-- `f` on every unreleased entry of a berth's streams, oldest first per stream: each has entered the first stage, and one that
waits to be fed again counts as the others do (R18). -/
def foldEntries (d : Device) (b : Nat) (f : Device → Nat → FsEntry → Device) : Device :=
  (berthStreams d b).foldl (fun d n => (streamAt d n).entries.foldl (fun d e => f d n e) d) d

/-- Replace an entry of a stream. -/
def putEntry (d : Device) (n : Nat) (e : FsEntry) : Device :=
  let st := streamAt d n
  setStream d n { st with entries := st.entries.map (fun x => if x.fcount = e.fcount then e else x) }

/-- Disposition of fed frames at a cut (R315): 1 re-feed, 2 drop, 3 hold. -/
def disposeFrames (d : Device) (b mode : Nat) : Device :=
  if mode = 1 then foldEntries d b (fun d n e => putEntry d n { e with replay := true, fed := 0, recorded := 0 })
  else if mode = 2 then foldEntries d b (fun d n e => if e.held then d else dropEntry d n e)
  else modBerth (foldEntries d b (fun d n e => putEntry d n { e with held := true })) b (fun x => { x with holdFrames := true })

/-- Release the held frames with gap markers and discard records (R316). -/
def releaseHeld (d : Device) (b : Nat) : Device :=
  let d := (berthStreams d b).foldl (fun d n => (streamAt d n).entries.foldl (fun d e =>
    if e.held then
      addDiscard (dropEntry d n e)
        { qid := 32768 + n, berth := b, cause := 1, f := e.fcount.toNat % 4096, qkind := 2, count := 1 }
    else d) d) d
  modBerth d b (fun x => { x with holdFrames := false })

/-- Hand held entries back to the restored pipeline (R316). -/
def restoreHeld (d : Device) (b : Nat) : Device :=
  let d := (berthStreams d b).foldl (fun d n => (streamAt d n).entries.foldl (fun d e =>
    if e.held then putEntry d n { e with held := false } else d) d) d
  modBerth d b (fun x => { x with holdFrames := false })

end Sys2Proof.Machine
end

