-- ==== Sys2Proof/Machine/Planes.lean ====
section
/-! DEFINITION. Configuration planes (R300 to R306, R314): loading a slot into tiles, the three release stages, cutting a
plane, and loading a slot's memory-side configuration. -/

namespace Sys2Proof.Machine

/-- Ring sideband of initial tokens (R305, R314): V = 1 under epoch e. -/
def initSides (e : BitVec 2) (iq : Tab InQueue) : Tab Sideband :=
  iq.foldl (fun m p => (List.range p.2.init).foldl (fun m s => Tab.set m (1024 * p.1 + s) { v := true, e := e }) m) []

/-- The queues of a plane as they are when its configuration has just been loaded (R231, R314). -/
def freshPlane (p : Plane) : Plane :=
  { p with
    iq := Tab.map (fun q => { q with
      occ := q.init
      head := 0
      held := 0
      reserved := 0
      mark := false
      scaleBad := false
      received := 0
      consumed := 0
      discc := 0
      returned := 0 }) p.iq
    oq := Tab.map (fun q => { q with
      cred := 0
      produced := 0
      reserved := 0
      accepted := 0
      discp := 0
      creditIn := [] }) p.oq
    side := initSides 0 p.iq
    sideBad := []
    released := 0
    live := false
    cut := false
    ctx := Tab.map (fun x => if x.state = .idle then x else
      { entry := x.entry
        state := .halt
        holdBase := x.holdBase
        holdCap := x.holdCap }) p.ctx }

/-- Granules that bytes at an address touch. -/
def inGranules (a n g : Nat) : Bool := decide (a / 8 ≤ g) && decide (8 * g < a + n)

/-- A configuration write of whole words: what it writes holds no error (R41). -/
def loadBytes (t : Tile) (a : Nat) (bs : List Byte) : Tile :=
  { t with
    mem := memWriteBytes t.mem a bs
    ecc := t.ecc.filter (fun e => !inGranules a bs.length e.1) }

/-- Zeros from address a to address e. -/
def clearBytes (t : Tile) (a e : Nat) : Tile :=
  { t with
    mem := memClear a e t.mem
    ecc := t.ecc.filter (fun x => !inGranules a (e - a) x.1) }

/-- Replace a whole block memory by cells given by their offset in it. -/
def writeBlock (t : Tile) (bm : Nat) (cs : List Host.Cell) : Tile :=
  let t := clearBytes t (32768 * bm) (32768 * bm + 32768)
  { t with mem := cs.foldl (fun m e => memWrite m (32768 * bm + e.1) e.2) t.mem }

/-- Write an image's content and aspect modes for one logical position into a tile. -/
def writeContent (img : Image) (lk : Nat) (t : Tile) : Tile :=
  let t := img.content.foldl (fun t c => if c.1 = lk then loadBytes t c.2.1 c.2.2 else t) t
  img.regions.foldl (fun t r => if r.tile = lk then { t with bmMode := Tab.set t.bmMode r.bm r.mode } else t) t

/-- The pairs of an A-tile (R271). -/
def planePairs (a : AdaptReg) : List (Nat × Nat) := [(a.pa0, a.pb0), (a.pa1, a.pb1), (a.pa2, a.pb2)].take a.npair

/-- Content of one block memory, by offset in it. -/
def blockBytes (m : Mem) (bm : Nat) : List Host.Cell :=
  (m.filter (fun c => decide (32768 * bm ≤ c.1) && decide (c.1 < 32768 * (bm + 1)))).map (fun c => (c.1 - 32768 * bm, c.2))

/-- The state records of an adapted layer as they are after a configuration load: every code 0, KM = KV = 1 (R272). -/
def freshRecords (l : HeadLayer) (t : Tile) : Tile :=
  let a := 32768 * l.states.1 + 16 * l.states.2.1
  (List.range (l.states.2.2 / 4)).foldl (fun t i => { t with mem := memWriteNat t.mem (a + 64 * i + 48) 2 0x0101 })
    (clearBytes t a (a + 16 * l.states.2.2))

/-- What a head tile holds after a configuration load: fresh state records, and both planes alike (R272). -/
def headContent (img : Image) (lk : Nat) (t : Tile) : Tile :=
  match img.head, Tab.find img.planes lk with
  | some h, some p =>
    if h.tiles.contains lk then
      let t := (h.layers.filter (fun l => l.tile = lk)).foldl (fun t l => freshRecords l t) t
      (planePairs p.adapt).foldl (fun t q => writeBlock t q.2 (blockBytes t.mem q.1)) t
    else t
  | _, _ => t

/-- The scale state tables of a position with VALID = 0 in every entry (R96): 8 KiB. -/
def resetScaleTables (img : Image) (lk : Nat) (t : Tile) : Tile :=
  img.scaleTables.foldl (fun t r => if r.tile = lk then clearBytes t r.base (r.base + 8192) else t) t

/-- Load the plane and regions of slot k of a logical position into a tile (R50, R303). -/
def loadTile (img : Image) (k lk : Nat) (t : Tile) : Tile :=
  match Tab.find img.planes lk with
  | none => t
  | some p =>
    let t := headContent img lk (resetScaleTables img lk (writeContent img lk t))
    { setPlane t k { freshPlane p with
        loaded := true
        adapt := { p.adapt with apl := false, hold := false }
        swap := {} } with stall := [], stallSeen := [] }

/-- Load a slot into every tile of its image (R303). -/
def loadSlotTiles (d : Device) (b k : Nat) (img : Image) : Device :=
  img.planes.foldl (fun d p => modTile d b (physKey d b (p.1 / 32) (p.1 % 32)) (loadTile img k p.1)) d

/-- Used physical tiles of a slot. -/
def slotTiles (d : Device) (b k : Nat) : List Nat :=
  match (slotAt d b k).image with
  | none => []
  | some img => List.map (fun (p : Nat × Plane) => physKey d b (p.1 / 32) (p.1 % 32)) img.planes

/-- `f` on plane k of every used tile of a slot. -/
def mapPlanes (d : Device) (b k : Nat) (f : Plane → Plane) : Device :=
  (slotTiles d b k).foldl (fun d key => modTile d b key (fun t => setPlane t k (f (planeAt t k)))) d

/-! Release stages (R305) -/

/-- Stage 1: outputs. -/
def stage1Tile (k : Nat) (t : Tile) : Tile :=
  setPlane { t with outEnabled := true } k { planeAt t k with released := 1 }

/-- Give every token held in a WEIGHT ring the plane's epoch. -/
def weightEpoch (e : BitVec 2) (p : Plane) : Plane :=
  { p with side := p.iq.foldl (fun m q =>
      if q.2.kind = .weight then
        (List.range q.2.occ).foldl (fun m i =>
          let s := 1024 * q.1 + (q.2.head + i) % ringSize q.2
          Tab.set m s { Tab.get {} m s with e := e }) m
      else m) p.side }

/-- Stage 2: write enables, CRED, the epoch of resident weights; a cut plane is reset first (R314). -/
def stage2Plane (e : BitVec 2) (p : Plane) : Plane :=
  let p := if p.cut then freshPlane p else p
  weightEpoch e { p with
    released := 2
    live := true
    epoch := e
    oq := Tab.map (fun q => { q with cred := q.credmax - q.init }) p.oq
    iq := Tab.map (fun q => { q with mark := false }) p.iq }

def stage2Tile (img : Image) (k lk : Nat) (e : BitVec 2) (t : Tile) : Tile :=
  let t := if (planeAt t k).cut then writeContent { img with content := img.content.filter (fun c =>
      (planeAt t k).iq.any (fun q => decide (0 < q.2.init) && decide (32 * q.2.base ≤ c.2.1) && decide (c.2.1 < 32 * (q.2.base + ringSize q.2)))) } lk t
    else t
  setPlane t k (stage2Plane e (planeAt t k))

/-- Stage 3: every context of the plane leaves HALT at its entry step with its counters at their load values. -/
def stage3Plane (cto : Nat) (p : Plane) : Plane :=
  { p with
    released := 3
    k := Tab.map (fun c => { c with value := c.load }) p.k
    ctx := Tab.map (fun x => if x.state = .idle then x else
      { entry := x.entry
        ptr := x.entry
        state := .ready
        e := p.epoch
        holdBase := x.holdBase
        holdCap := x.holdCap
        waitFrom := cto }) p.ctx }

def stage3Tile (k cto : Nat) (t : Tile) : Tile :=
  { setPlane t k (stage3Plane cto (planeAt t k)) with
    run := k
    coreReset := false
    inflight := []
    lastCtx := 3 }

/-! Memory-side configuration (R304) -/

/-- Engines of an image with the spill regions that firmware gave them, threads not running. -/
def loadEngines (img : Image) : Tab Engine :=
  Tab.map (fun e => { e with
    sems := e.semLoad
    threads := Tab.map (fun t => { t with pc := t.entry, running := false }) e.threads }) img.engines

/-- Key of a link direction. -/
def linkKey : LinkDir → Nat
  | .stationUp b s => 20 * b.val + s.val
  | .stationDown b s => 100 + 20 * b.val + s.val
  | .lane from1 n => 200 + 20 * b2n from1 + n.val
  | .unitUp die u => 1000 + 2048 * die.val + u.val
  | .unitDown die u => 6000 + 2048 * die.val + u.val

/-- A unit that serves more than one berth: all but the memory-side units and the pursers P0 to P3 (R226, R244). -/
def unitShared (u : Nat) : Bool := decide (64 ≤ u) && !(decide (72 ≤ u) && decide (u < 76))

/-- A link direction that the four berths share (R226). -/
def linkShared (key : Nat) : Bool :=
  decide (200 ≤ key ∧ key < 240) || (decide (1000 ≤ key ∧ key < 6000) && unitShared ((key - 1000) % 2048))
    || (decide (6000 ≤ key) && unitShared ((key - 6000) % 2048))

/-- A station port as it is when its configuration has just been loaded: counts at 0, the loop of a link receiver full of
credits (R209, R210, R231). -/
def freshPort (k : Nat) (p : StationPort) : StationPort :=
  let n := (p.fin.cap + 1) * 2 ^ p.fin.grain
  { p with
    slot := k
    credits := 0
    uend := { qid := p.uend.qid, credmax := n, cred := if p.fin.receiver then n else 0 }
    fin :=
      { cap := p.fin.cap
        grain := p.fin.grain
        kind := p.fin.kind
        receiver := p.fin.receiver
        peer := p.fin.peer } }

/-- A memory-side queue end as release stage 2 leaves it (R231, R305): CRED lacks the initial tokens, which the consumer holds. -/
def freshEnd (u : UEnd) : UEnd :=
  { valid := u.valid
    qid := u.qid
    kind := u.kind
    grain := u.grain
    init := u.init
    credmax := u.credmax
    cred := u.credmax - u.init }

/-- The Folsa channels that a slot claims (R335): one that the berth has already keeps what waits on it. -/
def claimChannels (d : Device) (b k : Nat) (img : Image) : Device :=
  let claims := fun (p ch : Nat) => img.channels.any (fun c => decide (c.1 = p) && decide (c.2.1 = ch))
  let d := { d with folsa := List.map (fun (p : Nat × Folsa) => (p.1, { p.2 with
    channels := p.2.channels.filter (fun c => decide (c.2.berth ≠ b) || claims p.1 c.1) })) d.folsa }
  img.channels.foldl (fun d c =>
    let f := folsaAt d c.1
    let old := Tab.get {} f.channels c.2.1
    let new := if old.used && decide (old.berth = b) then { old with port := c.2.2, slot := k }
      else { used := true, port := c.2.2, berth := b, slot := k }
    setFolsa d c.1 { f with channels := Tab.set f.channels c.2.1 new }) d

/-- Key of Folsa port 0's timetable among an image's tables; port 1's follows. -/
def folsaTable : Nat := 12000

/-- A berth's sub-timetable and flow entries of a Folsa port (R226, R333). -/
def loadFolsaTable (d : Device) (b p : Nat) (t : Tab Nat × Tab FlowEntry) : Device :=
  let f := folsaAt d p
  setFolsa d p { f with
    tt := (List.range 64).foldl (fun m i => Tab.set m (4 * i + b) (Tab.get 0 t.1 i)) f.tt
    flows := t.2.foldl (fun m e => Tab.set m (64 * b + e.1 % 64) e.2) (f.flows.filter (fun e => e.1 / 64 ≠ b)) }

/-- The configuration that the units and stations of a berth run with. -/
def unitTables (d : Device) (b : Nat) : UnitTables :=
  { slot := (berthAt d b).unitSlot
    ports := d.ports.filter (fun p => p.1 / 1280 = b)
    ends := d.ends.filter (fun p => p.1 / 1280 = b)
    engines := (berthAt d b).engines }

/-- Put a configuration in the place of the one that runs. -/
def putTables (d : Device) (b : Nat) (u : UnitTables) : Device :=
  modBerth { d with
    ports := u.ports.foldl (fun m p => Tab.set m p.1 p.2) (d.ports.filter (fun p => p.1 / 1280 ≠ b))
    ends := u.ends.foldl (fun m p => Tab.set m p.1 p.2) (d.ends.filter (fun p => p.1 / 1280 ≠ b)) } b
    (fun x => { x with unitSlot := u.slot, engines := u.engines })

/-- A slot's engines, queue ends and station ports as release stage 2 loads them (R304, R305). -/
def slotTables (k : Nat) (img : Image) : UnitTables :=
  { slot := some k
    ports := Tab.map (freshPort k) img.ports
    ends := Tab.map freshEnd img.ends
    engines := loadEngines img }

/-! Two epochs at the memory side (R308): while an orderly changeover runs, the units hold the incoming slot's configuration beside
the outgoing one's. What belongs to the incoming epoch acts with the two exchanged. -/

/-- Exchange the running configuration with the incoming one. -/
def swapUnits (d : Device) (b : Nat) : Device :=
  match (berthAt d b).incoming with
  | none => d
  | some u =>
    let old := unitTables d b
    modBerth (putTables d b u) b (fun x => { x with incoming := some old })

/-- Act on the incoming configuration where `use` says so. -/
def onUnits (use : Bool) (d : Device) (b : Nat) (f : Device → Device) : Device :=
  if use then swapUnits (f (swapUnits d b)) b else f d

/-- A flit or credit of epoch e meets the configuration of its epoch. -/
def byEpoch (d : Device) (b : Nat) (e : BitVec 2) (f : Device → Device) : Device :=
  let x := berthAt d b
  onUnits (x.incoming.isSome && x.co.active && decide (x.co.epoch = e)) d b f

/-- What plane k of a tile does to its stations meets the configuration of its slot. -/
def byPlane (d : Device) (b k : Nat) (f : Device → Device) : Device :=
  onUnits (decide ((berthAt d b).incoming.bind (·.slot) = some k)) d b f

/-- A station port acts for either configuration. -/
def bothUnits (d : Device) (b : Nat) (f : Device → Device) : Device :=
  let d := f d
  if (berthAt d b).incoming.isSome then swapUnits (f (swapUnits d b)) b else d

/-- The incoming configuration acts now: its slot is the target of the changeover. -/
def actsIncoming (d : Device) (b : Nat) : Bool :=
  (berthAt d b).co.active && decide ((berthAt d b).unitSlot = some (berthAt d b).co.target)

/-- Epoch of what the units of a berth send now. -/
def unitEpoch (d : Device) (b : Nat) : BitVec 2 :=
  if actsIncoming d b then (berthAt d b).co.epoch else BitVec.ofNat 2 (berthEpoch d b)

/-- An engine has switched to the incoming configuration (R311). -/
def engineSwitched (d : Device) (b e : Nat) : Bool :=
  (berthAt d b).incoming.isSome && (berthAt d b).co.enginesSwitched.contains e && !actsIncoming d b

/-- Act on the configuration that engine e runs. -/
def onEngine (d : Device) (b e : Nat) (f : Device → Device) : Device := onUnits (engineSwitched d b e) d b f

/-- Take up the incoming configuration for good. -/
def takeIncoming (d : Device) (b : Nat) : Device :=
  match (berthAt d b).incoming with
  | none => d
  | some u => modBerth (putTables d b u) b (fun x => { x with incoming := none })

/-- What the berths share or the epochs do not part: Folsa channels, hurdles, and timetables, which wait for a lap (R227). -/
def loadShared (d : Device) (b k : Nat) (img : Image) : Device :=
  let d := modBerth (claimChannels d b k img) b (fun x => { x with hurdles := img.hurdles })
  img.tables.foldl (fun d t =>
    if folsaTable ≤ t.1 then loadFolsaTable d b (t.1 - folsaTable) t.2
    else setLink d t.1 { linkAt d t.1 with
      nextTt := (linkAt d t.1).nextTt.filter (fun n => n.1 ≠ b) ++ [(b, t.2.1, t.2.2)] }) d

/-- Load the units' configuration of slot k (R304). -/
def loadUnits (d : Device) (b k : Nat) (img : Image) : Device := loadShared (putTables d b (slotTables k img)) b k img

/-- The threads of an engine start at their entries. -/
def startThreads (e : Engine) : Engine :=
  { e with threads := Tab.map (fun t => if t.used then { t with running := true, pc := t.entry } else t) e.threads }

/-- The engines of a berth start. -/
def startEngines (x : Berth) : Berth := { x with engines := Tab.map startThreads x.engines }

/-! Cutting (R313, R314, R428) -/

/-- Discards of one input queue at a cut (R199, R235). -/
def cutQueue (b cause : Nat) (d : Device) (p : Plane) (q : Nat × InQueue) : Device :=
  let first := sideAt p q.1 (q.2.head % ringSize q.2)
  addDiscard d { qid := q.2.qid, berth := b, cause := cause, f := first.f.toNat, qkind := 0, count := q.2.occ }

/-- Discards of a band hold at a cut (R106). -/
def cutBand (b : Nat) (d : Device) (p : Plane) (x : Context) : Device :=
  if x.bandOpen then
    addDiscard d { qid := (oqAt p x.holdOq).qid, berth := b, cause := 3, f := x.f.toNat, qkind := 0, count := x.holdCount }
  else d

/-- A plane after a cut: contexts in HALT, rings emptied with their counters, reservations returned, epoch retired. -/
def cutPlane (p : Plane) : Plane :=
  let oq := p.ctx.foldl (fun m x =>
    if x.2.bandOpen then
      let q := Tab.get {} m x.2.holdOq
      Tab.set m x.2.holdOq { q with
        discp := inc32 q.discp x.2.holdCount
        reserved := q.reserved - x.2.holdCount
        cred := q.cred + x.2.holdCount }
    else m) p.oq
  { p with
    live := false
    cut := true
    released := 0
    oq := oq
    iq := Tab.map (fun q => { q with
      discc := inc32 q.discc q.occ
      returned := inc32 q.returned q.occ
      occ := 0
      held := 0
      reserved := 0
      mark := false }) p.iq
    hurdles := p.hurdles
    ctx := Tab.map (fun x => if x.state = .idle then x else { x with state := .halt, bandOpen := false, holdCount := 0 }) p.ctx }

/-- Cut plane k of one tile, with its records. -/
def cutTile (d : Device) (b k cause key : Nat) : Device :=
  let t := tileAt d b key
  let p := planeAt t k
  let d := p.iq.foldl (cutQueue b cause · p ·) d
  let d := p.ctx.foldl (fun d x => cutBand b d p x.2) d
  setTile d b key { setPlane t k (cutPlane p) with inflight := [], arrival := [] }

/-- Tokens of a queue that a cut discards, with their record (R199, R235). -/
def cutTokens (d : Device) (b cause qid : Nat) (ts : List Token) : Device :=
  if ts.isEmpty then d
  else addDiscard d
    { qid := qid
      berth := b
      cause := cause
      f := (ts.head?.map (fun t => t.sb.f.toNat)).getD 0
      count := ts.length }

/-- A unit's end after a cut: an end that sends (its port is inbound) gives its reservations back and counts in DISCP, one that
receives in DISCC and RETURNED (R231). -/
def cutEnd (sends : Bool) (u : UEnd) : UEnd :=
  if sends then { u with
    tokens := []
    cred := u.cred + u.reserved
    reserved := 0
    discp := inc32 u.discp u.tokens.length
    mark := false }
  else { u with
    tokens := []
    claimed := 0
    discc := inc32 u.discc u.tokens.length
    returned := inc32 u.returned u.tokens.length
    mark := false }

/-- A link endpoint after a cut: what a sender has buffered is discarded. -/
def cutLinkEnd (p : StationPort) : StationPort :=
  { p with
    fin := { p.fin with buf := [], mark := none }
    uend := { p.uend with
      discc := inc32 p.uend.discc p.fin.buf.length
      returned := inc32 p.uend.returned p.fin.buf.length } }

/-- Some context waits at the module hurdle. -/
def moduleArrived (d : Device) (hid : Nat) : Bool :=
  d.berths.any (fun x => x.2.tiles.any (fun t => decide (0 < Tab.get 0 t.2.arrival (512 + hid))))

/-- Slot k of berth b has a member of the hurdle (R212). -/
def hurdleMember (d : Device) (b k hid : Nat) : Bool :=
  (slotTiles d b k).any (fun key => decide (0 < Tab.get 0 (planeAt (tileAt d b key) k).hurdles hid))

/-- The module hurdles of a slot that is cut lose the arrival of P4; one where nobody waits any more has not started (R214). -/
def cutModuleHurdles (d : Device) (b k : Nat) : Device :=
  let clear := fun (h : Nat × Hurdle) =>
    if hurdleMember d b k h.1 then (h.1, { h.2 with purserArrived := false, started := h.2.started && moduleArrived d h.1 }) else h
  { d with moduleHurdles := List.map clear d.moduleHurdles }

/-- An access that a cut leaves in the admission queue: a light request, or a transfer of an engine that runs on. -/
def staysAdmitted (keep : Nat → Bool) : Access → Bool
  | .light _ => true
  | .transfer e _ => keep e

/-- Cut the memory-side units of a berth: threads stop, buffers are discarded with record. An engine that has switched to the
incoming configuration runs on. -/
def cutUnits (d : Device) (b cause : Nat) : Device :=
  let keep := engineSwitched d b
  let mine := d.ends.filter (fun p => p.1 / 1280 = b)
  let d := mine.foldl (fun d p => cutTokens d b cause p.2.qid p.2.tokens) d
  let d := mine.foldl (fun d p => setEnd d p.1 (cutEnd (portAt d p.1).inbound p.2)) d
  let senders := d.ports.filter (fun p => decide (p.1 / 1280 = b) && p.2.valid && p.2.link)
  let d := senders.foldl (fun d p => cutTokens d b cause p.2.uend.qid p.2.fin.buf) d
  let d := senders.foldl (fun d p => setPort d p.1 (cutLinkEnd p.2)) d
  modBerth d b (fun x => { x with
    feederOpen := false
    engines := Tab.map (fun (e : Engine) => { e with threads := Tab.map (fun (t : Thread) => { t with running := false }) e.threads }) x.engines
    hbm := { x.hbm with
      transfers := x.hbm.transfers.filter (fun t => keep t.engine)
      admission := x.hbm.admission.filter (staysAdmitted keep) }
    hurdles := Tab.map (fun h => { h with purserArrived := false, started := false }) x.hurdles })

/-- Cut slot k of a berth (steps 1 and 2 of R313). -/
def cutSlot (d : Device) (b k cause : Nat) : Device :=
  cutModuleHurdles (cutUnits ((slotTiles d b k).foldl (fun d key => cutTile d b k cause key) d) b cause) b k

end Sys2Proof.Machine
end

