-- ==== Sys2Proof/Machine/Wire.lean ====
section
/-! DEFINITION. Flits and their CRCs (Tables 2-10, 9-4), endpoint indices and routes (R217 to R220), and how a tile or a
memory-side unit puts tokens and epoch marks on their way. -/

namespace Sys2Proof.Machine

/-- The 18 sideband bits (Table 8-1). -/
def sideNat (s : Sideband) : Nat :=
  b2n s.v * 2 ^ 17 + b2n s.p * 2 ^ 16 + b2n s.l * 2 ^ 15 + b2n s.s * 2 ^ 14 + s.e.toNat * 2 ^ 12 + s.f.toNat
def sideOf (n : Nat) : Sideband :=
  { v := decide (n / 2 ^ 17 % 2 = 1), p := decide (n / 2 ^ 16 % 2 = 1), l := decide (n / 2 ^ 15 % 2 = 1)
    s := decide (n / 2 ^ 14 % 2 = 1), e := BitVec.ofNat 2 (n / 2 ^ 12), f := BitVec.ofNat 12 n }

/-! Router flits: payload, sideband, destination, CRC from the most significant bit down. -/

def flitBody (f : Flit) : Nat := f.tok.data.toNat * 2 ^ 32 + sideNat f.tok.sb * 2 ^ 14 + f.dest.toNat
def flitBits (f : Flit) : Nat := flitBody f * 256 + f.crc.toNat
def flitCrc (f : Flit) : BitVec 8 := BitVec.ofNat 8 (crcBits 8 0x07 (flitBody f) 288 0)
def makeFlit (t : Token) (shut : Bool) (dest : BitVec 14) : Flit :=
  let f : Flit := { tok := t, shut := shut, dest := dest, crc := 0 }
  { f with crc := flitCrc f }
/-- A flit with the bits of `err` flipped. -/
def flitErr (f : Flit) (err : BitVec 296) : Flit :=
  let n := Nat.xor (flitBits f) err.toNat
  { tok := { data := BitVec.ofNat 256 (n / 2 ^ 40), sb := sideOf (n / 2 ^ 22 % 2 ^ 18) }
    shut := f.shut, dest := BitVec.ofNat 14 (n / 256), crc := BitVec.ofNat 8 n }
def flitGood (f : Flit) : Bool := flitCrc f = f.crc

/-! Shuttle flits -/

def shBody (f : ShFlit) : Nat :=
  f.data.toNat * 2 ^ 64 + sideNat f.sb * 2 ^ 46 + f.dest.toNat * 2 ^ 32 + f.src.toNat * 2 ^ 18 + f.stamp.toNat * 4 + f.typ.toNat
def shCrc (f : ShFlit) : BitVec 16 := BitVec.ofNat 16 (crcBits 16 0x1021 (shBody f) 320 0xFFFF)
def shSeal (f : ShFlit) : ShFlit := { f with crc := shCrc f }
def shErr (f : ShFlit) (err : BitVec 336) : ShFlit :=
  let n := Nat.xor (shBody f * 65536 + f.crc.toNat) err.toNat
  { data := BitVec.ofNat 256 (n / 2 ^ 80), sb := sideOf (n / 2 ^ 62 % 2 ^ 18), dest := BitVec.ofNat 14 (n / 2 ^ 48)
    src := BitVec.ofNat 14 (n / 2 ^ 34), stamp := BitVec.ofNat 16 (n / 2 ^ 18), typ := BitVec.ofNat 2 (n / 65536)
    crc := BitVec.ofNat 16 n }
def shGood (f : ShFlit) : Bool := shCrc f = f.crc

/-! Endpoint indices (Table 9-2) -/

def epDomain (e : BitVec 14) : Nat := fld e 13 11
def epStation (e : BitVec 14) : Nat := fld e 10 6
def epPort (e : BitVec 14) : Nat := fld e 5 0
def epUnit (e : BitVec 14) : Nat := fld e 10 0
def epIsStation (e : BitVec 14) : Bool := decide (epDomain e < 4)
/-- Endpoint index of station port p of column s of berth b. -/
def epOf (b s p : Nat) : BitVec 14 := BitVec.ofNat 14 (b * 2048 + s * 64 + p)
/-- Station port key of an endpoint index in a station domain. -/
def epKey (e : BitVec 14) : Nat := 1280 * epDomain e + 64 * epStation e + epPort e
/-- Endpoint index of a station port key. -/
def keyEp (k : Nat) : BitVec 14 := epOf (k / 1280) (k / 64 % 20) (k % 64)
/-- Unit u on landing die (domains 0b100 and 0b101). -/
def epUnitOf (die u : Nat) : BitVec 14 := BitVec.ofNat 14 ((4 + die) * 2048 + u)
/-- Die of an endpoint. -/
def epDie (e : BitVec 14) : Nat := if epIsStation e then epDomain e / 2 else epDomain e - 4

/-- Memory-side unit ports (Table 10-3). -/
def engineEp (b e : Nat) : BitVec 14 := epUnitOf (b / 2) (16 * (b % 2) + e)
def lightAgentEp (b : Nat) : BitVec 14 := epUnitOf (b / 2) (32 + b % 2)
def feederEp (b : Nat) : BitVec 14 := epUnitOf (b / 2) (34 + b % 2)
def cropEp (b : Nat) : BitVec 14 := epUnitOf (b / 2) (36 + b % 2)
def decodeEp (b : Nat) : BitVec 14 := epUnitOf (b / 2) (38 + b % 2)
/-- The queue manager (Table 16-2). -/
def queueManagerEp : BitVec 14 := epUnitOf 0 64

/-- Gangway lane of a flit between the dies (R220). -/
def laneOfFlit (src dest : BitVec 14) : Nat :=
  if epIsStation src then epStation src
  else if epIsStation dest then epStation dest
  else epPort dest % 20

/-- Link key on which a flit leaves its source (R220). -/
def firstLink (src : BitVec 14) : Nat :=
  if epIsStation src then 20 * epDomain src + epStation src else 1000 + 2048 * epDie src + epUnit src

/-- Link key on which a flit leaves landing `die` (R220). -/
def landingLink (die : Nat) (src dest : BitVec 14) : Nat :=
  if epDie dest = die then
    (if epIsStation dest then 100 + 20 * epDomain dest + epStation dest else 6000 + 2048 * die + epUnit dest)
  else 200 + 20 * die + laneOfFlit src dest

/-- The landing at the receiving end of a link, or none where the link ends at its destination. -/
def linkLanding (key : Nat) : Option Nat :=
  if key < 80 then some (key / 40)
  else if 200 ≤ key ∧ key < 220 then some 1
  else if 220 ≤ key ∧ key < 240 then some 0
  else if 1000 ≤ key ∧ key < 6000 then some ((key - 1000) / 2048)
  else none

/-- A flow entry that holds a destination (R223). -/
def flowHolds (dest : BitVec 14) (f : FlowEntry) : Bool :=
  f.valid && decide (f.base ≤ dest.toNat) && decide (dest.toNat ≤ f.base + f.count)

/-- Berths whose flow entries may hold a flit: its sender's, then its receiver's. -/
def flitBerths (f : ShFlit) : List Nat :=
  (if epIsStation f.src then [epDomain f.src] else []) ++ (if epIsStation f.dest then [epDomain f.dest] else [])

/-- Flow entry of a data flit on a link direction; on a shared one its berth's (R223, R226). -/
def flowEntry (key : Nat) (l : Link) (f : ShFlit) : Option (Nat × FlowEntry) :=
  if linkShared key then
    (flitBerths f).findSome? (fun b => l.flows.find? (fun p => decide (p.1 / 64 = b) && flowHolds f.dest p.2))
  else l.flows.find? (fun p => flowHolds f.dest p.2)

/-- Class of a flit on a link: 64 · berth + flow tag, 256 light, 257 background. A data flit that no entry holds has class 0: the
spec gives it no flow, so it owns no slot and leaves in lent ones (assumption log 107). -/
def flitClass (key : Nat) (l : Link) (f : ShFlit) : Nat :=
  if f.typ = 1 then 256 else if f.typ = 2 then 257
  else ((flowEntry key l f).map (fun p => 64 * (p.1 / 64) + p.2.tag)).getD 0

/-- Put a flit at the sending end of a link: by flow, light or background (R222, R223). -/
def enqueueLink (d : Device) (key : Nat) (f : ShFlit) (via cls : Nat) : Device :=
  let l := linkAt d key
  let w : Waiting := { flit := f, via := via, cls := cls }
  if f.typ = 1 then setLink d key { l with light := l.light ++ [w] }
  else if f.typ = 2 then setLink d key { l with bg := l.bg ++ [w] }
  else
    setLink d key { l with queues := Tab.modify [] l.queues (flitClass key l f) (fun q => q ++ [w]) }

/-- Send a flit into the shuttle from its source endpoint. -/
def sendShuttle (d : Device) (f : ShFlit) : Device := enqueueLink d (firstLink f.src) (shSeal f) 0 0

/-- A credit or FREED message of epoch e on the light path, whose payload is a number (R308, assumption log 14). -/
def sendLight (d : Device) (e : BitVec 2) (src dest : BitVec 14) (v : Nat) : Device :=
  sendShuttle d { data := BitVec.ofNat 256 v, sb := { e := e }, src := src, dest := dest, typ := 1 }

/-- The light flits of a transfer of up to 64 bytes: one for every 32 bytes, in order (R222, R257). -/
def lightFlits (src dest : BitVec 14) (bs : List Byte) : List ShFlit :=
  (List.range ((bs.length + 31) / 32)).map (fun i =>
    { data := BitVec.ofNat 256 (leAt bs (32 * i) 32), src := src, dest := dest, typ := 1 })

/-- Send a light transfer's bytes. -/
def sendLightBytes (d : Device) (src dest : BitVec 14) (bs : List Byte) : Device :=
  (lightFlits src dest bs).foldl sendShuttle d

/-- An epoch mark for a producer of epoch e (R309): S = 1, V = 0, L = 1, the new epoch in byte 0. -/
def markToken (e new : BitVec 2) : Token := { data := BitVec.ofNat 256 new.toNat, sb := { s := true, l := true, e := e } }
def isMark (t : Token) : Bool := t.sb.s && !t.sb.v && t.sb.l
def markNew (t : Token) : BitVec 2 := BitVec.ofNat 2 t.data.toNat

/-- Put a flit into a tile's router from its own core (R43). -/
def sendTile (t : Tile) (f : Flit) : Tile :=
  { t with ports := Tab.modify {} t.ports 4 (fun p => { p with queue := p.queue ++ [f] }) }

/-- A token on output queue q of a plane. -/
def sendOq (t : Tile) (p : Plane) (q : Nat) (tok : Token) : Tile :=
  sendTile t (makeFlit tok (oqAt p q).shut (oqAt p q).dest)

/-- Endpoint index of the unit end of a memory-side queue end: the PEER of its pass port (R219). -/
def unitEp (d : Device) (k : Nat) : BitVec 14 := (portAt d k).peer

/-- Move tokens of a unit's end into the shuttle while it holds credits (R221). -/
def pumpEnd : Nat → Device → Nat → Device
  | 0, d, _ => d
  | n + 1, d, k =>
    let u := endAt d k
    match u.tokens with
    | [] => d
    | t :: ts =>
      if isMark t then
        pumpEnd n (sendShuttle (setEnd d k { u with tokens := ts })
          { data := t.data, sb := t.sb, src := unitEp d k, dest := keyEp k }) k
      else if u.cred = 0 then d
      else
        pumpEnd n (sendShuttle (setEnd d k { u with
            tokens := ts
            cred := u.cred - 1
            produced := u.produced + 1 })
          { data := t.data, sb := t.sb, src := unitEp d k, dest := keyEp k }) k

/-- Queue tokens at a unit's sending end and send as far as its credits go. -/
def sendEnd (d : Device) (k : Nat) (ts : List Token) : Device :=
  let u := endAt d k
  pumpEnd (u.tokens.length + ts.length) (setEnd d k { u with tokens := u.tokens ++ ts }) k

/-- A unit consumes `n` tokens of an end behind the first `skip` and returns their credits to the tile as a light credit flit (R219,
R231). -/
def consumeBehind (d : Device) (k skip n : Nat) : Device :=
  let u := endAt d k
  let n := min n (u.tokens.length - skip)
  if n = 0 then d
  else sendLight (setEnd d k { u with
      tokens := u.tokens.take skip ++ u.tokens.drop (skip + n)
      consumed := inc32 u.consumed n
      returned := inc32 u.returned n }) (unitEpoch d (k / 1280)) (unitEp d k) (keyEp k) n

/-- A unit consumes the first `n` tokens of an end. -/
def consumeEnd (d : Device) (k n : Nat) : Device := consumeBehind d k 0 n

end Sys2Proof.Machine
end

