-- ==== Sys2Proof/Machine/Rings.lean ====
section
/-! DEFINITION. The two ways of a credit loop at a tile (R29 to R32, R42, R43, R200, R231): a token enters a ring through port
B, and credits go back from a ring to the producer's end. -/

namespace Sys2Proof.Machine

/-- The counters and sideband of a ring that takes one more token. -/
def ringPlane (p : Plane) (iq : Nat) (tok : Token) : Plane :=
  let q := iqAt p iq
  let slot := (q.head + q.occ) % ringSize q
  { setIq p iq { q with
      occ := q.occ + 1
      received := q.received + 1 } with
    side := Tab.set p.side (1024 * iq + slot) tok.sb
    sideBad := Tab.erase p.sideBad (1024 * iq + slot) }

/-- A port B write of 32 bytes at a byte address: a granule that port A writes in the same FCLK keeps port A's data (Table
2-9). The second part lists those granules. -/
def portBWrite (t : Tile) (a : Nat) (v : Payload) : Tile × List Nat :=
  (List.range 4).foldl (fun (r : Tile × List Nat) (i : Nat) =>
    let g := a / 8 + i
    if r.1.portA.contains g then (r.1, r.2 ++ [g])
    else
      ({ r.1 with
        mem := memWriteBytes r.1.mem (8 * g) (leBytes 8 (v.toNat / 2 ^ (64 * i)))
        ecc := Tab.erase r.1.ecc g
        portB := g :: r.1.portB }, r.2)) (t, [])

/-- The head step of context c has its input units (conditions 2 and 3 of R31). -/
def headInputs (p : Plane) (c : Nat) : Bool :=
  let w := stepAt p (ctxAt p c).ptr
  unitsPresent p (wIqa w) (wNa w) && unitsPresent p (wIqb w) (wNb w)

/-- A context whose head step has just got its input units waits for credits alone from now on (R426). -/
def restartWaits (cto : Nat) (before after : Plane) : Plane :=
  { after with ctx := List.map (fun (x : Nat × Context) =>
      if !headInputs before x.1 && headInputs after x.1 then (x.1, { x.2 with waitFrom := cto }) else x) after.ctx }

/-- The inbound station port of slot k that feeds an input queue of a tile (Table 9-3). -/
def inboundPort (d : Device) (b k col row iq : Nat) : Option (Nat × StationPort) :=
  d.ports.find? (fun p => decide (p.1 / 1280 = b) && p.2.valid && p.2.inbound && decide (p.2.slot = k) && decide (p.2.dcol = col)
    && decide (p.2.drow = row) && decide (p.2.diq = iq))

/-- The station port that feeds ring iq of plane k of a tile, where the shuttle does (Table 2-5). -/
def feedingPort (d : Device) (b key k iq : Nat) : Option (Nat × StationPort) :=
  let src := (iqAt (planeAt (tileAt d b key) k) iq).src
  if src = 0 ∨ src = 3 then none else inboundPort d b k (key / 32) (logicalRow d b key) iq

/-- A link receiver has one more token of a unit in its ring; with the last one FILLED counts the unit (R210). -/
def ringUnit (e : LinkEnd) : LinkEnd :=
  let per := 2 ^ e.grain
  if e.ringed + 1 < per then { e with ringed := e.ringed + 1 }
  else { e with
    ringed := 0
    taken := e.taken - per
    filled := e.filled + 1 }

/-- Note a token's arrival at the link endpoint that its ring belongs to. -/
def noteRinged (d : Device) (b key k iq : Nat) : Device :=
  byPlane d b k (fun d => match feedingPort d b key k iq with
    | none => d
    | some (pk, sp) => if sp.link then setPort d pk { sp with fin := ringUnit sp.fin } else d)

/-- A token arrives in ring iq of plane k of a tile: payload through port B, sideband into the store, OCC and RECEIVED rise;
each collision is reported (R42). -/
def arriveToken (d : Device) (b key k iq : Nat) (tok : Token) : Device :=
  let t := tileAt d b key
  let p := planeAt t k
  let q := iqAt p iq
  let w := portBWrite t (slotAddr q ((q.head + q.occ) % ringSize q)) tok.data
  let d := noteRinged d b key k iq
  let d := setTile d b key (setPlane w.1 k (restartWaits (berthAt d b).cto p (ringPlane p iq tok)))
  let d := modBerth d b (fun x => { x with idleSince := d.time })
  w.2.foldl (fun d g => berthReport d b 3 (physTag d b key) (physTag d b key) (8 * g)) d

/-- Destination bits of input queue iq of logical position (col, row) (Table 2-6). -/
def tileDest (col row iq : Nat) : BitVec 14 := BitVec.ofNat 14 (512 * col + 16 * row + iq)

/-- A count as credit messages of at most 255 tokens (R43). -/
def creditMessages (n : Nat) : List Nat :=
  List.replicate (n / 255) 255 ++ (if n % 255 = 0 then [] else [n % 255])

/-- Credits on their way to the output queues of a tile that feed a destination. -/
def creditTile (k : Nat) (dest : BitVec 14) (n : Nat) (t : Tile) : Tile :=
  let p := planeAt t k
  if p.oq.any (fun q => !q.2.shut && decide (q.2.dest = dest) && decide (0 < q.2.credmax)) then
    setPlane t k { p with oq := Tab.map (fun q =>
      if !q.shut && decide (q.dest = dest) && decide (0 < q.credmax) then { q with creditIn := q.creditIn ++ creditMessages n } else q) p.oq }
  else t

/-- A link receiver counts popped tokens as freed units (R210). -/
def freeUnits (fclk n : Nat) (e : LinkEnd) : LinkEnd :=
  let per := 2 ^ e.grain
  let rest := e.popRest + n
  { e with
    popRest := rest % per
    freed := inc32 e.freed (rest / per)
    freedAt := if e.freed = e.sentFreed then fclk else e.freedAt }

/-- Return the credits of n tokens that left ring iq of plane k of a tile, to the end that feeds it. -/
def creditBack (d : Device) (b key k iq n : Nat) : Device :=
  let src := (iqAt (planeAt (tileAt d b key) k) iq).src
  if n = 0 then d
  else if src = 0 ∨ src = 3 then
    modBerth d b (fun x => { x with tiles := Tab.map (creditTile k (tileDest (key / 32) (logicalRow d b key) iq) n) x.tiles })
  else byPlane d b k (fun d =>
    match feedingPort d b key k iq with
    | none => d
    | some (pk, sp) =>
      if sp.link then setPort d pk { sp with
        fin := freeUnits (berthAt d b).fclk n sp.fin
        uend := { sp.uend with
          cred := sp.uend.cred + n
          accepted := inc32 sp.uend.accepted n } }
      else setPort d pk { sp with credits := sp.credits + n })

/-- Pop n tokens from the front of a ring and return their credits (R32). -/
def popRing (d : Device) (b key k iq n : Nat) : Device :=
  if n = 0 then d
  else
    let d := modTile d b key (fun t =>
      let p := planeAt t k
      let q := iqAt p iq
      setPlane t k (setIq p iq { q with
        head := (q.head + n) % ringSize q
        occ := q.occ - n
        reserved := q.reserved - n
        consumed := inc32 q.consumed n
        returned := inc32 q.returned n }))
    creditBack d b key k iq n

/-- A token leaves on an output queue against a reserved credit: straight into a ring of the same tile (R47), else into the
router. -/
def emitToken (b key k oq : Nat) (d : Device) (tok : Token) : Device :=
  let q := oqAt (planeAt (tileAt d b key) k) oq
  let d := modTile d b key (fun t => setPlane t k (setOq (planeAt t k) oq { q with
    reserved := q.reserved - 1
    produced := q.produced + 1 }))
  if !q.shut && decide (q.dest.toNat / 16 = 32 * (key / 32) + logicalRow d b key) then
    arriveToken d b key k (q.dest.toNat % 16) tok
  else modTile d b key (fun t => sendOq t (planeAt t k) oq tok)

end Sys2Proof.Machine
end

