-- ==== Sys2Proof/Machine/Changeover.lean ====
section
/-! DEFINITION. Release, orderly and forced changeover (R305 to R319), halt and scan (R320 to R322), slot states, wake-ups from
HOLD and DOZE, and the abort of an update (R290). -/

namespace Sys2Proof.Machine

/-- Set a slot's STATE and raise the slot state change event (Table 15-10). -/
def setSlotState (d : Device) (b k st : Nat) : Device :=
  if slotState d b k = st then d else berthEvent (odPut d (0x3000 + 4 * b + k) 2 st) b 5 (k + 16 * st)

def setBstate (d : Device) (b v : Nat) : Device := odPut d (0x3010 + b) 3 v
def coStatus (d : Device) (b v : Nat) : Device := odPut d (0x3010 + b) 7 v

/-- Leave HOLD or DOZE for an action that needs the berth (R447, R448). -/
def wakeBerth (d : Device) (b : Nat) : Device :=
  let d := modBerth d b (fun x => { x with
    clocksOff := false
    idleSince := d.time
    hbm := { x.hbm with selfRefresh := false }
    tiles := if bpstate d b = 2 then
        List.map (fun (p : Nat × Tile) => (p.1, { p.2 with retention := decide (p.1 % 32 = 20) && !spareUsed d b (p.1 / 32) })) x.tiles
      else x.tiles })
  odPut d (0x8410 + b) 1 0

/-! Abort of an update (R290) -/

def headOf (d : Device) (b : Nat) : Option HeadDecl :=
  if runSlot d b < 4 then (slotAt d b (runSlot d b)).image.bind (·.head) else none

def adaptOf (d : Device) (b : Nat) : Adapt := (berthAt d b).adapt
def modAdapt (d : Device) (b : Nat) (f : Adapt → Adapt) : Device := modBerth d b (fun x => { x with adapt := f x.adapt })

/-- STATE of object 0x8810 + b (Table 11-12). -/
def adaptState (d : Device) (b : Nat) : Nat :=
  let a := adaptOf d b
  if a.committing || a.rollback.isSome then 4
  else if a.updating then 3
  else if (headOf d b).isNone || !odFlag d (0x8800 + b) 1 then 0
  else if a.paused then 5
  else if a.accepted.isEmpty then 1 else 2

def showAdapt (d : Device) (b : Nat) : Device := odPut d (0x8810 + b) 1 (adaptState d b)

/-- Queues of the update pass in the running slot (Table 12-4, ADAPT). -/
def adaptQids (d : Device) (b : Nat) : List Nat :=
  ((slotAt d b (runSlot d b)).rates.filter (·.adapt)).map (·.qid)

/-- Empty the adaptation queues of one head tile with record, halt ACTX, release a hold without inverting APL. -/
def abortTile (d : Device) (b key : Nat) (qids : List Nat) : Device :=
  let t := tileAt d b key
  let p := planeAt t t.run
  let cut := p.iq.filter (fun q => qids.contains q.2.qid)
  let d := cut.foldl (fun d q => cutQueue b 0 d p q) d
  let a := p.adapt
  let swap := p.swap
  let ctx := Tab.modify {} p.ctx a.actx (fun x => { x with state := .halt })
  let h := Tab.get {} ctx a.hctx
  let ctx := if h.state = .hurdle && a.hold then Tab.set ctx a.hctx { h with state := .ready } else ctx
  let p := { p with
    adapt := { a with hold := false }
    swap := { swap with g := 0 }
    ctx := ctx
    iq := Tab.map (fun q => if qids.contains q.qid then { q with
      discc := inc32 q.discc q.occ
      returned := inc32 q.returned q.occ
      occ := 0
      reserved := 0 } else q) p.iq }
  let d := setTile d b key { setPlane t t.run p with
    inflight := t.inflight.filter (fun f => f.ctx ≠ a.actx)
    arrival := Tab.erase t.arrival (256 + a.shid) }
  cut.foldl (fun d q => creditBack d b key t.run q.1 q.2.occ) d

/-- Abort the update in progress (R290); nothing where none is. -/
def abortUpdate (d : Device) (b : Nat) : Device :=
  let a := (berthAt d b).adapt
  if !(a.updating || a.committing || a.rollback.isSome) then d
  else
    let qids := adaptQids d b
    let keys := ((headOf d b).map (fun h => h.tiles.map (fun k => physKey d b (k / 32) (k % 32)))).getD []
    let d := keys.foldl (fun d k => abortTile d b k qids) d
    -- samples that the queue manager has not sent yet are lost with the batch
    let d := { d with ends := List.map (fun (p : Nat × UEnd) =>
      if p.1 / 1280 = b && qids.contains p.2.qid && decide (0 < p.2.credmax) then (p.1, { p.2 with tokens := [] }) else p) d.ends }
    let d := modBerth d b (fun x => { x with adapt := { x.adapt with
      updating := false
      committing := false
      n := 0
      bad := false
      rollback := none
      pendingEpoch := none
      snapshotTaken := false } })
    let d := if a.updating || a.committing then odAdd d (0x8810 + b) 7 1 else d
    berthEvent (showAdapt d b) b 3 0

/-! Start and changeover commands -/

/-- Berths of the pipeline of slot k of berth b (R319). -/
def pipelineBerths (d : Device) (b k : Nat) : List Nat :=
  b :: (((slotAt d b k).image.map (·.partners)).getD [])

/-- AVAIL in watts (R467). -/
def cableDecoded (d : Device) : Nat :=
  match d.power.sense0, d.power.sense1 with
  | false, false => 600
  | true, false => 450
  | false, true => 300
  | true, true => 150
def cablePresent (d : Device) : Bool := decide (10800 < d.power.cableMv)
def availW (d : Device) : Nat := if cablePresent d then 66 + min (cableDecoded d) 234 else 66
def effectiveW (d : Device) : Nat := min (odGet d 0x8400 1) (availW d)

/-- A repair that has not reached the replay state (R433). -/
def repairBusy (d : Device) (b : Nat) : Bool := (berthAt d b).repair.active && !(berthAt d b).repair.replaying
  && !(berthAt d b).repair.catching

/-- The epoch that a start or changeover of berth b gives (R308). -/
def nextEpoch (d : Device) (b : Nat) : BitVec 2 := BitVec.ofNat 2 (berthEpoch d b + 1)

/-- Begin the switch of one berth to slot k (15: none) under epoch e. The berths of a linked pipeline take the epoch of the
berth that got the command, because epochs cross the shuttle (R319). -/
def beginSwitch (d : Device) (b k mode : Nat) (halted : Bool) (e : BitVec 2) : Device :=
  let st := if bstate d b = 0 then 1 else 3
  let d := modBerth (setBstate d b st) b (fun x => { x with co :=
    { active := true
      mode := mode
      target := k
      epoch := e
      since := d.time
      arriveHalted := halted } })
  let d := if k < 4 then setSlotState d b k 4 |> fun d => setSlotState d b k 5 else d
  coStatus (abortUpdate d b) b 0

/-- CHANGEOVER in orderly mode (R308, R311, R316, R318, R323, R468). -/
def orderly (d : Device) (b k : Nat) : Device :=
  if k < 4 ∧ availW d < 120 then d
  else
    let d := wakeBerth d b
    if (berthAt d b).co.active ∨ repairBusy d b ∨ bstate d b = 4 ∨ bstate d b = 5 then coStatus d b 0x0901
    else if k < 4 ∧ slotState d b k ≠ 4 then coStatus d b 0x0902
    else if k = 15 ∧ bstate d b = 0 then coStatus d b 0
    else
      let e := nextEpoch d b
      (pipelineBerths d b (if k = 15 then runSlot d b else k)).foldl (fun d x => beginSwitch d x k 0 false e) d

/-- The cut of a berth's live planes: outgoing and, during a changeover, incoming (Table 12-11). -/
def cutLive (d : Device) (b cause : Nat) : Device :=
  let out := runSlot d b
  let inc := (berthAt d b).co.target
  let d := if out < 4 then cutSlot d b out cause else d
  let d := if (berthAt d b).incoming.isSome then modBerth (onUnits true d b (cutUnits · b cause)) b (fun x => { x with incoming := none })
    else d
  if (berthAt d b).co.active ∧ inc < 4 ∧ inc ≠ out then setSlotState (cutSlot d b inc cause) b inc 4 else d

/-- A stop's end: the berth is IDLE with no running slot. -/
def goIdle (d : Device) (b : Nat) : Device :=
  let out := runSlot d b
  let d := if out < 4 then setSlotState d b out 4 else d
  let d := odPut (setBstate d b 0) (0x3010 + b) 1 0xFF
  showAdapt (modBerth d b (fun x => { x with co := {}, unitSlot := none, incoming := none, feederOpen := false, haltDone := false })) b

/-- A forced changeover (R313, R315): cut, disposition of the frames, then the release of slot k; a stop ends at once. -/
def forceSwitch (d : Device) (b k mode : Nat) (halted : Bool) (e : BitVec 2) : Device :=
  let d := abortUpdate d b
  let d := disposeFrames (cutLive d b 1) b mode
  if k = 15 then
    odPut (goIdle d b) (0x3010 + b) 4 e.toNat
  else
    let out := runSlot d b
    let d := if out < 4 then setSlotState d b out 4 else d
    beginSwitch (modBerth d b (fun x => { x with co := {}, haltDone := false })) b k mode halted e

/-- The scan area holds a complete scan-out of the running slot (R316, R322). -/
def scanMatches (d : Device) (b : Nat) : Bool :=
  let h := (berthAt d b).scan.header
  decide (nbits (leAt h 0 64) 81 81 = 1) && decide (nbits (leAt h 0 64) 95 88 = b) &&
    decide (runSlot d b < 4) && decide (nbits (leAt h 0 64) 511 384 = (slotAt d b (runSlot d b)).imgid.toNat)

/-- CHANGEOVER in a forced mode (R313, R316, R318, R433). -/
def forced (d : Device) (b k mode : Nat) (halted : Bool) : Device :=
  if k < 4 ∧ availW d < 120 then d
  else
    let d := wakeBerth d b
    if repairBusy d b ∨ bstate d b = 5 then coStatus d b 0x0901
    else if mode = 3 ∧ !(decide (bstate d b = 4) && scanMatches d b) then coStatus d b 0x0905
    else if k < 4 ∧ slotState d b k ≠ 4 ∧ ¬ (runSlot d b = k) then coStatus d b 0x0902
    else
      let e := nextEpoch d b
      (pipelineBerths d b (if k = 15 then runSlot d b else k)).foldl (fun d x => forceSwitch d x k mode halted e) d

/-! The release stages as the berth's purser broadcasts them (R306) -/

def coOf (d : Device) (b : Nat) : Changeover := (berthAt d b).co
def setCo (d : Device) (b : Nat) (c : Changeover) : Device := modBerth d b (fun x => { x with co := c })

/-- Stage 1 on every used tile of the incoming slot. -/
def releaseOutputs (d : Device) (b : Nat) : Device :=
  let c := coOf d b
  let d := (slotTiles d b c.target).foldl (fun d key => modTile d b key (stage1Tile c.target)) d
  setCo d b { coOf d b with stage := 1 }

/-- Stage 2: planes, then the memory-side units (R304, R305). -/
def releaseWrites (d : Device) (b : Nat) : Device :=
  let c := coOf d b
  match (slotAt d b c.target).image with
  | none => d
  | some img =>
    let d := img.planes.foldl (fun d p =>
      modTile d b (physKey d b (p.1 / 32) (p.1 % 32)) (stage2Tile img c.target p.1 c.epoch)) d
    let d := if decide (c.mode = 0) && decide (runSlot d b < 4) then
        modBerth d b (fun x => { x with incoming := some (slotTables c.target img) })
      else loadUnits d b c.target img
    let d := setCo d b { coOf d b with stage := 2 }
    if c.arriveHalted then
      setBstate (setSlotState (odPut (odPut d (0x3010 + b) 1 c.target) (0x3010 + b) 4 c.epoch.toNat) b c.target 6) b 4
    else d

/-! Pairing over Folsa (R329, R337) -/

/-- Identity that an image expects at the peer of a Folsa port. -/
def peerId (img : Image) (p : Nat) : BitVec 128 := Tab.get 0 img.peers p

/-- The peer claims the channel for the identity that slot k of berth b expects, and expects this slot's. -/
def channelPaired (d : Device) (b k p ch : Nat) : Bool :=
  match (slotAt d b k).image with
  | none => false
  | some img => (Tab.get [] (folsaAt d p).peerClaims ch).contains (peerId img p, (slotAt d b k).imgid)

/-- Pairing of every Folsa channel of a slot (R338). -/
def slotPaired (d : Device) (b k : Nat) : Bool :=
  match (slotAt d b k).image with
  | none => true
  | some img => img.channels.all (fun c => channelPaired d b k c.1 c.2.1)

/-- Runs of consecutive channels, first and last. -/
def channelRuns : List Nat → List (Nat × Nat)
  | [] => []
  | c :: cs =>
    match channelRuns cs with
    | [] => [(c, c)]
    | (f, l) :: rs => if f = c + 1 then (c, l) :: rs else (c, c) :: (f, l) :: rs

/-- The two PAIR records of a channel group (Table 13-3). -/
def pairRecords (b : Nat) (own expect : BitVec 128) (r : Nat × Nat) : List (List Byte) :=
  let rec1 := fun (top : Nat) (id : BitVec 128) =>
    sliceBytes ([3, BitVec.ofNat 8 (r.1 + top), BitVec.ofNat 8 r.2, BitVec.ofNat 8 b] ++ leBytes 16 id.toNat) 0 32
  [rec1 0 own, rec1 128 expect]

/-- PAIR records of a slot for the ports whose channels it claims (R337). -/
def sendPairs (d : Device) (b k : Nat) : Device :=
  match (slotAt d b k).image with
  | none => d
  | some img => ([0, 1] : List Nat).foldl (fun d p =>
      let chs := (List.range 63).filter (fun c => img.channels.any (fun x => decide (x.1 = p) && decide (x.2.1 = c)))
      if odGet d (0x8900 + p) 2 = 3 then
        let recs := List.flatMap (pairRecords b (slotAt d b k).imgid (peerId img p)) (channelRuns chs)
        let f := folsaAt d p
        setFolsa d p { f with control := f.control ++ recs }
      else d) d

/-- The committed epochs of slot k that the ring holds, the current one last (R287). -/
def slotRing (d : Device) (b k : Nat) : List Epoch := (berthAt d b).adapt.ring.filter (fun e => e.slot = k)

/-- The epoch that a slot's head is on: the last one committed, or 0 (R287, R290). -/
def slotEpoch (d : Device) (b k : Nat) : Nat := ((slotRing d b k).getLast?.map (·.number)).getD 0

/-- The new slot runs: RUN_SLOT, EPOCH, states and the event (R311). -/
def completeSwitch (d : Device) (b : Nat) : Device :=
  let c := coOf d b
  let out := runSlot d b
  if c.target = 15 then
    berthEvent (odPut (goIdle d b) (0x3010 + b) 4 c.epoch.toNat) b 0 (15 + 16 * c.epoch.toNat)
  else
    let d := if out < 4 ∧ out ≠ c.target then setSlotState (mapPlanes d b out (fun p => { p with live := false, released := 0 })) b out 4 else d
    let d := odPut (odPut (setSlotState d b c.target 6) (0x3010 + b) 1 c.target) (0x3010 + b) 4 c.epoch.toNat
    let d := setBstate (modBerth d b (fun x => { x with co := {}, feederOpen := true })) b 2
    let d := showAdapt (sendPairs (odPut d (0x8810 + b) 2 (slotEpoch d b c.target)) b c.target) b
    if c.repair && decide (out = c.target) then d else berthEvent d b 0 (c.target + 16 * c.epoch.toNat)

/-- Numbers of the engines that a configuration uses. -/
def engineNos (m : Tab Engine) : List Nat := List.map (fun (g : Nat × Engine) => g.1) m

/-- Threads of some engines of the incoming configuration start at their entries. -/
def startIncoming (es : List Nat) (x : Berth) : Berth :=
  { x with incoming := x.incoming.map (fun u => { u with engines := List.map (fun (e : Nat × Engine) =>
      if es.contains e.1 then (e.1, startThreads e.2) else e) u.engines }) }

/-- The units and stations take up the incoming configuration; engines that have not switched start now. -/
def adoptIncoming (d : Device) (b k : Nat) : Device :=
  match (berthAt d b).incoming, (slotAt d b k).image with
  | some u, some img =>
    let rest := (engineNos u.engines).filter (fun e => !(berthAt d b).co.enginesSwitched.contains e)
    loadShared (takeIncoming (modBerth d b (startIncoming rest)) b) b k img
  | _, _ => modBerth d b startEngines

/-- Stage 3 on every tile that has not switched already (R317). -/
def releaseResets (d : Device) (b : Nat) : Device :=
  let c := coOf d b
  let cto := (berthAt d b).cto
  let d := (slotTiles d b c.target).foldl (fun d key =>
    if c.switched.contains key then d else modTile d b key (stage3Tile c.target cto)) d
  let d := adoptIncoming d b c.target
  let repair := c.repair
  let d := completeSwitch (setCo d b { coOf d b with stage := 3 }) b
  if repair then
    modBerth (odPut d (0x8020 + b) 1 4) b (fun x => { x with repair := { x.repair with restarting := false, replaying := true } })
  else d

/-! Orderly drain (R311) -/

/-- The feeder's queues of an image. -/
def feederEnds (u : UnitBind) : List Nat := [u.headerEnd, u.codeEnd] ++ u.sideEnd.toList

def runBind (d : Device) (b : Nat) : UnitBind :=
  match (berthAt d b).unitSlot with
  | none => {}
  | some k => ((slotAt d b k).image.map (·.bind)).getD {}

/-- Send a mark on every memory-side queue of a list (R309). -/
def sendMarks (d : Device) (ks : List Nat) (e new : BitVec 2) : Device := ks.foldl (fun d k => sendEnd d k [markToken e new]) d

/-- Conditions of R311 step 3 for a context of the outgoing plane. -/
def contextDrained (p : Plane) (c : Nat) : Bool :=
  let x := ctxAt p c
  let pops := (p.iq.filter (fun q => (p.steps.any (fun s =>
      decide (wCtx s.2 = c) && ((decide (wIqa s.2 = q.1) && decide (0 < wNa s.2)) || (decide (wIqb s.2 = q.1) && decide (0 < wNb s.2))
        || (decide (wOpcode s.2 = 0x05) && bit s.2 47 && decide (fld s.2 51 48 = q.1)))))
      && decide (q.2.kind ≠ .weight)))
  decide (x.ptr = x.entry) && (List.range 4).all (fun n => let k := counterAt p (4 * c + n); decide (k.value = k.load))
    && pops.all (fun q => q.2.mark && decide (q.2.occ = q.2.init))
    && !pops.isEmpty

/-- Output queues that a context's steps fill and that carry marks. -/
def markOqs (p : Plane) (c : Nat) : List Nat :=
  (p.oq.filter (fun q => decide (q.2.kind ≠ .weight) &&
    p.steps.any (fun s => decide (wCtx s.2 = c) && decide (wOq s.2 = q.1) && decide (0 < wNo s.2)))).map (·.1)

def drainContext (new : BitVec 2) (t : Tile) (c : Nat) : Tile :=
  let p := planeAt t t.run
  let t := (markOqs p c).foldl (fun t q => sendOq t p q (markToken p.epoch new)) t
  let p := planeAt t t.run
  setPlane t t.run (setCtx p c { ctxAt p c with state := .halt, drained := true })

/-- Every context of the outgoing plane has been drained. -/
def tileDrained (p : Plane) : Bool := p.ctx.all (fun x => decide (x.2.state = .idle) || x.2.drained)

/-- An engine may switch: its threads are at their entries and marks have arrived on its inbound queues (R311). -/
def engineDrained (d : Device) (x : Berth) (e : Nat) : Bool :=
  let g := engineAt x e
  g.threads.all (fun t => !t.2.used || decide (t.2.pc = t.2.entry)) && x.hbm.transfers.all (fun t => t.engine ≠ e)
    && g.eqs.all (fun q => !q.2.valid || q.2.outbound || decide (q.2.kind = .weight) || (endAt d (epKey q.2.peer)).mark)

/-- Outbound queues of an engine, as station port keys. -/
def engineOuts (g : Engine) : List Nat :=
  (g.eqs.filter (fun q => q.2.valid && q.2.outbound && decide (q.2.kind ≠ .weight))).map (fun q => epKey q.2.peer)

/-- Marks have arrived on some inbound ends of a unit, and their tokens are gone. -/
def endsDrained (d : Device) (ks : List Nat) : Bool := ks.all (fun k => !(endAt d k).valid || ((endAt d k).mark && (endAt d k).tokens.isEmpty))

/-- Inbound ends of the queue manager: result queues and taps. -/
def managerEnds (u : UnitBind) : List Nat := [u.resHeader, u.resBody] ++ u.taps.map (·.1)

/-- The feeder, the queue manager and the crop gather unit work with the incoming configuration (R311). -/
def feederSwitched (d : Device) (b : Nat) : Bool := (berthAt d b).incoming.isSome && (coOf d b).marksSent && !actsIncoming d b
def managerSwitched (d : Device) (b : Nat) : Bool := feederSwitched d b && endsDrained d (managerEnds (runBind d b))
def cropSwitched (d : Device) (b : Nat) : Bool := feederSwitched d b && ((coOf d b).cropSwitched || (runBind d b).cropIn.isNone)

/-- Every unit of the outgoing configuration has drained. -/
def unitsDrained (d : Device) (b : Nat) : Bool :=
  endsDrained d (managerEnds (runBind d b)) && ((coOf d b).cropSwitched || (runBind d b).cropIn.isNone)

/-- Engines that switch now: outgoing ones that have drained, which send their marks, and those of the incoming slot alone. -/
def switchEngines (d : Device) (b : Nat) : Device :=
  let c := coOf d b
  let x := berthAt d b
  let idle := x.engines.filter (fun e => !c.enginesSwitched.contains e.1 && engineDrained d x e.1)
  let new := (engineNos ((x.incoming.map (·.engines)).getD [])).filter (fun e =>
    !c.enginesSwitched.contains e && !x.engines.any (fun g => g.1 = e))
  let d := idle.foldl (fun d e => sendMarks d (engineOuts e.2) (BitVec.ofNat 2 (berthEpoch d b)) c.epoch) d
  let es := idle.map (·.1) ++ new
  setCo (modBerth d b (startIncoming es)) b { c with enginesSwitched := c.enginesSwitched ++ es }

/-- All tiles and units of the outgoing slot have switched: the changeover completes (R311 step 6). -/
def tryComplete (d : Device) (b : Nat) : Device :=
  let tilesDone := (slotTiles d b (runSlot d b)).all (fun k => (coOf d b).switched.contains k)
  let d := switchEngines d b
  let c := coOf d b
  let enginesDone := (berthAt d b).engines.all (fun e => c.enginesSwitched.contains e.1)
  if c.active && decide (c.mode = 0) && decide (c.stage = 2 ∨ c.target = 15) && c.marksSent && tilesDone && enginesDone && unitsDrained d b then
    completeSwitch (if c.target < 4 then adoptIncoming d b c.target else d) b
  else d

/-- A thread has come to its entry, a mark has reached a unit or a unit has taken its last token: during the drain of an orderly
changeover, units may switch (R311). -/
def pokeSwitch (d : Device) (b : Nat) : Device :=
  if (coOf d b).active && decide ((coOf d b).mode = 0) && (coOf d b).marksSent && !actsIncoming d b then tryComplete d b else d

/-- A drained tile releases its incoming plane (R311 step 4), or stays in HALT for a stop (R312). -/
def switchTile (d : Device) (b key : Nat) : Device :=
  let c := coOf d b
  let t := tileAt d b key
  if tileDrained (planeAt t t.run) && !c.switched.contains key then
    let cto := (berthAt d b).cto
    let d := if c.target < 4 && (planeAt t c.target).loaded then setTile d b key (stage3Tile c.target cto t) else d
    tryComplete (setCo d b { coOf d b with switched := c.switched ++ [key] }) b
  else d

/-- The adaptation context is drained at once (R311), with the changeover's abort of its update. -/
def drainAdapt (t : Tile) : Tile :=
  let p := planeAt t t.run
  if p.adapt.aen then setPlane t t.run (setCtx p p.adapt.actx { ctxAt p p.adapt.actx with state := .halt, drained := true }) else t

/-! Halt (R320) -/

/-- A flit that a berth's queues have in the shuttle. -/
def linkHolds (b : Nat) (l : Link) : Bool :=
  let mine := fun (f : ShFlit) => (epIsStation f.src && decide (epDomain f.src = b)) || (epIsStation f.dest && decide (epDomain f.dest = b))
  l.queues.any (fun q => q.2.any (fun w => mine w.flit)) || l.light.any (fun w => mine w.flit) || (l.wire ++ l.retry).any (fun w => mine w.1)

/-- No flit is in the routers, the station queues or the shuttle for a berth, no step in flight, no credit on its way. -/
def berthQuiet (d : Device) (b : Nat) : Bool :=
  d.links.all (fun l => !linkHolds b l.2)
    && d.ports.all (fun p => decide (p.1 / 1280 ≠ b) || (decide (p.2.link = true ∨ p.2.credits = 0) && p.2.fin.freedIn.isEmpty))
    && (berthAt d b).tiles.all (fun t => t.2.inflight.all (·.hurdle) && t.2.ports.all (fun p => p.2.queue.isEmpty)
      && (planeAt t.2 t.2.run).oq.all (fun q => q.2.creditIn.isEmpty))
    && (berthAt d b).hbm.transfers.isEmpty
    && (List.range 20).all (fun s => (Tab.get [] d.toTile (20 * b + s)).isEmpty)

/-- Contexts that are free to issue stop in HALT (R320). -/
def haltContexts (d : Device) (b : Nat) : Device :=
  mapPlanes d b (runSlot d b) (fun p => { p with ctx := Tab.map (fun x =>
    if x.state = .ready || x.state = .wait then { x with state := .halt, halted := true } else x) p.ctx })

/-- HALT: contexts stop after their current step (R320). -/
def haltBerth (d : Device) (b : Nat) : Device :=
  modBerth (haltContexts d b) b (fun x => { x with
    feederOpen := false
    haltTime := d.time
    haltDone := true
    engines := Tab.map (fun (e : Engine) => { e with threads := Tab.map (fun (t : Thread) => { t with running := false }) e.threads }) x.engines })

/-- RESUME: contexts and units go on exactly where they stopped; the hurdle timeouts were suspended. -/
def resumeBerth (d : Device) (b : Nat) : Device :=
  let d := mapPlanes d b (runSlot d b) (fun p => { p with ctx := Tab.map (fun x =>
    if x.halted then { x with state := .ready, halted := false } else x) p.ctx })
  modBerth d b (fun x => { x with
    feederOpen := true
    haltDone := false
    hurdles := Tab.map (fun h => { h with since := h.since + (d.time - x.haltTime) }) x.hurdles
    engines := Tab.map (fun (e : Engine) => { e with threads := Tab.map (fun (t : Thread) =>
      if t.used then { t with running := true } else t) e.threads }) x.engines })

end Sys2Proof.Machine
end

