-- ==== Sys2Proof/Machine/Scan.lean ====
section
/-! DEFINITION. The slot, release, changeover and scan commands (R302 to R323). -/

namespace Sys2Proof.Machine

/-- SLOT_UNLOAD (R323): slot COMMAND 1, for a slot from which Table 12-7 has an unload: LOADED or REFUSED. -/
def unloadSlot (d : Device) (b k : Nat) : Device :=
  if slotState d b k ≠ 4 ∧ slotState d b k ≠ 7 then d
  else
    let sl := slotAt d b k
    let d := modBerth d b (fun x => { x with hbm := poolFree x.hbm sl.granules })
    let d := setSlot d b k {}
    let d := odPut (odPut (odPut d (0x3000 + 4 * b + k) 3 0) (0x3000 + 4 * b + k) 4 0) (0x3000 + 4 * b + k) 5 0
    setSlotState d b k 0

def execSlotUnload (b k : Fin 4) (s : State) : Host.Outcome State Fault Refusal :=
  onDev (fun d => unloadSlot (wakeBerth d b.val) b.val k.val) s

/-- CHANGEOVER_ORDERLY (R311). -/
def execChangeoverOrderly (b k : Fin 4) (s : State) : Host.Outcome State Fault Refusal :=
  onDev (fun d => orderly d b.val k.val) s

/-- CHANGEOVER_FORCED_REFEED (R315 mode 1). -/
def execChangeoverForcedRefeed (b k : Fin 4) (halted : Bool) (s : State) : Host.Outcome State Fault Refusal :=
  onDev (fun d => forced d b.val k.val 1 halted) s

/-- CHANGEOVER_FORCED_DROP (R315 mode 2). -/
def execChangeoverForcedDrop (b k : Fin 4) (halted : Bool) (s : State) : Host.Outcome State Fault Refusal :=
  onDev (fun d => forced d b.val k.val 2 halted) s

/-- CHANGEOVER_FORCED_HOLD (R316 mode 3). -/
def execChangeoverForcedHold (b k : Fin 4) (halted : Bool) (s : State) : Host.Outcome State Fault Refusal :=
  onDev (fun d => forced d b.val k.val 3 halted) s

/-- CHANGEOVER_STOP (R312): target 0xF, drained or cut. -/
def execChangeoverStop (b : Fin 4) (mode : Fin 4) (s : State) : Host.Outcome State Fault Refusal :=
  onDev (fun d => if mode.val = 0 then orderly d b.val 15 else forced d b.val 15 mode.val false) s

/-- RELEASE_STAGE_OUTPUTS (R305 stage 1). -/
def execReleaseStageOutputs (b : Fin 4) (s : State) : Host.Outcome State Fault Refusal :=
  onDev (guarded (fun d => (coOf d b.val).active && decide ((coOf d b.val).stage = 0) && decide ((coOf d b.val).target < 4))
    (fun d => releaseOutputs d b.val)) s

/-- RELEASE_STAGE_WRITE_ENABLES (R305 stage 2). -/
def execReleaseStageWriteEnables (b : Fin 4) (s : State) : Host.Outcome State Fault Refusal :=
  onDev (guarded (fun d => (coOf d b.val).active && decide ((coOf d b.val).stage = 1)) (fun d => releaseWrites d b.val)) s

/-- RELEASE_STAGE_RESETS (R305 stage 3) for a start, a forced changeover or a restart; it waits for pairing (R338), and for
RESUME where the release arrives halted. An orderly changeover releases tile by tile (R311). -/
def execReleaseStageResets (b : Fin 4) (s : State) : Host.Outcome State Fault Refusal :=
  onDev (guarded (fun d =>
      let c := coOf d b.val
      c.active && decide (c.stage = 2) && !c.arriveHalted && slotPaired d b.val c.target
        && (decide (c.mode ≠ 0) || decide (runSlot d b.val = 0xFF)))
    (fun d => releaseResets d b.val)) s

/-- FEEDER_EPOCH_MARK (R311 step 2): the feeder has finished its frame, sends a mark on each of its queues and goes on with
the incoming slot. The drain toward a slot with Folsa channels begins once they are PAIRED (R338, R339). -/
def feederMark (d : Device) (b : Nat) : Device :=
  let c := coOf d b
  let u := runBind d b
  let d := sendMarks d (feederEnds u) (BitVec.ofNat 2 (berthEpoch d b)) c.epoch
  let d := (slotTiles d b (runSlot d b)).foldl (fun d k => switchTile (modTile d b k drainAdapt) b k) d
  -- a tile or engine that the outgoing slot does not use switches at once
  let new := (slotTiles d b c.target).filter (fun k => !(slotTiles d b (runSlot d b)).contains k)
  let d := new.foldl (fun d k => modTile d b k (stage3Tile c.target (berthAt d b).cto)) d
  let d := modBerth d b (fun x => { x with feederOpen := decide (c.target < 4) })
  let d := setCo d b { coOf d b with
    marksSent := true
    firstPending := true
    switched := (coOf d b).switched ++ new }
  tryComplete d b

def execFeederEpochMark (b : Fin 4) (s : State) : Host.Outcome State Fault Refusal :=
  onDev (guarded (fun d =>
      let c := coOf d b.val
      c.active && decide (c.mode = 0) && !c.marksSent && decide (runSlot d b.val < 4) && (decide (c.stage = 2) || decide (c.target = 15))
        && slotPaired d b.val c.target)
    (fun d => feederMark d b.val)) s

/-- CONTEXT_DRAINED (R311 step 3). -/
def execContextDrained (t : TileId) (c : Fin 4) (s : State) : Host.Outcome State Fault Refusal :=
  onDev (guarded (fun d =>
      let co := coOf d t.b.val
      let tl := tileAt d t.b.val (keyOf d t)
      let p := planeAt tl tl.run
      co.active && decide (co.mode = 0) && decide (tl.run = runSlot d t.b.val) && !(ctxAt p c.val).drained && contextDrained p c.val
        && tl.inflight.all (fun f => f.ctx ≠ c.val))
    (fun d =>
      let key := keyOf d t
      switchTile (modTile d t.b.val key (fun tl => drainContext (coOf d t.b.val).epoch tl c.val)) t.b.val key)) s

/-- Re-feed of the frames of the outgoing epoch: one fed under the incoming epoch goes on. -/
def refeedOutgoing (d : Device) (b : Nat) : Device :=
  let c := coOf d b
  foldEntries d b (fun d n e =>
    if c.marksSent && decide (0 < e.fed) && decide (e.epoch = c.epoch) then d
    else putEntry d n { e with replay := true, fed := 0, recorded := 0 })

/-- CHANGEOVER_TIMEOUT (R317): an orderly changeover becomes a forced one with re-feed, for the outgoing plane only. -/
def execChangeoverTimeout (b : Fin 4) (s : State) : Host.Outcome State Fault Refusal :=
  onDev (guarded (fun d =>
      let c := coOf d b.val
      c.active && decide (c.mode = 0) && decide (runSlot d b.val < 4) && decide (c.since + msCounts (odGet d (0x3010 + b.val) 6) ≤ d.time))
    (fun d =>
      let c := coOf d b.val
      let out := runSlot d b.val
      let left := (slotTiles d b.val out).filter (fun k => !c.switched.contains k)
      let d := left.foldl (fun d k => cutTile d b.val out 1 k) d
      let d := refeedOutgoing (cutUnits d b.val 1) b.val
      let d := berthEvent d b.val 1 0
      let d :=
        if c.target = 15 then completeSwitch d b.val
        else setCo (setSlotState d b.val out 4) b.val { coOf d b.val with mode := 1, stage := min c.stage 2 }
      coStatus d b.val 0x0903)) s

/-- SCAN command 1 on a RUNNING berth (R320). -/
def haltCommand (d : Device) (b : Nat) : Device :=
  let d := wakeBerth d b
  if (coOf d b).active then coStatus d b 0x0901
  else if bstate d b = 2 then coStatus (haltBerth d b) b 0
  else coStatus d b 0x0901

/-- HALT (R320). -/
def execHalt (b : Fin 4) (s : State) : Host.Outcome State Fault Refusal := onDev (fun d => haltCommand d b.val) s

/-- HALT_COMPLETE (R320): every flit has landed and every credit has arrived. -/
def execHaltComplete (b : Fin 4) (s : State) : Host.Outcome State Fault Refusal :=
  onDev (guarded (fun d => (berthAt d b.val).haltDone && decide (bstate d b.val = 2) && berthQuiet d b.val)
    (fun d => setBstate (haltContexts d b.val) b.val 4)) s

/-- The deferred cut of a repair that met a halted berth (R433) is begun by RESUME in Faults.lean; here the contexts go on,
or a release that arrived halted takes stage 3 and ends a hold (R316, R322). -/
def resumeFrom (d : Device) (b : Nat) : Device :=
  let c := coOf d b
  let d :=
    if c.active && c.arriveHalted then
      let cto := (berthAt d b).cto
      let restored := (berthAt d b).scan.restored
      let d := if restored then resumeBerth (mapPlanes d b c.target (fun p => { p with released := 3 })) b
        else modBerth ((slotTiles d b c.target).foldl (fun d key => modTile d b key (stage3Tile c.target cto)) d) b startEngines
      modBerth d b (fun x => { x with co := {}, feederOpen := true, haltDone := false })
    else resumeBerth d b
  setBstate (if (berthAt d b).holdFrames && c.arriveHalted then restoreHeld d b else d) b 2

/-- Frames that the saved state refers to: unreleased, fed entries. -/
def liveFrames (d : Device) (b : Nat) : List (Nat × U32) :=
  (berthStreams d b).flatMap (fun n => ((streamAt d n).entries.filter (fun e => decide (0 < e.fed))).map (fun e => (n, e.fcount)))

/-- Scan header (Table 12-12). -/
def scanHeader (d : Device) (b : Nat) : List Byte :=
  let k := runSlot d b
  let spares := (List.range 20).foldl (fun n c => n + spareEntry d b c * 2 ^ (160 + 8 * c)) 0
  leBytes 64 ((slotAt d b k).imgid.toNat * 2 ^ 384 + (berthAt d b).haltTime % 2 ^ 64 * 2 ^ 320 + spares
    + 0x4353504B * 2 ^ 128 + 421 * 2 ^ 112 + 1 * 2 ^ 96 + b * 2 ^ 88 + k % 16 * 2 ^ 84 + berthEpoch d b % 4 * 2 ^ 82 + 2 ^ 81)

/-- Size of the scan area (R321): 192 MiB. -/
def scanBytes : Nat := 201326592

/-- SCAN-OUT (R321). A new scan-out releases a hold (R316). -/
def scanOut (d : Device) (b : Nat) : Device :=
  let d := if (berthAt d b).holdFrames then releaseHeld d b else d
  let x := berthAt d b
  match if x.scan.allocated then some x.hbm else (poolAlloc x.hbm scanBytes (0x30000 + b)).map (·.2) with
  | none => coStatus d b 0x0901
  | some h =>
    let tiles := (positions d b).map (fun p => (tileKey p.1 p.2.1, tileAt d b p.2.2))
    coStatus (modBerth d b (fun x => { x with
      hbm := h
      scan :=
        { allocated := true
          header := scanHeader d b
          tiles := tiles.filter (fun p => p.2.planes.any (fun q => q.1 = runSlot d b))
          engines := x.engines
          transfers := x.hbm.transfers
          ends := d.ends.filter (fun p => p.1 / 1280 = b)
          ports := d.ports.filter (fun p => p.1 / 1280 = b)
          frames := liveFrames d b } })) b 0

/-- SCAN-IN writes each logical record into the tile that now serves the position (R322): block memory, banks, sideband and
state of the active plane, ledger and stall counters. -/
def restoreTile (k : Nat) (saved t : Tile) : Tile :=
  { setPlane t k (planeAt saved k) with
    run := k
    mem := memOfCells saved.mem
    ecc := saved.ecc
    bmMode := saved.bmMode
    banks := saved.banks
    csdelta := saved.csdelta
    stall := saved.stall
    stallSeen := saved.stall
    arrival := saved.arrival
    bud := saved.bud
    inflight := saved.inflight
    lastCtx := saved.lastCtx }

/-- The scan area's conditions of R322. -/
def scanInOk (d : Device) (b : Nat) : Bool :=
  scanMatches d b && (berthAt d b).scan.frames.all (fun f => (streamAt d f.1).entries.any (fun e => e.fcount = f.2))

def scanIn (d : Device) (b : Nat) : Device :=
  if !scanInOk d b then coStatus d b 0x0904
  else
    let sc := (berthAt d b).scan
    let k := runSlot d b
    let d := sc.tiles.foldl (fun d p => modTile d b (physKey d b (p.1 / 32) (p.1 % 32)) (restoreTile k p.2)) d
    let d := { d with
      ends := sc.ends.foldl (fun m p => Tab.set m p.1 p.2) d.ends
      ports := sc.ports.foldl (fun m p => Tab.set m p.1 p.2) d.ports }
    coStatus (modBerth d b (fun x => { x with
      engines := sc.engines
      scan := { x.scan with restored := true }
      hbm := { x.hbm with transfers := sc.transfers } })) b 0

/-- SCAN command 3 on a HALTED berth (R321). -/
def scanOutCommand (d : Device) (b : Nat) : Device :=
  let d := wakeBerth d b
  if (coOf d b).active && !(coOf d b).arriveHalted || decide (bstate d b ≠ 4) then coStatus d b 0x0901 else scanOut d b

/-- SCAN command 4 on a HALTED berth (R322). -/
def scanInCommand (d : Device) (b : Nat) : Device :=
  let d := wakeBerth d b
  if bstate d b ≠ 4 then coStatus d b 0x0901 else scanIn d b

/-- SCAN command 5 (R316). -/
def holdReleaseCommand (d : Device) (b : Nat) : Device := coStatus (releaseHeld d b) b 0

/-- SCAN_OUT (R321). -/
def execScanOut (b : Fin 4) (s : State) : Host.Outcome State Fault Refusal := onDev (fun d => scanOutCommand d b.val) s

/-- SCAN_IN (R322). -/
def execScanIn (b : Fin 4) (s : State) : Host.Outcome State Fault Refusal := onDev (fun d => scanInCommand d b.val) s

/-- HOLD_RELEASE (R316). -/
def execHoldRelease (b : Fin 4) (s : State) : Host.Outcome State Fault Refusal := onDev (fun d => holdReleaseCommand d b.val) s

end Sys2Proof.Machine
end

