-- ==== Sys2Proof/Machine/Resets.lean ====
section
/-! DEFINITION. What the resets do to every kind of state (R404, R457 to R462, Tables 18-6 and 18-7), without the PCIe-side
resets of open transfers, which stand with the object dictionary service. -/

namespace Sys2Proof.Machine

/-- Set cause bits of object 0x1010 with the berths concerned (R404). -/
def setCause (d : Device) (bits berths : Nat) : Device :=
  let d := odPut d 0x1010 1 (Nat.lor (odGet d 0x1010 1) bits)
  odPut (odPut d 0x1010 2 (Nat.lor (odGet d 0x1010 2) berths)) 0x1010 3 d.time

/-- Object 0x1011 lists an object that returned to default outside the retention table; NLIST counts it (R404). -/
def listRestored (d : Device) (i s : Nat) : Device :=
  let n := odGet d 0x1010 4
  odAdd (if n < 64 then odPut d 0x1011 (n + 1) (256 * i + s) else d) 0x1010 4 1

/-- An object whose value is kept in flash (Table 16-10). -/
def classP (key : Nat) : Bool := ((odInfo (key / 256) (key % 256)).map (fun r => decide (r.cls = 0))).getD false

/-- The firmware reads the flash journal as it starts (R403): a damaged record is discarded and its object takes its factory
default, under cause 8. -/
def readFlash (d : Device) : Device :=
  let bad := (d.flash.filter (fun e => classP e.1 && Config.flashDamaged e.1 d.drawn)).map (·.1)
  let d := { d with flash := d.flash.filter (fun e => !bad.contains e.1), drawn := d.drawn + 1 }
  if bad.isEmpty then d
  else
    bad.foldl (fun d k => listRestored (odPut d (k / 256) (k % 256) (odDefault (k / 256) (k % 256))) (k / 256) (k % 256)) (setCause d 256 0)

/-- Berths with a slot that holds an image, and with a committed adaptation epoch above 0, as bit masks. -/
def slotMask (d : Device) : Nat :=
  (List.range 4).foldl (fun n b => n + if (List.range 4).any (fun k => decide (slotState d b k ≠ 0)) then 2 ^ b else 0) 0
def epochMask (d : Device) : Nat :=
  (List.range 4).foldl (fun n b => n + if (berthAt d b).adapt.ring.isEmpty then 0 else 2 ^ b) 0

/-- Causes 11 and 12 where the event lost images or epochs (R462). -/
def lossCauses (before : Device) (d : Device) : Device :=
  let d := if slotMask before = 0 then d else setCause d 2048 (slotMask before)
  if epochMask before = 0 then d else setCause d 4096 (epochMask before)

/-- The defaults-restored record, which a WARM reset adds to (R404). -/
def isRestored (i : Nat) : Bool := decide (i = 0x1010) || decide (i = 0x1011)

/-- Class V objects that read a state which PERST and WARM leave alone: the discipline of device time and telemetry (R460). -/
def hardwareState (i s : Nat) : Bool :=
  decide (i = 0x1200 ∧ s = 4) || decide (i = 0x8420) || decide (i = 0x8421) || decide (i = 0x8400 ∧ s = 5)
    || (decide (0x8410 ≤ i ∧ i < 0x8414) && decide (s = 5))

/-- Everything that POWER-ON, PERST and WARM return alike (Table 18-7): class P objects, flash, device time, the aux domain, the
host's memory and the PCIe function stay for the caller to treat. -/
def resetModule (keepTime keepRestored : Bool) (d : Device) : Device :=
  let od := d.flash.foldl (fun m e => Tab.set m e.1 e.2) (odReset (fun i s _ => !(keepRestored && isRestored i) && !(keepTime && hardwareState i s)) d).od
  { pcie := d.pcie
    od := od
    flash := d.flash
    journal := []
    sfp := Tab.map (fun p => { p with link := false, txDisable := true, held := false, out := [] }) d.sfp
    folsa := Tab.map (fun f => { cable := f.cable }) d.folsa
    mctpEid := d.mctpEid
    fw := { d.fw with running := false, selfTested := false, fwstate := 0, bootAt := d.time, warmDue := false }
    power := { d.power with overTemp := false, voltReq := false, above := [], corr := [], leavingMoor := false }
    time := if keepTime then d.time else 0
    hostMem := d.hostMem
    drawn := d.drawn }

/-- A marked firmware bank boots (R391): each boot of it is a try. -/
def bootFirmware (d : Device) : Device :=
  if d.fw.marked then
    { d with fw := { d.fw with active := if d.fw.tries = 0 then 1 - d.fw.active else d.fw.active, tries := d.fw.tries + 1 } }
  else d

/-- The cores start once the control domain is up and PERST_N is high (R478): the boot ROM runs, the flash is read, then self-test. -/
def startCores (d : Device) : Device :=
  if d.power.aux && d.power.control && !d.power.perstLow && decide (mstate d = 0) then
    readFlash { d with fw := { d.fw with running := true, fwstate := 1, bootAt := d.time }, pcie := { d.pcie with up := true } }
  else d

/-- The control domain follows the slot 12 V, the fabric rails AVAIL (R468, R477). -/
def setRails (d : Device) : Device :=
  let on := d.power.aux && d.power.slot12 && decide (mstate d = 0)
  { d with power := { d.power with control := on, fabric := on && decide (120 ≤ availW d) } }

/-- WARM reset (R457). -/
def warmResetAll (d : Device) : Device :=
  startCores (bootFirmware (lossCauses d (setCause (resetModule true true d) 8 0)))

/-- PERST reset (R457): the PCIe function is reset too, and the record is cleared first. -/
def perstReset (d : Device) : Device :=
  let d' := resetModule true false d
  bootFirmware (lossCauses d (setCause { d' with pcie := {}, power := { d'.power with tripped := false, perstLow := true } } 2 0))

/-- A spare's block memories as they are after power-up (R51). -/
def patternMem : List Host.Cell :=
  ((List.range 393216).map (fun a => (a, Config.sparePattern a))).filter (fun c => c.2 ≠ 0)

/-- The spare map of a berth as self-test finds it (R51). -/
def rebuildSpares (d : Device) (b : Nat) : Device :=
  let n := d.drawn
  let d := (List.range 20).foldl (fun d c =>
    let bad := Config.spareBad b c n
    let d := odPut d (0x3110 + b) (c + 1) (if bad then 64 else 0)
    let d := modTile d b (tileKey c 20) (fun t => { t with retention := true, mem := patternMem, ecc := [] })
    if bad then berthReport d b 20 (tileTag b c 20) (tileTag b c 20) 0 else d) d
  { d with drawn := n + 1 }

/-- Write the copies of an epoch into a tile's PA side. -/
def applyCopies (cs : List PlaneCopy) (lk : Nat) (t : Tile) : Tile :=
  cs.foldl (fun t c => if c.tile = lk then writeBlock t c.bm c.bytes else t) t

/-- The committed epoch of a slot, when it is above 0 (R287). -/
def committedCopies (d : Device) (b k : Nat) : List PlaneCopy := ((slotRing d b k).getLast?.map (·.copies)).getD []

/-- Reload every LOADED slot of a berth from the configuration store (R459 step 4). -/
def reloadSlots (d : Device) (b : Nat) : Device :=
  (List.range 4).foldl (fun d k =>
    match (slotAt d b k).image with
    | none => d
    | some img =>
      let d := loadSlotTiles d b k img
      let cs := committedCopies d b k
      img.planes.foldl (fun d p => modTile d b (physKey d b (p.1 / 32) (p.1 % 32)) (applyCopies cs p.1)) d) d

/-- Mark the root record of a berth's repair with an outcome. -/
def closeRecord (d : Device) (seq : Nat) (f : FaultRec → FaultRec) : Device :=
  { d with hub := { d.hub with log := d.hub.log.map (fun r => if r.seq.toNat = seq then f r else r) } }

/-- The state of a BERTH reset before its restart (R459 steps 1 to 5). -/
def stopForReset (d : Device) (b : Nat) : Device :=
  let d := abortUpdate d b
  let d := if (berthAt d b).holdFrames then releaseHeld d b else d
  let d := disposeFrames (cutLive d b 1) b 2
  -- the forced stop is one of the whole pipeline (R319)
  let d := ((pipelineBerths d b (runSlot d b)).drop 1).foldl (fun d x => forceSwitch d x 15 2 false (BitVec.ofNat 2 (berthEpoch d x))) d
  let d := if (berthAt d b).repair.active then closeRecord d (odGet d (0x8020 + b) 2) (fun r => { r with outcome := 2 }) else d
  if runSlot d b < 4 then setSlotState d b (runSlot d b) 4 else d

/-- Tiles, routers and memory-side units of a berth after their reset; HBM, epoch ring and slots stay. -/
def freshBerth (x : Berth) : Berth :=
  { hbm := { x.hbm with transfers := [], admission := [], lightQ := [] }
    slots := x.slots
    adapt := x.adapt
    scan := x.scan
    mirror := []
    fclk := x.fclk
    cto := x.cto }

/-- BERTH reset (R459). -/
def berthResetAll (d : Device) (b : Nat) : Device :=
  let run := runSlot d b
  let d := stopForReset d b
  let d := modBerth d b freshBerth
  let d := { d with
    ports := d.ports.filter (fun p => p.1 / 1280 ≠ b)
    ends := d.ends.filter (fun p => p.1 / 1280 ≠ b)
    toTile := d.toTile.filter (fun p => p.1 / 20 ≠ b)
    stallTotals := d.stallTotals.filter (fun p => p.1 / 2 ^ 20 ≠ b)
    streams := List.map (fun (p : Nat × Stream) =>
      (p.1, if strmBerth d p.1 = b then { p.2 with anchor := (0, 0), heldAnchors := [] } else p.2)) d.streams }
  let d := odReset (fun i s r =>
    decide (odBerth d i = some b) &&
      ((decide (r.cls = 2) && !(decide (odKind i = some .slot) || decide (odKind i = some .changeover) || decide (odKind i = some .scanData)
          || decide (odKind i = some .adaptState) || decide (odKind i = some .snapshot)))
        || (decide (r.cls = 2) && decide (odKind i = some .changeover) && decide (s = 9))
        || (decide (r.cls = 3) && decide (r.acc = 1)))) d
  let d := reloadSlots (rebuildSpares d b) b
  let d := setBstate (odPut (odPut (odPut d (0x8410 + b) 1 0) (0x8020 + b) 1 0) (0x3010 + b) 7 0) b 0
  let d := setCause d 32 (2 ^ b)
  if run < 4 then
    let e := nextEpoch d b
    (pipelineBerths d b run).foldl (fun d x => beginSwitch d x run 1 false e) (odPut d (0x3010 + b) 1 0xFF)
  else d

/-- The module in DOCK (R450, Table 18-7): every rail but the aux domain is off; FAULT_N keeps its level (R474). -/
def dockState (d : Device) : Device :=
  let d' := resetModule false false d
  odPut { d' with
    pcie := {}
    fw := { d.fw with running := false, fwstate := 0, selfTested := d.fw.selfTested && d.hub.uncleared.isEmpty }
    power := { d'.power with
      control := false
      fabric := false
      lostSlots := slotMask d
      lostEpochs := epochMask d } } 0x8400 8 5

end Sys2Proof.Machine
end

