-- ==== Sys2Proof/Machine/Operands.lean ====
section
/-! DEFINITION. Operand descriptors and every operand form of the tile steps (R112, R113, R153, R271). -/

namespace Sys2Proof.Machine

/-- A resolved operand: word i of it lies at word `(origin + (off + i) mod span) mod 2048` of block memory `bm`; a ring
operand also names its queue. -/
structure Operand where
  ring : Bool := false
  iq : Nat := 0
  bm : Nat := 0
  origin : Nat := 0
  off : Int := 0
  span : Nat := 2048
  deriving DecidableEq, Repr, Inhabited

/-- The block memory that a reference resolves to under the weight-plane pairs of an A-tile (R271). -/
def resolveBm (a : AdaptReg) (bm : Nat) : Nat :=
  if !a.apl then bm
  else if 0 < a.npair ∧ bm = a.pa0 then a.pb0
  else if 0 < a.npair ∧ bm = a.pb0 then a.pa0
  else if 1 < a.npair ∧ bm = a.pa1 then a.pb1
  else if 1 < a.npair ∧ bm = a.pb1 then a.pa1
  else if 2 < a.npair ∧ bm = a.pa2 then a.pb2
  else if 2 < a.npair ∧ bm = a.pb2 then a.pa2
  else bm

/-- The partner of a block memory in its pair (R271). -/
def partnerBm (a : AdaptReg) (bm : Nat) : Nat :=
  if 0 < a.npair ∧ bm = a.pa0 then a.pb0
  else if 0 < a.npair ∧ bm = a.pb0 then a.pa0
  else if 1 < a.npair ∧ bm = a.pa1 then a.pb1
  else if 1 < a.npair ∧ bm = a.pb1 then a.pa1
  else if 2 < a.npair ∧ bm = a.pa2 then a.pb2
  else if 2 < a.npair ∧ bm = a.pb2 then a.pa2
  else bm

/-- The start offset of a descriptor (R112): BASE plus each stride times its counter. -/
def descOffset (pl : Plane) (c : Nat) (d : BitVec 64) : Int :=
  (fld d 58 48 : Int)
    + sfld d 47 36 * (counterAt pl (4 * c)).value
    + sfld d 35 24 * (counterAt pl (4 * c + 1)).value
    + sfld d 23 12 * (counterAt pl (4 * c + 2)).value
    + sfld d 11 0 * (counterAt pl (4 * c + 3)).value

/-- start(): the operand that the descriptor in registers n and n + 1 names. -/
def operandOf (pl : Plane) (c n : Nat) : Operand :=
  let d := regPair pl n
  let bmq := fld d 62 59
  if bit d 63 then
    let q := iqAt pl bmq
    { ring := true, iq := bmq, bm := 2 * q.base / 2048, origin := 2 * q.base % 2048,
      off := 2 * (frontOffset q : Int) + descOffset pl c d, span := 2 * ringSize q }
  else { bm := resolveBm pl.adapt bmq, off := descOffset pl c d }

def opA (x : Xe) : Operand := operandOf x.pl x.c (wDa x.w)
def opB (x : Xe) : Operand := operandOf x.pl x.c (wDb x.w)
def opC (x : Xe) : Operand := operandOf x.pl x.c (wDc x.w)

/-- The same operand started `n` words later. -/
def opShift (o : Operand) (n : Int) : Operand := { o with off := o.off + n }

/-- Word of the ring, or of the block memory, that word i of the operand is. -/
def opPos (o : Operand) (i : Int) : Nat := ((o.off + i) % o.span).toNat

/-- Tile word address of word i of an operand. -/
def opWord (o : Operand) (i : Int) : Nat := 2048 * o.bm + (o.origin + opPos o i) % 2048

/-- The 128-bit word i of an operand, as a number. -/
def word (t : Tile) (o : Operand) (i : Int) : Nat := memReadNat t.mem (16 * opWord o i) 16

/-- Byte b of word i. -/
def byteOf (t : Tile) (o : Operand) (i : Int) (b : Nat) : Nat := (memRead t.mem (16 * opWord o i + b)).toNat

/-- Take note of reading word i of an operand (R35, R41, R191). -/
def touchWord (x : Xe) (o : Operand) (i : Int) : Xe :=
  let a := opWord o i
  let x := touchGranule (touchGranule x (2 * a)) (2 * a + 1)
  if o.ring then touchSide x o.iq (opPos o i / 2) else x

def touchWords (x : Xe) (o : Operand) (is : List Int) : Xe := is.foldl (fun x i => touchWord x o i) x

/-- Words 0 … n − 1. -/
def wordRange (n : Nat) : List Int := (List.range n).map (fun i => (i : Int))

/-- The 256-bit token at word i (two words), as a payload. -/
def tokenData (t : Tile) (o : Operand) (i : Int) : Payload :=
  BitVec.ofNat 256 (word t o i + 2 ^ 128 * word t o (i + 1))

/-- V of the token at word i: that of its ring slot, or 1 through an absolute descriptor (R137). -/
def tokenV (pl : Plane) (o : Operand) (i : Int) : Bool := if o.ring then (sideAt pl o.iq (opPos o i / 2)).v else true
def tokenS (pl : Plane) (o : Operand) (i : Int) : Bool := if o.ring then (sideAt pl o.iq (opPos o i / 2)).s else false
def tokenP (pl : Plane) (o : Operand) (i : Int) : Bool := if o.ring then (sideAt pl o.iq (opPos o i / 2)).p else false

/-- Element k (UINT8) of a run of tokens that starts at word 0. -/
def codeAt (t : Tile) (o : Operand) (k : Nat) : Nat := byteOf t o ((k / 16 : Nat) : Int) (k % 16)

/-- The weight code of output channel i for input channel (or tap) ch of the group at word `base` (R57). -/
def weightCode (t : Tile) (o : Operand) (w8 : Bool) (base : Int) (ch i : Nat) : Nat :=
  if w8 then byteOf t o (base + (ch : Int)) i
  else
    let b := byteOf t o (base + ((ch / 2 : Nat) : Int)) (8 * (ch % 2) + i / 2)
    if i % 2 = 0 then b % 16 else b / 16

/-- The A48 value at half h of word i (R63). -/
def a48At (t : Tile) (o : Operand) (i : Int) (h : Nat) : Int := signed 48 (nbits (word t o i) (64 * h + 47) (64 * h))

/-- Element (channel i, pixel j) of a bank image that starts at word `base` (R122). -/
def imageLane (t : Tile) (o : Operand) (base : Int) (i j : Nat) : Int :=
  a48At t o (base + (((16 * i + j) / 2 : Nat) : Int)) ((16 * i + j) % 2)

/-- An A48 value in its 8-byte form (R63). -/
def a48Bytes (v : BitVec 48) : Nat := unsigned 64 v.toInt

/-- Column sum and bias of output channel i (R121). -/
def colSum (t : Tile) (o : Operand) (i : Nat) : Int := a48At t o (i : Int) 0
def biasOf (t : Tile) (o : Operand) (i : Nat) : Int := a48At t o (i : Int) 1

end Sys2Proof.Machine
end

