-- ==== Sys2Proof/Machine/Flags.lean ====
section
/-! DEFINITION. The sideband and status computations of the tile steps: masking (R34), poison (R35), the last-token
mask (R114), statistics and saturation (R85, R86), and the factor test (R83). -/

namespace Sys2Proof.Machine

/-- Parameter block (Table 5-4). -/
structure Params where
  ma : U32
  mb : U32
  lo : Int
  hi : Int
  z16 : Int
  zp : Nat
  loen : Bool
  hien : Bool
  deriving DecidableEq, Repr, Inhabited

def paramsOf (x : Xe) : Params :=
  let r := fun n => regRead x.pl (wPr x.w + n)
  { ma := r 0, mb := r 1, lo := sfld (r 2) 31 16, hi := sfld (r 2) 15 0, z16 := sfld (r 3) 31 16, zp := fld (r 3) 15 8,
    loen := bit (r 3) 1, hien := bit (r 3) 0 }

/-- A payload with the same byte everywhere. -/
def fillByte (b : Nat) : Payload := BitVec.ofNat 256 (leNat (List.replicate 32 (BitVec.ofNat 8 b)))
/-- A payload with the same 16-bit element everywhere. -/
def fillHalf (h : Int) : Payload :=
  let v := unsigned 16 h
  BitVec.ofNat 256 (leNat ((List.replicate 16 [BitVec.ofNat 8 v, BitVec.ofNat 8 (v / 256)]).flatten))
/-- A payload from a list of bytes. -/
def payloadOf (bs : List Byte) : Payload := BitVec.ofNat 256 (leNat (bs.take 32))
/-- A payload from element codes 0 to 255. -/
def payloadOfCodes (cs : List Nat) : Payload := payloadOf (cs.map (BitVec.ofNat 8))
/-- Byte k of a payload. -/
def payByte (p : Payload) (k : Nat) : Nat := fld p (8 * k + 7) (8 * k)

/-- R34: every data token that the step pops is masked, and it pops at least one. -/
def allMasked (ts : List Token) : Bool :=
  let data := ts.filter (fun t => !t.sb.s)
  !data.isEmpty && data.all (fun t => !t.sb.v)

/-- R114: L of the last token of the issue. -/
def lastFlag (x : Xe) : Bool :=
  decide (wLm x.w ≠ 0) && (List.range 4).all (fun n =>
    decide (wLm x.w / 2 ^ n % 2 = 0) ||
      (let k := counterAt x.pl (4 * x.c + n); decide (k.value = k.limit)))

/-- The F check of R114 over the data tokens popped from one queue. -/
def frameMismatch (x : Xe) (iq : Nat) (ts : List Token) : Bool :=
  decide ((iqAt x.pl iq).kind ≠ .weight) && ts.any (fun t => !t.sb.s && decide (t.sb.f ≠ x.ctx.f))

/-- Steps that are exempt from the F check of R114 on both queues: PASS, STEER, MERGE, and SCALE, which checks its own. -/
def frameExempt (op : Nat) : Bool := decide (op = 0x0A) || decide (op = 0x30) || decide (op = 0x31) || decide (op = 0x05)

/-- The F check of R114 on the popped data tokens. -/
def checkFrames (x : Xe) : Bool :=
  !frameExempt (wOpcode x.w) && (frameMismatch x (wIqa x.w) (tokensA x) || frameMismatch x (wIqb x.w) (tokensB x))

/-- The first n popped tokens of a queue, each with P = 1 where its payload read is uncorrectable or its sideband fails its
parity (R35, R191). -/
def poppedFor (x : Xe) (iq n : Nat) : List Token :=
  let q := iqAt x.pl iq
  (frontTokens x.t x.pl iq n).zipIdx.map (fun e =>
    let slot := slotOf q e.2
    let g := 4 * (q.base + slot)
    let bad := (List.range 4).any (fun k => decide (Tab.find x.t.ecc (g + k) = some .double))
      || Tab.get false x.pl.sideBad (1024 * iq + slot)
    { e.1 with sb := { e.1.sb with p := e.1.sb.p || bad } })

/-- A moved token: payload and sideband as they were. -/
def moved (t : Token) : OutTok := { data := t.data, v := t.sb.v, keep := some t.sb }

/-- R83: zero, subnormal, infinite or NaN. -/
def badFactor (m : U32) : Bool := !f32Normal m

/-- Raise the scale-token fault for a factor, once for the frame (R83). -/
def factorFault (x : Xe) : Xe :=
  if x.ctx.factorFault then x
  else xCnt (xRep { x with ctx := { x.ctx with factorFault := true } } 12 x.ctx.outTid) 7 1

/-- A code-producing step's factor test: with a factor that is not normal its outputs are poisoned. -/
def factorCheck (x : Xe) (ms : List U32) : Xe × Bool :=
  if ms.any badFactor then (xPoison (factorFault x) true, true) else (x, false)

/-- d = |n − z_out|, saturated at 2^32 − 1 (R85). -/
def statDist (z n : Int) : Nat := min (n - z).natAbs top32

/-- Add elements to the statistic of the context's tensor (R85). -/
def statAdd (x : Xe) (z : Int) (ns : List Int) : Xe :=
  if ns.isEmpty then x
  else { x with ctx := { x.ctx with any := true, stat := ns.foldl (fun m n => max m (statDist z n)) x.ctx.stat } }

/-- Elements outside the format limits (R86). -/
def satCount (fmin fmax : Int) (ns : List Int) : Nat := (ns.filter (fun n => decide (n < fmin) || decide (fmax < n))).length

/-- R84 for one UINT8 element: the value after the narrowing bounds. -/
def bounded (p : Params) (t z : Int) : Int := narrow p.loen p.hien p.lo p.hi (t + z)

def clampU8 (n : Int) : Nat := (clampI 0 255 n).toNat

/-- Statistics and saturation of UINT8 elements, counted at completion (R85, R98). `contrib` is V = 1 and P = 0. -/
def finishU8 (x : Xe) (z : Int) (contrib : Bool) (ns : List Int) : Xe :=
  if contrib then
    let x := statAdd x z ns
    { x with satSub := 1, satN := x.satN + satCount 0 255 ns }
  else x

/-- Pad a list of codes to a whole number of 32-byte tokens with `fill`. -/
def padCodes (fill : Nat) (cs : List Nat) : List Nat := cs ++ List.replicate ((32 - cs.length % 32) % 32) fill

/-- Cut a list of codes into 32-byte payloads. -/
def codeTokens (fill : Nat) (cs : List Nat) : List Payload :=
  let cs := padCodes fill cs
  (List.range (cs.length / 32)).map (fun k => payloadOfCodes ((cs.drop (32 * k)).take 32))

/-- The masked tokens of a code-producing step: its NO units, V = 0, with the zero-point encoding (R34, R114). -/
def maskedU8 (x : Xe) (zp : Nat) : List OutTok :=
  List.replicate (noTokens x.pl x.w) { data := fillByte zp, v := false }

def maskedZero (x : Xe) : List OutTok := List.replicate (noTokens x.pl x.w) { data := 0, v := false }

end Sys2Proof.Machine
end

