-- ==== Sys2Proof/Machine/ScaleOps.lean ====
section
/-! DEFINITION. Scales, statistics and bands: SCALE, SEMIT, STAT, BAND and BCHK (R87 to R106, R132 to R136). -/

namespace Sys2Proof.Machine

/-! Quantisation records and scale tokens -/

/-- The 320 bits of the quantisation record at an operand (Table 4-1). -/
def qrecBits (t : Tile) (o : Operand) : BitVec 320 :=
  BitVec.ofNat 320 (word t o 0 + 2 ^ 128 * word t o 1 + 2 ^ 256 * (word t o 2 % 2 ^ 64))

def qTid (r : BitVec 320) : Nat := fld r 15 0
def qFmt (r : BitVec 320) : Nat := fld r 21 20
def qZp (r : BitVec 320) : Nat := fld r 31 24
def qZ16 (r : BitVec 320) : Nat := fld r 47 32
def qKs (r : BitVec 320) : U32 := BitVec.ofNat 32 (fld r 159 128)
def qSfloor (r : BitVec 320) : U32 := BitVec.ofNat 32 (fld r 191 160)
def qSceil (r : BitVec 320) : U32 := BitVec.ofNat 32 (fld r 223 192)
def qSdefault (r : BitVec 320) : U32 := BitVec.ofNat 32 (fld r 255 224)
def qS2 (r : BitVec 320) : U32 := BitVec.ofNat 32 (fld r 287 256)

/-- A scale in the form the record's format carries it: binary32, or its code (R88). -/
def encodeScale (r : BitVec 320) (s : U32) : Nat := if qFmt r = 1 then (encodeUp (qS2 r) s).1 else s.toNat

/-- The effective scale of a SCALE field (R88, R132). -/
def effectiveScale (r : BitVec 320) (field : Nat) : U32 :=
  if qFmt r = 1 then scaleOfCode (qS2 r) (field % 256) else BitVec.ofNat 32 field

/-- Fields of a scale token (Table 4-3). -/
def stTid (p : Payload) : Nat := fld p 15 0
def stFmt (p : Payload) : Nat := fld p 23 22
def stZp (p : Payload) : Nat := fld p 31 24
def stScale (p : Payload) : Nat := fld p 63 32
def stZ16 (p : Payload) : Nat := fld p 79 64
def stStream (p : Payload) : Nat := fld p 89 80

/-- The check of R89: true when the token passes. -/
def scaleTokenOk (r : BitVec 320) (p : Payload) : Bool :=
  decide (stTid p = qTid r ∧ stZp p = qZp r ∧ stZ16 p = qZ16 r ∧ stFmt p = qFmt r) &&
  (if qFmt r = 1 then decide (stScale p % 256 ≠ 0)
   else
    let s := BitVec.ofNat 32 (stScale p)
    f32Normal s && f32Le (qSfloor r) s && f32Le s (qSceil r))

/-- The effective scale a tile uses: that of the token, or SDEFAULT where the check fails (R89). -/
def usedScale (r : BitVec 320) (p : Payload) : U32 :=
  if scaleTokenOk r p then effectiveScale r (stScale p) else qSdefault r

/-- A scale token payload (Table 4-3). -/
def scalePayload (r : BitVec 320) (stream scale amax fseq : Nat) (srcvalid deg dflt clamped : Bool) : Payload :=
  BitVec.ofNat 256
    (qTid r + 2 ^ 19 * b2n clamped + 2 ^ 20 * b2n dflt + 2 ^ 21 * b2n deg + 2 ^ 22 * qFmt r + 2 ^ 24 * qZp r
      + 2 ^ 32 * scale + 2 ^ 64 * qZ16 r + 2 ^ 80 * stream + 2 ^ 96 * fseq + 2 ^ 113 * b2n srcvalid + 2 ^ 128 * amax)

/-! SCALE (Table 5-13, R132) -/

/-- Token at the front of a queue. -/
def headToken (t : Tile) (pl : Plane) (iq : Nat) : Token := (frontTokens t pl iq 1).getD 0 {}

/-- Check one popped scale token against its record: on failure the fault, its counter, and the queue's mark. -/
def checkScale (x : Xe) (iq : Nat) (r : BitVec 320) (ok : Bool) : Xe :=
  let q := iqAt x.pl iq
  let x := { x with pl := setIq x.pl iq { q with scaleBad := !ok } }
  if ok then x else xCnt (xRep x 12 (qTid r)) 7 1

/-- The factors that SCALE writes by KIND: MA and MB. -/
def scaleFactors (kind h : Nat) (sa sb so : U32) : U32 × U32 :=
  let rot := fun (m : U32) => if h = 0 then m else f32Scale m (-(h : Int))
  if kind = 0 then (rot (f32Div sa so), 0)
  else if kind = 1 then (rot (f32Div (f32Mul sa sb) so), 0)
  else if kind = 2 then (rot (f32Div sa so), rot (f32Div sb so))
  else (rot (f32Div (BitVec.ofNat 32 0x3F800000) so), 0)

def opScale (x : Xe) : Option Xe :=
  let w := x.w
  let siq := fld w 51 48
  let siqen := bit w 47
  let kind := fld w 46 44
  if 4 < kind then none else
  let ra := qrecBits x.t (opA x)
  let rb := qrecBits x.t (opB x)
  let rc := qrecBits x.t (opC x)
  let iqa := wIqa w
  let iqb := wIqb w
  let hasB := decide (0 < wNb w)
  let ta := headToken x.t x.pl iqa
  let tb := headToken x.t x.pl iqb
  let ts := headToken x.t x.pl siq
  let x := { x with cycles := 8 }
  let x := touchFront x iqa 1
  let x := if hasB then touchFront x iqb 1 else x
  let x := if siqen then touchFront x siq 1 else x
  let x := touchWords x (opA x) (wordRange 3)
  let x := if hasB then touchWords x (opB x) (wordRange 3) else x
  let x := touchWords x (opC x) (wordRange 3)
  let oka := scaleTokenOk ra ta.data
  let okb := !hasB || scaleTokenOk rb tb.data
  let okc := !siqen || scaleTokenOk rc ts.data
  let x := checkScale x iqa ra oka
  let x := if hasB then checkScale x iqb rb okb else x
  let x := if siqen then checkScale x siq rc okc else x
  let so := if siqen then usedScale rc ts.data else qSdefault rc
  let fBad := hasB && decide (tb.sb.f ≠ ta.sb.f)
  let x := if fBad then xRep x 9 0 else x
  let x := { x with ctx := { x.ctx with
      f := ta.sb.f, e := ta.sb.e, stream := stStream ta.data, outTid := qTid rc, stat := 0, any := false, satcnt := 0,
      runs := 0, wide := false, frameP := fBad || !(oka && okb && okc), factorFault := false } }
  if kind = 3 then
    some { x with out := [moved ta] }
  else
    let (ma, mb) := scaleFactors kind (fld w 43 41) (usedScale ra ta.data) (usedScale rb tb.data) so
    let x := { x with pl := regWrite (regWrite x.pl (wPr w) ma) (wPr w + 1) mb }
    let bad := badFactor ma || (decide (kind = 2) && badFactor mb)
    some (if bad then factorFault x else x)

/-- The extra condition of SCALE: with SIQEN = 1, SIQ holds a token (R132). -/
def scaleReady (x : Xe) : Bool := !bit x.w 47 || decide (0 < available (iqAt x.pl (fld x.w 51 48)))

/-! Scale state (Table 4-4) and SEMIT (R133) -/

/-- The 64-bit entry of stream x, and its amax value (R133). -/
def stateEntry (t : Tile) (o : Operand) (s : Nat) : Nat := memReadNat t.mem (16 * opWord o ((s / 2 : Nat) : Int) + 8 * (s % 2)) 8
def amaxEntry (t : Tile) (o : Operand) (s : Nat) : Nat :=
  memReadNat t.mem (16 * opWord o ((512 + s / 4 : Nat) : Int) + 4 * (s % 4)) 4

def seSnext (e : Nat) : Nat := nbits e 31 0
def seFseq (e : Nat) : Nat := nbits e 43 32
def seValid (e : Nat) : Bool := decide (nbits e 47 47 = 1)
def seDeg (e : Nat) : Bool := decide (nbits e 48 48 = 1)
def seClamped (e : Nat) : Bool := decide (nbits e 49 49 = 1)
def packEntry (snext fseq : Nat) (valid deg clamped : Bool) : Nat :=
  snext + 2 ^ 32 * fseq + 2 ^ 47 * b2n valid + 2 ^ 48 * b2n deg + 2 ^ 49 * b2n clamped

/-- The frame F of stream s carries the first-frame indication (R96). -/
def isFirst (x : Xe) (s : Nat) (f : BitVec 12) : Bool := decide (Tab.find x.first s = some f.toNat)

/-- SEMIT is eligible only with a scale token at the front of IQA (R133), and not before STAT has applied the statistic of the
frame whose scale token an earlier SEMIT sent from the same table (R95). -/
def semitReady (x : Xe) : Bool :=
  let tok := headToken x.t x.pl (wIqa x.w)
  let due := Tab.find x.pl.statOpen (opWord (opA x) 0)
  decide (0 < available (iqAt x.pl (wIqa x.w))) && tok.sb.s && decide (due = none ∨ due = some (stStream tok.data, tok.sb.f.toNat))

def opSemit (x : Xe) : Option Xe :=
  let w := x.w
  let x := { x with cycles := 4 }
  let x := touchFront x (wIqa w) 1
  let tok := headToken x.t x.pl (wIqa w)
  let s := stStream tok.data
  let o := opA x
  let x := touchWord (touchWord x o ((s / 2 : Nat) : Int)) o ((512 + s / 4 : Nat) : Int)
  let x := touchWords x (opB x) (wordRange 3)
  let r := qrecBits x.t (opB x)
  let e := stateEntry x.t o s
  let valid := seValid e && !isFirst x s tok.sb.f && decide (qKs r ≠ 0)
  let scale := if valid then seSnext e else encodeScale r (qSdefault r)
  let amax := if valid then amaxEntry x.t o s else 0
  let pay := scalePayload r s scale amax (seFseq e) valid (seDeg e) (!valid) (seClamped e)
  let open_ := if qKs r = 0 then x.pl.statOpen else Tab.set x.pl.statOpen (opWord o 0) (s, tok.sb.f.toNat)
  some { x with
    pl := { x.pl with statOpen := open_ }
    out := [{ data := pay, s := true, keep := some { v := true, s := true, l := lastFlag x, e := tok.sb.e, f := tok.sb.f } }] }

/-! STAT (Table 5-14, R134) -/

def statPayload (m tid stream : Nat) (any : Bool) : Payload :=
  BitVec.ofNat 256 (m + 2 ^ 32 * tid + 2 ^ 48 * stream + 2 ^ 58 * b2n any)

def opStatSend (x : Xe) : Option Xe :=
  let x := { x with cycles := 1 }
  if allMasked (tokensA x ++ tokensB x) then some { x with out := maskedZero x }
  else some { x with out := [{ data := statPayload x.ctx.stat x.ctx.outTid x.ctx.stream x.ctx.any }] }

/-- The new entry, its amax value, and which counter to raise (R92, R94): none where nothing contributed. -/
def updatedEntry (r : BitVec 320) (s : U32) (f m : Nat) : Nat × Nat × Nat :=
  if m = 0 then (packEntry (encodeScale r (qSfloor r)) f true true false, 0, 5)
  else
    let amax := f32Mul s (f32OfInt m)
    let sn := f32Mul amax (qKs r)
    let cl := f32Lt sn (qSfloor r) || f32Lt (qSceil r) sn
    let nx := f32Min (f32Max sn (qSfloor r)) (qSceil r)
    let up := encodeUp (qS2 r) nx
    let cl := cl || (decide (qFmt r = 1) && up.2)
    (packEntry (if qFmt r = 1 then up.1 else nx.toNat) f true false cl, amax.toNat, if cl then 6 else 0)

/-- An entry is a whole granule, an amax value half of one (R40). -/
def writeEntry (x : Xe) (o : Operand) (s e : Nat) : Xe := writeGranule x (2 * opWord o ((s / 2 : Nat) : Int) + s % 2) e
def writeAmax (x : Xe) (o : Operand) (s a : Nat) : Xe :=
  writePart x (16 * opWord o ((512 + s / 4 : Nat) : Int) + 4 * (s % 4)) (leBytes 4 a)

/-- STAT update (R134). A table whose record has KS = +0.0 is not updated (R79). -/
def opStatUpdate (x : Xe) : Option Xe :=
  let ts := tokensA x
  let x := { x with cycles := wNa x.w + 8, pl := { x.pl with statOpen := Tab.erase x.pl.statOpen (opWord (opA x) 0) } }
  if allMasked (ts ++ tokensB x) then some x else
  match ts with
  | [] => some x
  | t0 :: _ =>
    let same := ts.all (fun t => decide (fld t.data 47 32 = fld t0.data 47 32 ∧ fld t.data 57 48 = fld t0.data 57 48 ∧
      t.sb.f = t0.sb.f))
    if !same then some (xRep x 11 0) else
    let s := fld t0.data 57 48
    let f := t0.sb.f
    let m := ts.foldl (fun m t => max m (fld t.data 31 0)) 0
    let any := ts.any (fun t => bit t.data 58)
    let o := opA x
    let x := touchWord (touchWord x o ((s / 2 : Nat) : Int)) o ((512 + s / 4 : Nat) : Int)
    let x := touchWords x (opB x) (wordRange 3)
    let r := qrecBits x.t (opB x)
    let e := stateEntry x.t o s
    let first := isFirst x s f
    if qKs r = 0 then some x else
    if !any then
      -- R93; on a first frame the entry is written with VALID, DEG and CLAMPED 0 (R96)
      if first then
        let e' := packEntry (seSnext e) (seFseq e) false false false
        some { writeEntry x o s e' with mirror := [⟨qTid r, s, e'⟩] }
      else some x
    else
      let used := if seValid e && !first then effectiveScale r (seSnext e) else qSdefault r
      let u := updatedEntry r used f.toNat m
      let x := writeAmax (writeEntry x o s u.1) o s u.2.1
      let x := if u.2.2 = 0 then x else xCnt x u.2.2 1
      some { x with mirror := [⟨qTid r, s, u.1⟩] }

/-! BAND and BCHK (R102 to R106, R135, R136) -/

/-- The four counter values of a context. -/
def counterValues (pl : Plane) (c : Nat) : List Nat := (List.range 4).map (fun n => (counterAt pl (4 * c + n)).value)

def restoreCounters (pl : Plane) (c : Nat) (vs : List Nat) : Plane :=
  vs.zipIdx.foldl (fun pl e =>
    let n := 4 * c + e.2
    { pl with k := Tab.set pl.k n { counterAt pl n with value := e.1 } }) pl

def opBand (x : Xe) : Option Xe :=
  let o := opC x
  some { x with ctx := { x.ctx with
      bandOpen := true, bandPtr := x.ctx.ptr, bandK := counterValues x.pl x.c, hmask := fld x.w 51 36,
      holdBase := opWord o 0, holdCount := 0 } }

/-- The tokens of a band hold region: payloads first, then 4 bytes of sideband per token (R135). -/
def sideBits (s : Sideband) : Nat :=
  s.f.toNat + 4096 * s.e.toNat + 16384 * b2n s.s + 32768 * b2n s.l + 65536 * b2n s.p + 131072 * b2n s.v
def sideOfBits (n : Nat) : Sideband :=
  { v := decide (nbits n 17 17 = 1), p := decide (nbits n 16 16 = 1), l := decide (nbits n 15 15 = 1),
    s := decide (nbits n 14 14 = 1), e := BitVec.ofNat 2 (nbits n 13 12), f := BitVec.ofNat 12 (nbits n 11 0) }

def holdToken (t : Tile) (x : Context) (k : Nat) : Token :=
  { data := BitVec.ofNat 256 (memReadNat t.mem (16 * x.holdBase + 32 * k) 32)
    sb := sideOfBits (memReadNat t.mem (16 * x.holdBase + 32 * x.holdCap + 4 * k) 4) }

/-- Put tokens into the band hold region. -/
def holdTokens (x : Xe) (ts : List Token) : Xe :=
  ts.foldl (fun x t =>
    let k := x.ctx.holdCount
    let a := x.ctx.holdBase + 2 * k
    let x := writeWord (writeWord x a (fld t.data 127 0)) (a + 1) (fld t.data 255 128)
    let x := writePart x (16 * x.ctx.holdBase + 32 * x.ctx.holdCap + 4 * k) (leBytes 4 (sideBits t.sb))
    { x with ctx := { x.ctx with holdCount := k + 1 } }) x

/-- Release the tile-band (R103): its held tokens go to the mover; held input units are popped by the sequencer. -/
def bandRelease (x : Xe) : Xe :=
  let toks := (List.range x.ctx.holdCount).map (fun k =>
    let t := holdToken x.t x.ctx k
    let bad := (List.range 4).any (fun g => decide (Tab.find x.t.ecc (2 * x.ctx.holdBase + 4 * k + g) = some .double))
    { t with sb := { t.sb with p := t.sb.p || bad } })
  let x := (List.range (4 * x.ctx.holdCount)).foldl (fun x g => touchGranule x (2 * x.ctx.holdBase + g)) x
  { x with release := toks, ctx := { x.ctx with bandOpen := false, holdCount := 0, wide := false, satcnt := 0 } }

/-- Re-run the tile-band (R103): the mark is restored and the re-run quality posted (R104). -/
def bandRerun (x : Xe) : Xe :=
  { x with
    rerun := true
    pl := restoreCounters x.pl x.c x.ctx.bandK
    ctx := { x.ctx with
      ptr := x.ctx.bandPtr
      wide := true
      runs := x.ctx.runs + 1
      satcnt := 0
      holdCount := 0
      ackWait := true } }

/-- BCHK (Table 4-5). -/
def opBchk (x : Xe) : Option Xe :=
  let satthr := fld x.w 51 36
  let rmax := fld x.w 35 28
  let n := x.ctx.satcnt
  if x.ctx.wide then some (bandRelease (xCnt x 2 n))
  else if n ≤ satthr then some (bandRelease (xCnt x 1 n))
  else if x.ctx.runs < rmax then some (xCnt (bandRerun x) 3 1)
  else some (bandRelease (xCnt (xCnt x 1 n) 4 1))

end Sys2Proof.Machine
end

