-- ==== Sys2Proof/Machine/Adaptation.lean ====
section
/-! DEFINITION. On-device adaptation as firmware runs it (R266 to R291): target items, the start of an update, its snapshot, the
hold and the swap, epochs, rollback, pause and abort. -/

namespace Sys2Proof.Machine

/-- LR, BETA1, BETA2 and EPSV: the written value, else the image's (Table 11-12). -/
def adaptParam (d : Device) (b sub : Nat) (dflt : U32) : U32 :=
  match Tab.find d.od (256 * (0x8800 + b) + sub) with
  | none => dflt
  | some v => BitVec.ofNat 32 v

/-! Target items (R267, R268) -/

/-- R268, on the bytes of an item. -/
def targetGood (h : HeadDecl) (imgid : BitVec 128) (item : List Byte) : Bool :=
  let t := leAt item 0 32
  let f := leAt item 32 32
  decide (item.length = 96 + 32 * h.tapTokens) && decide (nbits f 255 192 = imgid.toNat % 2 ^ 64)
    && decide (nbits f 63 48 = h.tapTid) && decide (nbits f 15 8 = h.tapTokens) && decide (nbits t 1 0 = h.lossMode)
    && (decide (h.lossMode ≠ 0) || decide (nbits t 23 16 < h.classes))
    && decide (nbits t 223 160 = 0) && decide (nbits t 15 2 = 0) && decide (nbits f 159 64 = 0) && decide (nbits f 7 0 = 0)

/-- Entries of an item in the target queue. -/
def targetEntries (d : Device) (q : Nat) (item : List Byte) : Nat := (item.length + qBytes d q - 1) / max 1 (qBytes d q)

/-- A target item at the head of the target queue reaches firmware; a gap marker of the host is counted (R370). -/
def acceptTarget (d : Device) (b q : Nat) (h : HeadDecl) (item : List Byte) : Device :=
  let gap := markerBytes (leAt item 0 1)
  let d := consumeItem d q (targetEntries d q item) gap
  if gap then d
  else if targetGood h (slotAt d b (runSlot d b)).imgid item then
    showAdapt (modAdapt d b (fun a => { a with accepted := a.accepted ++ [(d.time, item)] })) b
  else odAdd d (0x8810 + b) 9 1

def execTargetItemAccept (b : Fin 4) (item : List Byte) (s : State) : Host.Outcome State Fault Refusal :=
  onDev (fun d =>
    let q := odGet d (0x8800 + b.val) 2
    match headOf d b.val with
    | none => d
    | some h =>
      let d := if firmwareReady d then dropHostGaps d q else d
      if firmwareReady d && decide (q < 16384) && (ringOf d q).enabled && decide (qDir d q = 1) && !item.isEmpty
          && decide (targetEntries d q item ≤ ringHeld (ringOf d q)) then acceptTarget d b.val q h item
      else d) s

/-! Start of an update (R269, R274, R279) -/

/-- BMX of a gradient tensor over its drain tiles. -/
def gradBmx (d : Device) (b : Nat) (g : GradTensor) : Nat :=
  (g.drains.map (fun k =>
    let t := tileAt d b (physKey d b (k / 32) (k % 32))
    (planeAt t t.run).swap.bmx.toNat)).foldl max 0

/-- The SDEFAULT code for the next update (R274). -/
def gradCode (target bmx : Nat) (g : GradTensor) : Nat :=
  if bmx = 0 then g.code
  else
    let want := f32Div (f32Mul (scaleOfCode g.s2 g.code) (f32OfInt bmx)) (f32OfInt target)
    let k := match firstCode (fun k => f32Le want (scaleOfCode g.s2 k)) 255 1 with
      | some k => k
      | none => 255
    min (max k g.sfloor) g.sceil

/-- Write a gradient tensor's SDEFAULT into a record copy: bytes 28 to 31 of the record (Table 4-1), by read-modify-write (R40,
R41). -/
def writeRecordScale (d : Device) (b : Nat) (s : U32) (c : Nat × Nat) : Device :=
  let key := physKey d b (c.1 / 32) (c.1 % 32)
  let t := tileAt d b key
  let g := 2 * c.2 + 3
  let tg := physTag d b key
  let t' := { t with mem := memWriteNat t.mem (8 * g + 4) 4 s.toNat, ecc := Tab.erase t.ecc g }
  match Tab.find t.ecc g with
  | none => setTile d b key t'
  | some .single => berthReport (setTile d b key { t' with correctable := t.correctable + 1 }) b 2 tg tg (8 * g)
  | some .double => berthReport d b 1 tg tg (8 * g)

/-- R274 for every gradient tensor: the new codes, their copies, and BMX back to 0. -/
def gradScales (d : Device) (b : Nat) (h : HeadDecl) : Device × List GradTensor :=
  let target := odGet d (0x8800 + b) 10
  let gs := h.grads.map (fun g => { g with code := gradCode target (gradBmx d b g) g })
  let d := gs.foldl (fun d g => g.copies.foldl (fun d c => writeRecordScale d b (scaleOfCode g.s2 g.code) c) d) d
  let d := (h.grads.flatMap (·.drains)).foldl (fun d k => modTile d b (physKey d b (k / 32) (k % 32)) (fun t =>
    let p := planeAt t t.run
    setPlane t t.run { p with swap := { p.swap with bmx := 0 } })) d
  (d, gs)

/-- RULE of a layer's OPT step: the step of the plane that names the parameter block. -/
def optRule (p : Plane) (pr : Nat) : Bool :=
  p.steps.any (fun s => decide (wOpcode s.2 = 0x42) && !bit s.2 49 && decide (wPr s.2 = pr) && bit s.2 50)

/-- The registers that OPT reads (R279), from LR, BETA1, BETA2 and EPSV. -/
def headFactors (eta b1 b2 eps : U32) (h : HeadDecl) (gs : List GradTensor) (l : HeadLayer) (rule : Bool) : List U32 :=
  let g := gs.getD l.grad {}
  let sg := scaleOfCode g.s2 g.code
  [f32Mul l.sa sg, f32Scale eta ((l.rsh : Int) - l.xoff + 10), f32Scale (f32Div (f32Mul eta sg) l.sa) (10 - l.xoff), b1,
    if rule then f32OneMinus b1 else BitVec.ofNat 32 0x3F800000, b2, f32OneMinus b2, eps, h.s2m, h.s2v]

def optFactors (d : Device) (b : Nat) (h : HeadDecl) (gs : List GradTensor) (l : HeadLayer) (rule : Bool) : List U32 :=
  headFactors (adaptParam d b 6 h.lr) (adaptParam d b 7 h.beta1) (adaptParam d b 8 h.beta2) (adaptParam d b 9 h.epsv) h gs l rule

/-- Write the factors of a layer: one that is not a positive normal value is rejected (R279) and its register keeps its
value. -/
def writeFactors (p : Plane) (pr : Nat) (fs : List U32) : Plane :=
  fs.zipIdx.foldl (fun p f => if f32PosNormal f.1 then regWrite p (pr + f.2) f.1 else p)
    (regWrite (regWrite p (pr + 10) 0) (pr + 11) 0)

def layerRegisters (d : Device) (b : Nat) (h : HeadDecl) (gs : List GradTensor) : Device :=
  h.layers.foldl (fun d l => modTile d b (physKey d b (l.tile / 32) (l.tile % 32)) (fun t =>
    let p := planeAt t t.run
    setPlane t t.run (writeFactors p l.pr (optFactors d b h gs l (optRule p l.pr))))) d

/-- ACTX of a head tile that an abort left in HALT starts again at its entry. -/
def restartActx (cto : Nat) (t : Tile) : Tile :=
  let p := planeAt t t.run
  let c := p.adapt.actx
  let x := ctxAt p c
  if p.adapt.aen && decide (x.state = .halt) then
    let p := { p with k := (List.range 4).foldl (fun m n =>
      Tab.set m (4 * c + n) { counterAt p (4 * c + n) with value := (counterAt p (4 * c + n)).load }) p.k }
    setPlane t t.run (setCtx p c
      { entry := x.entry
        ptr := x.entry
        state := .ready
        e := p.epoch
        holdBase := x.holdBase
        holdCap := x.holdCap
        waitFrom := cto })
  else t

/-- One sample on the sample queue: its scale token, then the tap tokens, the last with L = 1 (R269). -/
def sampleTokens (f : BitVec 12) (e : BitVec 2) (ts : Nat) (v : Bool) (scale : Payload) (data : Nat → Payload) : List Token :=
  { data := scale, sb := { v := true, s := true, e := e, f := f } } ::
    (List.range ts).map (fun k => { data := data k, sb := { v := v, l := decide (k + 1 = ts), e := e, f := f } })

/-- The samples of an update: n items, then masked ones up to BATCH. -/
def batchTokens (h : HeadDecl) (f : BitVec 12) (e : BitVec 2) (items : List (List Byte)) : List Token × List Token :=
  let pay := fun (it : List Byte) (i : Nat) => BitVec.ofNat 256 (leAt it i 32)
  let real := items.flatMap (fun it => sampleTokens f e h.tapTokens true (pay it 64) (fun k => pay it (96 + 32 * k)))
  let last := (items.getLast?.map (fun it => pay it 64)).getD 0
  let rest := h.batch - items.length
  let masked := (List.range rest).flatMap (fun _ => sampleTokens f e h.tapTokens false last (fun _ => fillByte h.zp))
  let tgt := items.map (fun it => ({ data := pay it 0, sb := { v := true, l := true, e := e, f := f } } : Token))
  (real ++ masked, tgt ++ List.replicate rest { data := 0, sb := { l := true, e := e, f := f } })

/-- R269: the conditions for a start. -/
def updateDue (d : Device) (b : Nat) (h : HeadDecl) : Bool :=
  let a := adaptOf d b
  let old := (a.accepted.head?.map (·.1)).getD d.time
  odFlag d (0x8800 + b) 1 && firmwareReady d && decide (bstate d b = 2) && !a.paused && !a.updating && !a.committing
    && a.rollback.isNone && !a.accepted.isEmpty
    && (decide (h.batch ≤ a.accepted.length) || decide (old + msCounts (odGet d (0x8800 + b) 5) ≤ d.time))
    && (!a.started || decide (a.lastStart + msCounts (odGet d (0x8800 + b) 4) ≤ d.time))

/-- Replace the gradient tensors of the running slot's head. -/
def setGrads (d : Device) (b : Nat) (gs : List GradTensor) : Device :=
  let k := runSlot d b
  let sl := slotAt d b k
  setSlot d b k { sl with image := sl.image.map (fun i => { i with head := i.head.map (fun h => { h with grads := gs }) }) }

def startUpdate (d : Device) (b : Nat) (h : HeadDecl) : Device :=
  let (d, gs) := gradScales d b h
  let d := setGrads (layerRegisters d b h gs) b gs
  let cto := (berthAt d b).cto
  let d := h.tiles.foldl (fun d k => modTile d b (physKey d b (k / 32) (k % 32)) (restartActx cto)) d
  let a := adaptOf d b
  let items := (a.accepted.take h.batch).map (·.2)
  let no := a.updateNo + 1
  let (ss, ts) := batchTokens h (BitVec.ofNat 12 no) (BitVec.ofNat 2 (berthEpoch d b)) items
  let d := modAdapt d b (fun a => { a with
    accepted := a.accepted.drop h.batch
    updateNo := no
    lastStart := d.time
    started := true
    n := items.length
    bad := false
    gradSum := 0
    updating := true
    snapshotTaken := false })
  let u := runBind d b
  showAdapt (sendEnd (sendEnd d u.sampleEnd ss) u.targetEnd ts) b

def execUpdateStart (b : Fin 4) (s : State) : Host.Outcome State Fault Refusal :=
  onDev (fun d => match headOf d b.val with
    | none => d
    | some h => if updateDue d b.val h then startUpdate d b.val h else d) s

/-! Commit (R284 to R287) -/

/-- The inactive planes of the head tiles (R284). -/
def snapshotPlanes (d : Device) (b : Nat) (h : HeadDecl) : List PlaneCopy :=
  h.tiles.flatMap (fun lk =>
    let t := tileAt d b (physKey d b (lk / 32) (lk % 32))
    let a := (planeAt t t.run).adapt
    (planePairs a).map (fun p => { tile := lk, bm := p.1, bytes := blockBytes t.mem (if a.apl then p.1 else p.2) }))

/-- Firmware writes HOLD on some head tiles: with G = 0, or with G = g (R286). -/
def armHold (d : Device) (b g : Nat) (tiles : List Nat) : Device :=
  tiles.foldl (fun d k => modTile d b (physKey d b (k / 32) (k % 32)) (fun t =>
    let p := planeAt t t.run
    setPlane t t.run { p with
      adapt := { p.adapt with hold := true }
      swap := { p.swap with g := BitVec.ofNat 32 g } })) d

/-- The update hurdle has completed: the batch is aborted where a bank was poisoned or a read uncorrectable (Table 11-11), else
the commit begins. -/
def updateDone (d : Device) (b : Nat) : Device :=
  let d := odPut d (0x8810 + b) 12 (adaptOf d b).gradSum
  if !(adaptOf d b).updating then d
  else if (adaptOf d b).bad then abortUpdate d b
  else showAdapt (modAdapt d b (fun a => { a with
    updating := false
    committing := true })) b

/-- An epoch that waits for its swap, with the hold of the entry stages (R286 step 1). -/
def prepareSwap (d : Device) (b : Nat) (h : HeadDecl) (e : Epoch) : Device :=
  let d := modAdapt d b (fun a => { a with
    snapshotTaken := true
    pendingEpoch := some e })
  showAdapt (armHold d b 0 h.entryTiles) b

def newEpoch (d : Device) (b : Nat) (cs : List PlaneCopy) : Epoch :=
  { slot := runSlot d b, number := slotEpoch d b (runSlot d b) + 1, imgid := (slotAt d b (runSlot d b)).imgid, copies := cs }

def execEpochSnapshotDone (b : Fin 4) (s : State) : Host.Outcome State Fault Refusal :=
  onDev (fun d => match headOf d b.val with
    | none => d
    | some h =>
      let a := adaptOf d b.val
      if a.committing && !a.snapshotTaken then prepareSwap d b.val h (newEpoch d b.val (snapshotPlanes d b.val h)) else d) s

/-- A head tile is held (R285): the level that it reports as arrival for SHID. -/
def tileHeld (t : Tile) : Bool :=
  let p := planeAt t t.run
  p.adapt.aen && p.adapt.hold && decide ((ctxAt p p.adapt.hctx).state = .hurdle) && decide (p.swap.g.toNat ≤ p.swap.fpc.toNat)

def headKeys (d : Device) (b : Nat) (tiles : List Nat) : List Nat := tiles.map (fun k => physKey d b (k / 32) (k % 32))

/-- R286 steps 2 to 4, once every entry tile is held. -/
def execEntryTilesHeld (b : Fin 4) (s : State) : Host.Outcome State Fault Refusal :=
  onDev (fun d => match headOf d b.val with
    | none => d
    | some h =>
      let a := adaptOf d b.val
      let keys := headKeys d b.val h.entryTiles
      if a.pendingEpoch.isSome && !keys.isEmpty && keys.all (fun k => tileHeld (tileAt d b.val k)) then
        let gm := (keys.map (fun k => let t := tileAt d b.val k; (planeAt t t.run).swap.fpc.toNat)).foldl max 0
        modAdapt (armHold d b.val gm h.tiles) b.val (fun a => { a with gm := gm })
      else d) s

/-- Stream and F of the scale token at the front of an entry tile's input (Table 11-10). -/
def epochFirst (d : Device) (b : Nat) (h : HeadDecl) : Option Nat :=
  match (headKeys d b h.entryTiles).head? with
  | none => none
  | some k =>
    let t := tileAt d b k
    let p := planeAt t t.run
    let iq := wIqa (stepAt p (ctxAt p p.adapt.hctx).entry)
    if available (iqAt p iq) = 0 then none
    else
      let tok := (frontTokens t p iq 1).getD 0 {}
      some (4096 * stStream tok.data + tok.sb.f.toNat)

/-- The epoch ring keeps the current epoch of a slot and the last KEEP before it (R287). -/
def trimRing (keep : Nat) (r : List Epoch) : List Epoch := r.drop (r.length - (keep + 1))

/-- The ring with a slot's next epoch. -/
def pushEpoch (keep : Nat) (e : Epoch) (r : List Epoch) : List Epoch :=
  r.filter (fun o => o.slot ≠ e.slot) ++ trimRing keep (r.filter (fun o => o.slot = e.slot) ++ [e])

/-- A swap has completed: the pending epoch is committed (R287, Table 11-10). -/
def commitEpoch (d : Device) (b : Nat) : Device :=
  match headOf d b, (adaptOf d b).pendingEpoch with
  | some h, some e =>
    let a := adaptOf d b
    let origin := match a.rollback with
      | some k => k
      | none => odGet d (0x8810 + b) 2
    let d := odPut (odPut (odPut d (0x8810 + b) 3 origin) (0x8810 + b) 2 e.number) (0x8810 + b) 4 d.time
    let d := match epochFirst d b h with
      | none => d
      | some v => odPut d (0x8810 + b) 5 v
    let d := if a.rollback.isSome then d else odAdd (odAdd d (0x8810 + b) 6 1) (0x8810 + b) 8 a.n
    let d := modAdapt d b (fun a => { a with
      committing := false
      rollback := none
      pendingEpoch := none
      snapshotTaken := false
      n := 0
      ring := pushEpoch (odGet d (0x8800 + b) 11) e a.ring })
    berthEvent (showAdapt d b) b 3 e.number
  | _, _ => d

/-- A head tile swaps (R285). -/
def swapTile (cto : Nat) (t : Tile) : Tile :=
  let p := planeAt t t.run
  let a := p.adapt
  if a.aen then
    let p := { p with
      adapt := { a with
        apl := !a.apl
        hold := false }
      swap := { p.swap with g := 0 } }
    setPlane t t.run (setCtx p a.hctx { ctxAt p a.hctx with state := .ready, waitFrom := cto })
  else t

/-! Pause, abort and rollback (R288, R290) -/

def pauseAdapt (d : Device) (b : Nat) : Device := showAdapt (modAdapt d b (fun a => { a with paused := true })) b
def resumeAdapt (d : Device) (b : Nat) : Device := showAdapt (modAdapt d b (fun a => { a with paused := false })) b
def abortAdapt (d : Device) (b : Nat) : Device := showAdapt (abortUpdate d b) b

def execAdaptPause (b : Fin 4) (s : State) : Host.Outcome State Fault Refusal := onDev (fun d => pauseAdapt d b.val) s
def execAdaptResume (b : Fin 4) (s : State) : Host.Outcome State Fault Refusal := onDev (fun d => resumeAdapt d b.val) s
def execAdaptAbort (b : Fin 4) (s : State) : Host.Outcome State Fault Refusal := onDev (fun d => abortAdapt d b.val) s

/-- The epoch that a rollback command names; none where it is neither 0 nor in the ring (R288). -/
def rollbackEpoch (d : Device) (b cmd : Nat) : Option Nat :=
  let cur := odGet d (0x8810 + b) 2
  let ring := (slotRing d b (runSlot d b)).map (·.number)
  let k := if cmd = 3 then
      -- the epoch committed immediately before the current one
      (if cur = 0 then none else match (ring.takeWhile (fun n => n ≠ cur)).getLast? with
        | some n => some n
        | none => if cur = 1 then some 0 else none)
    else if cmd = 4 then some 0
    else some (odGet d (0x8800 + b) 13)
  match k with
  | none => none
  | some n => if n = 0 ∨ ring.contains n then some n else none

/-- Image content of the head tiles' PA blocks: epoch 0. -/
def imageCopies (img : Image) (h : HeadDecl) : List PlaneCopy :=
  h.tiles.flatMap (fun lk =>
    match Tab.find img.planes lk with
    | none => []
    | some p => (planePairs p.adapt).map (fun q => { tile := lk, bm := q.1, bytes := blockBytes (headContent img lk (writeContent img lk {})).mem q.1 }))

def epochCopies (d : Device) (b k : Nat) (h : HeadDecl) : List PlaneCopy :=
  if k = 0 then ((slotAt d b (runSlot d b)).image.map (fun i => imageCopies i h)).getD []
  else (((slotRing d b (runSlot d b)).find? (fun e => e.number = k)).map (·.copies)).getD []

/-- Load copies into the inactive planes of the head tiles. -/
def loadInactive (d : Device) (b : Nat) (cs : List PlaneCopy) : Device :=
  cs.foldl (fun d c => modTile d b (physKey d b (c.tile / 32) (c.tile % 32)) (fun t =>
    let a := (planeAt t t.run).adapt
    let bm := if a.apl then c.bm else partnerBm a c.bm
    writeBlock t bm c.bytes)) d

/-- STATE is refused while an update commits or another rollback runs (R288). -/
def rollbackBusy (d : Device) (b : Nat) : Bool := (adaptOf d b).committing || (adaptOf d b).rollback.isSome

/-- Install copies as a new epoch derived from epoch k, by a swap. -/
def installEpoch (d : Device) (b k : Nat) (h : HeadDecl) (cs : List PlaneCopy) : Device :=
  let d := abortUpdate d b
  let d := modAdapt (loadInactive d b cs) b (fun a => { a with rollback := some k })
  prepareSwap d b h (newEpoch d b cs)

def rollback (d : Device) (b cmd : Nat) : Device :=
  match headOf d b, rollbackEpoch d b cmd with
  | some h, some k => if rollbackBusy d b then d else installEpoch d b k h (epochCopies d b k h)
  | _, _ => d

def execRollbackOne (b : Fin 4) (s : State) : Host.Outcome State Fault Refusal := onDev (fun d => rollback d b.val 3) s
def execRollbackZero (b : Fin 4) (s : State) : Host.Outcome State Fault Refusal := onDev (fun d => rollback d b.val 4) s
def execRollbackTo (b : Fin 4) (s : State) : Host.Outcome State Fault Refusal := onDev (fun d => rollback d b.val 5) s

end Sys2Proof.Machine
end

