-- ==== Sys2Proof/Machine/Memory.lean ====
section
/-! DEFINITION. Reads of HBM tokens with their SECDED check (R240, R241), and the frame-store geometry (R164, R258). -/

namespace Sys2Proof.Machine

/-- Pseudo-channel of a byte address (R240). -/
def pseudoChannel (a : Nat) : Nat := Nat.xor (a / 256 % 16) (a / 4096 % 16)

def channelTag (b a : Nat) : U32 := tag 5 b (pseudoChannel a)

/-- What the controller reports of one token's codes (R241): correctable i = 15, uncorrectable i = 14. -/
def hbmNote (d : Device) (b a : Nat) : Device :=
  let e := Tab.get {} (berthAt d b).hbm.err a
  let tg := channelTag b (32 * a)
  let d := if e.payload = 1 ∨ e.side = 1 then berthReport d b 15 tg tg a else d
  if e.payload = 2 ∨ e.side = 2 then berthReport d b 14 tg tg a else d

/-- The token at token address `a` as a read delivers it. -/
def hbmDelivered (h : Hbm) (a : Nat) : Token :=
  let t := hbmToken h a
  let e := Tab.get {} h.err a
  { t with sb := { t.sb with p := t.sb.p || decide (e.payload = 2) || decide (e.side = 2) } }

/-- The bytes [a, a + n) touch a token that reads uncorrectable. -/
def hbmBad (h : Hbm) (a n : Nat) : Bool :=
  h.err.any (fun e => decide (a / 32 ≤ e.1) && decide (32 * e.1 < a + n) && (decide (e.2.payload = 2) || decide (e.2.side = 2)))

/-- Report every faulty token of a byte range (R241). -/
def hbmRangeNote (d : Device) (b a n : Nat) : Device :=
  ((berthAt d b).hbm.err.filter (fun e => decide (a / 32 ≤ e.1) && decide (32 * e.1 < a + n))).foldl (fun d e => hbmNote d b e.1) d

/-! Frame store (R258) -/

def fsPitch (w : Nat) : Nat := 32 * ((3 * w + 31) / 32)
def fsSize (w h : Nat) : Nat := 65536 * ((64 + fsPitch w * h + 65535) / 65536)

/-- Frame-store entry header (Table 10-8). -/
def fsHeader (stream w h stripes : Nat) (cap : Nat) (fc : U32) (first : Bool) : List Byte :=
  leBytes 64 (2 ^ 354 * (stream % 1024) + 2 ^ 364 * (fc.toNat % 4096) + 2 ^ 383 * b2n first + 2 ^ 392 * (stripes % 256)
    + 2 ^ 400 * fsPitch w + 2 ^ 416 * h + 2 ^ 432 * w + 2 ^ 448 * (cap % 2 ^ 64))

/-- Stripes along one dimension (R164). -/
def stripeCount (h hi halo : Nat) : Nat := if h ≤ hi then 1 else 1 + (h - hi + (hi - 2 * halo) - 1) / (hi - 2 * halo)
def stripeOrigin (h hi halo i : Nat) : Nat := if h ≤ hi then 0 else min (i * (hi - 2 * halo)) (h - hi)
def stripeCore (h hi halo i : Nat) : Nat :=
  if i = 0 then 0 else if stripeCount h hi halo ≤ i then h else stripeOrigin h hi halo i + halo

def bindRows (u : UnitBind) : Nat := stripeCount u.hd u.hi u.halo
def bindCols (u : UnitBind) : Nat := stripeCount u.wd u.wi u.halo
def bindStripes (u : UnitBind) : Nat := bindRows u * bindCols u

/-- The entry that holds frame F of a stream: its own F range is one value for each stripe. -/
def entryOf (d : Device) (n : Nat) (f : BitVec 12) : Option FsEntry :=
  (streamAt d n).entries.find? (fun e => decide ((f.toNat + 4096 - e.fcount.toNat % 4096) % 4096 < e.stripes))

/-- FCOUNT of the stripe with frame sequence F of an entry. -/
def stripeFcount (e : FsEntry) (f : BitVec 12) : U32 :=
  e.fcount + BitVec.ofNat 32 ((f.toNat + 4096 - e.fcount.toNat % 4096) % 4096)

end Sys2Proof.Machine
end

