-- ==== Sys2Proof/Machine/Slices.lean ====
section
/-! DEFINITION. A stream's packet queue and frame-level input queue, and the dispatch of access units to decode slices
(R349 to R354, R360). -/

namespace Sys2Proof.Machine

/-- The NAL units of an item, each after its 4-byte length (R349). -/
def nalBytes (nals : List (List Byte)) : List Byte := nals.flatMap (fun n => leBytes 4 n.length ++ n)

/-- Access-unit header (Table 14-2) and item. -/
def auItem (n : Nat) (a : AccessUnit) : List Byte :=
  let body := nalBytes a.nals
  leBytes 32 (2 ^ 18 * b2n a.ssrcNew + 2 ^ 19 * b2n a.marker + 2 ^ 20 * b2n a.partly + 2 ^ 21 * b2n a.rap + 2 ^ 22 * (n % 1024)
    + 2 ^ 96 * (body.length % 2 ^ 32) + 2 ^ 128 * a.seqLast.toNat + 2 ^ 144 * a.seqFirst.toNat + 2 ^ 160 * a.rtpts.toNat
    + 2 ^ 192 * (a.arrival % 2 ^ 64)) ++ body

/-- Offer an item to a stream's internal queue: the ring after it, and the entries published, none where it is dropped. -/
def innerOffer (r : Ring) (room : Bool) (item : List Byte) (key : U64) : Ring × List (Nat × List Byte) :=
  let (r', es) := ringOffer r r.entries r.entryBytes r.enabled room item key
  (ringPublish r' r.entries false key.toNat es, es)

/-- The device takes the next item of an internal queue, with the gap markers before it. -/
def innerTake : Nat → Ring → Ring
  | 0, r => r
  | k + 1, r =>
    if ringHeld r = 0 then r
    else
      let es := firstItem r r.entries (ringHeld r) 0
      let r' := setCi { r with conse := inc32 r.conse es.length } (r.ci + BitVec.ofNat 32 es.length)
      if es.headD 0 / 4 % 2 = 1 then innerTake k { r' with gapsSeen := satAdd top32 r.gapsSeen 1 } else r'

/-- Key of an item of stream n's internal queues (R371): the FCOUNT that its frame would take behind `i` frames that wait.
DEDUCED (assumption log 125). -/
def waitKey (d : Device) (n i : Nat) : U64 :=
  itemKey n ((streamAt d n).fcount + BitVec.ofNat 32 (max 1 (bindStripes (runBind d (strmBerth d n))) * i))

/-- An item of the frame-level input queue that is dropped. -/
def dropInput (d : Device) (n : Nat) : Device :=
  modStream d n (fun st => { st with inq := ringDrop st.inq (waitKey d n st.pics.length) })

/-- A picture enters the frame-level input queue or, with INQ_DEPTH pictures waiting, is dropped (R352, R360). -/
def pushPicture (d : Device) (n : Nat) (p : Picture) : Device :=
  let st := streamAt d n
  if strm d n 0x14 ≤ st.pics.length then odAdd (dropInput d n) (0x2400 + n) 0x26 1
  else
    let (r, es) := innerOffer st.inq true (leBytes 32 0) (waitKey d n st.pics.length)
    if !es.isEmpty then setStream d n { st with inq := r, pics := st.pics ++ [p] }
    else odAdd (setStream d n { st with inq := r }) (0x2400 + n) 0x26 1

/-- The stream's access unit is on decode slice s of berth b. -/
def onSlice (b s : Nat) (st : Stream) : Bool := decide (st.slice = s + 1) && decide (st.sliceBerth = b)

/-- Decode slice `s` of a berth is busy. -/
def sliceBusy (d : Device) (b s : Nat) : Bool := d.streams.any (fun p => onSlice b s p.2)

/-- An access unit that yields no picture (R354). -/
def skipUnit (d : Device) (n : Nat) : Device := odAdd (dropInput d n) (0x2400 + n) 0x24 1

/-- Free the oldest item of a packet queue. -/
def popUnit (d : Device) (n : Nat) : Device :=
  modStream d n (fun st => { st with aus := st.aus.drop 1, pktq := innerTake st.pktq.entries st.pktq })

/-- Skip non-reference access units at the head of a packet queue that is more than half full (Table 14-7). -/
def skipOverload : Nat → Device → Nat → Device
  | 0, d, _ => d
  | k + 1, d, n =>
    let st := streamAt d n
    match st.aus with
    | [] => d
    | a :: _ => if a.nonRef && decide (st.pktq.entries < 2 * ringHeld st.pktq) then skipOverload k (skipUnit (popUnit d n) n) n else d

/-- The stream that a free slice takes (R351). -/
def nextDecode (d : Device) (b : Nat) : Option Nat :=
  (d.streams.filter (fun p => decide (strmBerth d p.1 = b) && decide (p.2.slice = 0) && !p.2.aus.isEmpty)).foldl
    (fun best p => match best with
      | none => some p.1
      | some q => if ((p.2.aus.map (·.arrival)).headD 0) < (((streamAt d q).aus.map (·.arrival)).headD 0) then some p.1 else some q) none

/-- Dispatch access units to the free slices of a berth. -/
def startDecodes (d : Device) (b : Nat) : Device :=
  (List.range 18).foldl (fun d s =>
    if sliceBusy d b s then d
    else
      let d := (berthStreams d b).foldl (fun d n => if (streamAt d n).slice = 0 then skipOverload (streamAt d n).aus.length d n else d) d
      match nextDecode d b with
      | none => d
      | some n => modStream d n (fun st => { st with
          slice := s + 1
          sliceBerth := b
          stale := false
          inDecode := st.aus.head?
          decodeFrom := d.time })) d

/-- BLOCK on a decode slice (R420, R436): its access unit is decoded again from the packet queue on the next free slice. -/
def resetSlice (d : Device) (b s : Nat) : Device :=
  let mine := (d.streams.filter (fun p => onSlice b s p.2)).map (·.1)
  startDecodes (mine.foldl (fun d n => modStream d n (fun st => { st with slice := 0, inDecode := none })) d) b

end Sys2Proof.Machine
end

