-- ==== Sys2Proof/Machine/Faults.lean ====
section
/-! DEFINITION. The fault hub: storms, records, reactions and repair (R415 to R438). -/

namespace Sys2Proof.Machine

/-! Arrival of reports (R422, R424) -/

/-- Index of a source within its berth; 32 for a module source. -/
def berthIndex (source : Nat) : Nat := if source < 128 then source % 32 else 32
def isCreditTimeout (source : Nat) : Bool := berthIndex source = 7
def isTimeout (source : Nat) : Bool := berthIndex source = 7 || berthIndex source = 8
def isLevel (source : Nat) : Bool := decide (source = 0x089) || decide (source = 0x08A) || decide (berthIndex source = 21)

def firstRecord (r : Report) : FaultRec :=
  { time := r.time, blame := r.blame, reporter := r.reporter, info := r.info, source := r.source, inj := r.inj, counters := r.counters }

def raiseCount (r : FaultRec) : FaultRec := { r with count := min (r.count + 1) 65535 }
def sameFault (r : Report) (x : FaultRec) : Bool := decide (x.source = r.source) && decide (x.blame = r.blame)

/-- The end of a credit-timeout blame chain that starts at tag `t` (R423). -/
def chainEnd : Nat → List FaultRec → U32 → U32
  | 0, _, t => t
  | n + 1, rs, t =>
    match rs.find? (fun r => isCreditTimeout r.source && decide (r.reporter = t)) with
    | none => t
    | some r => chainEnd n rs r.blame

/-- SEQ of the record of the repair in progress whose blamed resource is `t` (R424). -/
def repairOf (d : Device) (t : U32) : Option U32 :=
  ((List.range 4).filter (fun b => (berthAt d b).repair.active)).foldl (fun best b => match best with
    | some s => some s
    | none => (d.hub.log.find? (fun r => decide (r.seq.toNat = odGet d (0x8020 + b) 2) && decide (r.blame = t))).map (·.seq)) none

/-- The written record that a late report joins (R424). -/
def lateMatch (d : Device) (r : Report) : Option U32 :=
  match (d.hub.log.filter (fun x => sameFault r x && decide (r.time < x.written + msCounts (odGet d 0x8010 9)))).getLast? with
  | some x => some x.seq
  | none => if isCreditTimeout r.source then repairOf d (chainEnd d.hub.log.length d.hub.log r.blame) else none

/-- A report reaches the hub. -/
def hubReport (d : Device) (r : Report) : Device :=
  let h := d.hub
  let forcedInj := h.injected.contains r.source
  let r := { r with inj := r.inj || forcedInj }
  let h := { h with injected := if forcedInj then h.injected.erase r.source else h.injected }
  if h.stormOpen then
    let storm := if h.storm.any (sameFault r) then h.storm.map (fun x => if sameFault r x then raiseCount x else x)
      else h.storm ++ [firstRecord r]
    { d with hub := { h with storm := storm } }
  else match lateMatch d r with
    | some seq => { d with hub := { h with log := h.log.map (fun x => if x.seq = seq then raiseCount x else x) } }
    | none => { d with hub := { h with stormOpen := true, stormAt := r.time, storm := [firstRecord r] } }

/-- FAULT_REPORT (R422): the oldest report on its way arrives. -/
def execFaultReport (s : State) : Host.Outcome State Fault Refusal :=
  onDev (fun d => match d.hub.reports with
    | [] => d
    | r :: rs => hubReport { d with hub := { d.hub with reports := rs } } r) s

/-! The root (R423) -/

/-- Earlier, then lower source, then lower blame. -/
def recBefore (a b : FaultRec) : Bool :=
  decide (a.time < b.time) || (decide (a.time = b.time) &&
    (decide (a.source < b.source) || (decide (a.source = b.source) && decide (a.blame.toNat ≤ b.blame.toNat))))

/-- Walk a blame chain from record `r` to the record at its end. -/
def chainRecord : Nat → List FaultRec → FaultRec → FaultRec
  | 0, _, r => r
  | n + 1, rs, r =>
    match rs.find? (fun x => isCreditTimeout x.source && decide (x.reporter = r.blame) && !decide (x = r)) with
    | none => r
    | some x => chainRecord n rs x

def rootOf (storm : List FaultRec) : Option FaultRec :=
  match (storm.filter (fun r => !isTimeout r.source)).foldl (fun best r => match best with
      | none => some r
      | some q => if recBefore q r then some q else some r) none with
  | some r => some r
  | none => (storm.foldl (fun best r => match best with
      | none => some r
      | some q => if r.time < q.time then some r else some q) none).map (chainRecord storm.length storm)

/-! Reaction words (Table 17-4) -/

def reactionOf (d : Device) (source : Nat) : Nat := odGet d (0x8000 + source / 128) (source % 128 + 1)

/-- ACTION and ESC of a root record (Table 17-6); ACTION 4 where the blamed kind has no repair. REPAIR = 3 is reserved and
repairs nothing. -/
def repairPlan (d : Device) (r : FaultRec) : Nat × Bool :=
  let w := reactionOf d r.source
  let repair := w / 256 % 4
  let block := decide (w / 4 % 2 = 1)
  let kind := tagKind r.blame
  let again := decide (w / 128 % 2 = 1) && decide (kind = 0) && d.hub.log.any (fun x =>
    decide (x.source = r.source) && decide (x.blame = r.blame) && decide (0 < x.repaired)
      && decide (d.time < x.repaired + msCounts (odGet d 0x8010 9)))
  if repair = 0 ∨ repair = 3 then (0, false)
  else if again then (3, true)
  else if repair = 1 ∧ !block then (1, false)
  else if repair = 1 ∧ kind = 0 then (2, false)
  else if repair = 2 ∧ kind = 0 then (3, false)
  else if repair = 2 ∧ (kind = 6 ∨ kind = 7) then (2, false)
  else (4, false)

/-! Repair (R427 to R433) -/

/-- The remote repair notice of a berth's pipeline that a record of source 0x085 reports: restart epoch and port (R432). -/
def noticeFor (d : Device) (r : FaultRec) (b : Nat) : Option (BitVec 2 × Nat) :=
  if r.source = 0x085 then
    ((folsaAt d (tagId r.blame)).notices.find? (fun n => (pipelineBerths d n.1 (runSlot d n.1)).contains b)).map
      (fun n => (n.2, tagId r.blame))
  else none

/-- Epoch of the restart that follows a cut: the notice's, else EB + 1 (R428, R432). -/
def restartEpoch (d : Device) (b : Nat) : BitVec 2 :=
  match (berthAt d b).repair.notice with
  | some n => n.1
  | none => nextEpoch d b

/-- Berths of the pipeline that a record blames: those of the linked pipeline, those with a channel on a Folsa port, or those
that a remote notice came for. -/
def repairBerths (d : Device) (r : FaultRec) : List Nat :=
  let live := fun (b : Nat) => decide (runSlot d b < 4)
  let blame := r.blame
  if r.source = 0x085 then (List.range 4).filter (fun b => live b && (noticeFor d r b).isSome)
  else if tagKind blame = 4 then
    (List.range 4).filter (fun b => live b &&
      (((slotAt d b (runSlot d b)).image.map (fun img => img.channels.any (fun c => c.1 = tagId blame))).getD false))
  else if tagKind blame = 3 ∨ tagKind blame = 8 ∨ tagKind blame = 9 ∨ tagKind blame = 10 then []
  else (pipelineBerths d (tagBerth blame) (runSlot d (tagBerth blame))).filter live

def recordAt (d : Device) (seq : Nat) : Option FaultRec := d.hub.log.find? (fun r => r.seq.toNat = seq)
def setRepair (d : Device) (b : Nat) (r : Repair) : Device := modBerth d b (fun x => { x with repair := r })
def repairState (d : Device) (b v : Nat) : Device := odPut d (0x8020 + b) 1 v

/-- Put a mark on each Folsa crossing queue of a berth's pipeline, but not on the port that a notice came from (R432). -/
def folsaMarks (d : Device) (b : Nat) (new : BitVec 2) : Device :=
  match (slotAt d b (runSlot d b)).image with
  | none => d
  | some img => img.channels.foldl (fun d c =>
      let f := folsaAt d c.1
      let ch := Tab.get {} f.channels c.2.1
      if (portAt d c.2.2).inbound || decide ((berthAt d b).repair.notice.map (·.2) = some c.1) then d
      else setFolsa d c.1 { f with channels := Tab.set f.channels c.2.1 { ch with
        queue := ch.queue ++ [(markToken (BitVec.ofNat 2 (berthEpoch d b)) new, none)] } }) d

/-- Cut a berth for a repair (R428). -/
def cutForRepair (d : Device) (b : Nat) : Device :=
  let d := folsaMarks d b (restartEpoch d b)
  disposeFrames (cutLive d b 2) b 1

/-- Begin the restart of a cut berth (R428): the running slot, or the incoming one of a converted changeover (Table 17-8). -/
def restartBerth (d : Device) (b : Nat) : Device :=
  let c := coOf d b
  let target := if c.active then c.target else runSlot d b
  let epoch := restartEpoch d b
  if target < 4 then
    let d := setSlotState d b target 5
    let d := setCo d b { active := true, mode := 1, target := target, epoch := epoch, since := d.time, repair := true }
    repairState (setBstate (modBerth d b (fun x => { x with repair := { x.repair with restarting := true, spare := none } })) b 1) b 3
  else setRepair (repairState (odPut (goIdle d b) (0x3010 + b) 4 epoch.toNat) b 0) b {}

/-- Load the scale state tables of a position from the mirror (R97, R429). -/
def tablesFromMirror (x : Berth) (img : Image) (k lk : Nat) (t : Tile) : Tile :=
  img.scaleTables.foldl (fun t r =>
    if r.tile = lk then
      (x.mirror.filter (fun e => decide (e.1 / 2 ^ 26 = k) && decide (e.1 / 1024 % 65536 = r.tid))).foldl
        (fun t e => loadBytes t (r.base + 8 * (e.1 % 1024)) (leBytes 8 e.2)) t
    else t) t

/-- FPC of the other tiles of a head tile's stage (R289). A stage without another tile gives 0: DESIGN CHOICE (assumption log 116). -/
def stageFpc (d : Device) (b k lk : Nat) (img : Image) : U32 :=
  let peers := (img.stages.filter (fun s => s.positions.contains lk)).flatMap (fun s => s.positions.filter (fun q => q ≠ lk))
  (peers.head?.map (fun q => (planeAt (tileAt d b (physKey d b (q / 32) (q % 32))) k).swap.fpc)).getD 0

/-- The PB side of a spare's plane pairs, which its set-up leaves undefined (R289): what the spare's memory held. -/
def undefinedSide (a : AdaptReg) (t : Tile) : Tile :=
  (planePairs a).foldl (fun t q => writeBlock t q.2 (blockBytes patternMem q.2)) t

/-- Set up a head tile's plane with the committed epoch: a reloaded tile, or the spare that takes its place (R289). -/
def setupHead (d : Device) (b k lk : Nat) (img : Image) (spare : Bool) (t : Tile) : Tile :=
  if (((img.head).map (fun h => h.tiles.contains lk)).getD false) then
    let p := planeAt t k
    let t := setPlane t k { p with
      adapt := { p.adapt with apl := false, hold := false }
      swap := { bmx := 0, fpc := stageFpc d b k lk img, g := 0 } }
    let t := applyCopies (committedCopies d b k) lk t
    if spare then undefinedSide p.adapt t else t
  else t

/-- Load every resident slot of a position into the tile that serves it (R50, R429). -/
def loadPosition (d : Device) (b col row : Nat) (spare : Bool) : Device :=
  let lk := tileKey col row
  let key := physKey d b col row
  (List.range 4).foldl (fun d k =>
    match (slotAt d b k).image with
    | none => d
    | some img => modTile d b key (fun t =>
        { setupHead d b k lk img spare (tablesFromMirror (berthAt d b) img k lk (loadTile img k lk t)) with run := runSlot d b })) d

/-- Bind the spare of a column to a row (R49). -/
def bindSpare (d : Device) (b col row : Nat) : Device :=
  let d := odPut d (0x3110 + b) (col + 1) (128 + row)
  let d := modTile d b (tileKey col row) (fun t => { t with coreReset := true, relay := true, inflight := [] })
  let d := modTile d b (tileKey col 20) (fun t => { t with coreReset := true, retention := false, outEnabled := true })
  odAdd d (0x8020 + b) 4 1

/-- A repair fails (R431): every berth of the pipeline is stopped in drop mode. -/
def repairFailed (d : Device) (seq : Nat) (bs : List Nat) : Device :=
  let d := closeRecord d seq (fun r => { r with outcome := 2, action := 4 })
  let slot := runSlot d (bs.headD 0)
  let d := bs.foldl (fun d b => repairState (setRepair (forceSwitch d b 15 2 false (nextEpoch d b)) b {}) b 0) d
  let tg := tag 12 (bs.headD 0) slot
  report d 0x1F1 tg (tag 10 0 0) seq

/-- Reset and reload a memory-side unit: its slot configuration (R304, R420). -/
def reloadUnit (d : Device) (b : Nat) (ep : BitVec 14) : Device :=
  let u := epUnit ep
  let e := u % 16
  match (berthAt d b).unitSlot.bind (fun k => (slotAt d b k).image) with
  | none => d
  | some img =>
    if 4 ≤ epDomain ep ∧ u < 32 ∧ (u / 16 = b % 2) then
      modBerth d b (fun x => { x with
        engines := Tab.set x.engines e (engineAt { x with engines := loadEngines img } e)
        hbm := { x.hbm with transfers := x.hbm.transfers.filter (fun t => t.engine ≠ e) } })
    else d

def isHalted (d : Device) (b : Nat) : Bool := bstate d b = 4 || bstate d b = 5

/-- A repair that cannot be carried out (R431, R52): the blamed kind has none, a remap finds no spare, or the fault lies in a relay
path. -/
def repairBarred (d : Device) (r : FaultRec) : Bool :=
  let b := tagBerth r.blame
  let col := tagId r.blame / 32 % 32
  decide (r.action = 4) || (decide (r.action = 3) && (decide (20 ≤ tagId r.blame % 32) || spareUsed d b col || spareUnusable d b col))
    || (decide (tagKind r.blame = 1) && decide (tagId r.blame / 1024 % 8 = 4))

/-- Carry out the repair of a root record on the berths of its pipeline. -/
def runRepair (d : Device) (r : FaultRec) (bs : List Nat) : Device :=
  let b := tagBerth r.blame
  let col := tagId r.blame / 32 % 32
  let row := tagId r.blame % 32
  let halted := bs.any (fun b => isHalted d b)
  if repairBarred d r then repairFailed d r.seq.toNat bs
  else
    let d := bs.foldl (fun d b =>
      let d := abortUpdate (wakeBerth d b) b
      let d := setRepair (odPut (repairState d b 1) (0x8020 + b) 2 r.seq.toNat) b { active := true, since := d.time, notice := noticeFor d r b }
      if halted then modBerth (repairState d b 6) b (fun x => { x with scan := { x.scan with restored := false } })
      else cutForRepair d b) d
    let d := if r.source = 0x085 then setFolsa d (tagId r.blame) { folsaAt d (tagId r.blame) with notices := [] } else d
    if r.action = 3 then
      let d := bindSpare d b col row
      let d := modBerth d b (fun x => { x with repair := { x.repair with spare := some col } })
      if halted then d else repairState d b 2
    else
      let d := if r.action = 2 ∧ tagKind r.blame = 0 ∧ row < 20 then loadPosition d b col row false
        else if r.action = 2 ∧ tagKind r.blame = 7 then reloadUnit d b (BitVec.ofNat 14 (tagId r.blame))
        else if r.action = 2 ∧ tagKind r.blame = 6 then resetSlice d b (tagId r.blame)
        else d
      if halted then d else bs.foldl restartBerth d

/-- Start a repair, or let it wait for one of the same pipeline (R433). -/
def startRepair (d : Device) (seq : Nat) : Device :=
  match recordAt d seq with
  | none => d
  | some r =>
    let bs := repairBerths d r
    if bs.isEmpty then closeRecord d seq (fun r => { r with outcome := if r.action = 4 then 2 else 1, repaired := d.time })
    else if bs.any (fun b => (berthAt d b).repair.active) then
      { d with hub := { d.hub with waiting := d.hub.waiting ++ [(bs.headD 0, seq)] } }
    else runRepair d r bs

/-- A repair of a berth has caught up (R430). -/
def finishRepair (d : Device) (b : Nat) : Device :=
  let seq := odGet d (0x8020 + b) 2
  let since := (berthAt d b).repair.since
  let d := odAdd (setRepair (repairState d b 0) b {}) (0x8020 + b) 3 1
  let d := odPut d (0x8020 + b) 7 (min ((d.time - since) / 100) top32)
  let others := (List.range 4).any (fun x => (berthAt d x).repair.active && decide (odGet d (0x8020 + x) 2 = seq))
  if others then d
  else
    let d := closeRecord d seq (fun r => { r with outcome := 1, repaired := d.time })
    let tg := tag 12 b (runSlot d b)
    let d := report d 0x1F0 tg (tag 10 0 0) seq
    match d.hub.waiting.find? (fun w => ((recordAt d w.2).map (fun r =>
        (repairBerths d r).all (fun x => !(berthAt d x).repair.active))).getD true) with
    | none => d
    | some w => startRepair { d with hub := { d.hub with waiting := d.hub.waiting.erase w } } w.2

/-- Follow the replay of a berth's repair (R430): the replay ends with the last replayed frame's records, and the pipeline has
caught up when no stream has more than one picture waiting. -/
def repairProgress (d : Device) (b : Nat) : Device :=
  let r := (berthAt d b).repair
  let ns := berthStreams d b
  let d := if r.replaying && ns.all (fun n => (streamAt d n).entries.all (fun e => !e.replay && !e.replaying)) then
      repairState (setRepair d b { r with replaying := false, catching := true }) b 5
    else d
  if (berthAt d b).repair.catching && ns.all (fun n => decide ((streamAt d n).pics.length ≤ 1)) then finishRepair d b else d

/-! Reactions (R420) -/

/-- BLOCK on a blame kind whose reset runs outside a repair. A tile's reset runs within the repair. -/
def blockReset (d : Device) (blame : U32) : Device :=
  let k := tagKind blame
  if k = 0 then d
  else if k = 6 then resetSlice d (tagBerth blame) (tagId blame)
  else if k = 7 then reloadUnit d (tagBerth blame) (BitVec.ofNat 14 (tagId blame))
  else if k = 8 then resetQueue d (tagId blame)
  else if k = 9 then { d with nmi := d.nmi.erase (tagId blame) }
  else berthResetAll d (tagBerth blame)

/-- Core that an NMI traps: the berth's purser, or P4. -/
def nmiCore (source : Nat) : Nat := if source < 128 then source / 32 else 4

def addUncleared (d : Device) (source : Nat) : Device :=
  if d.hub.uncleared.contains source then d else { d with hub := { d.hub with uncleared := d.hub.uncleared ++ [source] } }

/-- The reactions of a root record, its repair, and the event of source 0x1F2. -/
def react (d : Device) (r : FaultRec) : Device :=
  let w := reactionOf d r.source
  let on := fun (i : Nat) => decide (w / 2 ^ i % 2 = 1)
  let d := if on 0 then sharedEvent d r.source r.seq.toNat r.count else odAdd d (0x8110 + r.source / 128) (r.source % 128 + 1) 1
  let d := if reactionOf d 0x1F2 % 2 = 1 then sharedEvent d 0x1F2 r.seq.toNat 1 else d
  let d := if on 1 && !d.nmi.contains (nmiCore r.source) then { d with nmi := d.nmi ++ [nmiCore r.source] } else d
  let d := if on 4 then addUncleared d r.source else d
  let d := if on 2 then blockReset d r.blame else d
  let d := if r.action = 0 then d else startRepair d r.seq.toNat
  if on 3 then warmResetAll d else d

/-- Records of a closing storm, numbered, with their root. -/
def stormRecords (d : Device) (root : FaultRec) : List FaultRec :=
  let seqOf := fun (i : Nat) => d.hub.nextSeq + BitVec.ofNat 32 i
  let ri := d.hub.storm.findIdx (fun r => r = root)
  let plan := repairPlan d root
  d.hub.storm.zipIdx.map (fun p =>
    { p.1 with
      seq := seqOf p.2
      rootseq := BitVec.ofNat 16 (seqOf ri).toNat
      root := decide (p.2 = ri)
      outcome := if p.2 ≠ ri then 3 else if plan.1 = 0 then 1 else 0
      action := if p.2 = ri then plan.1 else 0
      esc := decide (p.2 = ri) && plan.2
      react := if p.2 = ri then reactionOf d root.source % 32 else 0
      written := d.time })

/-- Write records into the log (R425). -/
def writeRecords (d : Device) (rs : List FaultRec) : Device :=
  let log := d.hub.log ++ rs
  let lost := log.length - 256
  odAdd { d with hub := { d.hub with
    log := log.drop lost
    nextSeq := d.hub.nextSeq + BitVec.ofNat 32 rs.length
    stormOpen := false
    storm := [] } } 0x8010 3 lost

/-- The storm closes (R422, R423, R420). -/
def closeStorm (d : Device) : Device :=
  match rootOf d.hub.storm with
  | none => { d with hub := { d.hub with stormOpen := false } }
  | some root =>
    let rs := stormRecords d root
    let d := writeRecords d rs
    let d := (rs.filter (fun r => !r.root)).foldl (fun d r => odAdd d (0x8110 + r.source / 128) (r.source % 128 + 1) 1) d
    (rs.filter (·.root)).foldl react d

/-- STORM_CLOSE. -/
def execStormClose (s : State) : Host.Outcome State Fault Refusal :=
  onDev (guarded (fun d => d.hub.stormOpen && decide (d.hub.stormAt + odGet d 0x8010 6 / 10 ≤ d.time)) closeStorm) s

/-- SPARE_LOAD_DONE (R429): the spare holds its position and the restart begins. -/
def execSpareLoadDone (b : Fin 4) (col : Fin 20) (s : State) : Host.Outcome State Fault Refusal :=
  onDev (guarded (fun d => (berthAt d b.val).repair.active && decide ((berthAt d b.val).repair.spare = some col.val))
    (fun d =>
      let d := loadPosition d b.val col.val (spareRow d b.val col.val) true
      let d := modBerth d b.val (fun x => { x with repair := { x.repair with spare := none } })
      if odGet d (0x8020 + b.val) 1 = 6 then d
      else match recordAt d (odGet d (0x8020 + b.val) 2) with
        | none => restartBerth d b.val
        | some r => (repairBerths d r).foldl restartBerth d)) s

/-- SCAN command 2 (R320, R322, R433): a deferred repair cuts and replays, unless a SCAN-IN has restored state since its
remap. -/
def resumeCommand (d : Device) (b : Nat) : Device :=
  let d := wakeBerth d b
  if bstate d b ≠ 4 then coStatus d b 0x0901
  else
    let restored := (berthAt d b).scan.restored
    let d := coStatus (resumeFrom d b) b 0
    if odGet d (0x8020 + b) 1 ≠ 6 then d
    else if restored then finishRepair d b
    else
      let d := cutForRepair d b
      if (berthAt d b).repair.spare.isSome then repairState d b 2 else restartBerth d b

/-- RESUME. -/
def execResume (b : Fin 4) (s : State) : Host.Outcome State Fault Refusal := onDev (fun d => resumeCommand d b.val) s

/-- PURSER_WATCHDOG (R415, source 0x087): INFO is the core. -/
def execPurserWatchdog (core : Core) (s : State) : Host.Outcome State Fault Refusal :=
  onDev (fun d => report d 0x087 (tag 9 0 core.val) (tag 9 0 core.val) core.val) s

/-! Reaction words and clearing -/

/-- Sources whose blame is a tile, and those whose blame is the module (Tables 17-1, 17-2). -/
def tileSource (s : Nat) : Bool := [0, 1, 2, 3, 4, 5, 8, 9, 10, 11, 12, 20].contains (berthIndex s)
def moduleSource (s : Nat) : Bool := decide (berthIndex s = 21) || (decide (0x088 ≤ s) && decide (s ≤ 0x08C))

/-- R419 refuses the word, or it sets a reserved bit or the reserved REPAIR (Table 16-8, RANGE). -/
def reactionRefused (src w : Nat) : Bool :=
  decide (1023 < w) || decide (w / 32 % 4 ≠ 0) || decide (w / 256 % 4 = 3) || decide (w / 4 % 2 = 1) && (moduleSource src || (tileSource src && decide (w / 256 % 4 = 0)))

/-- Store a reaction word. -/
def reactionWrite (d : Device) (src w : Nat) : Device :=
  if reactionRefused src w then d
  else odStore d (0x8000 + src / 128) (src % 128 + 1) w

/-- REACTION_WRITE (R419). -/
def execReactionWrite (src : Fin 512) (v : BitVec 16) (s : State) : Host.Outcome State Fault Refusal :=
  onDev (fun d => reactionWrite d src.val v.toNat) s

/-- The condition of a level source holds. Whether a rail is still outside its window when CLEAR arrives is a free value: no
command says when a rail returns (log 22). -/
def levelHolds (d : Device) (s : Nat) : Bool :=
  isLevel s && (d.hub.level.contains s || (decide (s = 0x08A) && Config.railOut d.drawn))

/-- CLEAR (R421): one source, or every one with 0xFFFF; a level source whose condition holds stays. -/
def clearSources (d : Device) (v : Nat) : Device :=
  { d with
    hub := { d.hub with uncleared := d.hub.uncleared.filter (fun s =>
      !(decide (v = 0xFFFF) || decide (v = s)) || levelHolds d s) }
    drawn := d.drawn + 1 }

def execClear (v : BitVec 16) (s : State) : Host.Outcome State Fault Refusal :=
  onDev (fun d => clearSources d v.toNat) s

/-- FAULT_N is low (R421). -/
def faultLow (d : Device) : Bool := !d.fw.selfTested || !d.hub.uncleared.isEmpty

/-! Factory test mode (R439, R440) -/

/-- Conditions of TEST_ENTER: strap, authenticated role 2, key value. -/
def testEnter (d : Device) (role : Nat) (auth : Bool) (v : Nat) : Device :=
  if d.power.testEn && auth && decide (role = 2) && decide (v = 0x54455354) && decide (odGet d 0xF000 1 = 0) then
    report (odPut d 0xF000 1 1) 0x08C (tag 10 0 0) (tag 10 0 0) 0
  else d

def execTestEnter (role : Nat) (auth : Bool) (v : U32) (s : State) : Host.Outcome State Fault Refusal :=
  onDev (fun d => testEnter d role auth v.toNat) s

def testMode (d : Device) : Bool := decide (odGet d 0xF000 1 = 1) && d.power.testEn

/-- Injections that an armed point still performs: MODE 0 once, 1 COUNT times, 2 without end (2^32). -/
def injectionArm (d : Device) (i : Nat) : Device :=
  let m := odGet d (0xF010 + i) 4
  let n := if m = 0 then 1 else if m = 1 then odGet d (0xF010 + i) 5 else 2 ^ 32
  if testMode d && decide (0 < n) then { d with armed := Tab.set d.armed i n } else d

def injectionDisarm (d : Device) (i : Nat) : Device := { d with armed := Tab.erase d.armed i }

def execInjectionArm (i : Fin 16) (s : State) : Host.Outcome State Fault Refusal := onDev (fun d => injectionArm d i.val) s
def execInjectionDisarm (i : Fin 16) (s : State) : Host.Outcome State Fault Refusal := onDev (fun d => injectionDisarm d i.val) s

/-- The sources with a detector (Tables 17-1, 17-2) but 0x08C. -/
def injectable (s : Nat) : Bool :=
  decide (berthIndex s ≤ 21) || (decide (0x080 ≤ s ∧ s ≤ 0x08D) && decide (s ≠ 0x08C)) || decide (0x1F0 ≤ s ∧ s ≤ 0x1F2)

/-- Force a detector's condition: a wrong residue, a granule, sideband or HBM error, or unequal pointer copies; for the other
detectors the report itself. -/
def inject (d : Device) (src : Nat) (target : U32) (detail : Nat) : Device :=
  let b := src / 32
  let key := physKey d b (tagId target / 32 % 32) (tagId target % 32)
  let arm := fun (d : Device) => { d with hub := { d.hub with injected := d.hub.injected ++ [src] } }
  let k := berthIndex src
  if k = 0 then
    arm (modTile d b key (fun t =>
      let n := detail / 256 % 10
      let bk := bankAt t n
      setBank t n { bk with res := Tab.modify 0 bk.res (detail % 256) (fun r => (r + 1) % 3) }))
  else if k = 1 then arm (modTile d b key (fun t => { t with ecc := Tab.set t.ecc (detail / 8) .double }))
  else if k = 2 then arm (modTile d b key (fun t => { t with ecc := Tab.set t.ecc (detail / 8) .single }))
  else if k = 5 then
    arm (modTile d b key (fun t => setPlane t t.run { planeAt t t.run with sideBad := Tab.set (planeAt t t.run).sideBad detail true }))
  else if k = 14 then arm (modBerth d b (fun x => { x with hbm := { x.hbm with err := Tab.modify {} x.hbm.err (detail / 32) (fun e => { e with payload := 2 }) } }))
  else if k = 15 then arm (modBerth d b (fun x => { x with hbm := { x.hbm with err := Tab.modify {} x.hbm.err (detail / 32) (fun e => { e with payload := 1 }) } }))
  else if src = 0x086 then
    let q := tagId target
    arm (setRing d q { ringOf d q with piCopy := (ringOf d q).pi + 1 })
  else { d with hub := { d.hub with reports := d.hub.reports ++
      [{ source := src, time := d.time, reporter := target, blame := target, info := BitVec.ofNat 32 detail, inj := true }] } }

/-- An armed point injects once (R439). -/
def injectionFire (d : Device) (i : Nat) : Device :=
  match Tab.find d.armed i with
  | none => d
  | some n =>
    let src := odGet d (0xF010 + i) 1
    if !injectable src then d
    else
      let d := odAdd d (0xF010 + i) 7 1
      let d := { d with armed := if n = 2 ^ 32 then d.armed else if n ≤ 1 then Tab.erase d.armed i else Tab.set d.armed i (n - 1) }
      inject d src (BitVec.ofNat 32 (odGet d (0xF010 + i) 2)) (odGet d (0xF010 + i) 3)

def execInjectionFire (i : Fin 16) (s : State) : Host.Outcome State Fault Refusal := onDev (fun d => injectionFire d i.val) s

/-- TEST_EN_FALL (R440): every point is disarmed; test mode goes on to the next reset. -/
def execTestEnFall (s : State) : Host.Outcome State Fault Refusal :=
  onDev (fun d => { d with armed := [], power := { d.power with testEn := false } }) s

/-- SELF_TEST_COMPLETE (R421, R391): a pass makes the firmware READY, rebuilds the spare maps (R51) and releases FAULT_N; a
marked bank that reaches READY is the active one from now on, with cause 9 and the objects
that it adds listed (R404). A failure reports source 0x08B. -/
def selfTestDone (d : Device) (pass : Bool) : Device :=
  if pass then
    let d := (List.range 4).foldl rebuildSpares d
    let marked := d.fw.marked
    let d := { d with
      fw := { d.fw with selfTested := true, fwstate := 2, marked := false, tries := 0 }
      sfp := List.map (fun (p : Nat × SfpPort) =>
        (p.1, if odFlag d (0x2000 + p.1) 1 && p.2.present && !p.2.unfit then { p.2 with txDisable := false } else p.2)) d.sfp }
    if marked then
      (Config.addedObjects d.drawn).foldl (fun d key => listRestored d (key / 256) (key % 256)) (setCause { d with drawn := d.drawn + 1 } 512 0)
    else d
  else report { d with fw := { d.fw with fwstate := 3 } } 0x08B (tag 10 0 0) (tag 10 0 0) 0

def execSelfTestComplete (pass : Bool) (s : State) : Host.Outcome State Fault Refusal :=
  onDev (guarded (fun d => d.fw.running && decide (d.fw.fwstate = 1)) (fun d => selfTestDone d pass)) s

end Sys2Proof.Machine
end

