-- ==== Sys2Proof/Machine/Power.lean ====
section
/-! DEFINITION. Clocks, power states, control loops and background work (R442 to R456). -/

namespace Sys2Proof.Machine

/-! Quiescence (R447) -/

def linkEmpty (l : Link) : Bool := l.queues.all (fun q => q.2.isEmpty) && l.light.isEmpty && l.wire.isEmpty && l.retry.isEmpty

/-- No flit of the berth is on its station links. -/
def linksQuiet (d : Device) (b : Nat) : Bool :=
  (List.range 20).all (fun s => linkEmpty (linkAt d (20 * b + s)) && linkEmpty (linkAt d (100 + 20 * b + s)))

def framesWaiting (d : Device) (b : Nat) : Bool :=
  (berthStreams d b).any (fun n => !(streamAt d n).pics.isEmpty || (streamAt d n).entries.any (·.replay))

def contextsResting (d : Device) (b : Nat) : Bool :=
  (slotTiles d b (runSlot d b)).all (fun k =>
    (planeAt (tileAt d b k) (runSlot d b)).ctx.all (fun x => decide (x.2.state = .wait) || decide (x.2.state = .idle)))

def quiescent (d : Device) (b : Nat) : Bool :=
  contextsResting d b && berthQuiet d b && linksQuiet d b && !framesWaiting d b

/-! HOLD and DOZE (R447, R448) -/

def holdBerth (d : Device) (b : Nat) : Device :=
  odPut (modBerth d b (fun x => { x with clocksOff := true })) (0x8410 + b) 1 1

/-- BPOWER_CMD 1 is accepted: IDLE, HALTED or RUNNING, and not in DOZE. -/
def holdAllowed (d : Device) (b : Nat) : Bool :=
  decide (bpstate d b ≠ 2) && decide (mstate d = 0) && (decide (bstate d b = 0) || decide (bstate d b = 2) || decide (bstate d b = 4))

/-- BPOWER_HOLD. -/
def execBpowerHold (b : Fin 4) (s : State) : Host.Outcome State Fault Refusal :=
  onDev (guarded (fun d => holdAllowed d b.val) (fun d => holdBerth d b.val)) s

/-- BPOWER_CMD 2 is accepted: IDLE, with no enabled stream that names the berth. -/
def dozeAllowed (d : Device) (b : Nat) : Bool :=
  decide (mstate d = 0) && decide (bpstate d b ≠ 2) && decide (bstate d b = 0) && (berthStreams d b).all (fun n => !(streamAt d n).active)

/-- What a tile keeps in DOZE: planes, sideband stores and block memory in retention; execution state is lost (Table 18-7). -/
def dozeTile (t : Tile) : Tile :=
  { t with
    retention := true
    banks := []
    csdelta := []
    inflight := []
    arrival := []
    ports := []
    planes := Tab.map (fun (p : Plane) => { freshPlane p with side := p.side, sideBad := p.sideBad }) t.planes }

def dozeBerth (d : Device) (b : Nat) : Device :=
  odPut (modBerth d b (fun x => { x with
    clocksOff := true
    tiles := Tab.map dozeTile x.tiles
    hbm := { x.hbm with selfRefresh := true } })) (0x8410 + b) 1 2

/-- BPOWER_DOZE. -/
def execBpowerDoze (b : Fin 4) (s : State) : Host.Outcome State Fault Refusal :=
  onDev (guarded (fun d => dozeAllowed d b.val) (fun d => dozeBerth d b.val)) s

/-- BPOWER_ACTIVE (R447, R448). -/
def execBpowerActive (b : Fin 4) (s : State) : Host.Outcome State Fault Refusal :=
  onDev (guarded (fun d => decide (mstate d = 0) && decide (bpstate d b.val ≠ 0)) (fun d => wakeBerth d b.val)) s

/-- AUTO_HOLD_IDLE (R447): quiescent for HOLD_IDLE_US. -/
def execAutoHoldIdle (b : Fin 4) (s : State) : Host.Outcome State Fault Refusal :=
  onDev (guarded (fun d => odFlag d (0x8410 + b.val) 3 && decide (bpstate d b.val = 0) && decide (bstate d b.val = 2)
      && quiescent d b.val && decide ((berthAt d b.val).idleSince + 100 * odGet d (0x8410 + b.val) 4 ≤ d.time))
    (fun d => holdBerth d b.val)) s

/-- What wakes a held berth (R447): a feeder request, a flit or credit addressed to it, or a repair. -/
def wakeDue (d : Device) (b : Nat) : Bool :=
  ((berthAt d b).feederOpen && framesWaiting d b) || !berthQuiet d b || !linksQuiet d b || (berthAt d b).repair.active

/-- HOLD_WAKE. -/
def execHoldWake (b : Fin 4) (s : State) : Host.Outcome State Fault Refusal :=
  onDev (guarded (fun d => decide (bpstate d b.val = 1) && wakeDue d b.val) (fun d => wakeBerth d b.val)) s

/-! MOOR and DOCK (R449, R450) -/

def allIdle (d : Device) : Bool := (List.range 4).all (fun b => decide (bstate d b = 0))

/-- MPOWER_CMD 1 and 2 are accepted. -/
def moorAllowed (d : Device) : Bool := decide (mstate d = 0) && d.fw.running && allIdle d

/-- MOOR entry: every berth dozes, then the core rails go: block memory, planes, links and ports are lost; HBM and the objects
but class V stay (Table 18-7). -/
def moor (d : Device) : Device :=
  let d := odReset (fun _ _ r => decide (r.cls = 3) && decide (r.acc = 1)) d
  let d := (List.range 4).foldl (fun d b => odPut (modBerth d b (fun x =>
    { hbm := { x.hbm with selfRefresh := true, transfers := [], admission := [], lightQ := [] }
      slots := x.slots
      adapt := x.adapt
      scan := x.scan
      mirror := x.mirror
      clocksOff := true })) (0x8410 + b) 1 2) d
  let down := fun (d : Device) (p : Nat) => odPut (setFolsa d p { cable := (folsaAt d p).cable, firstPeer := (folsaAt d p).firstPeer }) (0x8900 + p) 2 (if odFlag d (0x8900 + p) 1 then 1 else 0)
  let d := down (down d 0) 1
  odPut { d with
    links := []
    ports := []
    ends := []
    toTile := []
    streams := Tab.map (fun (st : Stream) => { st with anchor := (0, 0), heldAnchors := [] }) d.streams
    sfp := Tab.map (fun (p : SfpPort) => { p with link := false, txDisable := true }) d.sfp
    sessions := d.sessions.filter (fun s => s.tr ≠ .udp)
    armed := []
    power := { d.power with
      fabric := false
      savedRate := d.power.fR } } 0x8400 8 2

/-- MPOWER_MOOR. -/
def execMpowerMoor (s : State) : Host.Outcome State Fault Refusal := onDev (guarded moorAllowed moor) s

/-- MPOWER_DOCK. -/
def execMpowerDock (s : State) : Host.Outcome State Fault Refusal := onDev (guarded moorAllowed dockState) s

/-- The slots that MOOR left LOADED go through WRITING (Table 18-3). -/
def rewriteSlots (d : Device) : Device :=
  (List.range 16).foldl (fun d i => if slotState d (i / 4) (i % 4) = 4 then setSlotState d (i / 4) (i % 4) 3 else d) d

def leaveMoor (d : Device) : Device :=
  let d := (List.range 4).foldl (fun d b => odPut (modBerth d b (fun x =>
    { x with clocksOff := false, hbm := { x.hbm with selfRefresh := false } })) (0x8410 + b) 1 0) d
  let d := setRails (odPut d 0x8400 8 0)
  let d := { d with power := { d.power with
    fR := d.power.savedRate
    want := d.power.savedRate
    leavingMoor := true } }
  rewriteSlots (setCause d 128 0)

/-- DOCK exit by MPOWER_CMD 3 (R450, R462): a start from self-test, firmware kept, f_R at 2,400 MHz. -/
def leaveDock (d : Device) : Device :=
  let p := d.power
  let d := setRails (odPut d 0x8400 8 0)
  let d := startCores { d with time := 0, power := { d.power with fR := 2400, want := 2400 } }
  let d := setCause d 128 0
  let d := if p.lostSlots = 0 then d else setCause d 2048 p.lostSlots
  if p.lostEpochs = 0 then d else setCause d 4096 p.lostEpochs

/-- MPOWER_CMD 3 is accepted: in MOOR, or in DOCK without a thermal trip (R454) and with the slot 12 V that the control domain
needs (R477). -/
def activeAllowed (d : Device) : Bool := decide (mstate d = 2) || (decide (mstate d = 5) && !d.power.tripped && d.power.slot12 && d.power.aux)

def mpowerActive (d : Device) : Device := if mstate d = 2 then leaveMoor d else leaveDock d

/-- MPOWER_ACTIVE. -/
def execMpowerActive (s : State) : Host.Outcome State Fault Refusal := onDev (guarded activeAllowed mpowerActive) s

/-- MOOR_RESTORE_DONE (Table 18-3): the slots are LOADED again, with tables from the mirrors and head tiles on the committed
epoch. -/
def moorRestored (d : Device) : Device :=
  let d := (List.range 4).foldl (fun d b =>
    let d := reloadSlots d b
    (List.range 4).foldl (fun d k =>
      if slotState d b k = 3 then
        match (slotAt d b k).image with
        | none => d
        | some img =>
          let d := img.planes.foldl (fun d p =>
            modTile d b (physKey d b (p.1 / 32) (p.1 % 32)) (tablesFromMirror (berthAt d b) img k p.1)) d
          setSlotState d b k 4
      else d) d) d
  { d with power := { d.power with leavingMoor := false } }

def execMoorRestoreDone (s : State) : Host.Outcome State Fault Refusal :=
  onDev (guarded (fun d => d.power.leavingMoor && decide (mstate d = 0)) moorRestored) s

/-! Clocks and control loops (R443, R452, R453) -/

/-- Voltage setpoint of a berth at f_R, in mV, within 550 to 800 (R452). -/
def wantedMv (d : Device) (b f : Nat) : Int :=
  (Config.vtab f : Int) + odGet d (0x8410 + b) 6 + Tab.get 0 d.power.corr b
def setpointMv (d : Device) (b f : Nat) : Nat := (clampI 550 800 (wantedMv d b f)).toNat
def putSetpoints (d : Device) (f : Nat) : Device :=
  (List.range 4).foldl (fun d b => odPut d (0x8410 + b) 5 (setpointMv d b f)) d

/-- RPLL_STEP (R443): one 100 MHz step toward the f_R that the limiter asks for. -/
def rpllStep (d : Device) (up : Bool) : Device :=
  let p := d.power
  if up && decide (p.fR < p.want) && decide (p.fR + 100 ≤ 6400) then
    { putSetpoints d (p.fR + 100) with power := { p with fR := p.fR + 100 } }
  else if !up && decide (p.want < p.fR) && decide (2500 ≤ p.fR) then
    { putSetpoints d (p.fR - 100) with power := { p with fR := p.fR - 100 } }
  else d

def execRpllStep (up : Bool) (s : State) : Host.Outcome State Fault Refusal :=
  onDev (guarded (fun d => d.power.control && decide (mstate d = 0)) (fun d => rpllStep d up)) s

/-- Set or release a level condition; a new one is reported. -/
def levelCondition (d : Device) (source : Nat) (holds : Bool) (blame : U32) : Device :=
  if holds && !d.hub.level.contains source then
    report { d with hub := { d.hub with level := d.hub.level ++ [source] } } source blame blame 0
  else if !holds then { d with hub := { d.hub with level := d.hub.level.filter (· ≠ source) } }
  else d

/-- LIMITER_EVAL (R453). -/
def limiterEval (d : Device) (p10 : Nat) (tj : List Int) : Device :=
  let p := d.power
  let limit := 1000 * effectiveW d
  let fmax := odGet d 0x8400 2
  let hot := tj.any (fun t => decide (95000 ≤ t))
  let tooHot := tj.any (fun t => decide (105000 ≤ t))
  let cool := tj.all (fun t => decide (t ≤ 92000))
  let power := decide (limit < p10)
  let overHold := tooHot || (p.overTemp && !cool)
  let down := power || hot || p.voltReq || decide (fmax < p.fR)
  let want :=
    if overHold then 2400
    else if down then (if 2400 < p.fR then p.fR - 100 else p.fR)
    else if p10 + 5000 ≤ limit ∧ cool ∧ p.fR + 100 ≤ fmax then p.fR + 100
    else p.fR
  let d := odPut d 0x8400 5 p10
  let d := if power ∧ p.fR = 2400 then odAdd d 0x8400 7 1 else d
  let d := odPut d 0x8400 4 (b2n power + 2 * b2n (hot || (!cool && decide (p.fR < fmax))) + 4 * b2n p.voltReq + 8 * b2n overHold + 16 * b2n (decide (fmax ≤ p.fR)))
  let d := { d with power := { p with want := want, overTemp := overHold, voltReq := p.voltReq && decide (p.fR ≤ 2400) } }
  levelCondition (levelCondition d 0x088 hot (tag 10 0 0)) 0x089 tooHot (tag 10 0 0)

def execLimiterEval (p10 : Nat) (tj : List Int) (s : State) : Host.Outcome State Fault Refusal :=
  onDev (guarded (fun d => d.power.control && decide (mstate d = 0)) (fun d => limiterEval d p10 tj)) s

/-- VOLTAGE_LOOP (R452): the correction moves by 5 mV toward the least value at which every monitor reports margin. -/
def voltageLoop (d : Device) (b : Nat) (marginBelow marginNow : Bool) : Device :=
  let c := Tab.get 0 d.power.corr b
  let short := !marginNow && decide (800 ≤ wantedMv d b d.power.fR)
  let c := if marginNow then (if marginBelow then c - 5 else c) else if short then c else c + 5
  let n := if short then Tab.get 0 d.power.above b + 1 else 0
  let d := { d with power := { d.power with corr := Tab.set d.power.corr b c, above := Tab.set d.power.above b n } }
  let d := odPut d (0x8410 + b) 5 (setpointMv d b d.power.fR)
  let d := levelCondition d (32 * b + 21) (decide (100 ≤ n)) (tag 10 0 0)
  if n = 100 then { d with power := { d.power with voltReq := true } } else d

def execVoltageLoop (b : Fin 4) (marginBelow marginNow : Bool) (s : State) : Host.Outcome State Fault Refusal :=
  onDev (guarded (fun d => d.power.fabric && decide (mstate d = 0)) (fun d => voltageLoop d b.val marginBelow marginNow)) s

/-- DROOP_HOLD (R452): array issue waits for 32 FCLK. -/
def execDroopHold (b : Fin 4) (s : State) : Host.Outcome State Fault Refusal :=
  onDev (guarded (fun d => d.power.fabric)
    (fun d => odAdd (modBerth d b.val (fun x => { x with droopUntil := x.fclk + 32 })) (0x8410 + b.val) 7 1)) s

/-- THERMAL_TRIP (R454). -/
def thermalTrip (d : Device) : Device :=
  let d := odKeep d 0x8400 10 (min (odGet d 0x8400 10 + 1) top32)
  let d := dockState d
  { d with
    fw := { d.fw with selfTested := false }
    power := { d.power with tripped := true } }

def execThermalTrip (s : State) : Host.Outcome State Fault Refusal := onDev (guarded (fun d => d.power.aux) thermalTrip) s

/-! Background work (R456, R263) -/

/-- Add a tile's stall counters since the last sample into the totals of its stages (R263). -/
def addStalls (d : Device) (b lk : Nat) (stages : List Nat) : Device :=
  let key := physKey d b (lk / 32) (lk % 32)
  let t := tileAt d b key
  let totals := (List.range 8).foldl (fun m i =>
    let delta := (Tab.get 0 t.stall i - Tab.get 0 t.stallSeen i).toNat
    stages.foldl (fun m st => Tab.modify 0 m (2 ^ 20 * b + 8 * st + i) (fun x => x + BitVec.ofNat 64 delta)) m) d.stallTotals
  setTile { d with stallTotals := totals } b key { t with stallSeen := t.stall }

/-- Stages that hold a position. -/
def stagesOf (img : Image) (lk : Nat) : List Nat :=
  (img.stages.zipIdx.filter (fun p => p.1.positions.contains lk)).map (·.2)

/-- TELEMETRY_SAMPLE. -/
def telemetry (d : Device) (r : Readings) : Device :=
  let d := (r.sensors.zipIdx).foldl (fun d p => if p.2 < 9 then odPut d 0x8420 (p.2 + 1) (unsigned 32 p.1) else d) d
  let d := (r.inputs.zipIdx).foldl (fun d p => if p.2 < 3 then odPut d 0x8421 (p.2 + 1) p.1 else d) d
  let d := odAdd d 0x8400 6 r.energyMj
  (List.range 4).foldl (fun d b =>
    if runSlot d b < 4 then
      match (slotAt d b (runSlot d b)).image with
      | none => d
      | some img => img.planes.foldl (fun d p => addStalls d b p.1 (stagesOf img p.1)) d
    else d) d

def execTelemetrySample (r : Readings) (s : State) : Host.Outcome State Fault Refusal :=
  onDev (guarded (fun d => d.fw.running && decide (mstate d = 0)) (fun d => telemetry d r)) s

/-- Granules that one pass covers, as the command addresses them. -/
def scrubGranules : Nat := 4 * 420 * 49152

/-- SRAM_SCRUB (R41, R51, Table 18-5) of a physical tile, spares included; a tile behind a relay is held in reset (R49). A single error is corrected in place and counted; an uncorrectable one is reported. -/
def sramScrub (d : Device) (b key g : Nat) : Device :=
  let tg := physTag d b key
  let tl := tileAt d b key
  let d := if tl.relay then d else match Tab.find tl.ecc g with
    | none => d
    | some .single =>
      berthReport (setTile d b key { tl with ecc := Tab.erase tl.ecc g, correctable := tl.correctable + 1 }) b 2 tg tg (8 * g)
    | some .double => berthReport d b 1 tg tg (8 * g)
  if d.sramScrubbed + 1 < scrubGranules then { d with sramScrubbed := d.sramScrubbed + 1 }
  else odAdd { d with sramScrubbed := 0 } 0x8430 1 1

def execSramScrub (t : SiteId) (granule : Fin 49152) (s : State) : Host.Outcome State Fault Refusal :=
  onDev (guarded (fun d => d.power.fabric && decide (mstate d = 0) && decide (bpstate d t.b.val ≠ 2))
    (fun d => sramScrub d t.b.val (tileKey t.col.val t.row.val) granule.val)) s

/-- Tokens of both stacks. -/
def patrolTokens : Nat := 4 * 402653184

/-- HBM_PATROL_SCRUB (R241, Table 18-5). -/
def patrolScrub (d : Device) (b a : Nat) : Device :=
  let d := hbmNote d b a
  let e := Tab.get {} (berthAt d b).hbm.err a
  let e' : HbmErr := { payload := if e.payload = 1 then 0 else e.payload, side := if e.side = 1 then 0 else e.side }
  let d := modBerth d b (fun x => { x with hbm := { x.hbm with err := if e' = {} then Tab.erase x.hbm.err a else Tab.set x.hbm.err a e' } })
  if d.hbmScrubbed + 1 < patrolTokens then { d with hbmScrubbed := d.hbmScrubbed + 1 }
  else odAdd { d with hbmScrubbed := 0 } 0x8430 2 1

def execHbmPatrolScrub (b : Fin 4) (token : Nat) (s : State) : Host.Outcome State Fault Refusal :=
  onDev (guarded (fun d => d.power.control && decide (mstate d = 0) && !(berthAt d b.val).hbm.selfRefresh && decide (token < 402653184))
    (fun d => patrolScrub d b.val token)) s

/-- SENSOR_CALIBRATION: an offset above 3 °C raises the thermal warning source. -/
def execSensorCalibration (sensor : Fin 10) (offset : Int) (s : State) : Host.Outcome State Fault Refusal :=
  onDev (fun d => if 3000 < offset ∨ offset < -3000 then report d 0x088 (tag 10 0 sensor.val) (tag 10 0 sensor.val) 0 else d) s

/-- AGEING_GUARDBAND: 5 mV more when margin falls below the fused limit, at most 50 mV. -/
def execAgeingGuardband (b : Fin 4) (below : Bool) (s : State) : Host.Outcome State Fault Refusal :=
  onDev (guarded (fun d => below && decide (odGet d (0x8410 + b.val) 6 + 5 ≤ 50))
    (fun d => odKeep d (0x8410 + b.val) 6 (odGet d (0x8410 + b.val) 6 + 5))) s

end Sys2Proof.Machine
end

