-- ==== Sys2Proof/Machine/Codec.lean ====
section
/-! DEFINITION. The decoders of Table 14-3, as the model sees them: the specification names their standards and states what
enters and leaves a slice, so a decoder is an uninterpreted function of its state and its access unit. -/

namespace Sys2Proof

/-- What a slice makes of an access unit: codec, coded size, MAX_DPB, stored parameter sets, whether pictures are
concealed so far, the decoder's state, and the unit. -/
opaque Config.decode (codec width height maxDpb paramSets : Nat) (concealing : Bool) (state : Nat) (au : Machine.AccessUnit) :
  Machine.DecodeOut

/-- Whether stored parameter sets (PARAMSETS) declare 10-bit samples. -/
opaque Config.tenBit : Nat → Bool

end Sys2Proof
end

