-- ==== Sys2Proof/Machine/Ingest.lean ====
section
/-! DEFINITION. Ethernet ports, matching, RTP and access units (R342 to R349). An address operand is the number that its octets
spell, the first octet least significant, as an OCTETS object holds it. -/

namespace Sys2Proof.Machine

def portIdx (c : Nat) : Nat := 0x2000 + c

/-- ::FFFF:a.b.c.d of an IPv4 address (Table 14-9). -/
def mapped4 (a : Nat) : Nat := 0xFFFF * 2 ^ 80 + a % 2 ^ 32 * 2 ^ 96

/-- An address whose first octet makes it a group. -/
def isGroup (a : Nat) : Bool :=
  if a % 2 ^ 96 = 0xFFFF * 2 ^ 80 then decide (a / 2 ^ 96 % 256 / 16 = 14) else decide (a % 256 = 255)

def portInMask (d : Device) (n c : Nat) : Bool :=
  let m := strm d n 0x0D / 16 % 4
  decide (m = 0) || decide (m / 2 ^ c % 2 = 1)

/-- The port has an address of the family of `a`: an address of 0 disables the family (Table 14-8). -/
def familyOn (d : Device) (c a : Nat) : Bool := decide (odGet d (portIdx c) (if a % 2 ^ 96 = 0xFFFF * 2 ^ 80 then 4 else 5) ≠ 0)

/-- Streams that have joined a group on a port (R344). -/
def joined (d : Device) (c : Nat) : List (Nat × Nat) :=
  (d.streams.filter (fun p => p.2.active && familyOn d c (strm d p.1 9) && decide (strm d p.1 0x0D / 4 % 2 = 1) && portInMask d p.1 c && isGroup (strm d p.1 9))).map
    (fun p => (strm d p.1 9, p.1))

/-- Membership report of a stream's group (R344): INCLUDE its source with MATCHSRC, else EXCLUDE of an empty list. -/
def groupReport (d : Device) (n : Nat) : OutFrame :=
  .report (BitVec.ofNat 128 (strm d n 9)) (if strm d n 0x0D % 2 = 1 then some (BitVec.ofNat 128 (strm d n 8)) else none)

def portSend (d : Device) (c : Nat) (f : OutFrame) : Device :=
  let p := sfpAt d c
  setSfp d c { p with out := p.out ++ [f] }

/-- The port is enabled and its link up. -/
def portUp (d : Device) (c : Nat) : Bool := odFlag d (portIdx c) 1 && (sfpAt d c).link

/-- The destination is the port's own address or a group joined on it (R343). -/
def addressed (d : Device) (c : Nat) (dst : Nat) : Bool :=
  (decide (odGet d (portIdx c) 4 ≠ 0) && decide (dst = mapped4 (odGet d (portIdx c) 4)))
    || (decide (odGet d (portIdx c) 5 ≠ 0) && decide (dst = odGet d (portIdx c) 5))
    || (joined d c).any (fun g => g.1 = dst)

/-- The match of R345, but for port number and SSRC. -/
def streamMatches (d : Device) (c n : Nat) (tags : List Nat) (src dst : Nat) : Bool :=
  portInMask d n c
    && (match tags with
      | [] => decide (strm d n 0x0B = 0xFFFF)
      | v :: _ => decide (strm d n 0x0B = v))
    && decide (strm d n 9 = dst)
    && (decide (strm d n 0x0D % 2 = 0) || decide (strm d n 8 = src))

/-! Access units (R348) -/

/-- Signed distance of 16-bit sequence numbers. -/
def seqDist (a b : BitVec 16) : Int := (a - b).toInt

/-- Capture time of an access unit that begins with packet p, and the rebased anchor (R359). The anchor is the one that held when the
packet arrived. -/
def captureTime (mode arrival : Nat) (st : Stream) (p : Rtp) : Nat × (Nat × U32) :=
  if mode = 0 then (arrival, st.anchor)
  else
    let old := st.heldAnchors.find? (fun x => x.1 = p.seq)
    let a := (old.map (·.2)).getD st.anchor
    let dt := (p.ts - a.2).toInt
    let cap := (a.1 : Int) + rneDiv (dt * 10000) 9
    let k := if 0x40000000 ≤ dt then ((dt - 0x40000000) / 90000 + 1).toNat else 0
    ((cap % 2 ^ 64).toNat, if old.isSome then st.anchor else (a.1 + 100000000 * k, a.2 + BitVec.ofNat 32 (90000 * k)))

/-- The access unit in assembly ends and is published or dropped (R349). -/
def finishUnit (d : Device) (n : Nat) (marker : Bool) : Device :=
  let st := streamAt d n
  match st.au with
  | none => d
  | some a =>
    let a := { a with marker := marker, partly := a.partly || st.fu.isSome }
    let (r, es) := innerOffer st.pktq true (auItem n a) (waitKey d n (st.pics.length + st.aus.length))
    let d := setStream d n { st with
      au := none
      fu := none
      pktq := r
      aus := if es.isEmpty then st.aus else st.aus ++ [a] }
    let d := if es.isEmpty then odAdd d (0x2400 + n) 0x23 1
      else modBerth d (strmBerth d n) (fun x => { x with hbm := storeEntries x.hbm st.pktBase 256 st.pktq.entries st.pktq.pi.toNat es })
    startDecodes d (strmBerth d n)

/-- The payload structure is one that Table 14-1 accepts. -/
def payloadOk (codec : Nat) (p : Rtp) : Bool :=
  !p.don && (if codec = 0 then (decide (1 ≤ p.nal) && decide (p.nal ≤ 24)) || decide (p.nal = 28) else decide (p.nal ≤ 49))
def isFu (codec : Nat) (p : Rtp) : Bool := if codec = 0 then decide (p.nal = 28) else decide (p.nal = 49)

/-- NAL units that a packet adds, and the FU sequence after it. -/
def addNals (codec : Nat) (lost : Bool) (fu : Option (List Byte)) (p : Rtp) : List (List Byte) × Option (List Byte) × Bool :=
  let piece := p.nals.headD []
  if isFu codec p then
    if p.fuStart then (if p.fuEnd then ([piece], none, fu.isSome) else ([], some piece, fu.isSome))
    else match fu with
      | none => ([], none, true)
      | some bs => if lost then ([], none, true) else if p.fuEnd then ([bs ++ piece], none, false) else ([], some (bs ++ piece), false)
  else (p.nals, none, fu.isSome)

/-- A packet leaves the reorder window and joins its access unit (R348). -/
def assemble (d : Device) (n : Nat) (arrival : Nat) (p : Rtp) : Device :=
  let codec := strm d n 3
  let d := if (streamAt d n).au.any (fun a => a.rtpts ≠ p.ts) then
      finishUnit (modStream d n (fun st => { st with au := st.au.map (fun a => { a with partly := a.partly || st.lost }) })) n false
    else d
  let st := streamAt d n
  let fresh := st.au.isNone
  let (cap, anchor) := if fresh then captureTime (strm d n 0x18) arrival st p else (0, st.anchor)
  let a := st.au.getD { arrival := arrival, rtpts := p.ts, seqFirst := p.seq, ssrcNew := st.ssrcNew, cap := cap, no := st.auCount }
  let (nals, fu, broken) := addNals codec st.lost st.fu p
  let a := { a with
    seqLast := p.seq
    rap := a.rap || p.rap
    nonRef := a.nonRef && p.nonRef
    partly := a.partly || st.lost || broken
    nals := a.nals ++ nals }
  let d := setStream d n { st with
    au := some a
    fu := fu
    lost := false
    ssrcNew := st.ssrcNew && !fresh
    anchor := anchor
    auCount := if fresh then st.auCount + 1 else st.auCount }
  if p.marker then finishUnit d n true else d

/-- Release the packets that follow in sequence (R347). -/
def drainWindow : Nat → Device → Nat → Device
  | 0, d, _ => d
  | k + 1, d, n =>
    let st := streamAt d n
    match st.window with
    | [] => d
    | (at_, p) :: rest =>
      if st.nextSeq = some p.seq then
        let d := setStream d n { st with window := rest, nextSeq := some (p.seq + 1) }
        drainWindow k (if payloadOk (strm d n 3) p then assemble d n at_ p else d) n
      else d

/-- Give up the gap before the window's first packet (R347): its packets count as missing. -/
def resolveGap (d : Device) (n : Nat) : Device :=
  let st := streamAt d n
  match st.window, st.nextSeq with
  | (_, p) :: _, some s =>
    let d := odAdd d (0x2400 + n) 0x21 (seqDist p.seq s).toNat
    drainWindow st.window.length (modStream d n (fun st => { st with nextSeq := some p.seq, lost := true })) n
  | _, _ => d

/-- Put a packet into the window in sequence order. -/
def windowInsert (at_ : Nat) (p : Rtp) : List (Nat × Rtp) → List (Nat × Rtp)
  | [] => [(at_, p)]
  | (u, q) :: rest => if seqDist p.seq q.seq < 0 then (at_, p) :: (u, q) :: rest else (u, q) :: windowInsert at_ p rest

/-- Give up every gap of the reorder window, so that each packet it holds joins its access unit. -/
def flushWindow : Nat → Device → Nat → Device
  | 0, d, _ => d
  | k + 1, d, n => if (streamAt d n).window.isEmpty then d else flushWindow k (resolveGap d n) n

/-- A new SSRC ends the access unit in assembly and restarts the sequence (R346). What the reorder window holds of the old sequence
is not lost without record (R18): its gaps count as missing packets. DEDUCED (log 104). -/
def newSsrc (d : Device) (n : Nat) (ssrc : U32) : Device :=
  let d := flushWindow (streamAt d n).window.length d n
  let d := modStream d n (fun st => { st with au := st.au.map (fun a => { a with partly := true }) })
  let d := finishUnit d n false
  modStream d n (fun st => { st with ssrc := some ssrc, ssrcNew := true, window := [], nextSeq := none, lost := false, fu := none })

/-- The depacketiser takes an RTP packet of stream n (R346, R347); `c` is the port, which counts a structure that Table 14-1
discards. -/
def depacketise (d : Device) (c n : Nat) (p : Rtp) : Device :=
  let d := odAdd d (0x2400 + n) 0x20 1
  if p.version ≠ 2 ∨ p.pt ≠ strm d n 0x0E then d
  else
    let st := streamAt d n
    let d := if payloadOk (strm d n 3) p then d else odAdd d (portIdx c) 8 1
    let d := if strm d n 0x0D / 2 % 2 = 1 ∨ st.ssrc = some p.ssrc then d
      else if st.ssrc.isNone then modStream d n (fun st => { st with ssrc := some p.ssrc })
      else newSsrc d n p.ssrc
    let st := streamAt d n
    let next := st.nextSeq.getD p.seq
    if seqDist p.seq next < 0 ∨ st.window.any (fun q => q.2.seq = p.seq) then odAdd d (0x2400 + n) 0x22 1
    else
      let d := setStream d n { st with window := windowInsert d.time p st.window, nextSeq := some next }
      let d := drainWindow (st.window.length + 1) d n
      if 16 ≤ (streamAt d n).window.length then resolveGap d n else d

/-! The frame -/

/-- A UDP datagram (R345). -/
def takeDatagram (d : Device) (c : Nat) (tags : List Nat) (src dst dport : Nat) (body : List Byte) (rtp : Option Rtp) : Device :=
  let live := d.streams.filter (fun p => p.2.active && decide (strm d p.1 3 ≠ 2) && streamMatches d c p.1 tags src dst)
  match live.find? (fun p => decide (strm d p.1 0x0A = dport) &&
      (decide (strm d p.1 0x0D / 2 % 2 = 0) || (match rtp with
        | some r => decide (strm d p.1 0x0C = r.ssrc.toNat)
        | none => false))) with
  | some p => match rtp with
    | some r => depacketise d c p.1 r
    | none => odAdd d (0x2400 + p.1) 0x20 1
  | none =>
    match live.find? (fun p => strm d p.1 0x0A + 1 = dport) with
    | some p =>
      if strm d p.1 0x0D / 8 % 2 = 1 then offerTo d (odGet d 0x2010 1) body 0 else odAdd d (portIdx c) 7 1
    | none => odAdd d (portIdx c) 7 1

/-- ETH_FRAME_RECEIVE (R342 to R346). An ARP, neighbour or group query frame that asks for nothing of this port is not the traffic of
R344: it counts as another protocol. DEDUCED (log 105). -/
def receiveFrame (d : Device) (c : Nat) (f : EthFrame) : Device :=
  let d := odAdd d (portIdx c) 6 1
  if 9216 < f.len || !f.fcsOk || decide (1 < f.tags.length) || !f.ethernetII then odAdd d (portIdx c) 8 1
  else match f.net with
    | .arp t =>
      if odGet d (portIdx c) 4 ≠ 0 ∧ t.toNat = odGet d (portIdx c) 4 then portSend d c (.arpReply t) else odAdd d (portIdx c) 8 1
    | .neighbour t =>
      if odGet d (portIdx c) 5 ≠ 0 ∧ t.toNat = odGet d (portIdx c) 5 then portSend d c (.neighbourAdvert t) else odAdd d (portIdx c) 8 1
    | .groupQuery v6 g =>
      let asked := (joined d c).filter (fun x =>
        decide (g = 0) && (v6 == !decide (x.1 % 2 ^ 96 = 0xFFFF * 2 ^ 80)) || decide (x.1 = g.toNat))
      if asked.isEmpty then odAdd d (portIdx c) 8 1 else asked.foldl (fun d x => portSend d c (groupReport d x.2)) d
    | .fragment => odAdd d (portIdx c) 9 1
    | .unserved => odAdd d (portIdx c) 8 1
    | .udp v6 src dst dport zero ok body rtp =>
      if (zero && v6) || (!zero && !ok) then odAdd d (portIdx c) 8 1
      else if !addressed d c dst.toNat then odAdd d (portIdx c) 7 1
      else takeDatagram d c f.tags src.toNat dst.toNat dport body rtp

def execEthFrameReceive (port : Fin 2) (f : EthFrame) (s : State) : Host.Outcome State Fault Refusal :=
  onDev (guarded (fun d => portUp d port.val) (fun d => receiveFrame d port.val f)) s

/-- REORDER_TIMEOUT (R347): 2 ms after the first later packet. -/
def execReorderTimeout (n : Fin 1024) (s : State) : Host.Outcome State Fault Refusal :=
  onDev (guarded (fun d => (streamAt d n.val).active && (streamAt d n.val).window.any (fun p => p.1 + msCounts 2 ≤ d.time))
    (fun d => resolveGap d n.val)) s

/-- ANCHOR_WRITE (R359): the pair (dev, ts) applies from the next access unit whose first packet arrives after it; the packets that wait
in the reorder window keep the anchor in force. -/
def anchorWrite (d : Device) (n v : Nat) : Device :=
  modStream (odPut d (0x2400 + n) 0x19 v) n (fun st => { st with
    heldAnchors := st.window.map (fun p => (p.2.seq, ((st.heldAnchors.find? (fun x => x.1 = p.2.seq)).map (·.2)).getD st.anchor))
    anchor := (v % 2 ^ 64, BitVec.ofNat 32 (v / 2 ^ 64)) })

def execAnchorWrite (n : Fin 1024) (v : BitVec 96) (s : State) : Host.Outcome State Fault Refusal :=
  onDev (fun d => anchorWrite d n.val v.toNat) s

end Sys2Proof.Machine
end

