-- ==== Sys2Proof/Machine/Decoder.lean ====
section
/-! DEFINITION. The decode slices and raw pictures (R350 to R354, R358). -/

namespace Sys2Proof.Machine

/-- Give a picture the capture time and RTP timestamp of its access unit. -/
def datePicture (st : Stream) (p : Picture) : Picture :=
  match st.caps.find? (fun c => c.1 = p.unit) with
  | none => p
  | some c => { p with cap := c.2.1, rtpts := c.2.2 }

/-- What a decoded access unit leaves: state, pictures in output order, concealment, errors (R352, R353). -/
def applyDecode (d : Device) (n : Nat) (a : AccessUnit) (o : DecodeOut) : Device :=
  let b := strmBerth d n
  let st := streamAt d n
  let st := { st with caps := st.caps ++ [(a.no, a.cap, a.rtpts)] }
  let pics := o.pictures.map (datePicture st)
  let d := setStream d n { st with
    decoder := o.state
    dpb := o.held
    concealing := o.concealed
    caps := st.caps.filter (fun c => !(o.pictures.any (fun p => p.unit = c.1))) }
  let d := (List.range o.errors).foldl (fun d _ => berthReport d b 16 (tag 11 b n) (tag 11 b n) 0) d
  let d := odAdd d (0x2400 + n) 0x25 (pics.filter (·.concealed)).length
  pics.foldl (fun d p => pushPicture d n p) d

/-- The result of decoding one access unit (R350, R354). -/
def decodeUnit (d : Device) (n : Nat) (a : AccessUnit) : Device :=
  let st := streamAt d n
  let waiting := decide (strm d n 0x1B = 1) || decide (strm d n 0x1B = 3)
  if waiting && !a.rap then skipUnit d n
  else
    let o := Config.decode (strm d n 3) (strm d n 4) (strm d n 5) (strm d n 0x13) (strm d n 0x0F) st.concealing st.decoder a
    if o.mismatch then skipUnit (setStreamState (modStream d n (fun st => { st with decoder := o.state })) n 3) n
    else
      let d := if waiting && o.yielded then setStreamState d n 2 else d
      if o.yielded then applyDecode d n a o
      else skipUnit (modStream d n (fun st => { st with decoder := o.state })) n

/-- DECODE_COMPLETE (R351, R352): the item leaves the packet queue, and the slice takes the next access unit. A unit of a
disabled stream is discarded (R362). -/
def decodeComplete (d : Device) (b s : Nat) : Device :=
  match d.streams.find? (fun p => onSlice b s p.2) with
  | none => d
  | some (n, st) =>
    let d := modStream d n (fun st => { st with slice := 0, inDecode := none, stale := false })
    let d := match st.inDecode with
      | none => d
      | some a => if st.active && !st.stale then decodeUnit (popUnit d n) n a else d
    let d := startDecodes d b
    if strmBerth d n = b then d else startDecodes d (strmBerth d n)

def execDecodeComplete (b : Fin 4) (slice : Fin 18) (s : State) : Host.Outcome State Fault Refusal :=
  onDev (fun d => decodeComplete d b.val slice.val) s

/-- R351 time of an access unit in device time counts: luma samples at 0.9 Gpixel/s or coded bits at 0.4 Gb/s. -/
def decodeCounts (d : Device) (n : Nat) (a : AccessUnit) : Nat :=
  max (strm d n 4 * strm d n 5 / 9) (8 * (nalBytes a.nals).length / 4)

/-- DECODE_SLICE_TIMEOUT (Table 17-1, i = 17): 4 × the R351 time + 1 ms. -/
def execDecodeSliceTimeout (b : Fin 4) (slice : Fin 18) (s : State) : Host.Outcome State Fault Refusal :=
  onDev (fun d =>
    match d.streams.find? (fun p => onSlice b.val slice.val p.2) with
    | none => d
    | some (n, st) =>
      match st.inDecode with
      | none => d
      | some a =>
        if st.decodeFrom + 4 * decodeCounts d n a + msCounts 1 ≤ d.time then
          berthReport d b.val 17 (tag 6 b.val slice.val) (tag 6 b.val slice.val) n
        else d) s

/-! Raw pictures (R358) -/

def rawAddr (v : BitVec 512) : Nat := fld v 511 448
def rawCap (v : BitVec 512) : Nat := fld v 447 384
def rawPitch (v : BitVec 512) : Nat := fld v 383 368
def rawWidth (v : BitVec 512) : Nat := fld v 367 352
def rawHeight (v : BitVec 512) : Nat := fld v 351 336
def rawFormat (v : BitVec 512) : Nat := fld v 335 328

def rawBad (d : Device) (n : Nat) (v : BitVec 512) : Bool :=
  decide (rawWidth v ≠ strm d n 4) || decide (rawHeight v ≠ strm d n 5) || decide (rawFormat v ≠ strm d n 0x1D)
    || decide (rawPitch v < (if rawFormat v = 0 then rawWidth v else 3 * rawWidth v))

/-- The raw queue of stream n holds an item that the device may read. -/
def rawReady (d : Device) (n : Nat) : Bool :=
  let q := strm d n 0x11
  (streamAt d n).active && decide (strm d n 3 = 2) && decide (q < 16384) && (ringOf d q).enabled && decide (qDir d q = 1)
    && decide (qLoc d q = 0) && decide (qBytes d q = 64) && decide (0 < ringHeld (ringOf d q)) && d.pcie.busMaster

/-- RAW_DESCRIPTOR: a gap marker of the host is consumed and counted (R370), a refused descriptor likewise; a good one starts its copy. -/
def rawDescriptor (d : Device) (n : Nat) (v : BitVec 512) : Device :=
  if markerBytes (fld v 7 0) then consumeItem d (strm d n 0x11) 1 true
  else if rawBad d n v then odAdd (consumeItem d (strm d n 0x11) 1 false) (0x2400 + n) 0x28 1
  else modStream d n (fun st => { st with raw := some (v, d.time) })

def execRawDescriptor (n : Fin 1024) (desc : BitVec 512) (s : State) : Host.Outcome State Fault Refusal :=
  onDev (guarded (fun d => rawReady d n.val && (streamAt d n.val).raw.isNone) (fun d => rawDescriptor d n.val desc)) s

/-- Samples of a raw picture whose rows stand `pitch` bytes apart. -/
def rawPicture (v : BitVec 512) (bytes : List Byte) : Picture :=
  let w := rawWidth v
  let h := rawHeight v
  let at_ := fun (i : Nat) => (bytes.getD i 0).toNat
  let row := fun (base step first : Nat) (rows cols : Nat) =>
    (List.range rows).flatMap (fun y => (List.range cols).map (fun x => at_ (base + y * rawPitch v + step * x + first)))
  if rawFormat v = 1 then
    { w := w, h := h, rgb := true, y := row 0 3 0 h w, cb := row 0 3 1 h w, cr := row 0 3 2 h w }
  else
    { w := w, h := h, y := row 0 1 0 h w, cb := row (rawPitch v * h) 2 0 (h / 2) (w / 2), cr := row (rawPitch v * h) 2 1 (h / 2) (w / 2) }

/-- RAW_COPY_COMPLETE: the picture enters the input queue and the consumer pointer passes its item. -/
def execRawCopyComplete (n : Fin 1024) (pic : List Byte) (s : State) : Host.Outcome State Fault Refusal :=
  onDev (fun d =>
    match (streamAt d n.val).raw with
    | none => d
    | some (v, arrival) =>
      let p := { rawPicture v pic with cap := if rawCap v = 0 then arrival else rawCap v }
      let d := modStream d n.val (fun st => { st with raw := none })
      let d := setStreamState d n.val 2
      consumeItem (pushPicture d n.val p) (strm d n.val 0x11) 1 false) s

end Sys2Proof.Machine
end

