-- ==== Sys2Proof/Machine/Streams.lean ====
section
/-! DEFINITION. Enabling and disabling a stream (R344, R352, R361, R362). -/

namespace Sys2Proof.Machine

/-- Bytes of a frame-store entry of a berth: of the running image, else of the largest entry of a slot that holds one
(DESIGN CHOICE, log 17). -/
def berthEntryBytes (d : Device) (b : Nat) : Nat :=
  let size := fun (k : Nat) => ((slotAt d b k).image.map (fun img => fsSize img.bind.wd img.bind.hd)).getD 0
  if runSlot d b < 4 then size (runSlot d b) else ((List.range 4).map size).foldl max 0

def isRaw (d : Device) (n : Nat) : Bool := decide (strm d n 3 = 2)
def streamTen (d : Device) (n : Nat) : Bool := decide (strm d n 3 = 1) && decide (strm d n 0x0F ≠ 0) && Config.tenBit (strm d n 0x0F)

/-- Bytes of a picture buffer (R352, R358). -/
def bufferBytes (d : Device) (n : Nat) : Nat :=
  let px := strm d n 4 * strm d n 5
  let raw := if isRaw d n && decide (strm d n 0x1D = 1) then 3 * px else (3 * px + 1) / 2
  let raw := if streamTen d n then 2 * raw else raw
  65536 * ((raw + 65535) / 65536)

/-- Buffers of a stream (R352); a raw stream has MAX_DPB = 0. -/
def bufferCount (d : Device) (n : Nat) : Nat := (if isRaw d n then 0 else strm d n 0x13) + strm d n 0x14

/-- RATE of a stream's rated requester (R361). -/
def streamRate (d : Device) (n : Nat) : Nat :=
  let w := strm d n 4
  let h := strm d n 5
  let fps := max (strm d n 6) 1
  let pt64 := w * h * 3 * (if streamTen d n then 2 else 1)
  let et := berthEntryBytes d (strmBerth d n) / 32
  let bt := (strm d n 7 * 125 + fps * 32 - 1) / (fps * 32)
  let den := 64 * 1600000000
  ((3 * pt64 + 64 * (et + 2 * bt)) * fps * 65536 + den - 1) / den

/-- Two records could match the same datagram (R345). -/
def clash (d : Device) (m n : Nat) : Bool :=
  let mask := fun (k : Nat) => if strm d k 0x0D / 16 % 4 = 0 then 3 else strm d k 0x0D / 16 % 4
  decide (Nat.land (mask m) (mask n) ≠ 0) && decide (strm d m 0x0B = strm d n 0x0B) && decide (strm d m 9 = strm d n 9)
    && (decide (strm d m 0x0A = strm d n 0x0A) || decide (strm d m 0x0A + 1 = strm d n 0x0A) || decide (strm d n 0x0A + 1 = strm d m 0x0A))
    && !(decide (strm d m 0x0D % 2 = 1) && decide (strm d n 0x0D % 2 = 1) && decide (strm d m 8 ≠ strm d n 8))
    && !(decide (strm d m 0x0D / 2 % 2 = 1) && decide (strm d n 0x0D / 2 % 2 = 1) && decide (strm d m 0x0C ≠ strm d n 0x0C))

/-- A binding names no queue, or one of the direction that it needs (R364). -/
def bindingOk (d : Device) (q dir : Nat) : Bool := decide (16384 ≤ q) || decide (odGet d (0x4000 + q) 2 = dir)

/-- Fields that enable checks: bindings, berth, picture size, packet queue size. -/
def streamFieldsOk (d : Device) (n : Nat) : Bool :=
  bindingOk d (strm d n 0x10) 0 && (!isRaw d n || bindingOk d (strm d n 0x11) 1) &&
  decide (strm d n 2 < 4) && isPow2 (strm d n 0x12) && (isRaw d n ||
    (decide (64 ≤ strm d n 4) && decide (strm d n 4 ≤ 4096) && decide (64 ≤ strm d n 5) && decide (strm d n 5 ≤ 2304)))

/-- Sizes that a stream takes from the pool: packet queue, frame-store ring, picture buffers. -/
def streamSizes (d : Device) (n : Nat) : List Nat :=
  (strm d n 0x15 * berthEntryBytes d (strmBerth d n)) :: (if isRaw d n then [] else [1024 * strm d n 0x12])
    ++ List.replicate (bufferCount d n) (bufferBytes d n)

/-- The cause that refuses an enable (STATUS of Table 14-9); 0 none. -/
def streamRefusal (d : Device) (n : Nat) : Nat :=
  let b := strmBerth d n
  if strm d n 0x1B = 5 then 5
  else if !streamFieldsOk d n then 4
  else if !isRaw d n && d.streams.any (fun p => p.2.active && decide (p.1 ≠ n) && !isRaw d p.1 && clash d p.1 n) then 3
  else if (poolAllocAll (berthAt d b).hbm (0x10000 + n) (streamSizes d n)).isNone then 1
  else if pacerBudget < ratedSum d b + streamRate d n then 2
  else 0

/-- Ports whose group membership a stream asks for (R344). -/
def joinPorts (d : Device) (n : Nat) : List Nat :=
  if strm d n 0x0D / 4 % 2 = 1 && isGroup (strm d n 9) && !isRaw d n then (List.range 2).filter (fun c => portInMask d n c && odFlag d (portIdx c) 1) else []

/-- The running state of a stream just enabled. -/
def freshStream (d : Device) (n : Nat) (gs : List Nat) (rate : Nat) : Stream :=
  let old := streamAt d n
  let own := gs.drop 1
  { active := true
    home := some (strm d n 2)
    slice := old.slice
    sliceBerth := old.sliceBerth
    stale := old.stale
    inDecode := old.inDecode
    decodeFrom := old.decodeFrom
    anchor := old.anchor
    pktBase := if isRaw d n then 0 else poolAddr (own.headD 0)
    bufs := if isRaw d n then own else own.drop 1
    bufBytes := bufferBytes d n
    pktq := { enabled := true, entries := 4 * strm d n 0x12, entryBytes := 256 }
    inq := { enabled := true, entries := 4 * strm d n 0x14 + 4, entryBytes := 32 }
    fsBase := poolAddr (gs.headD 0)
    fsBytes := berthEntryBytes d (strmBerth d n)
    granules := gs
    rate := rate }

/-- ENABLE becomes TRUE (R361). -/
def enableStream (d : Device) (n : Nat) : Device :=
  let b := strmBerth d n
  let d := if b < 4 ∧ bpstate d b = 2 then wakeBerth d b else d
  if (streamAt d n).active then d
  else
    let c := streamRefusal d n
    if c = 5 then odPut d (0x2400 + n) 0x1C 5
    else if c ≠ 0 then setStreamState (odPut (odStore d (0x2400 + n) 1 0) (0x2400 + n) 0x1C c) n 4
    else
      match poolAllocAll (berthAt d b).hbm (0x10000 + n) (streamSizes d n) with
      | none => d
      | some (gs, h) =>
        let rate := streamRate d n
        let d := modBerth d b (fun x => { x with hbm := h })
        let d := setStream d n (freshStream d n gs rate)
        let d := odPut (odStore d (0x2400 + n) 1 1) (0x2400 + n) 0x1C 0
        let d := (joinPorts d n).foldl (fun d c => portSend d c (groupReport d n)) d
        setStreamState d n 1

/-- STREAM_ENABLE. -/
def execStreamEnable (n : Fin 1024) (s : State) : Host.Outcome State Fault Refusal :=
  onDev (guarded (fun d => decide (mstate d = 0)) (fun d => enableStream d n.val)) s

/-- Leave a group on the ports where no other enabled stream uses it (R344). -/
def leaveGroups (d : Device) (n : Nat) : Device :=
  (joinPorts d n).foldl (fun d c =>
    if (joined d c).any (fun g => decide (g.2 ≠ n) && decide (g.1 = strm d n 9)) then d
    else portSend d c (.leave (BitVec.ofNat 128 (strm d n 9)))) d

/-- ENABLE becomes FALSE (R362). -/
def disableStream (d : Device) (n : Nat) : Device :=
  if !(streamAt d n).active then odStore d (0x2400 + n) 1 0
  else
    let d := leaveGroups d n
    let (d, pktq) := flushInner d n 0 5 (streamAt d n).pktq
    let (d, inq) := flushInner d n 1 5 (streamAt d n).inq
    let d := modStream d n (fun st => { st with
      active := false
      window := []
      nextSeq := none
      au := none
      fu := none
      aus := []
      pics := []
      raw := none
      rate := 0
      stale := decide (st.slice ≠ 0)
      pktq := { pktq with enabled := false }
      inq := { inq with enabled := false } })
    freeStream (setStreamState (odStore d (0x2400 + n) 1 0) n 5) n

/-- STREAM_DISABLE. -/
def execStreamDisable (n : Fin 1024) (s : State) : Host.Outcome State Fault Refusal :=
  onDev (fun d => disableStream d n.val) s

end Sys2Proof.Machine
end

