-- ==== Sys2Proof/Machine/Board.lean ====
section
/-! DEFINITION. The card: power inputs, resets, SFP56 cages, PPS and device time (R404, R444, R445, R457 to R486), and the abort
of segmented transfers that some resets cause (R408, Table 16-12). -/

namespace Sys2Proof.Machine

/-! Aborted transfers -/

/-- A slot back to EMPTY: its image, identity and pool are given up. -/
def emptySlot (d : Device) (b k : Nat) : Device :=
  let sl := slotAt d b k
  let d := setSlot (modBerth d b (fun x => { x with hbm := poolFree x.hbm sl.granules })) b k {}
  let d := odPut (odPut (odPut d (0x3000 + 4 * b + k) 3 0) (0x3000 + 4 * b + k) 4 0) (0x3000 + 4 * b + k) 5 0
  setSlotState d b k 0

/-- What an aborted write leaves (Table 16-12). -/
def abortEffect (d : Device) (t : SegTransfer) : Device :=
  if !t.write then d
  else match odKind t.index with
    | some .slot =>
      let b := (t.index - 0x3000) / 4
      let d := if slotState d b ((t.index - 0x3000) % 4) = 1 then emptySlot d b ((t.index - 0x3000) % 4) else d
      listRestored (setCause d 2048 (2 ^ b)) t.index 1
    | some .firmware => odPut { d with fw := { d.fw with inactiveValid := false } } 0x1020 2 0
    | some .scanData =>
      modBerth d (t.index - 0x3020) (fun x => { x with scan := { x.scan with
        header := leBytes 64 (leNat x.scan.header - (leNat x.scan.header / 2 ^ 81 % 2) * 2 ^ 81) } })
    | _ => d

def dropTransfer (d : Device) (index sub : Nat) : Device :=
  { d with transfers := d.transfers.filter (fun t => !(decide (t.index = index) && decide (t.sub = sub))) }

def abortTransfer (d : Device) (t : SegTransfer) : Device := abortEffect (dropTransfer d t.index t.sub) t

/-- Abort every open transfer of which `p` holds. -/
def abortTransfers (p : SegTransfer → Bool) (d : Device) : Device := (d.transfers.filter p).foldl abortTransfer d

/-- A session closes: its transfers are aborted (R408). -/
def closeSession (d : Device) (sid : U32) : Device :=
  abortTransfers (fun t => t.sid = sid) { d with sessions := d.sessions.filter (fun s => s.sid ≠ sid) }

/-! Resets (R457) -/

/-- HOT and FLR: configuration space, MSI-X, Bus Master Enable and the mailbox with its sessions return to reset. -/
def functionReset (d : Device) (bits : Nat) : Device :=
  let d := abortTransfers (fun t => t.tr = .mailbox) d
  let d := { d with
    pcie := { up := d.pcie.up }
    mbx := {}
    requests := Tab.erase d.requests 0
    responses := Tab.erase d.responses 0
    journal := d.journal.map (fun e => if e.reply.any (fun r => decide (r.1.tr = .mailbox)) then { e with reply := none } else e)
    sessions := d.sessions.filter (fun s => s.tr ≠ .mailbox)
    streams := Tab.map (fun (s : Stream) => { s with raw := none }) d.streams }
  setCause d bits 0

def execHot (s : State) : Host.Outcome State Fault Refusal := onDev (fun d => functionReset d 4) s
def execFlr (s : State) : Host.Outcome State Fault Refusal := onDev (fun d => functionReset d 16) s

/-- PERST (R457): PERST_N is low; it wakes the module from DOCK (R450) and ends a thermal trip (R454). -/
def perstAll (d : Device) : Device :=
  let off := !d.power.control
  let d := setRails (perstReset d)
  if off then { d with power := { d.power with fR := 2400, want := 2400 } } else d

def execPerst (s : State) : Host.Outcome State Fault Refusal := onDev (guarded (fun d => d.power.aux) perstAll) s

/-- WARM_RESET (R457). -/
def execWarmReset (s : State) : Host.Outcome State Fault Refusal :=
  onDev (guarded (fun d => d.power.aux && decide (mstate d ≠ 5)) warmResetAll) s

/-- BERTH_RESET (R459). -/
def execBerthReset (b : Fin 4) (s : State) : Host.Outcome State Fault Refusal :=
  onDev (guarded (fun d => decide (mstate d = 0)) (fun d => berthResetAll (wakeBerth d b.val) b.val)) s

/-- Sample the straps (R472, R473). -/
def sampleStraps (d : Device) (straps : BitVec 3) (testEn : Bool) : Device :=
  { d with power := { d.power with bid := straps.toNat, testEn := testEn } }

/-- PERST_N_RISE (R457, R472, R478). -/
def execPerstNRise (straps : BitVec 3) (testEn : Bool) (s : State) : Host.Outcome State Fault Refusal :=
  onDev (guarded (fun d => d.power.aux && d.power.perstLow) (fun d =>
    startCores { sampleStraps d straps testEn with power := { (sampleStraps d straps testEn).power with perstLow := false } })) s

/-- POWER_ON (R478): 3.3VAUX crosses 2.9 V; everything but flash starts anew, device time from 0, cause 0. -/
def powerOn (d : Device) (straps : BitVec 3) (testEn : Bool) : Device :=
  let d' := resetModule false false d
  let d' := { d' with
    pcie := {}
    mctpEid := 0
    power :=
      { aux := true
        slot12 := d.power.slot12
        cableMv := d.power.cableMv
        sense0 := d.power.sense0
        sense1 := d.power.sense1
        perstLow := d.power.perstLow
        fR := 2400
        want := 2400 } }
  startCores (setRails (bootFirmware (lossCauses d (setCause (sampleStraps d' straps testEn) 1 0))))

def execPowerOn (straps : BitVec 3) (testEn : Bool) (s : State) : Host.Outcome State Fault Refusal :=
  onDev (fun d => powerOn d straps testEn) s

/-- POWER_DOWN (R479): a loss of 3.3VAUX ends everything; a loss of slot 12 V alone is DOCK entry. -/
def powerDown (d : Device) (auxLost : Bool) : Device :=
  if auxLost then
    let d' := resetModule false false d
    { d' with pcie := {}, power := { d'.power with aux := false, control := false, fabric := false, tripped := false } }
  else if mstate d = 5 then { d with power := { d.power with slot12 := false } }
  else
    let d' := dockState d
    { d' with power := { d'.power with slot12 := false } }

def execPowerDown (auxLost : Bool) (s : State) : Host.Outcome State Fault Refusal :=
  onDev (fun d => powerDown d auxLost) s

/-- SLOT_12V_VALID (Table 19-9): the control and HBM rails come up and the RPLL locks at 2,400 MHz. -/
def slotValid (d : Device) : Device :=
  let was := d.power.control
  let d := setRails { d with power := { d.power with slot12 := true } }
  if d.power.control && !was then
    startCores { d with power := { d.power with fR := 2400, want := 2400 } }
  else d

def execSlot12vValid (s : State) : Host.Outcome State Fault Refusal := onDev (fun d => slotValid d) s

/-! Cable (R467 to R469) -/

/-- The cable's 12 V falls (R469): running berths stop in drop mode, f_R goes to 2,400 MHz, the fabric rails go off. -/
def cableLoss (d : Device) : Device :=
  let running := (List.range 4).filter (fun b => decide (runSlot d b < 4))
  let d := running.foldl (fun d b => forceSwitch (wakeBerth d b) b 15 2 false (nextEpoch d b)) d
  let d := if running.isEmpty then d
    else odAdd (report { d with power := { d.power with fR := 2400, want := 2400 } } 0x08A (tag 10 0 9) (tag 10 0 9) 0x100) 0x8450 7 1
  setRails { d with power := { d.power with cableMv := 0 } }

def execCableLoss (s : State) : Host.Outcome State Fault Refusal :=
  onDev (guarded cablePresent cableLoss) s

/-- CABLE_SENSE_READ (R467). A read that finds the cable gone is its loss. -/
def cableRead (d : Device) (mv : Nat) (s0 s1 : Bool) : Device :=
  let d := if cablePresent d && decide (mv ≤ 10800) then cableLoss d else d
  setRails { d with power := { d.power with cableMv := mv, sense0 := s0, sense1 := s1 } }

def execCableSenseRead (mv : Nat) (sense0 sense1 : Bool) (s : State) : Host.Outcome State Fault Refusal :=
  onDev (guarded (fun d => d.power.aux) (fun d => cableRead d mv sense0 sense1)) s

/-- RAIL_OUT_OF_WINDOW (R480): rail number in INFO[7:0]. -/
def execRailOutOfWindow (rail : Fin 11) (s : State) : Host.Outcome State Fault Refusal :=
  onDev (guarded (fun d => d.power.control && decide (rail.val ≠ 0))
    (fun d => report d 0x08A (tag 10 0 rail.val) (tag 10 0 rail.val) rail.val)) s

/-! SFP56 cages (R475) -/

/-- TX_DISABLE of a cage as ENABLE, firmware and module ask for it. -/
def cageReady (d : Device) (c : Nat) (p : SfpPort) : Bool :=
  odFlag d (0x2000 + c) 1 && d.fw.running && p.present && decide (odGet d (0x2000 + c) 2 ≤ p.rate)

/-- SFP_MODULE_INSERT. -/
def sfpInsert (d : Device) (c rate : Nat) : Device :=
  let p := { sfpAt d c with present := true, rate := rate, link := false, held := false }
  let fit := cageReady d c p
  let d := setSfp d c { p with txDisable := !fit, unfit := decide (rate < odGet d (0x2000 + c) 2) }
  if odFlag d (0x2000 + c) 1 && d.fw.running && !fit then odAdd d (0x2000 + c) 8 1 else d

def execSfpModuleInsert (c : Fin 2) (rate : Nat) (s : State) : Host.Outcome State Fault Refusal :=
  onDev (fun d => sfpInsert d c.val rate) s

/-- SFP_MODULE_REMOVE: the link goes down; no other state changes. -/
def execSfpModuleRemove (c : Fin 2) (s : State) : Host.Outcome State Fault Refusal :=
  onDev (fun d => setSfp d c.val { sfpAt d c.val with present := false, link := false }) s

/-- SFP_TX_FAULT: the port is held down; TX_DISABLE is pulsed and returns to its level. -/
def execSfpTxFault (c : Fin 2) (s : State) : Host.Outcome State Fault Refusal :=
  onDev (fun d => setSfp d c.val { sfpAt d c.val with held := true, link := false }) s

/-- SFP_PORT_LINK_CHANGE: RX_LOS and the PHY report the link of an enabled port; a link that comes up ends a hold. -/
def execSfpPortLinkChange (c : Fin 2) (up : Bool) (s : State) : Host.Outcome State Fault Refusal :=
  onDev (guarded (fun d => odFlag d (0x2000 + c.val) 1 && (!up || ((sfpAt d c.val).present && !(sfpAt d c.val).txDisable)))
    (fun d => setSfp d c.val { sfpAt d c.val with link := up, held := (sfpAt d c.val).held && !up })) s

/-- FOLSA_CABLE_INSERTED (R470): from now on an enabled port can train. -/
def execFolsaCableInserted (p : Fin 2) (s : State) : Host.Outcome State Fault Refusal :=
  onDev (fun d => setFolsa d p.val { folsaAt d p.val with cable := true }) s

/-! Bus Master Enable (R458) -/

/-- Signal every pending vector that is not masked. -/
def signalPending (d : Device) : Device :=
  (d.pcie.pending.filter (fun v => d.pcie.unmasked.contains v)).foldl (fun d v =>
    signalVector { d with pcie := { d.pcie with pending := d.pcie.pending.filter (· ≠ v) } } v) d

def busMaster (d : Device) (on : Bool) : Device :=
  let d := { d with pcie := { d.pcie with busMaster := on } }
  if on then
    let d := signalPending d
    let d := (List.range 32).foldl (fun d h => enterAll d.pendingEv.length (evqStatus d h) h) d
    d.queues.foldl (fun d q => writeStatus d q.1) d
  else { d with streams := Tab.map (fun (s : Stream) => { s with raw := none }) d.streams }

/-- BUS_MASTER_ENABLE_CHANGE. -/
def execBusMasterEnableChange (on : Bool) (s : State) : Host.Outcome State Fault Refusal :=
  onDev (fun d => busMaster d on) s

/-! Device time (R444, R445, R484, R485) -/

/-- TIME_WRITE (R444). -/
def timeWrite (d : Device) (v : Nat) : Device :=
  let now : Nat := v % 2 ^ 64
  odPut { d with
    time := now
    pps := { d.pps with lastEdge := d.pps.lastEdge.map (fun t => t + (now : Int) - (d.time : Int)) } } 0x1200 4 1

def execTimeWrite (v : U64) (s : State) : Host.Outcome State Fault Refusal := onDev (fun d => timeWrite d v.toNat) s

/-- Counts past the nearest second (R445). -/
def secondError (te : Nat) : Int := ((te + 50000000) % 100000000 : Nat) - 50000000

/-- An accepted edge disciplines device time. -/
def ppsAccept (d : Device) (te : Nat) : Device :=
  let load := odGet d 0x1200 3
  let pps := d.pps
  if load ≠ 0 then
    odPut (odPut { d with
      time := (load + (d.time - te)) % 2 ^ 64
      pps := { pps with lastEdge := some (load : Int), good := 0, missed := 0, slew := 0, elapsed := 0 } } 0x1200 3 0) 0x1200 4 1
  else
    let e := secondError te
    let big := decide (1000 < e) || decide (e < -1000)
    let good := if decide (e ≤ 10) && decide (-10 ≤ e) then (if big then 0 else pps.good) + 1 else 0
    let d := { d with
      time := if big then ((d.time : Int) - e).toNat % 2 ^ 64 else d.time
      pps := { pps with
        lastEdge := some (if big then (te : Int) - e else te)
        good := good
        missed := 0
        slew := if big then pps.slew else -e
        elapsed := if big then pps.elapsed else 0 } }
    if 4 ≤ good then odPut d 0x1200 4 2 else d

/-- PPS_EDGE: a pulse of four samples is accepted; one less than 0.5 s after the last accepted edge is ignored. -/
def execPpsEdge (samples : Nat) (te : U64) (s : State) : Host.Outcome State Fault Refusal :=
  onDev (guarded (fun d => odFlag d 0x1200 2 && decide (4 ≤ samples) && decide (te.toNat ≤ d.time) && (match d.pps.lastEdge with
      | none => true
      | some t => decide (t + 50000000 ≤ (te.toNat : Int))))
    (fun d => ppsAccept d te.toNat)) s

/-- PPS_MISSED: no edge within 10^8 + 10^5 counts of where one was due. -/
def execPpsMissed (s : State) : Host.Outcome State Fault Refusal :=
  onDev (guarded (fun d => odFlag d 0x1200 2 && (match d.pps.lastEdge with
      | none => false
      | some t => decide (t + 100000000 * (d.pps.missed + 1) + 100000 < (d.time : Int))))
    (fun d =>
      let n := d.pps.missed + 1
      let d := odAdd { d with pps := { d.pps with missed := n } } 0x1200 5 1
      if 3 ≤ n ∧ odGet d 0x1200 4 = 2 then odPut d 0x1200 4 1 else d)) s

/-! The defaults-restored record (R404) -/

/-- DEFAULTS_CAUSE_CLEAR: the bits written as 1 are cleared; BERTHS with CAUSE, and the list with CAUSE = 0xFFFF_FFFF. -/
def causeClear (d : Device) (v : Nat) : Device :=
  let now := odGet d 0x1010 1
  let d := odPut d 0x1010 1 (now - Nat.land now v)
  let d := if odGet d 0x1010 1 = 0 then odPut d 0x1010 2 0 else d
  if v = top32 then
    (List.range 64).foldl (fun d i => odPut d 0x1011 (i + 1) 0) (odPut d 0x1010 4 0)
  else d

def execDefaultsCauseClear (v : U32) (s : State) : Host.Outcome State Fault Refusal := onDev (fun d => causeClear d v.toNat) s

/-- RESTORE_DEFAULTS (0x1012): every P object but the key slots returns to its factory default; cause 10. -/
def restoreDefaults (d : Device) : Device :=
  let d := (List.map (fun (p : Nat × Stream) => p.1) (d.streams.filter (·.2.active))).foldl disableStream d
  let keep := fun (k : Nat) => decide (odKind (k / 256) = some .key)
  let d := { d with
    od := d.od.filter (fun e => keep e.1 || match odInfo (e.1 / 256) (e.1 % 256) with
      | some r => decide (r.cls ≠ 0)
      | none => false)
    flash := d.flash.filter (fun e => keep e.1)
    journal := d.journal.filter (fun (e : JournalRec) => keep e.key) }
  setCause d 1024 0

def execRestoreDefaults (s : State) : Host.Outcome State Fault Refusal := onDev restoreDefaults s

end Sys2Proof.Machine
end

