-- ==== Sys2Proof/Machine/Feeder.lean ====
section
/-! DEFINITION. The frame feeder (R355 to R357): choice of the next frame, scaling, colour conversion, the frame-store entry and
the tokens of each stripe. -/

namespace Sys2Proof.Machine

/-! Scaling (R355) -/

/-- A plane of samples. -/
structure SPlane where
  w : Nat
  h : Nat
  px : List Nat
  deriving DecidableEq, Repr, Inhabited

def sampleAt (p : SPlane) (x y : Nat) : Nat := p.px.getD (y * p.w + x) 0

/-- A ratio that is a whole number from 1 to 8. -/
def boxRatio (s d : Nat) : Option Nat := if d ≠ 0 ∧ s % d = 0 ∧ 1 ≤ s / d ∧ s / d ≤ 8 then some (s / d) else none

def boxSample (p : SPlane) (rx ry x y : Nat) : Nat :=
  let sum := (List.range ry).foldl (fun a j => (List.range rx).foldl (fun a i => a + sampleAt p (rx * x + i) (ry * y + j)) a) 0
  (rneDiv (sum : Int) (rx * ry)).toNat

/-- Source position in 1/256 sample under half-pixel centres. -/
def bilinPos (ws wd x : Nat) : Nat :=
  (clampI 0 (256 * ((ws : Int) - 1)) (rneDiv (128 * ((2 * (x : Int) + 1) * ws - wd)) wd)).toNat

def bilinSample (p : SPlane) (wd hd x y : Nat) : Nat :=
  let sx := bilinPos p.w wd x
  let sy := bilinPos p.h hd y
  let ix := sx / 256
  let wx := sx % 256
  let iy := sy / 256
  let wy := sy % 256
  let x1 := min (ix + 1) (p.w - 1)
  let y1 := min (iy + 1) (p.h - 1)
  (rneDiv ((((256 - wx) * (256 - wy) * sampleAt p ix iy + wx * (256 - wy) * sampleAt p x1 iy + (256 - wx) * wy * sampleAt p ix y1
    + wx * wy * sampleAt p x1 y1 : Nat)) : Int) 65536).toNat

/-- One sample of a plane scaled to wd × hd. -/
def scaledSample (p : SPlane) (wd hd x y : Nat) : Nat :=
  match boxRatio p.w wd, boxRatio p.h hd with
  | some rx, some ry => boxSample p rx ry x y
  | _, _ => bilinSample p wd hd x y

/-- 10-bit samples are first reduced to 8 (R355). -/
def reduce10 (ten : Bool) (v : Nat) : Nat := if ten then min (rneDiv (v : Int) 4).toNat 255 else v

/-! Colour (R356, Table 14-4) -/

structure Colour where
  ky : Int
  krv : Int
  kgu : Int
  kgv : Int
  kbu : Int
  yoff : Int
  deriving DecidableEq, Repr, Inhabited

/-- Row of Table 14-4: matrix 1 BT.601, 2 BT.709, 3 BT.2020 NCL; range 1 limited, 2 full. -/
def colourRow (matrix range : Nat) : Colour :=
  if range = 2 then
    (if matrix = 1 then ⟨4096, 5743, 1410, 2925, 7258, 0⟩
     else if matrix = 3 then ⟨4096, 6040, 674, 2340, 7706, 0⟩
     else ⟨4096, 6450, 767, 1917, 7601, 0⟩)
  else
    (if matrix = 1 then ⟨4769, 6537, 1605, 3330, 8263, 16⟩
     else if matrix = 3 then ⟨4769, 6876, 767, 2664, 8773, 16⟩
     else ⟨4769, 7343, 873, 2183, 8652, 16⟩)

/-- MATRIX and RANGE select the row; 0 in either takes the VUI, and an absent VUI gives BT.709 limited. -/
def colourOf (matrix range vuiMatrix vuiRange : Nat) : Colour :=
  colourRow (if matrix = 0 then (if vuiMatrix = 0 then 2 else vuiMatrix) else matrix)
    (if range = 0 then (if vuiRange = 0 then 1 else vuiRange) else range)

def rgbOf (k : Colour) (y u v : Nat) : Nat × Nat × Nat :=
  let yl := (y : Int) - k.yoff
  let cb := (u : Int) - 128
  let cr := (v : Int) - 128
  ((clampI 0 255 (rneDiv (k.ky * yl + k.krv * cr) 4096)).toNat,
   (clampI 0 255 (rneDiv (k.ky * yl - k.kgu * cb - k.kgv * cr) 4096)).toNat,
   (clampI 0 255 (rneDiv (k.ky * yl + k.kbu * cb) 4096)).toNat)

/-- The three channel bytes of an analysis pixel in the feeder's order. -/
def pixelOf (p : Picture) (k : Colour) (wd hd : Nat) (bgr : Bool) (x y : Nat) : List Byte :=
  let full : List Nat → SPlane := fun px => { w := p.w, h := p.h, px := px.map (reduce10 p.tenBit) }
  let half : List Nat → SPlane := fun px => { w := p.w / 2, h := p.h / 2, px := px.map (reduce10 p.tenBit) }
  let rgb :=
    if p.rgb then (scaledSample (full p.y) wd hd x y, scaledSample (full p.cb) wd hd x y, scaledSample (full p.cr) wd hd x y)
    else rgbOf k (scaledSample (full p.y) wd hd x y) (scaledSample (half p.cb) wd hd x y) (scaledSample (half p.cr) wd hd x y)
  let cs := if bgr then [rgb.2.2, rgb.2.1, rgb.1] else [rgb.1, rgb.2.1, rgb.2.2]
  cs.map (fun c => BitVec.ofNat 8 c)

/-- Bytes of one row of the analysis frame. -/
def rowBytes (p : Picture) (k : Colour) (wd hd : Nat) (bgr : Bool) (y : Nat) : List Byte :=
  (List.range wd).flatMap (fun x => pixelOf p k wd hd bgr x y)

/-! Tokens of a stripe (R357) -/

/-- Frame-header token payload (Table 14-5). -/
def headerPayload (cap : Nat) (rtpts fc : U32) (stripe stripes stream : Nat) (first concealed replay : Bool) : Payload :=
  BitVec.ofNat 256 (2 ^ 51 * b2n replay + 2 ^ 52 * b2n concealed + 2 ^ 53 * b2n first + 2 ^ 54 * (stream % 1024) + 2 ^ 64 * (stripes % 256)
    + 2 ^ 72 * (stripe % 256) + 2 ^ 128 * fc.toNat + 2 ^ 160 * rtpts.toNat + 2 ^ 192 * (cap % 2 ^ 64))

/-- Scale token of the input tensor (R79, R357): SDEFAULT of its record, always. Where SRCVALID is 0, SRCSEQ holds the frame's F.
DESIGN CHOICE (log 106). -/
def inputScale (u : UnitBind) (stream : Nat) (fc : U32) : Payload :=
  scalePayload u.record (stream % 1024) (encodeScale u.record (qSdefault u.record)) 0 (fc.toNat % 4096) false false true false

/-- Core token (Table 7-8). -/
def corePayload (u : UnitBind) (r c : Nat) : Payload :=
  let oy := stripeOrigin u.hd u.hi u.halo r
  let ox := stripeOrigin u.wd u.wi u.halo c
  let q := fun (lim h hi i o : Nat) => unsigned 16 (4 * ((stripeCore h hi lim i : Int) - o))
  BitVec.ofNat 256 (q u.halo u.wd u.wi c ox + 2 ^ 16 * q u.halo u.hd u.hi r oy + 2 ^ 32 * q u.halo u.wd u.wi (c + 1) ox
    + 2 ^ 48 * q u.halo u.hd u.hi (r + 1) oy + 2 ^ 64 * ox + 2 ^ 80 * oy)

/-- A data token of pixels x to x + p − 1 of a frame-store row (R146), and whether it reads damaged HBM. -/
def dataToken (h : Hbm) (addr pitch : Nat) (u : UnitBind) (x xEnd y : Nat) : Payload × Bool :=
  let n := min u.pack (xEnd - x)
  let a := addr + 64 + y * pitch + 3 * x
  let bs := memReadBytes h.mem a (3 * n)
  (BitVec.ofNat 256 (leNat (bs ++ List.replicate (32 - 3 * n) (BitVec.ofNat 8 (qZp u.record)))), hbmBad h a (3 * n))

/-- Data tokens of stripe (r, c) read from the frame store (R166). -/
def stripeTokens (h : Hbm) (e : FsEntry) (u : UnitBind) (r c : Nat) : List (Payload × Bool) :=
  let oy := stripeOrigin u.hd u.hi u.halo r
  let ox := stripeOrigin u.wd u.wi u.halo c
  let xEnd := ox + min u.wd u.wi
  let cols := (min u.wd u.wi + u.pack - 1) / max u.pack 1
  (List.range (min u.hd u.hi)).flatMap (fun y => (List.range cols).map (fun i =>
    dataToken h e.addr (fsPitch u.wd) u (ox + u.pack * i) xEnd (oy + y)))

/-- First bytes of the rows of stripe (r, c) in the frame store. -/
def stripeRows (e : FsEntry) (u : UnitBind) (r c : Nat) : List Nat :=
  (List.range (min u.hd u.hi)).map (fun y =>
    e.addr + 64 + (stripeOrigin u.hd u.hi u.halo r + y) * fsPitch u.wd + 3 * stripeOrigin u.wd u.wi u.halo c)

/-- Send one stripe of an entry. -/
def feedStripe (d : Device) (b n : Nat) (u : UnitBind) (ep : BitVec 2) (e : FsEntry) (replay : Bool) (s : Nat) : Device :=
  let r := s / max (bindCols u) 1
  let c := s % max (bindCols u) 1
  let fc := e.fcount + BitVec.ofNat 32 s
  let sb : Sideband := { v := true, e := ep, f := BitVec.ofNat 12 fc.toNat }
  let first := e.first && decide (s = 0)
  let d := sendEnd d u.headerEnd [{ data := headerPayload e.cap e.rtpts fc s e.stripes n first e.concealed replay, sb := { sb with l := true } }]
  let d := match u.sideEnd with
    | none => d
    | some k => sendEnd d k [{ data := corePayload u r c, sb := { sb with l := true } }]
  let ts := stripeTokens (berthAt d b).hbm e u r c
  let data := ts.zipIdx.map (fun p => ({ data := p.1.1, sb := { sb with p := p.1.2, l := decide (p.2 + 1 = ts.length) } } : Token))
  let d := (stripeRows e u r c).foldl (fun d a => hbmRangeNote d b a (3 * min u.wd u.wi)) d
  sendEnd d u.codeEnd ({ data := inputScale u n fc, sb := { sb with s := true, l := ts.isEmpty } } :: data)

/-- The first-frame marks of a berth after a frame with count fc of stream n is fed (R96): a first frame sets the stream's; a later
one clears it once F has gone half way round, so that no other frame is taken for it. -/
def markFirst (n : Nat) (e : FsEntry) (m : Tab Nat) : Tab Nat :=
  if e.first then Tab.set m n (e.fcount.toNat % 4096)
  else match Tab.find m n with
    | none => m
    | some f => if 2048 ≤ (e.fcount.toNat + 4096 - f) % 4096 then Tab.erase m n else m

/-- Mark stripe 0's first frame for the scale tables of every berth of the pipeline (R96) and send every stripe. -/
def feedEntry (d : Device) (b n : Nat) (u : UnitBind) (e : FsEntry) (replay : Bool) : Device :=
  let co := coOf d b
  let ep := unitEpoch d b
  let d := putEntry d n { e with fed := e.stripes, replay := false, replaying := replay, epoch := ep }
  let d := (pipelineBerths d b ((berthAt d b).unitSlot.getD (runSlot d b))).foldl (fun d j => modBerth d j (fun x => { x with first := markFirst n e x.first })) d
  let d := (List.range e.stripes).foldl (fun d s => feedStripe d b n u ep e replay s) d
  let d := modBerth d b (fun x => { x with idleSince := d.time })
  if co.firstPending then setCo d b { coOf d b with firstPending := false } else d

/-! Choice of the frame (R355) -/

/-- The oldest entry of the berth that waits to be fed again. -/
def nextReplay (d : Device) (b : Nat) : Option (Nat × FsEntry) :=
  (berthStreams d b).foldl (fun best n =>
    match (streamAt d n).entries.find? (fun e => e.replay && !e.held) with
    | none => best
    | some e => match best with
      | none => some (n, e)
      | some q => if e.cap < q.2.cap then some (n, e) else some q) none

/-- The stream whose head picture has the earliest capture time, among those whose frame-store ring has room. -/
def nextPicture (d : Device) (b : Nat) : Option (Nat × Picture) :=
  (berthStreams d b).foldl (fun best n =>
    let st := streamAt d n
    match st.pics with
    | [] => best
    | p :: _ =>
      if !st.active || decide (strm d n 0x15 ≤ st.entries.length) then best
      else match best with
        | none => some (n, p)
        | some q => if p.cap < q.2.cap then some (n, p) else some q) none

/-- Write the frame-store entry of a new frame (R258 to R260). -/
def writeEntryRows (h : Hbm) (p : Picture) (k : Colour) (u : UnitBind) (addr : Nat) : Hbm :=
  (List.range u.hd).foldl (fun h y => hbmWriteBytes h (addr + 64 + y * fsPitch u.wd) (rowBytes p k u.wd u.hd u.bgr y)) h

/-- Feed a new frame: its entry, its pixels, its stripes. -/
def feedNew (d : Device) (b n : Nat) (u : UnitBind) (p : Picture) : Device :=
  let st := streamAt d n
  let depth := max (strm d n 0x15) 1
  let e : FsEntry :=
    { addr := st.fsBase + (st.fsNext % depth) * st.fsBytes
      size := st.fsBytes
      fcount := st.fcount
      stripes := bindStripes u
      cap := p.cap
      rtpts := p.rtpts
      first := !st.firstDone
      concealed := p.concealed
      width := u.wd
      height := u.hd }
  let k := colourOf (strm d n 0x16) (strm d n 0x17) p.vuiMatrix p.vuiRange
  let d := modBerth d b (fun x =>
    let h := hbmWriteBytes x.hbm e.addr (fsHeader n u.wd u.hd e.stripes e.cap e.fcount e.first)
    { x with hbm := writeEntryRows h p k u e.addr })
  let d := setStream d n { st with
    pics := st.pics.drop 1
    inq := innerTake st.inq.entries st.inq
    fcount := st.fcount + BitVec.ofNat 32 e.stripes
    firstDone := true
    fsNext := (st.fsNext + 1) % depth
    entries := st.entries ++ [e] }
  feedEntry (odAdd d (0x2400 + n) 0x27 e.stripes) b n u e false

/-- Feed an entry again (R428), with the outage of the repair at its first frame (Table 17-10). -/
def feedReplay (d : Device) (b n : Nat) (u : UnitBind) (e : FsEntry) : Device :=
  let r := (berthAt d b).repair
  let d := if r.active then odAdd d (0x8020 + b) 5 e.stripes else d
  let d := if r.active && !r.fed then
      odPut (setRepair d b { r with fed := true }) (0x8020 + b) 6 (min ((d.time - r.since) / 100) top32)
    else d
  feedEntry d b n u e true

/-- The feeder may start a frame: not while a hold exists (R316). -/
def feederReady (d : Device) (b : Nat) : Bool :=
  berthLive d b && (berthAt d b).feederOpen && !(berthAt d b).holdFrames && (decide (bstate d b = 2) || decide (bstate d b = 3))

/-- FEEDER_FRAME_START (R355). -/
def feederFrame (d : Device) (b : Nat) : Device :=
  let u := runBind d b
  let d := match nextReplay d b with
    | some (n, e) => feedReplay d b n u e
    | none => match nextPicture d b with
      | some (n, p) => feedNew d b n u p
      | none => d
  repairProgress d b

def execFeederFrameStart (b : Fin 4) (s : State) : Host.Outcome State Fault Refusal :=
  onDev (guarded (fun d => feederReady d b.val) (fun d => onUnits (feederSwitched d b.val) d b.val (feederFrame · b.val))) s

end Sys2Proof.Machine
end

