-- ==== Sys2Proof/Machine/QueueMgr.lean ====
section
/-! DEFINITION. The queue manager and the crop gather unit (R104, R183, R184, R266, R378 to R380). -/

namespace Sys2Proof.Machine

/-! Result records (Tables 15-6 to 15-8) -/

/-- Fields of a frame-header token (Table 14-5). -/
def hCap (p : Payload) : Nat := fld p 255 192
def hRtpts (p : Payload) : Nat := fld p 191 160
def hFcount (p : Payload) : Nat := fld p 159 128
def hStripe (p : Payload) : Nat := fld p 79 72
def hStripes (p : Payload) : Nat := fld p 71 64
def hStream (p : Payload) : Nat := fld p 63 54
def hConcealed (p : Payload) : Bool := bit p 52
def hReplay (p : Payload) : Bool := bit p 51

/-- WTIME − CAPTIME exceeds the deadline (R15). -/
def lateAt (d : Device) (n : Nat) (cap : Nat) : Bool := decide (cap + 100000 * strm d n 0x1A < d.time)

/-- Slot that analyses frames of epoch e. -/
def slotOfEpoch (d : Device) (b : Nat) (e : BitVec 2) : Nat :=
  let c := coOf d b
  if c.active && decide (e = c.epoch) then c.target else runSlot d b

/-- Record header (Table 15-6). -/
def recordHeader (d : Device) (b : Nat) (h : Token) (rerun poisoned : Bool) (rtype live rank : Nat) : Nat :=
  let p := h.data
  let n := hStream p
  rtype + 2 ^ 8 * b2n poisoned + 2 ^ 9 * b2n rerun + 2 ^ 10 * b2n (hReplay p) + 2 ^ 11 * b2n (lateAt d n (hCap p))
    + 2 ^ 12 * b2n (hConcealed p) + 2 ^ 16 * n + 2 ^ 32 * hFcount p + 2 ^ 64 * hStripe p + 2 ^ 72 * hStripes p
    + 2 ^ 80 * rank + 2 ^ 88 * live + 2 ^ 96 * (slotOfEpoch d b h.sb.e % 16) + 2 ^ 100 * h.sb.e.toNat
    + 2 ^ 128 * hCap p + 2 ^ 192 * (d.time % 2 ^ 64)

/-- Detection body: reserved bits as 0 (Table 15-7). -/
def detectionBody (p : Payload) : Nat :=
  fld p 87 0 + 2 ^ 96 * fld p 223 96

/-- Frame body (Table 15-8). -/
def frameBody (d : Device) (b : Nat) (h body : Token) : Nat :=
  let k := slotOfEpoch d b h.sb.e
  fld body.data 63 0 + 2 ^ 64 * hRtpts h.data + 2 ^ 96 * odGet d (0x8810 + b) 2 + 2 ^ 128 * (if k < 4 then (slotAt d b k).imgid.toNat else 0)

/-- Offer one record to the stream's result queue. RESULT_QUEUE and DEADLINE_MS are those in the stream's record at the time of
writing, also while the stream is FREEING: DESIGN CHOICE (assumption log 113). -/
def offerRecord (d : Device) (h : Token) (header body : Nat) : Device :=
  let n := hStream h.data
  offerTo d (strm d n 0x10) (leBytes 32 header ++ leBytes 32 body) (itemKey n (BitVec.ofNat 32 (hFcount h.data)))

/-- Quality bit of a frame (R380). -/
def qualityKey (n : Nat) (f : Nat) : Nat := 4096 * n + f % 4096

/-- Count a stripe's frame record; the last one releases the entry (R260, R379). -/
def stripeDone (d : Device) (n fc stripe stripes : Nat) : Device :=
  let base : U32 := BitVec.ofNat 32 fc - BitVec.ofNat 32 stripe
  if stripe + 1 = stripes then releaseEntry d n base
  else match (streamAt d n).entries.find? (fun e => e.fcount = base) with
    | none => d
    | some e => putEntry d n { e with recorded := stripe + 1 }

/-- RESULT_FRAME (R378): the records of the frame at the head of the result queues. -/
def resultFrame (d : Device) (b : Nat) : Device :=
  let u := runBind d b
  match (endAt d u.resHeader).tokens.head? with
  | none => d
  | some h =>
    let bodies := (endAt d u.resBody).tokens.take (u.resSlots + 1)
    let n := hStream h.data
    let qk := qualityKey n (hFcount h.data)
    let rerun := Tab.get false d.quality qk
    let det := (bodies.take u.resSlots).zipIdx.filter (fun p => p.1.sb.v)
    let d := det.foldl (fun d p =>
      offerRecord d h (recordHeader d b h rerun (p.1.sb.p || h.sb.p) 1 0 p.2) (detectionBody p.1.data)) d
    let fb := bodies.getD u.resSlots {}
    let d := offerRecord d h (recordHeader d b h rerun (fb.sb.p || h.sb.p) 2 det.length 0) (frameBody d b h fb)
    let d := { d with quality := Tab.erase d.quality qk }
    let d := consumeEnd (consumeEnd d u.resHeader 1) u.resBody (u.resSlots + 1)
    pokeSwitch (repairProgress (stripeDone d n (hFcount h.data) (hStripe h.data) (hStripes h.data)) b) b

def execResultFrame (b : Fin 4) (s : State) : Host.Outcome State Fault Refusal :=
  onDev (fun d => onUnits (managerSwitched d b.val) d b.val (guarded (fun d =>
      let u := runBind d b.val
      !(endAt d u.resHeader).tokens.isEmpty && decide (u.resSlots + 1 ≤ (endAt d u.resBody).tokens.length))
    (fun d => resultFrame d b.val))) s

/-! Feature items (R266, Table 11-1) -/

/-- First tap end that has a scale token or a whole unit at its head. -/
def readyTap (d : Device) (u : UnitBind) : Option (Nat × Nat × Nat) :=
  u.taps.find? (fun t => match (endAt d t.1).tokens with
    | [] => false
    | x :: xs => if x.sb.s then decide (t.2.2 ≤ xs.length) else decide (t.2.2 ≤ xs.length + 1))

/-- Take the frame's scale token off a tap's head. -/
def tapScaleToken (d : Device) (b k : Nat) : Device :=
  match (endAt d k).tokens.head? with
  | none => d
  | some x =>
    if x.sb.s then
      consumeEnd (modBerth d b (fun y => { y with adapt := { y.adapt with
        tapScale := Tab.set y.adapt.tapScale k x.data
        tapIndex := Tab.set y.adapt.tapIndex k 0 } })) k 1
    else d

/-- Feature header (Table 11-1). -/
def featureHeader (d : Device) (b tid ts slot f stream : Nat) : Nat :=
  let a := (berthAt d b).adapt
  let k := (berthAt d b).unitSlot.getD (runSlot d b)
  let img := if k < 4 then (slotAt d b k).imgid.toNat % 2 ^ 64 else 0
  2 ^ 8 * ts + 2 ^ 16 * b + 2 ^ 18 * (stream % 1024) + 2 ^ 28 * f + 2 ^ 40 * (slot % 256) + 2 ^ 48 * tid
    + 2 ^ 160 * a.featureSeq.toNat + 2 ^ 192 * img

/-- Write the feature item of the unit at the head of a tap, or take a masked unit. -/
def featureItem (d : Device) (b : Nat) (t : Nat × Nat × Nat) : Device :=
  let (k, tid, ts) := t
  let d := tapScaleToken d b k
  let a := (berthAt d b).adapt
  let unit := (endAt d k).tokens.take ts
  let head := unit.headD {}
  let slot := Tab.get 0 a.tapIndex k
  let scale := Tab.get 0 a.tapScale k
  let stream := stStream scale
  let d := consumeEnd d k ts
  let d := modBerth d b (fun y => { y with adapt := { y.adapt with tapIndex := Tab.set y.adapt.tapIndex k (slot + 1) } })
  let q := odGet d (0x8800 + b) 3
  if head.sb.v && decide (q < 16384) then
    let key := match entryOf d stream head.sb.f with
      | none => (0 : U64)
      | some e => itemKey stream (stripeFcount e head.sb.f)
    let item := leBytes 32 (featureHeader d b tid ts slot head.sb.f.toNat stream) ++ leBytes 32 scale.toNat
      ++ unit.flatMap (fun x => leBytes 32 x.data.toNat)
    offerTo (modBerth d b (fun y => { y with adapt := { y.adapt with featureSeq := y.adapt.featureSeq + 1 } })) q item key
  else d

/-- FEATURE_ITEM. -/
def execFeatureItem (b : Fin 4) (s : State) : Host.Outcome State Fault Refusal :=
  onDev (fun d => onUnits (managerSwitched d b.val) d b.val (fun d => match readyTap d (runBind d b.val) with
    | none => d
    | some t => pokeSwitch (featureItem d b.val t) b.val)) s

/-- RERUN_POST (R104): the oldest post of the berth sets the frame's quality bit, and its acknowledgement goes back. -/
def execRerunPost (b : Fin 4) (s : State) : Host.Outcome State Fault Refusal :=
  onDev (fun d => match (berthAt d b.val).reruns with
    | [] => d
    | (key, ctx, stream, f) :: rest =>
      let d := { d with quality := Tab.set d.quality (qualityKey stream f) true }
      modBerth d b.val (fun x => { x with reruns := rest, rerunAcks := x.rerunAcks ++ [(key, ctx)] })) s

/-! Crop gather (R183, R184, Table 7-10) -/

/-- Position in 1/256 pixel of output index i of `o`, for edges e0 and e1 in quarter pixels. -/
def cropPos (e0 e1 : Int) (o i : Nat) : Int := rneDiv (32 * (e0 * 2 * o + (2 * (i : Int) + 1) * (e1 - e0) - 4 * o)) o

def cropFill (s : Int) (w : Nat) : Bool := decide (s < -128) || decide (256 * (w : Int) - 128 < s)
def clampPix (w : Nat) (i : Int) : Nat := (clampI 0 ((w : Int) - 1) i).toNat

/-- Addresses of the pixels TL, TR, BL and BR of a sample; none for a fill sample. -/
def gatherReads (e : FsEntry) (s : Int × Int) : List Nat :=
  if cropFill s.1 e.width || cropFill s.2 e.height then []
  else
    let xs := [clampPix e.width (s.1 / 256), clampPix e.width (s.1 / 256 + 1)]
    let ys := [clampPix e.height (s.2 / 256), clampPix e.height (s.2 / 256 + 1)]
    ys.flatMap (fun y => xs.map (fun x => e.addr + 64 + y * fsPitch e.width + 3 * x))

/-- One gather sample: 128 bits, and whether it reads damaged HBM. A fill sample has its weights and no pixels. -/
def gatherOne (h : Hbm) (e : FsEntry) (s : Int × Int) : Nat × Bool :=
  let as_ := gatherReads e s
  (leNat (as_.flatMap (fun a => memReadBytes h.mem a 3)) + 2 ^ 96 * (s.1 % 256).toNat + 2 ^ 104 * (s.2 % 256).toNat + 2 ^ 112 * b2n as_.isEmpty,
    as_.any (fun a => hbmBad h a 3))

/-- Positions of the samples of a box, in raster order. -/
def gatherPlaces (slot : Payload) (ow oh : Nat) : List (Int × Int) :=
  (List.range (ow * oh)).map (fun i =>
    (cropPos (sfld slot 15 0) (sfld slot 47 32) ow (i % ow), cropPos (sfld slot 31 16) (sfld slot 63 48) oh (i / ow)))

/-- The gather tokens of a live box: two samples each, in raster order. -/
def gatherTokens (h : Hbm) (e : FsEntry) (slot : Payload) (ow oh : Nat) : List (Payload × Bool) :=
  let ps := gatherPlaces slot ow oh
  (List.range (ow * oh / 2)).map (fun k =>
    let a := gatherOne h e (ps.getD (2 * k) (0, 0))
    let c := gatherOne h e (ps.getD (2 * k + 1) (0, 0))
    (BitVec.ofNat 256 (a.1 + 2 ^ 128 * c.1), a.2 || c.2))

/-- Stream of a box-slot token (Table 7-9). -/
def slotStream (p : Payload) : Nat := fld p 169 160

/-- The crop gather unit hands a mark on, behind the last gather of its input (R309). -/
def cropMarks (d : Device) (b k : Nat) : Device :=
  let u := runBind d b
  let e := endAt d k
  if e.mark && e.tokens.isEmpty then
    let d := sendMarks (setEnd d k { e with mark := false }) [u.cropA, u.cropB] (unitEpoch d b) e.markEpoch
    pokeSwitch (setCo d b { coOf d b with cropSwitched := true }) b
  else d

/-- CROP_GATHER (R183): forward the slot token and send its gather tokens. -/
def cropGather (d : Device) (b k : Nat) : Device :=
  let u := runBind d b
  match (endAt d k).tokens.head? with
  | none => d
  | some t =>
    let d := consumeEnd d k 1
    let d := sendEnd d u.cropA [t]
    let n := u.cropW * u.cropH / 2
    let raw := match t.sb.v, entryOf d (slotStream t.data) t.sb.f with
      | true, some e => gatherTokens (berthAt d b).hbm e t.data u.cropW u.cropH
      | _, _ => List.replicate n (0, false)
    let d := match t.sb.v, entryOf d (slotStream t.data) t.sb.f with
      | true, some e => ((gatherPlaces t.data u.cropW u.cropH).flatMap (gatherReads e)).foldl (fun d a => hbmRangeNote d b a 3) d
      | _, _ => d
    sendEnd d u.cropB (raw.zipIdx.map (fun p => ({ data := p.1.1, sb := { t.sb with p := p.1.2, l := t.sb.l && decide (p.2 + 1 = n) } } : Token)))

def execCropGather (b : Fin 4) (s : State) : Host.Outcome State Fault Refusal :=
  onDev (fun d => onUnits (cropSwitched d b.val) d b.val (fun d => match (runBind d b.val).cropIn with
    | none => d
    | some k => cropMarks (cropGather d b.val k) b.val k)) s

end Sys2Proof.Machine
end

