-- ==== Sys2Proof/Machine/Router.lean ====
section
/-! DEFINITION. The router mesh (R43 to R49, R218, R308, R309): a flit crosses one hop or reaches its ring, credits reach their
output queue, an epoch mark reaches its input queue. -/

namespace Sys2Proof.Machine

/-- Where the flits wait that arrive at the router of a position by one of its ports. -/
inductive FlitSource where
  /-- Output port `p` of the tile with key `k`. -/
  | tile (k p : Nat)
  /-- The station of the column. -/
  | station (n : Nat)
  | nowhere
  deriving DecidableEq, Repr, Inhabited

/-- Sending end of a port (R43): a neighbour's output, the station north of row 0, or the core that serves the position, which
is the spare's behind a router in relay mode (R49). -/
def flitSource (d : Device) (t : TileId) : Port → FlitSource
  | .north => if t.row.val = 0 then .station (20 * t.b.val + t.col.val) else .tile (tileKey t.col.val (t.row.val - 1)) 2
  | .south => if t.row.val = 19 then .nowhere else .tile (tileKey t.col.val (t.row.val + 1)) 0
  | .east => if t.col.val = 19 then .nowhere else .tile (tileKey (t.col.val + 1) t.row.val) 3
  | .west => if t.col.val = 0 then .nowhere else .tile (tileKey (t.col.val - 1) t.row.val) 1
  | .core => .tile (keyOf d t) 4
  | .lane => .tile (tileKey t.col.val t.row.val) 5

def sourceFlits (d : Device) (b : Nat) : FlitSource → List Flit
  | .tile k p => (Tab.get {} (tileAt d b k).ports p).queue
  | .station n => Tab.get [] d.toTile n
  | .nowhere => []

/-- Take the head flit away from its sending end; its failures end. A station's sender counts them at row 0 of its column. -/
def takeFlit (d : Device) (b : Nat) : FlitSource → Device
  | .tile k p => modTile d b k (fun t => { t with ports := Tab.modify {} t.ports p (fun r => { r with queue := r.queue.drop 1, fails := 0 }) })
  | .station n => modTile { d with toTile := Tab.modify [] d.toTile n (List.drop 1) } b (tileKey (n % 20) 0)
      (fun t => { t with ports := Tab.modify {} t.ports 6 (fun r => { r with fails := 0 }) })
  | .nowhere => d

/-- The outputs of the source count one more failure; 8 in a row raise the router link fault, blamed on the sending router
and its direction (R46, Table 17-3). A station's own sender is named as direction N of row 0, the relay lane as direction 4
(assumption log 108). -/
def failFlit (d : Device) (t : TileId) (src : FlitSource) : Device :=
  let b := t.b.val
  let d := modTile d b (tileKey t.col.val t.row.val) (fun x => { x with retries := x.retries + 1 })
  let blame := fun (k dir : Nat) => tag 1 b (1024 * min dir 4 + 32 * (k / 32) + logicalRow d b k)
  match src with
  | .tile k p =>
    let n := (Tab.get {} (tileAt d b k).ports p).fails + 1
    let d := modTile d b k (fun x => { x with ports := Tab.modify {} x.ports p (fun r => { r with fails := n, faulted := r.faulted || decide (8 ≤ n) }) })
    if n = 8 then berthReport d b 6 (blame k p) (tileTag b t.col.val t.row.val) 0 else d
  | .station _ =>
    let k := tileKey t.col.val t.row.val
    let n := (Tab.get {} (tileAt d b k).ports 6).fails + 1
    let d := modTile d b k (fun x => { x with ports := Tab.modify {} x.ports 6 (fun r => { r with fails := n, faulted := r.faulted || decide (8 ≤ n) }) })
    if n = 8 then berthReport d b 6 (blame k 0) (tileTag b t.col.val t.row.val) 0 else d
  | .nowhere => d

/-- Column and row that a flit is bound for (R44, R218). -/
def flitCol (f : Flit) : Nat := if f.shut then epStation f.dest else fld f.dest 13 9
def flitRow (f : Flit) : Nat := if f.shut then 0 else fld f.dest 8 4

/-- Output port: along the row first, then along the column; none at the destination tile (R44). -/
def routePort (col row : Nat) (f : Flit) : Option Nat :=
  if col < flitCol f then some 1
  else if flitCol f < col then some 3
  else if row < flitRow f then some 2
  else if flitRow f < row then some 0
  else none

/-- Plane of a tile whose epoch is live and equal to a flit's E (R308). -/
def epochPlane (t : Tile) (e : BitVec 2) : Option Nat :=
  (t.planes.find? (fun p => p.2.live && decide (p.2.epoch = e))).map (·.1)

/-- QID and kind of the record of a stale flit (R493): the identity that a live plane gives the ring, else its endpoint. -/
def staleQueue (t : Tile) (f : Flit) : Nat × Nat :=
  match t.planes.find? (fun p => p.2.live && (p.2.iq.any (fun q => q.1 = f.dest.toNat % 16))) with
  | some p => ((iqAt p.2 (f.dest.toNat % 16)).qid, 0)
  | none => (f.dest.toNat, 3)

/-- Discard a flit of a stale epoch (R308): counted in object 0x3010 + b:09 and logged. -/
def staleDiscard (d : Device) (b qid qkind : Nat) (f : BitVec 12) : Device :=
  addDiscard (odAdd d (0x3010 + b) 9 1) { qid := qid, berth := b, cause := 4, f := f.toNat, qkind := qkind, count := 1 }

/-- A flit reaches its tile: into the ring of the plane of its epoch (R308). -/
def deliverTile (d : Device) (b key : Nat) (f : Flit) : Device :=
  let t := tileAt d b key
  match epochPlane t f.tok.sb.e with
  | some k => arriveToken d b key k (f.dest.toNat % 16) f.tok
  | none => let q := staleQueue t f; staleDiscard d b q.1 q.2 f.tok.sb.f

/-- Epochs live in a berth (R308). -/
def epochLive (d : Device) (b : Nat) (e : BitVec 2) : Bool :=
  (decide (runSlot d b < 4) && decide (berthEpoch d b = e.toNat))
    || ((coOf d b).active && decide (2 ≤ (coOf d b).stage) && decide ((coOf d b).epoch = e))

/-- QID and kind of the record of a stale flit at a station port (R493): the queue that the running image names there, else the
endpoint. -/
def stalePort (d : Device) (pk : Nat) (dest : BitVec 14) : Nat × Nat :=
  let sp := portAt d pk
  if sp.valid then (if sp.link then sp.uend.qid else (endAt d pk).qid, 0) else (32768 + dest.toNat, 3)

/-- A flit goes into its station: to the unit end of a pass port, or to a link endpoint's sender (R209, R218, R219). -/
def enterStation (d : Device) (b : Nat) (f : Flit) : Device :=
  byEpoch d b f.tok.sb.e (fun d =>
  let pk := epKey f.dest
  let sp := portAt d pk
  if !sp.valid || !epochLive d b f.tok.sb.e then
    staleDiscard d b (stalePort d pk f.dest).1 (stalePort d pk f.dest).2 f.tok.sb.f
  else if sp.link then
    if isMark f.tok then setPort d pk { sp with fin := { sp.fin with mark := some (markNew f.tok) } }
    else setPort d pk { sp with
      fin := { sp.fin with buf := sp.fin.buf ++ [f.tok] }
      uend := { sp.uend with received := sp.uend.received + 1 } }
  else sendShuttle d { data := f.tok.data, sb := f.tok.sb, src := f.dest, dest := sp.peer })

/-- The router of the position relays its local port to the spare (R49). -/
def relayed (d : Device) (t : TileId) : Bool := (tileAt d t.b.val (tileKey t.col.val t.row.val)).relay

/-- The flit is at its own tile: behind the relay lane where there is one. -/
def atTile (d : Device) (t : TileId) (p : Port) (f : Flit) : Bool :=
  (routePort t.col.val t.row.val f).isNone && !f.shut && (decide (p = .lane) || !relayed d t)

/-- Put a flit on a sending port of a position's router. -/
def queueFlit (d : Device) (t : TileId) (o : Nat) (f : Flit) : Device :=
  modTile d t.b.val (tileKey t.col.val t.row.val) (fun x => { x with ports := Tab.modify {} x.ports o (fun r => { r with queue := r.queue ++ [f] }) })

/-- A good flit moves on: to the next hop, into the station, into the ring of its tile, or down the relay lane. -/
def routeFlit (d : Device) (t : TileId) (p : Port) (f : Flit) : Device :=
  match routePort t.col.val t.row.val f with
  | some o => queueFlit d t o f
  | none =>
    if f.shut then enterStation d t.b.val f
    else if atTile d t p f then deliverTile d t.b.val (keyOf d t) f
    else queueFlit d t 5 f

/-- An epoch mark that has reached its tile is EPOCH_MARK_RECEIVE's. -/
def localMark (d : Device) (t : TileId) (p : Port) (f : Flit) : Bool := atTile d t p f && isMark f.tok

/-! Round-robin service of an output (R45) -/

def inputPorts : List Port := [.north, .east, .south, .west, .core, .lane]
def portNo (p : Port) : Nat := inputPorts.idxOf p

/-- Output that the head flit of an input asks for: 0 to 3, or 4 toward the core or the lane; none for a mark at its tile. -/
def headOutput (d : Device) (t : TileId) (p : Port) : Option Nat :=
  match sourceFlits d t.b.val (flitSource d t p) with
  | [] => none
  | f :: _ =>
    if localMark d t p f then none
    else if f.shut && (routePort t.col.val t.row.val f).isNone then some 0
    else some ((routePort t.col.val t.row.val f).getD 4)

/-- Input that output o served last. -/
def lastServed (d : Device) (t : TileId) (o : Nat) : Nat := Tab.get 5 (tileAt d t.b.val (tileKey t.col.val t.row.val)).served o

/-- Inputs that come before input p in the turn that starts behind the input served last. -/
def inputsBefore (last p : Nat) : List Nat := ((List.range 6).map (fun i => (last + 1 + i) % 6)).takeWhile (fun n => n ≠ p)

/-- It is this input's turn: no input before it has a flit for the same output. -/
def portTurn (d : Device) (t : TileId) (p : Port) : Bool :=
  match headOutput d t p with
  | none => true
  | some o => (inputsBefore (lastServed d t o) (portNo p)).all (fun n => decide (headOutput d t (inputPorts.getD n .lane) ≠ some o))

/-- The output has served the input. -/
def servePort (d : Device) (t : TileId) (p : Port) : Device :=
  match headOutput d t p with
  | none => d
  | some o => modTile d t.b.val (tileKey t.col.val t.row.val) (fun x => { x with served := Tab.set x.served o (portNo p) })

/-- FLIT_RECEIVE: the flit from the tile's own core crosses no link, so `err` plays no part there, but that of a spare comes up the
relay lane. A good mark at its tile stays for EPOCH_MARK_RECEIVE. -/
def flitReceive (d : Device) (t : TileId) (p : Port) (err : BitVec 296) : Device :=
  let src := flitSource d t p
  match sourceFlits d t.b.val src with
  | [] => d
  | f :: _ =>
    let g := if p = .core ∧ !relayed d t then f else flitErr f err
    if !flitGood g then failFlit d t src
    else if localMark d t p f || !portTurn d t p then d
    else routeFlit (takeFlit (servePort d t p) t.b.val src) t p { g with shut := f.shut }

def execFlitReceive (t : TileId) (p : Port) (err : BitVec 296) (s : State) : Host.Outcome State Fault Refusal :=
  onDev (guarded (fun d => berthLive d t.b.val) (fun d => flitReceive d t p err)) s

/-! Marks (R309) -/

/-- A mark is noted on the input queue that it addresses, in the plane of its epoch. -/
def noteMark (t : Tile) (f : Flit) : Tile :=
  match epochPlane t f.tok.sb.e with
  | none => t
  | some k =>
    let p := planeAt t k
    let iq := f.dest.toNat % 16
    setPlane t k (setIq p iq { iqAt p iq with mark := true, markEpoch := markNew f.tok })

def execEpochMarkReceive (t : TileId) (p : Port) (s : State) : Host.Outcome State Fault Refusal :=
  onDev (fun d =>
    let b := t.b.val
    let src := flitSource d t p
    match sourceFlits d b src with
    | [] => d
    | f :: _ => if localMark d t p f && flitGood f && berthLive d b then modTile (takeFlit d b src) b (keyOf d t) (fun x => noteMark x f) else d) s

/-! Credits (R43, R200, R308) -/

/-- A context whose head step fills output queue oq waits anew (R426). -/
def restartCredit (cto oq : Nat) (p : Plane) : Plane :=
  { p with ctx := List.map (fun (x : Nat × Context) =>
      if wOq (stepAt p x.2.ptr) = oq then (x.1, { x.2 with waitFrom := cto }) else x) p.ctx }

/-- The plane whose output queue has a credit message: the running one first. -/
def creditPlane (t : Tile) (oq : Nat) : Option Nat :=
  if !(oqAt (planeAt t t.run) oq).creditIn.isEmpty then some t.run
  else (t.planes.find? (fun p => !(oqAt p.2 oq).creditIn.isEmpty)).map (·.1)

/-- The oldest credit message lands in CRED and ACCEPTED. -/
def takeCredit (cto oq : Nat) (t : Tile) : Tile :=
  match creditPlane t oq with
  | none => t
  | some k =>
    let p := planeAt t k
    let q := oqAt p oq
    let n := q.creditIn.headD 0
    setPlane t k (restartCredit cto oq (setOq p oq { q with
      cred := q.cred + n
      accepted := inc32 q.accepted n
      creditIn := q.creditIn.drop 1 }))

def execCreditReceive (t : TileId) (oq : Fin 16) (s : State) : Host.Outcome State Fault Refusal :=
  onDev (guarded (fun d => berthLive d t.b.val) (fun d =>
    let b := t.b.val
    modBerth (modTile d b (keyOf d t) (takeCredit (berthAt d b).cto oq.val)) b (fun x => { x with idleSince := d.time }))) s

end Sys2Proof.Machine
end

