-- ==== Sys2Proof/Machine/Shuttle.lean ====
section
/-! DEFINITION. The shuttle (R216 to R230) and the link semaphores (R209 to R211): a link direction sends and receives one flit,
a gangway lane switches to the spare, stations forward credits, units and FREED values, timetables change. -/

namespace Sys2Proof.Machine

/-! Sending (R224) -/

/-- Receive buffer places of a class: 4 for a flow tag, 16 light, 8 background (R221). -/
def classRoom (cls : Nat) : Nat := if cls = 256 then 16 else if cls = 257 then 8 else 4
def classUsed (l : Link) (cls : Nat) : Nat := Tab.get 0 l.used cls
def hasRoom (l : Link) (cls : Nat) : Bool := decide (classUsed l cls < classRoom cls)
def flowQueue (l : Link) (tg : Nat) : List Waiting := Tab.get [] l.queues tg
def flowReady (l : Link) (tg : Nat) : Bool := !(flowQueue l tg).isEmpty && hasRoom l tg

/-- Flow that is lent a slot: the first ready one after the one last lent to. -/
def lendTag (l : Link) : Option Nat := ((List.range 256).map (fun i => (l.lent + 1 + i) % 256)).find? (flowReady l)

/-- Flow that owns the present slot, 0 for none: on a shared link direction slot s is of berth s mod 4 (R226). -/
def slotOwner (key : Nat) (l : Link) : Nat :=
  let tg := Tab.get 0 l.tt l.lap.toNat
  if tg ≠ 0 ∧ linkShared key then 64 * (l.lap.toNat % 4) + tg else tg

/-- Flits of the retry buffer: 64 on a gangway lane, 8 elsewhere (R222, R229). -/
def retryRoom (key : Nat) : Nat := if 200 ≤ key ∧ key < 240 then 64 else 8

/-- The retry buffer holds every flit that the receiver has not acknowledged: a new flit needs a place in it. -/
def retryFull (key : Nat) (l : Link) : Bool := decide (retryRoom key ≤ l.wire.length + l.retry.length)

/-- What a link direction sends in this slot (R224). -/
inductive SlotChoice where
  | retry | flow (tg : Nat) | light | background | lend (tg : Nat) | nothing
  deriving DecidableEq, Repr, Inhabited

def slotChoice (key : Nat) (l : Link) : SlotChoice :=
  let owner := slotOwner key l
  if l.quiesced then .nothing
  else if !l.retry.isEmpty then .retry
  else if retryFull key l then .nothing
  else if decide (owner ≠ 0) && flowReady l owner then .flow owner
  else if !l.light.isEmpty && hasRoom l 256 then .light
  else if decide (owner = 0) && !l.bg.isEmpty && hasRoom l 257 then .background
  else match lendTag l with
    | some t => .lend t
    | none => .nothing

/-- A flit leaves: it takes a place in the receive buffer and is on the wire. -/
def putOnWire (l : Link) (w : Waiting) (cls : Nat) : Link :=
  { l with
    wire := l.wire ++ [(w.flit, cls)]
    used := Tab.set l.used cls (classUsed l cls + 1) }

/-- The place that a flit held in the receive buffer of the link it came by is free again (R221). -/
def freePlace (d : Device) (w : Waiting) : Device :=
  if w.via = 0 then d
  else setLink d (w.via - 1) { linkAt d (w.via - 1) with
    used := Tab.set (linkAt d (w.via - 1)).used w.cls (classUsed (linkAt d (w.via - 1)) w.cls - 1) }

def sendFlow (d : Device) (key tg : Nat) (lent : Bool) : Device :=
  let l := linkAt d key
  match flowQueue l tg with
  | [] => d
  | w :: ws =>
    let l := putOnWire { l with queues := Tab.set l.queues tg ws } w tg
    freePlace (setLink d key (if lent then { l with lent := tg } else l)) w

/-- One slot of a link direction, without the lap counter. -/
def sendSlot (d : Device) (key : Nat) : Device :=
  let l := linkAt d key
  match slotChoice key l with
  | .retry => setLink d key { l with
      wire := l.wire ++ l.retry.take 1
      retry := l.retry.drop 1
      retries := l.retries + 1 }
  | .flow tg => sendFlow d key tg false
  | .lend tg => sendFlow d key tg true
  | .light =>
    match l.light with
    | [] => d
    | w :: ws => freePlace (setLink d key (putOnWire { l with light := ws } w 256)) w
  | .background =>
    match l.bg with
    | [] => d
    | w :: ws => freePlace (setLink d key (putOnWire { l with bg := ws } w 257)) w
  | .nothing => d

/-- The link's clock runs: a station link needs its berth's. -/
def linkLive (d : Device) : LinkDir → Bool
  | .stationUp b _ => berthLive d b.val
  | .stationDown b _ => berthLive d b.val
  | _ => d.power.fabric && decide (mstate d = 0)

def execShuttleSlotSend (l : LinkDir) (s : State) : Host.Outcome State Fault Refusal :=
  onDev (guarded (fun d => linkLive d l) (fun d =>
    let d := sendSlot d (linkKey l)
    setLink d (linkKey l) { linkAt d (linkKey l) with lap := (linkAt d (linkKey l)).lap + 1 })) s

/-! Link endpoints (R209 to R211) -/

def modFin (d : Device) (pk : Nat) (f : LinkEnd → LinkEnd) : Device := setPort d pk { portAt d pk with fin := f (portAt d pk).fin }

/-- Folsa port and channel that a station port's linked queue crosses (R327). -/
def folsaOf (d : Device) (pk : Nat) : Option (Nat × Nat) :=
  ([0, 1] : List Nat).findSome? (fun p => ((folsaAt d p).channels.find? (fun c => c.2.used && decide (c.2.port = pk))).map (fun c => (p, c.1)))

/-- Endpoint of Folsa port p (Table 16-2). -/
def folsaEp (p : Nat) : BitVec 14 := epUnitOf p 68

/-- Where a link endpoint's flits go: its peer, or the Folsa port of its channel. -/
def linkPeer (d : Device) (pk : Nat) : BitVec 14 :=
  if (portAt d pk).fin.kind = 2 then ((folsaOf d pk).map (fun c => folsaEp c.1)).getD 0 else (portAt d pk).fin.peer

/-- The link sequence fault (R211): blame and reporter are the receiving endpoint. -/
def sequenceFault (d : Device) (pk : Nat) : Device :=
  let d := modFin d pk (fun e => { e with seqerr := min (e.seqerr + 1) 65535 })
  let tg := tag 7 (pk / 1280) (keyEp pk).toNat
  berthReport d (pk / 1280) 19 tg tg 0

/-- Hand a token to the tile that an inbound port feeds. -/
def toTileFlit (d : Device) (pk : Nat) (t : Token) : Device :=
  let sp := portAt d pk
  let f := makeFlit t false (tileDest sp.dcol sp.drow sp.diq)
  { d with toTile := Tab.modify [] d.toTile (20 * (pk / 1280) + pk / 64 % 20) (fun q => q ++ [f]) }

/-- Bits [15:0] of FILLED as they are once the units taken so far are in the ring: the stamp of the next token's unit (R211). -/
def nextStamp (e : LinkEnd) : Nat := (e.filled.toNat + e.taken / 2 ^ e.grain) % 65536

/-- A token of a unit that is not written: the unit's first one raises the fault. -/
def dropUnit (d : Device) (pk : Nat) : Device :=
  let e := (portAt d pk).fin
  let d := if e.dropped = 0 then sequenceFault d pk else d
  modFin d pk (fun e => { e with dropped := (e.dropped + 1) % 2 ^ e.grain })

/-- A receiver gets one token of a unit: the stamp is checked and the token goes on to its ring, where FILLED counts it (R210). On a
Folsa link the port has checked the stamp (R328). -/
def receiveUnit (d : Device) (pk : Nat) (f : ShFlit) : Device :=
  let e := (portAt d pk).fin
  let tok : Token := { data := f.data, sb := f.sb }
  if isMark tok then toTileFlit d pk tok
  else if e.kind ≠ 2 ∧ f.stamp.toNat ≠ nextStamp e then dropUnit d pk
  else
    let d := toTileFlit d pk tok
    let sp := portAt d pk
    setPort d pk { sp with
      fin := { sp.fin with taken := sp.fin.taken + 1 }
      uend := { sp.uend with
        cred := sp.uend.cred - 1
        produced := sp.uend.produced + 1 } }

/-- Credits for the output queue of the running tiles that feeds a station port. -/
def creditStation (d : Device) (pk n : Nat) : Device :=
  let b := pk / 1280
  let k := (portAt d pk).slot
  let give := fun (q : OutQueue) =>
    if q.shut && decide (q.dest = keyEp pk) then { q with creditIn := q.creditIn ++ creditMessages n } else q
  let tile := fun (t : Tile) =>
    let p := planeAt t k
    if p.oq.any (fun q => q.2.shut && decide (q.2.dest = keyEp pk)) then setPlane t k { p with oq := Tab.map give p.oq } else t
  modBerth d b (fun x => { x with tiles := Tab.map tile x.tiles })

/-! Delivery -/

/-- A flit for a station: tokens toward the tile; from the port's peer, credits toward a producer or a FREED value (R210, R219). Another
light flit is the answer that a requester at the port asked for (R257). -/
def deliverStation (d : Device) (f : ShFlit) : Device :=
  let pk := epKey f.dest
  let sp := portAt d pk
  if !sp.valid then
    (if f.typ = 0 then staleDiscard d (pk / 1280) (32768 + f.dest.toNat) 3 f.sb.f else d)
  else if f.typ = 0 then
    (if sp.link then receiveUnit d pk f else toTileFlit d pk { data := f.data, sb := f.sb })
  else if decide (f.src ≠ if sp.link then linkPeer d pk else sp.peer) then d
  else if sp.link then modFin d pk (fun e => { e with freedIn := e.freedIn ++ [BitVec.ofNat 32 f.data.toNat] })
  else creditStation d pk (f.data.toNat % 4294967296)

/-- Bytes of a SEM record (Table 13-3). -/
def semRecord (ch : Nat) (freed filled : U32) : List Byte :=
  sliceBytes ([2, BitVec.ofNat 8 ch, 0, 0] ++ leBytes 4 freed.toNat ++ leBytes 4 filled.toNat) 0 32

/-- A flit for a Folsa port: a token of a linked queue waits for a slot, with its unit's stamp where it starts one; a FREED
value becomes a SEM record (R328, R329). -/
def deliverFolsa (d : Device) (p : Nat) (f : ShFlit) : Device :=
  let pk := epKey f.src
  match folsaOf d pk with
  | none => d
  | some (q, ch) =>
    let x := folsaAt d q
    let c := Tab.get {} x.channels ch
    if q ≠ p then d
    else if f.typ = 1 then
      setFolsa d p { x with control := x.control ++ [semRecord ch (BitVec.ofNat 32 f.data.toNat) (portAt d pk).fin.filled] }
    else
      let tok : Token := { data := f.data, sb := f.sb }
      let per := 2 ^ (portAt d pk).fin.grain
      let c := if isMark tok then { c with queue := c.queue ++ [(tok, none)] }
        else { c with
          queue := c.queue ++ [(tok, if c.txIndex = 0 then some f.stamp else none)]
          txIndex := (c.txIndex + 1) % per }
      setFolsa d p { x with channels := Tab.set x.channels ch c }

/-- A flit for a memory-side unit (R219, R231, R308). -/
def deliverUnit (d : Device) (f : ShFlit) : Device :=
  let pk := epKey f.src
  let u := endAt d pk
  let tok : Token := { data := f.data, sb := f.sb }
  let b := pk / 1280
  if epUnit f.dest = 68 then deliverFolsa d (epDomain f.dest - 4) f
  else if f.typ = 0 then
    if !u.valid || !epochLive d b f.sb.e then staleDiscard d b (if u.valid then u.qid else 32768 + f.dest.toNat) (if u.valid then 0 else 3) f.sb.f
    else if isMark tok then
      let d := setEnd d pk { u with
        mark := true
        markEpoch := markNew tok }
      pokeSwitch (if (runBind d b).cropIn = some pk then cropMarks d b pk else d) b
    else setEnd d pk { u with
      tokens := u.tokens ++ [tok]
      received := u.received + 1 }
  else if f.typ = 1 && u.valid then
    let n := f.data.toNat % 4294967296
    pumpEnd u.tokens.length (setEnd d pk { u with
      cred := u.cred + n
      accepted := inc32 u.accepted n
      waiting := false }) pk
  else d

/-- A flit meets the configuration of its epoch (R308): at its station, or at the unit that its station's queue leads to. -/
def deliverFlit (d : Device) (f : ShFlit) : Device :=
  byEpoch d (if epIsStation f.dest then epDomain f.dest else epDomain f.src) f.sb.e (fun d =>
    if epIsStation f.dest then deliverStation d f else deliverUnit d f)

/-! Receiving (R222, R229) -/

/-- Outer end of a link direction, as its fault is named: its station or unit. -/
def linkEndpoint : LinkDir → Nat × BitVec 14
  | .stationUp b s => (b.val, epOf b.val s.val 0)
  | .stationDown b s => (b.val, epOf b.val s.val 0)
  | .unitUp die u => (0, epUnitOf die.val u.val)
  | .unitDown die u => (0, epUnitOf die.val u.val)
  | .lane _ _ => (0, 0)

/-- A lane fails for the 16th time in a row: the first lane of the module goes over to the spare (R229). -/
def laneFail (d : Device) (from1 : Bool) (n : Nat) : Device :=
  let key := 200 + 20 * b2n from1 + n
  if d.spareUsed then
    report (setLink d key { linkAt d key with faulted := true }) 0x082 (tag 3 0 n) (tag 3 0 n) 0
  else
    let quiet := fun (d : Device) (k : Nat) => setLink d k { linkAt d k with quiesced := true }
    let d := quiet (quiet d (200 + n)) (220 + n)
    report { d with spareUsed := true, laneSwitch := some (32 * b2n from1 + n) } 0x081 (tag 3 0 n) (tag 3 0 n) 0

/-- A CRC failure: the flit and every later one on the wire will be sent again. The 16 consecutive failures of R229 are counted
for each lane direction apart: DESIGN CHOICE (assumption log 114). -/
def failShuttle (d : Device) (l : LinkDir) : Device :=
  let key := linkKey l
  let x := linkAt d key
  let n := x.fails + 1
  let d := setLink d key { x with
    retry := x.wire ++ x.retry
    wire := []
    fails := n }
  match l with
  | .lane from1 i => if n = 16 then laneFail d from1 i.val else d
  | _ =>
    if n = 8 then
      let e := linkEndpoint l
      report (setLink d key { linkAt d key with faulted := true }) 0x080 (tag 2 e.1 e.2.toNat) (tag 2 e.1 e.2.toNat) 0
    else d

/-- A good flit of a class: on to the next link of its path, or to its destination, which frees its place. -/
def passFlit (d : Device) (key : Nat) (f : ShFlit) (cls : Nat) : Device :=
  let l := linkAt d key
  let d := setLink d key { l with
    wire := l.wire.drop 1
    fails := 0 }
  match linkLanding key with
  | some die => enqueueLink d (landingLink die f.src f.dest) f (key + 1) cls
  | none => deliverFlit (freePlace d { flit := f, via := key + 1, cls := cls }) f

def shuttleReceive (d : Device) (l : LinkDir) (err : BitVec 336) : Device :=
  match (linkAt d (linkKey l)).wire with
  | [] => d
  | (f, cls) :: _ =>
    let g := shErr f err
    if shGood g then passFlit d (linkKey l) g cls else failShuttle d l

def execShuttleFlitReceive (l : LinkDir) (err : BitVec 336) (s : State) : Host.Outcome State Fault Refusal :=
  onDev (guarded (fun d => linkLive d l) (fun d => shuttleReceive d l err)) s

/-- GANGWAY_SPARE_TRAINED (R229): the spare has the lane's number; what the receiver has not acknowledged is sent again. -/
def spareTrained (d : Device) (n : Nat) : Device :=
  let go := fun (d : Device) (k : Nat) =>
    let l := linkAt d k
    setLink d k { l with
      quiesced := false
      fails := 0
      retry := l.wire ++ l.retry
      wire := [] }
  { go (go d (200 + n)) (220 + n) with laneSwitch := none }

def execGangwaySpareTrained (from1 : Bool) (n : Fin 20) (s : State) : Host.Outcome State Fault Refusal :=
  onDev (guarded (fun d => decide (d.laneSwitch = some (32 * b2n from1 + n.val))) (fun d => spareTrained d n.val)) s

/-! Stations -/

def portKey (b s p : Nat) : Nat := 1280 * b + 64 * s + p

/-- The credits of an inbound pass port go to the unit end (R219). -/
def forwardCredits (d : Device) (pk : Nat) : Device :=
  let b := pk / 1280
  let sp := portAt d pk
  if sp.valid && !sp.link && sp.inbound && decide (0 < sp.credits) && berthLive d b then
    sendLight (setPort d pk { sp with credits := 0 }) (unitEpoch d b) (keyEp pk) sp.peer sp.credits
  else d

/-- STATION_CREDIT_FORWARD (R219). -/
def execStationCreditForward (b : Fin 4) (s : Fin 20) (p : Fin 64) (st : State) : Host.Outcome State Fault Refusal :=
  onDev (fun d => bothUnits d b.val (fun d => forwardCredits d (portKey b.val s.val p.val))) st

/-- A sender endpoint may forward a unit (R210). -/
def unitReady (e : LinkEnd) : Bool :=
  !e.receiver && decide (2 ^ e.grain ≤ e.buf.length) && decide ((e.filled - e.freed).toNat < e.cap + 1)

/-- Forward one whole unit under the stamp FILLED[15:0]. -/
def forwardUnit (d : Device) (pk : Nat) : Device :=
  let e := (portAt d pk).fin
  let per := 2 ^ e.grain
  let peer := linkPeer d pk
  let d := modFin d pk (fun e => { e with
    filled := e.filled + 1
    buf := e.buf.drop per })
  (e.buf.take per).foldl (fun d t => sendShuttle d
    { data := t.data, sb := t.sb, src := keyEp pk, dest := peer, stamp := BitVec.ofNat 16 e.filled.toNat }) d

/-- A mark leaves a sender endpoint behind the last buffered token (R309). -/
def forwardMark (d : Device) (pk : Nat) : Device :=
  let e := (portAt d pk).fin
  match e.mark with
  | none => d
  | some new =>
    if e.buf.isEmpty then
      let t := markToken (new - 1) new
      sendShuttle (modFin d pk (fun e => { e with mark := none }))
        { data := t.data, sb := t.sb, src := keyEp pk, dest := linkPeer d pk }
    else d

/-- A sender endpoint forwards a unit that is ready, or the mark behind its last one (R210, R309). -/
def linkForward (d : Device) (pk : Nat) : Device :=
  let sp := portAt d pk
  if sp.valid && sp.link && !sp.fin.receiver && berthLive d (pk / 1280) then
    forwardMark (if unitReady sp.fin then forwardUnit d pk else d) pk
  else d

def execLinkUnitForward (b : Fin 4) (s : Fin 20) (p : Fin 64) (st : State) : Host.Outcome State Fault Refusal :=
  onDev (fun d => bothUnits d b.val (fun d => linkForward d (portKey b.val s.val p.val))) st

/-- The receiver's whole FREED value goes to the sender on the light path (R210). -/
def sendFreed (d : Device) (pk : Nat) : Device :=
  let b := pk / 1280
  let sp := portAt d pk
  if sp.valid && sp.link && sp.fin.receiver && decide (sp.fin.freed ≠ sp.fin.sentFreed) && berthLive d b then
    sendLight (modFin d pk (fun e => { e with sentFreed := e.freed })) (unitEpoch d b) (keyEp pk) (linkPeer d pk) sp.fin.freed.toNat
  else d

/-- LINK_FREED_SEND (R210). -/
def execLinkFreedSend (b : Fin 4) (s : Fin 20) (p : Fin 64) (st : State) : Host.Outcome State Fault Refusal :=
  onDev (fun d => bothUnits d b.val (fun d => sendFreed d (portKey b.val s.val p.val))) st

/-- A FREED value reaches the sender (R210): accepted, it returns the credits of the units freed; else it is counted. -/
def acceptFreed (d : Device) (pk : Nat) (v : U32) : Device :=
  let e := (portAt d pk).fin
  let n := (v - e.freed).toNat
  if n ≤ e.cap + 1 then
    let m := n * 2 ^ e.grain
    let d := modFin d pk (fun e => { e with freed := v })
    let sp := portAt d pk
    let d := setPort d pk { sp with uend := { sp.uend with
      consumed := inc32 sp.uend.consumed m
      returned := inc32 sp.uend.returned m
      waiting := false } }
    if m = 0 then d else creditStation d pk m
  else modFin d pk (fun e => { e with ignored := e.ignored + 1 })

/-- The oldest FREED value that has arrived at a sender endpoint. -/
def takeFreed (d : Device) (pk : Nat) : Device :=
  let sp := portAt d pk
  match sp.fin.freedIn with
  | [] => d
  | v :: vs =>
    if sp.valid && sp.link && !sp.fin.receiver && berthLive d (pk / 1280) then acceptFreed (modFin d pk (fun e => { e with freedIn := vs })) pk v
    else d

def execLinkFreedAccept (b : Fin 4) (s : Fin 20) (p : Fin 64) (st : State) : Host.Outcome State Fault Refusal :=
  onDev (fun d => bothUnits d b.val (fun d => takeFreed d (portKey b.val s.val p.val))) st

/-! Timetables (R226, R227) -/

/-- Data flits that wait at or fly over a link direction. -/
def linkData (l : Link) : List ShFlit :=
  (l.queues.flatMap (fun q => q.2.map (·.flit)) ++ (l.wire ++ l.retry).map (·.1)).filter (fun f => decide (f.typ = 0))

/-- The flit is of one of a berth's flows. -/
def flitOfBerth (b : Nat) (f : ShFlit) : Bool :=
  (epIsStation f.src && decide (epDomain f.src = b)) || (epIsStation f.dest && decide (epDomain f.dest = b))

/-- No flit of the berth's outgoing epoch is left on the link. -/
def linkClear (d : Device) (l : Link) (b : Nat) : Bool :=
  let new := if (coOf d b).active then (coOf d b).epoch else BitVec.ofNat 2 (berthEpoch d b)
  (linkData l).all (fun f => !flitOfBerth b f || decide (f.sb.e = new))

/-- Put a berth's timetable and flow entries into force: on a shared link its 64 slots s with s mod 4 = b, and its own flow
entries, which stand at keys 64·b + entry. -/
def switchTable (key : Nat) (l : Link) (n : Nat × Tab Nat × Tab FlowEntry) : Link :=
  let b := n.1
  let rest := l.nextTt.drop 1
  if linkShared key then
    { l with
      tt := (List.range 64).foldl (fun t i => Tab.set t (4 * i + b) (Tab.get 0 n.2.1 i)) l.tt
      flows := n.2.2.foldl (fun m f => Tab.set m (64 * b + f.1 % 64) f.2) (l.flows.filter (fun f => f.1 / 64 ≠ b))
      nextTt := rest }
  else { l with tt := n.2.1, flows := n.2.2, nextTt := rest }

def execTimetableSwitch (l : LinkDir) (s : State) : Host.Outcome State Fault Refusal :=
  onDev (fun d =>
    let x := linkAt d (linkKey l)
    match x.nextTt with
    | [] => d
    | n :: _ =>
      if decide (x.lap = 0) && linkClear d x n.1 && linkLive d l then setLink d (linkKey l) (switchTable (linkKey l) x n) else d) s

end Sys2Proof.Machine
end

