-- ==== Sys2Proof/Machine/Ledger.lean ====
section
/-! DEFINITION. The conservation ledger (R231 to R235, R374, R494): a tick latches every queue end, a check balances the
latched counters. -/

namespace Sys2Proof.Machine

/-! Latching (R232) -/

/-- Producer half of a loop, as a tile keeps it. -/
def latchOq (q : OutQueue) (l : LoopLatch) : LoopLatch :=
  { l with
    credmax := q.credmax
    cred := q.cred
    reserved := q.reserved
    produced := q.produced
    accepted := q.accepted
    discp := q.discp }

/-- Producer half of a loop, as a unit or a link receiver keeps it. -/
def latchSender (u : UEnd) (l : LoopLatch) : LoopLatch :=
  { l with
    credmax := u.credmax
    cred := u.cred
    reserved := u.reserved
    produced := u.produced
    accepted := u.accepted
    discp := u.discp }

/-- Consumer half of a loop at a tile's ring. -/
def latchIq (q : InQueue) (l : LoopLatch) : LoopLatch :=
  { l with
    qid := q.qid
    init := q.init
    received := q.received
    consumed := q.consumed
    discc := q.discc
    returned := q.returned
    occ := q.occ }

/-- Consumer half of a loop at a unit, whose OCC is its buffer occupancy (R231), or at a link sender, which holds `occ` tokens. -/
def latchTaker (u : UEnd) (occ : Nat) (l : LoopLatch) : LoopLatch :=
  { l with
    qid := u.qid
    received := u.received
    consumed := u.consumed
    discc := u.discc
    returned := u.returned
    occ := occ }

/-- Tokens that a link sender holds: arrived, and sent but not freed (R210). -/
def senderOcc (e : LinkEnd) : Nat := e.buf.length + (e.filled - e.freed).toNat * 2 ^ e.grain

/-- The loop of one output queue of a tile's live plane k (R29, R219). -/
def oqLoop (d : Device) (b k : Nat) (q : OutQueue) : List LoopLatch :=
  let l := latchOq q { berth := b }
  if q.credmax = 0 then []
  else if !q.shut then
    let col := q.dest.toNat / 512
    let row := q.dest.toNat / 16 % 32
    let p := planeAt (tileAt d b (physKey d b col row)) k
    if p.live then [latchIq (iqAt p (q.dest.toNat % 16)) { l with blame := tileTag b col row }] else []
  else
    let pk := epKey q.dest
    let sp := portAt d pk
    if !sp.valid || decide (sp.slot ≠ k) then []
    else if sp.link then [latchTaker sp.uend (senderOcc sp.fin) { l with blame := tag 7 b q.dest.toNat }]
    else [latchTaker (endAt d pk) (endAt d pk).tokens.length { l with blame := tag 7 b sp.peer.toNat }]

/-- Loops whose producer is a tile of berth b. -/
def tileLoops (d : Device) (b : Nat) : List LoopLatch :=
  (berthAt d b).tiles.flatMap (fun t => t.2.planes.flatMap (fun p =>
    if p.2.live then p.2.oq.flatMap (fun q => oqLoop d b p.1 q.2) else []))

/-- Loops whose producer is a unit or a link receiver, into the tile that the inbound port feeds. -/
def portLoops (d : Device) (b : Nat) : List LoopLatch :=
  d.ports.flatMap (fun x =>
    let sp := x.2
    let p := planeAt (tileAt d b (physKey d b sp.dcol sp.drow)) sp.slot
    if x.1 / 1280 = b ∧ sp.valid ∧ sp.inbound ∧ p.live then
      [latchIq (iqAt p sp.diq) (latchSender (if sp.link then sp.uend else endAt d x.1)
        { berth := b, blame := tileTag b sp.dcol sp.drow })]
    else [])

/-- The semaphore pair of a linked queue; over a Folsa link each side alone. -/
def semLatch (d : Device) (b : Nat) : List LoopLatch :=
  d.ports.flatMap (fun x =>
    let sp := x.2
    let e := sp.fin
    let l : LoopLatch :=
      { berth := b
        qid := sp.uend.qid
        blame := tag 7 b (keyEp x.1).toNat
        linked := true
        cap := e.cap
        bothEnds := false }
    if x.1 / 1280 ≠ b ∨ !sp.valid ∨ !sp.link then []
    else if e.receiver then [{ l with
      rFilled := e.filled
      rFreed := e.freed }]
    else if e.kind = 2 then [{ l with
      sFilled := e.filled
      sFreed := e.freed }]
    else
      let r := (portAt d (epKey e.peer)).fin
      [{ l with
        blame := tag 7 (epDomain e.peer) e.peer.toNat
        sFilled := e.filled
        sFreed := e.freed
        rFilled := r.filled
        rFreed := r.freed
        bothEnds := true }])

/-- The rings of R374 that are enabled. -/
def ringLatches (d : Device) : List RingLatch :=
  d.queues.flatMap (fun q =>
    if q.2.enabled then [{ kind := 0, number := q.1, ring := q.2, entries := qEntries d q.1 }] else [])
  ++ d.streams.flatMap (fun s =>
    if s.2.active then
      [{ kind := 1, number := s.1, berth := strmBerth d s.1, ring := s.2.pktq, entries := s.2.pktq.entries },
       { kind := 2, number := s.1, berth := strmBerth d s.1, ring := s.2.inq, entries := s.2.inq.entries }]
    else [])

/-- Berths whose loops are loaded: a berth in HOLD is latched as usual, one in DOZE is not (R451). -/
def loadedBerths (d : Device) : List Nat := (List.range 4).filter (fun b => decide (bpstate d b ≠ 2))

/-- LEDGER_TICK (R232): what an earlier tick latched and the checker has not finished is skipped, and each berth whose values it held
counts the skip (R235; which berths, assumption log 107). LEDGER_CHECK stands for the arrival of every latched value. -/
def ledgerTick (d : Device) : Device :=
  let d := if d.hub.latch.isSome then (loadedBerths d).foldl (fun d b => berthCount d b 0x0E 1) d else d
  let loops := (loadedBerths d).flatMap (fun b => tileLoops d b ++ portLoops d b ++ semLatch d b)
  { d with hub := { d.hub with latch := some { time := d.time, loops := loops, rings := ringLatches d } } }

def execLedgerTick (s : State) : Host.Outcome State Fault Refusal :=
  onDev (guarded (fun d => d.power.fabric && decide (mstate d = 0)) ledgerTick) s

/-! Checking (R233, R374) -/

/-- Tests (A), (B) and (C), modulo 2^32. -/
def loopHolds (l : LoopLatch) : Bool :=
  let n := fun (x : Nat) => BitVec.ofNat 32 x
  decide (n l.init + l.received = l.consumed + l.discc + n l.occ)
    && decide (n l.cred + n l.reserved + (l.produced - l.received) + n l.occ + (l.returned - l.accepted) = n l.credmax)
    && decide (l.returned = l.consumed + l.discc)

/-- x ≥ y of two wrapping counts that differ by less than 2^31. -/
def countGe (x y : U32) : Bool := decide ((x - y).toNat < 2147483648)

/-- The tests of the link semaphores. -/
def semHolds (l : LoopLatch) : Bool :=
  decide ((l.sFilled - l.sFreed).toNat ≤ l.cap + 1) && countGe l.rFilled l.rFreed
    && (!l.bothEnds || (countGe l.sFilled l.rFilled && countGe l.rFreed l.sFreed))

/-- The tests of R374. -/
def ringHolds (r : RingLatch) : Bool :=
  let n := fun (x : Nat) => BitVec.ofNat 32 x
  decide (r.ring.iseq = n r.ring.items + n r.ring.dropped)
    && decide (r.ring.pube - r.ring.conse - n r.ring.flushed = r.ring.pi - r.ring.ci)
    && decide ((r.ring.pi - r.ring.ci).toNat + 1 ≤ r.entries)

/-- Report an imbalance as of the tick, with the latched counters; a repeat only raises the COUNT of its record (R234). -/
def imbalance (d : Device) (time source : Nat) (blame : U32) (info : Nat) (counters : Counters) : Device :=
  if d.hub.imbalanced.contains (source, info) && d.hub.log.any (fun r => decide (r.source = source) && decide (r.blame = blame)) then
    { d with hub := { d.hub with log := d.hub.log.map (fun r =>
      if r.source = source ∧ r.blame = blame then raiseCount r else r) } }
  else { d with hub := { d.hub with
    imbalanced := if d.hub.imbalanced.contains (source, info) then d.hub.imbalanced else d.hub.imbalanced ++ [(source, info)]
    reports := d.hub.reports ++
      [{ source := source, time := time, blame := blame, reporter := blame, info := BitVec.ofNat 32 info, counters := some counters }] } }

def checkLoop (time : Nat) (d : Device) (l : LoopLatch) : Device :=
  if if l.linked then semHolds l else loopHolds l then d else imbalance d time (32 * l.berth + 18) l.blame l.qid (.loop l)

def checkRing (time : Nat) (d : Device) (r : RingLatch) : Device :=
  if ringHolds r then d
  else if r.kind = 0 then imbalance d time 0x08D (tag 8 0 r.number) r.number (.ring r)
  else imbalance d time (32 * r.berth + 18) (tag 11 r.berth r.number) (32768 * (r.kind - 1) + r.number) (.ring r)

/-- LEDGER_CHECK (R233, R234): the counters themselves stay. -/
def ledgerCheck (d : Device) : Device :=
  match d.hub.latch with
  | none => d
  | some l =>
    let d := l.rings.foldl (checkRing l.time) (l.loops.foldl (checkLoop l.time) d)
    { d with hub := { d.hub with latch := none } }

def execLedgerCheck (s : State) : Host.Outcome State Fault Refusal := onDev ledgerCheck s

end Sys2Proof.Machine
end

