-- ==== Sys2Proof/Machine/FolsaOps.lean ====
section
/-! DEFINITION. The Folsa ports (chapter 13): enable and training, frames out and in with their retry, the control records, and
the loss of a link. -/

namespace Sys2Proof.Machine

def fState (d : Device) (p : Nat) : Nat := odGet d (0x8900 + p) 2
def setFState (d : Device) (p v : Nat) : Device := odPut d (0x8900 + p) 2 v
def modFolsa (d : Device) (p : Nat) (f : Folsa → Folsa) : Device := setFolsa d p (f (folsaAt d p))
/-- The ports' clocks run. -/
def folsaLive (d : Device) : Bool := d.power.fabric && decide (mstate d = 0)

/-! Enable and training (R325, R336) -/

/-- ENABLE is set: PMD training starts and the peer is unknown. -/
def enableFolsa (d : Device) (p : Nat) : Device :=
  if odFlag d (0x8900 + p) 1 then d
  else
    let f := folsaAt d p
    setFState (setFolsa (odStore d (0x8900 + p) 1 1) p
      { channels := f.channels
        tt := f.tt
        flows := f.flows
        cable := f.cable }) p 1

def execFolsaEnable (p : Fin 2) (s : State) : Host.Outcome State Fault Refusal := onDev (fun d => enableFolsa d p.val) s

/-- ENABLE is cleared: the transmitters are off. -/
def disableFolsa (d : Device) (p : Nat) : Device :=
  setFState (modFolsa (odStore d (0x8900 + p) 1 0) p (fun f => { f with
    sent := []
    resend := []
    control := [] })) p 0

/-- HELLO record (Table 13-3). -/
def helloRecord (d : Device) (p : Nat) : List Byte :=
  sliceBytes ([1, 1, 2, 0] ++ leBytes 8 (odGet d 0x8920 0) ++ leBytes 4 (odGet d 0x1000 7)
    ++ [BitVec.ofNat 8 (odGet d 0x1000 4), BitVec.ofNat 8 p]) 0 32

/-- FOLSA_TRAINED (R336). -/
def execFolsaTrained (p : Fin 2) (s : State) : Host.Outcome State Fault Refusal :=
  onDev (guarded (fun d => folsaLive d && (folsaAt d p.val).cable && (decide (fState d p.val = 1) || decide (fState d p.val = 4)))
    (fun d => modFolsa (setFState d p.val 2) p.val (fun f => { f with control := helloRecord d p.val :: f.control }))) s

/-! Frames out (R326 to R330, R333) -/

/-- A slot that is about to leave: channel, token, and the stamp of the unit that it starts. -/
abbrev SlotOut := Nat × Token × Option (BitVec 16)

/-- A channel that has a token to send: the port is UP and the channel does not wait for its peer's SEM. -/
def channelReady (up : Bool) (c : FolsaChannel) : Bool := up && c.used && !c.restore && !c.queue.isEmpty

/-- Tag of a channel: the flow table entry whose range holds its number (R223, R327). -/
def channelTag13 (f : Folsa) (ch : Nat) : Nat :=
  ((f.flows.find? (fun e => e.2.valid && decide (e.2.base ≤ ch) && decide (ch ≤ e.2.base + e.2.count))).map (fun e => e.2.tag)).getD 0

/-- The first ready channel that satisfies a test, searching upward from a number, around the wrap. -/
def readyChannel (f : Folsa) (up : Bool) (start : Nat) (test : Nat → Bool) : Option Nat :=
  ((List.range 63).map (fun i => (start + i) % 63)).find? (fun c => test c && channelReady up (Tab.get {} f.channels c))

/-- What one slot carries (R224): its owner, else a control record, else a lent token, else nothing. -/
def fillSlot (up : Bool) (f : Folsa) : Folsa × Option SlotOut :=
  let owner := Tab.get 0 f.tt f.lap
  let f := { f with lap := (f.lap + 1) % 256 }
  let take := fun (ch : Nat) (f : Folsa) =>
    let c := Tab.get {} f.channels ch
    match c.queue with
    | [] => (f, none)
    | (t, st) :: q => ({ f with channels := Tab.set f.channels ch { c with queue := q } }, some (ch, t, st))
  match if owner = 0 then none else readyChannel f up 0 (fun c => decide (channelTag13 f c = owner)) with
  | some ch => take ch f
  | none =>
    match f.control with
    | r :: rs => ({ f with control := rs }, some (63, { data := BitVec.ofNat 256 (leNat r) }, none))
    | [] =>
      match readyChannel f up (f.lent + 1) (fun _ => true) with
      | some ch => take ch { f with lent := ch }
      | none => (f, none)

/-- Fill up to `n` slots. -/
def fillSlots (up : Bool) : Nat → Folsa → Folsa × List SlotOut
  | 0, f => (f, [])
  | n + 1, f =>
    match fillSlot up f with
    | (f, none) => ((fillSlots up n f).1, [])
    | (f, some s) =>
      let r := fillSlots up n f
      (r.1, s :: r.2)

/-- Slot of the first unit start of a channel. -/
def firstStart (ss : List SlotOut) (ch : Nat) : Option (Nat × BitVec 16) :=
  (ss.zipIdx.findSome? (fun s => if s.1.1 = ch then s.1.2.2.map (fun st => (s.2, st)) else none))

/-- The channel to stamp: of those that begin a unit, the one stamped longest ago (R328). -/
def stampChannel (f : Folsa) (ss : List SlotOut) : Option Nat :=
  ((ss.filter (fun s => s.2.2.isSome)).map (fun s => s.1)).foldl (fun (best : Option Nat) c =>
    match best with
    | none => some c
    | some b => if (Tab.get {} f.channels c).lastStamp < (Tab.get {} f.channels b).lastStamp then some c else some b) none

/-- A frame of the given slots (Tables 13-1, 13-2). -/
def frameBytes (seq ack : BitVec 16) (retry : Bool) (stamp : Option (Nat × BitVec 16)) (ss : List SlotOut) : List Byte :=
  let header := seq.toNat + 2 ^ 16 * ack.toNat + 2 ^ 32 * ((stamp.map (fun s => s.2.toNat)).getD 0)
    + 2 ^ 48 * ((stamp.map (fun s => s.1)).getD 0) + 2 ^ 52 * ss.length + 2 ^ 56 * b2n stamp.isSome + 2 ^ 57 * b2n retry
  let heads := ss.flatMap (fun s => leBytes 3 (s.1 * 2 ^ 18 + sideNat s.2.1.sb))
  let loads := ss.flatMap (fun s => leBytes 32 s.2.1.data.toNat)
  let body := leBytes 8 header ++ sliceBytes heads 0 42 ++ sliceBytes loads 0 448
  body ++ leBytes 2 (crcBits 16 0x1021 (leNat body.reverse) 3984 0xFFFF)

/-- The header of a frame that is sent again carries the present ACK and RETRYREQ, under a new CRC. -/
def refresh (ack : BitVec 16) (retry : Bool) (bs : List Byte) : List Byte :=
  let h := leAt bs 0 8
  let h := h - nbits h 31 16 * 2 ^ 16 - nbits h 57 57 * 2 ^ 57 + ack.toNat * 2 ^ 16 + b2n retry * 2 ^ 57
  let body := leBytes 8 h ++ sliceBytes bs 8 490
  body ++ leBytes 2 (crcBits 16 0x1021 (leNat body.reverse) 3984 0xFFFF)

/-- The frames of the retry buffer that wait for their acknowledgement. -/
def unacked (f : Folsa) : List FolsaSent := f.sent.filter (fun x => !x.acked)
/-- The retry buffer holds the last 256 frames (R330). -/
def keepSent (l : List FolsaSent) : List FolsaSent := l.drop (l.length - 256)

/-- One frame leaves: a resend, or a new frame, or an idle one where nothing waits or 256 frames are unacknowledged. -/
def sendFrame (f : Folsa) (up : Bool) : Folsa :=
  let ack := f.rxNext - 1
  match f.resend with
  | r :: rs => { f with
    resend := rs
    retryReq := false
    line := refresh ack f.retryReq r.bytes }
  | [] =>
    let g := if (unacked f).length < 256 then fillSlots up 14 f else ({ f with lap := (f.lap + 14) % 256 }, [])
    if g.2.isEmpty then { g.1 with
      retryReq := false
      line := frameBytes f.seq ack f.retryReq none [] }
    else
      let seq := f.seq + 1
      let ch := stampChannel g.1 g.2
      let stamp := ch.bind (firstStart g.2)
      let channels := match ch with
        | none => g.1.channels
        | some c => Tab.set g.1.channels c { Tab.get {} g.1.channels c with lastStamp := f.lastStampSeq + 1 }
      let bs := frameBytes seq ack f.retryReq stamp g.2
      { g.1 with
        channels := channels
        lastStampSeq := f.lastStampSeq + 1
        seq := seq
        retryReq := false
        line := bs
        sent := keepSent (g.1.sent ++ [{ seq := seq, bytes := bs, toks := g.2.filter (fun s => s.1 ≠ 63) }]) }

def execFolsaFrameSend (p : Fin 2) (s : State) : Host.Outcome State Fault Refusal :=
  onDev (guarded (fun d => folsaLive d && (decide (fState d p.val = 2) || decide (fState d p.val = 3) || decide (fState d p.val = 5)))
    (fun d => modFolsa d p.val (fun f => sendFrame f (decide (fState d p.val = 3))))) s

/-! Frames in (R327, R328, R330) -/

def frameGood (bs : List Byte) : Bool :=
  decide (bs.length = 500) && decide (leAt bs 498 2 = crcBits 16 0x1021 (leNat (bs.take 498).reverse) 3984 0xFFFF)

/-- Slots of a frame: channel and token. -/
def frameSlots (bs : List Byte) : List (Nat × Token) :=
  (List.range (min (nbits (leAt bs 0 8) 55 52) 14)).map (fun k =>
    let h := leAt bs (8 + 3 * k) 3
    (nbits h 23 18, { data := BitVec.ofNat 256 (leAt bs (50 + 32 * k) 32), sb := sideOf (h % 2 ^ 18) }))

/-- ACK and RETRYREQ of a good frame (R330): frames up to ACK are acknowledged; a request resends the rest. `fails`
counts the requests in a row for one SEQ: the first follows a frame's first sending, each later one a resend that failed. -/
def takeAck (f : Folsa) (bs : List Byte) : Folsa :=
  let h := leAt bs 0 8
  let ack := BitVec.ofNat 16 (nbits h 31 16)
  let f := { f with sent := f.sent.map (fun x => { x with acked := x.acked || decide ((ack - x.seq).toNat < 32768) }) }
  let left := unacked f
  if nbits h 57 57 = 0 then f
  else
    let head := (left.head?.map (·.seq)).getD 0
    { f with
      resend := left
      failSeq := head
      fails := if left.isEmpty then 0 else if head = f.failSeq then f.fails + 1 else 1 }

/-- A frame failed: ask for a resend. While one is awaited, later frames in another sequence are discarded without a word
(R330). -/
def failFrame (d : Device) (p : Nat) (later : Bool) : Device :=
  let f := folsaAt d p
  if f.rxFailing && later then d
  else odAdd (setFolsa d p { f with
    rxFailing := true
    retryReq := true }) (0x8900 + p) 9 1

/-- The stamp check of R328: the unit that starts in FSLOT is not the next one of its channel. -/
def stampBad (bs : List Byte) (k : Nat) (c : FolsaChannel) : Bool :=
  let h := leAt bs 0 8
  decide (nbits h 56 56 = 1) && decide (nbits h 51 48 = k) && decide (nbits h 47 32 ≠ c.rxUnits.toNat % 65536)

/-- A mark's epoch is EB or the announced incoming epoch of the receiving berth (R432). -/
def markKnown (d : Device) (b : Nat) (new : BitVec 2) : Bool :=
  decide (new.toNat = berthEpoch d b) || ((coOf d b).active && decide ((coOf d b).epoch = new))

/-- A remote repair notice: it is reported, and its epoch waits for the repair (R432). -/
def remoteNotice (d : Device) (p b : Nat) (new : BitVec 2) : Device :=
  report (modFolsa d p (fun f => { f with notices := Tab.set f.notices b new })) 0x085 (tag 4 0 p) (tag 4 0 p) 0

/-- A token of a linked channel (R327, R331, R338): the tokens of one unit are counted, a unit whose stamp fails is not
written, and what came before the link went down is not repeated. -/
def channelToken (bs : List Byte) (p : Nat) (d : Device) (k ch : Nat) (tok : Token) : Device :=
  let c := Tab.get {} (folsaAt d p).channels ch
  let sp := portAt d c.port
  let put := fun (d : Device) (c : FolsaChannel) => modFolsa d p (fun f => { f with channels := Tab.set f.channels ch c })
  let send := fun (d : Device) => sendShuttle d { data := tok.data, sb := tok.sb, src := folsaEp p, dest := keyEp c.port }
  if !c.used || !channelPaired d c.berth c.slot p ch then
    staleDiscard d c.berth (if c.used then sp.uend.qid else 32768 + ch) (if c.used then 0 else 3) tok.sb.f
  else if isMark tok then
    (if markKnown d c.berth (markNew tok) then send d else remoteNotice d p c.berth (markNew tok))
  else
    let per := 2 ^ sp.fin.grain
    let bad := decide (c.rxIndex = 0) && stampBad bs k c
    let d := if bad then odAdd (sequenceFault d c.port) (0x8900 + p) 0x0B 1 else d
    let drop := if c.rxIndex = 0 then bad else c.rxDrop
    let last := decide (c.rxIndex + 1 = per)
    let d := put d { c with
      rxIndex := if last then 0 else c.rxIndex + 1
      rxDrop := drop
      rxSkip := c.rxSkip - 1
      rxUnits := if last && !drop then c.rxUnits + 1 else c.rxUnits }
    if drop || decide (0 < c.rxSkip) then d else send d

/-- A control record waits for its command; other types are not defined and are ignored. -/
def controlRecord (d : Device) (p : Nat) (r : List Byte) : Device :=
  modFolsa d p (fun f =>
    if r.headD 0 = 1 then { f with hello := f.hello ++ [r] }
    else if r.headD 0 = 2 then { f with sems := f.sems ++ [r] }
    else if r.headD 0 = 3 then { f with pairs := f.pairs ++ [r] }
    else f)

/-- The slots of an accepted frame. Channels are carried only while the port is UP. -/
def takeSlots (d : Device) (p : Nat) (bs : List Byte) : Device :=
  (frameSlots bs).zipIdx.foldl (fun d s =>
    if s.1.1 = 63 then controlRecord d p (leBytes 32 s.1.2.data.toNat)
    else if fState d p = 3 then channelToken bs p d s.2 s.1.1 s.1.2
    else d) d

/-- FOLSA_FRAME_RECEIVE (R330). -/
def folsaFrame (d : Device) (p : Nat) (bs : List Byte) : Device :=
  if !frameGood bs then failFrame d p false
  else
    let h := leAt bs 0 8
    let d := modFolsa d p (fun f => takeAck f bs)
    let f := folsaAt d p
    let seq := BitVec.ofNat 16 (nbits h 15 0)
    if nbits h 55 52 = 0 then (if seq = f.rxNext - 1 then d else failFrame d p true)
    else if seq = f.rxNext then
      takeSlots (setFolsa d p { f with
        rxNext := f.rxNext + 1
        rxFailing := false }) p bs
    else failFrame d p true

def execFolsaFrameReceive (p : Fin 2) (bytes : List Byte) (s : State) : Host.Outcome State Fault Refusal :=
  onDev (guarded (fun d => folsaLive d && (decide (fState d p.val = 2) || decide (fState d p.val = 3) || decide (fState d p.val = 5)))
    (fun d => folsaFrame d p.val bytes)) s

/-! HELLO (R331, R336) -/

def helloLow (r : List Byte) : Nat := leAt r 1 1
def helloHigh (r : List Byte) : Nat := leAt r 2 1
def helloModule (r : List Byte) : U64 := BitVec.ofNat 64 (leAt r 4 8)

/-- Protocol version of the link: 0 where the ends have none in common. This firmware offers 1 and 2. -/
def helloVersion (r : List Byte) : Nat :=
  let v := min 2 (helloHigh r)
  if v < 1 ∨ v < helloLow r then 0 else v

/-- The HELLO shows another module than the first one since ENABLE: checked from version 2 on. -/
def peerChanged (f : Folsa) (r : List Byte) : Bool :=
  decide (2 ≤ helloVersion r) && (match f.firstPeer with
    | none => false
    | some m => decide (m ≠ helloModule r))

/-- SEM of every channel that this end receives, with the units that the port has received (R331). -/
def sendSems (d : Device) (p : Nat) : Device :=
  modFolsa d p (fun f => { f with control := f.control ++
    ((f.channels.filter (fun c => c.2.used && (portAt d c.2.port).fin.receiver)).map (fun c =>
      semRecord c.1 (portAt d c.2.port).fin.freed c.2.rxUnits)) })

/-- PAIR records of every resident slot (R337). -/
def sendAllPairs (d : Device) : Device :=
  (List.range 4).foldl (fun d b => (List.range 4).foldl (fun d k =>
    if 4 ≤ slotState d b k ∧ slotState d b k ≤ 6 then sendPairs d b k else d) d) d

/-- The port is UP. After a DOWN the ends exchange SEM records, and senders wait for them. -/
def linkUp (d : Device) (p v : Nat) (r : List Byte) : Device :=
  let d := odPut (odPut (odPut (setFState d p 3) (0x8900 + p) 3 v) (0x8900 + p) 5 (helloModule r).toNat) (0x8900 + p) 6 (leAt r 12 4)
  let again := (folsaAt d p).downSince.isSome
  let d := modFolsa d p (fun f => { f with
    firstPeer := some (f.firstPeer.getD (helloModule r))
    peerClaims := []
    halfPairs := []
    downSince := none })
  sendAllPairs (if again then sendSems d p else d)

def helloDone (d : Device) (p : Nat) (r : List Byte) : Device :=
  let v := helloVersion r
  if v = 0 then odPut (setFState d p 5) (0x8900 + p) 3 0 else linkUp d p v r

def execHello (p : Fin 2) (s : State) : Host.Outcome State Fault Refusal :=
  onDev (fun d =>
    let f := folsaAt d p.val
    match f.hello with
    | [] => d
    | r :: rs =>
      if (decide (fState d p.val = 2) || decide (fState d p.val = 3)) && !peerChanged f r then helloDone (setFolsa d p.val { f with hello := rs }) p.val r
      else d) s

/-! SEM (R329, R331, R340) -/

/-- The values of a SEM record fit the sender's. -/
def semFits (e : LinkEnd) (freed filled : U32) : Bool := countGe e.filled filled && countGe filled freed

/-- A unit start with a stamp below the peer's FILLED: the peer has that unit complete. -/
def unitTaken (filled : U32) (st : Option (BitVec 16)) : Bool :=
  match st with
  | none => false
  | some s => decide (32768 ≤ (s - BitVec.ofNat 16 filled.toNat).toNat)

/-- Drop what the peer has already received from the head of a restored queue: up to the unit with its FILLED. A mark stays
where no unit behind it has been received. -/
def trimQueue (filled : U32) : List (Token × Option (BitVec 16)) → List (Token × Option (BitVec 16))
  | [] => []
  | (t, st) :: q =>
    if isMark t then (if q.any (fun x => unitTaken filled x.2) then trimQueue filled q else (t, st) :: q)
    else if st.isNone || unitTaken filled st then trimQueue filled q
    else (t, st) :: q

/-- SEM: the sender's checks, the resend after a DOWN, and FREED on its way to the sender endpoint. -/
def takeSem (d : Device) (p : Nat) (r : List Byte) : Device :=
  let ch := leAt r 1 1
  let freed := BitVec.ofNat 32 (leAt r 4 4)
  let filled := BitVec.ofNat 32 (leAt r 8 4)
  let c := Tab.get {} (folsaAt d p).channels ch
  let sp := portAt d c.port
  if !c.used || sp.fin.receiver then d
  else
    let d := if semFits sp.fin freed filled then d
      else
        let blame := tag 7 c.berth (keyEp c.port).toNat
        imbalance d d.time (32 * c.berth + 18) blame sp.uend.qid (.loop
          { berth := c.berth
            qid := sp.uend.qid
            blame := blame
            linked := true
            cap := sp.fin.cap
            sFilled := sp.fin.filled
            sFreed := sp.fin.freed
            rFilled := filled
            rFreed := freed })
    let d := if c.restore then modFolsa d p (fun f => { f with channels := Tab.set f.channels ch { c with
        queue := trimQueue filled c.queue
        restore := false } })
      else d
    sendLight d (unitEpoch d c.berth) (folsaEp p) (keyEp c.port) freed.toNat

def execSem (p : Fin 2) (s : State) : Host.Outcome State Fault Refusal :=
  onDev (fun d =>
    let f := folsaAt d p.val
    match f.sems with
    | [] => d
    | r :: rs => takeSem (setFolsa d p.val { f with sems := rs }) p.val r) s

/-! PAIR (R337) -/

/-- A PAIR record: a first half waits for its second; together they claim channels. -/
def takePair (f : Folsa) (r : List Byte) : Folsa :=
  let first := leAt r 1 1 % 128
  let same := fun (h : List Byte) => decide (leAt h 1 1 = first) && decide (leAt h 2 2 = leAt r 2 2)
  if leAt r 1 1 < 128 then { f with halfPairs := f.halfPairs.filter (fun h => !same h) ++ [r] }
  else match f.halfPairs.find? same with
    | none => f
    | some h =>
      let claim := (BitVec.ofNat 128 (leAt h 4 16), BitVec.ofNat 128 (leAt r 4 16))
      let claims := (List.range 63).foldl (fun m ch =>
        if first ≤ ch ∧ ch ≤ leAt r 2 1 then Tab.modify [] m ch (fun l => if l.contains claim then l else l ++ [claim]) else m) f.peerClaims
      { f with
        halfPairs := f.halfPairs.filter (fun h => !same h)
        peerClaims := claims }

def execPair (p : Fin 2) (s : State) : Host.Outcome State Fault Refusal :=
  onDev (fun d =>
    let f := folsaAt d p.val
    match f.pairs with
    | [] => d
    | r :: rs => setFolsa d p.val (takePair { f with pairs := rs } r)) s

/-- The slot whose pairing a channel shows: that of the running slot that claims it, else the first resident one. -/
def channelOwner (d : Device) (p ch : Nat) : Option (Nat × Nat) :=
  let all := (List.range 4).flatMap (fun b => (runSlot d b :: List.range 4).map (fun k => (b, k)))
  all.find? (fun x => decide (4 ≤ slotState d x.1 x.2) && decide (slotState d x.1 x.2 ≤ 6) && decide (x.2 < 4)
    && (((slotAt d x.1 x.2).image.map (fun i => i.channels.any (fun c => decide (c.1 = p) && decide (c.2.1 = ch)))).getD false))

/-- PAIRING of one channel (Table 13-5). -/
def pairingOf (d : Device) (p ch : Nat) : Nat :=
  match channelOwner d p ch with
  | none => 0
  | some x =>
    if channelPaired d x.1 x.2 p ch then 2
    else if (Tab.get [] (folsaAt d p).peerClaims ch).isEmpty then 1 else 3

/-! Loss of the link (R331) -/

/-- The tokens of the retry buffer go back to the heads of their channels, but for the marks of acknowledged frames, which the
peer has. The units that it has are dropped when its SEM tells them. -/
def restoreTokens (f : Folsa) : Folsa :=
  let toks := f.sent.flatMap (fun x => x.toks.filter (fun t => !(x.acked && isMark t.2.1)))
  { f with channels := Tab.map (fun c => { c with
      restore := true
      rxSkip := c.rxIndex + c.rxSkip
      rxIndex := 0 }) ((toks.reverse).foldl (fun m t =>
        let c := Tab.get {} m t.1
        Tab.set m t.1 { c with queue := (t.2.1, t.2.2) :: c.queue }) f.channels) }

def linkDown (d : Device) (p : Nat) : Device :=
  let d := modFolsa d p (fun f => { restoreTokens f with
    control := []
    seq := 0
    sent := []
    resend := []
    rxNext := 1
    rxFailing := false
    retryReq := false
    failSeq := 0
    fails := 0
    hello := []
    downSince := some (f.downSince.getD d.time) })
  let d := odAdd (setFState d p 4) (0x8900 + p) 0x0A 1
  report d (0x083 + p) (tag 4 0 p) (tag 4 0 p) 0

/-- The stated cause holds. -/
def downCause (f : Folsa) : DownCause → Bool
  | .resends => decide (17 ≤ f.fails)
  | .laneLock => true
  | .peerChanged => match f.hello with
    | [] => false
    | r :: _ => peerChanged f r

def execFolsaLinkDown (p : Fin 2) (cause : DownCause) (s : State) : Host.Outcome State Fault Refusal :=
  onDev (guarded (fun d => folsaLive d && (decide (fState d p.val = 2) || decide (fState d p.val = 3) || decide (fState d p.val = 5)) && downCause (folsaAt d p.val) cause)
    (fun d => linkDown d p.val)) s

/-- Berths whose running slot holds channels of the port. -/
def portBerths (d : Device) (p : Nat) : List Nat :=
  (List.range 4).filter (fun b => decide (runSlot d b < 4) &&
    (((slotAt d b (runSlot d b)).image.map (fun i => i.channels.any (fun c => c.1 = p))).getD false))

/-- LINK_HOLD_TIMEOUT: a forced stop in drop mode of every pipeline on the port. -/
def holdTimeout (d : Device) (p : Nat) : Device :=
  let d := (portBerths d p).foldl (fun d b =>
    if runSlot d b < 4 then (pipelineBerths d b (runSlot d b)).foldl (fun d x => forceSwitch d x 15 2 false (nextEpoch d b)) d else d) d
  modFolsa d p (fun f => { f with downSince := none })

def execLinkHoldTimeout (p : Fin 2) (s : State) : Host.Outcome State Fault Refusal :=
  onDev (guarded (fun d =>
      decide (fState d p.val ≠ 3) && (match (folsaAt d p.val).downSince with
        | none => false
        | some t => decide (t + msCounts (odGet d (0x8900 + p.val) 4) ≤ d.time)))
    (fun d => holdTimeout d p.val)) s

end Sys2Proof.Machine
end

