-- ==== Sys2Proof/Machine/ImageWords.lean ====
section
/-! DEFINITION. The words of an image whose layouts the specification gives (Tables 2-3 to 2-6, 3-3, 3-4, 8-6, 9-3, 9-5, 9-6, 10-5,
11-3, 12-4), and how the loader makes its image of them: an uninterpreted parser finds the words in the sections (assumption
log 7), and everything that a word holds is read here. -/

namespace Sys2Proof.Machine

/-- The words of one used position (PLANE section): step table, registers, counters, queue descriptors, expansion tables with their
entries at key 256 · table + entry, lookup tables at key 256 · table + entry, hurdle memberships, adaptation register; each used
context with its entry step; and each context's band hold region: first word and capacity in tokens. -/
structure PlaneWords where
  steps : Tab (BitVec 128) := []
  g : Tab U32 := []
  k : Tab (BitVec 64) := []
  iq : Tab (BitVec 64) := []
  oq : Tab (BitVec 64) := []
  xt : Tab (BitVec 32) := []
  entries : Tab (BitVec 16) := []
  lt : Tab (BitVec 16) := []
  hurdles : Tab (BitVec 4) := []
  adapt : BitVec 64 := 0
  ctx : Tab Nat := []
  holds : Tab (Nat × Nat) := []
  deriving DecidableEq, Repr, Inhabited

/-- The words of one stride engine (STRIDE section): program, queue descriptors, semaphore load values, and for each used thread
its entry instruction, spill region and region size in tokens. -/
structure EngineWords where
  prog : Tab (BitVec 64) := []
  eqs : Tab (BitVec 64) := []
  sems : Tab Nat := []
  threads : Tab (Nat × Nat × Nat) := []
  deriving DecidableEq, Repr, Inhabited

/-- The words of an image. Planes by tile key, route words and link endpoint descriptors by station port key, timetables and flow
tables by link key, engines by number; `rest` holds the sections that have no words of a given layout. -/
structure ImgWords where
  planes : Tab PlaneWords := []
  routes : Tab (BitVec 32) := []
  links : Tab (BitVec 128) := []
  tables : Tab (Tab (BitVec 8) × Tab (BitVec 32)) := []
  engines : Tab EngineWords := []
  rest : Image := {}
  deriving DecidableEq, Repr, Inhabited

/-- Queue kinds as coded in Table 8-2. -/
def kindOf (n : Nat) : QKind := if n = 0 then .code else if n = 1 then .side else if n = 2 then .header else .weight

/-- Table 2-3: VALUE of the image's word is the load value (R195). -/
def counterOf (w : BitVec 64) : Counter :=
  { linken := bit w 63
    link := fld w 62 59
    limit := fld w 39 20
    value := fld w 19 0
    load := fld w 19 0 }

/-- The end field of Table 12-4 that names a virtual queue of a tile. -/
def tileEndNo (key q : Nat) : Nat := 512 * (key / 32) + 16 * (key % 32) + q

/-- Rate records of the queue that ends, or begins, at a place. -/
def rateInto (rates : List RateRec) (e : Nat) : Option RateRec := rates.find? (fun r => decide (r.cend = e))
def rateFrom (rates : List RateRec) (e : Nat) : Option RateRec := rates.find? (fun r => decide (r.pend = e))

/-- Table 2-5, with the kind, identity and initial tokens of its rate declaration (R192, R196). -/
def iqOf (rates : List RateRec) (key n : Nat) (w : BitVec 64) : InQueue :=
  let r := (rateInto rates (tileEndNo key n)).getD {}
  { base := fld w 63 50
    size := fld w 49 46
    grain := fld w 45 42
    window := fld w 41 30
    src := fld w 29 28
    kind := kindOf r.kind
    qid := r.qid
    init := r.init }

/-- Table 2-6. -/
def oqOf (rates : List RateRec) (key n : Nat) (w : BitVec 64) : OutQueue :=
  let r := (rateFrom rates (tileEndNo key n)).getD {}
  { shut := bit w 63
    dest := BitVec.ofNat 14 (fld w 62 49)
    grain := fld w 48 45
    credmax := fld w 44 34
    kind := kindOf r.kind
    qid := r.qid
    init := r.init }

/-- Tables 3-3 and 3-4. -/
def xtableOf (entries : Tab (BitVec 16)) (n : Nat) (w : BitVec 32) : XTable :=
  { valid := bit w 31
    xoff := sfld w 30 24
    w8 := bit w 23
    entries := (entries.filter (fun e => e.1 / 256 = n)).map (fun e => (e.1 % 256, fld e.2 8 0)) }

/-- Table 11-3. -/
def adaptRegOf (w : BitVec 64) : AdaptReg :=
  { aen := bit w 63
    actx := fld w 61 60
    hctx := fld w 59 58
    adq := fld w 57 46
    npair := fld w 45 44
    pa0 := fld w 43 40
    pb0 := fld w 39 36
    pa1 := fld w 35 32
    pb1 := fld w 31 28
    pa2 := fld w 27 24
    pb2 := fld w 23 20
    shid := fld w 19 12 }

/-- The plane of a position. -/
def planeOf (rates : List RateRec) (key : Nat) (p : PlaneWords) : Plane :=
  { steps := p.steps
    g := p.g
    k := Tab.map counterOf p.k
    iq := List.map (fun q => (q.1, iqOf rates key q.1 q.2)) p.iq
    oq := List.map (fun q => (q.1, oqOf rates key q.1 q.2)) p.oq
    xt := List.map (fun x => (x.1, xtableOf p.entries x.1 x.2)) p.xt
    lt := Tab.map (·.toNat) p.lt
    hurdles := Tab.map (·.toNat) p.hurdles
    adapt := adaptRegOf p.adapt
    ctx := List.map (fun x =>
      let h := Tab.get (0, 0) p.holds x.1
      (x.1, { state := .halt, entry := x.2, ptr := x.2, holdBase := h.1, holdCap := h.2 })) p.ctx }

/-! The memory side -/

/-- Table 10-5. -/
def engineQueueOf (w : BitVec 64) : EngineQueue :=
  { valid := bit w 63
    outbound := bit w 62
    peer := BitVec.ofNat 14 (fld w 61 48)
    grain := fld w 47 44
    credmax := fld w 43 33
    rate := fld w 32 17
    kind := kindOf (fld w 16 15) }

def engineOf (e : EngineWords) : Engine :=
  { prog := e.prog
    eqs := Tab.map engineQueueOf e.eqs
    semLoad := e.sems
    threads := Tab.map (fun t => { used := true, entry := t.1, region := t.2.1, size := t.2.2 }) e.threads }

/-- Table 8-6. -/
def linkEndOf (w : BitVec 128) : LinkEnd :=
  { cap := fld w 63 53
    grain := fld w 52 49
    kind := fld w 48 47
    receiver := bit w 46
    peer := BitVec.ofNat 14 (fld w 45 32) }

/-- Table 9-3, with the link endpoint of a link port and the identity of its queue. -/
def portOf (rates : List RateRec) (links : Tab (BitVec 128)) (key : Nat) (w : BitVec 32) : StationPort :=
  let e := 32768 + (keyEp key).toNat
  { valid := bit w 31
    link := bit w 30
    inbound := bit w 29
    dcol := fld w 28 24
    drow := fld w 23 19
    diq := fld w 18 15
    peer := BitVec.ofNat 14 (fld w 14 1)
    fin := linkEndOf (Tab.get 0 links key)
    uend := { qid := (((rateInto rates e).or (rateFrom rates e)).map (·.qid)).getD 0 } }

/-- The unit's end of a pass port: its queue's identity, kind, grain and initial tokens as declared (R203), its credits the tile's
ring or the tile's CREDMAX. -/
def endOf (planes : Tab Plane) (rates : List RateRec) (key : Nat) (p : StationPort) : UEnd :=
  let e := 32768 + (keyEp key).toNat
  let r := (if p.inbound then rateFrom rates e else rateInto rates e).getD {}
  let tile := fun (n : Nat) => Tab.get {} planes (32 * (n / 512 % 32) + n / 16 % 32)
  { valid := true
    qid := r.qid
    kind := kindOf r.kind
    grain := r.grain
    init := r.init
    credmax := if p.inbound then ringSize (iqAt (tile r.cend) (r.cend % 16)) else (oqAt (tile r.pend) (r.pend % 16)).credmax }

/-- Table 9-6. -/
def flowOf (w : BitVec 32) : FlowEntry :=
  { valid := bit w 31
    tag := fld w 30 25
    base := fld w 24 11
    count := fld w 10 0 }

/-! Reserved fields (R5) -/

/-- DETAIL of a record (Table 12-13). -/
def place (typ i col row : Nat) : Nat := 2 ^ 48 * typ + 65536 * (i % 2 ^ 32) + 32 * col + row

/-- A word of a table has a non-zero field at [hi:lo]. -/
def anyField {n : Nat} (m : Tab (BitVec n)) (hi lo : Nat) : Bool := m.any (fun w => decide (fld w.2 hi lo ≠ 0))

/-- The RSVD fields of Tables 2-3, 2-5, 2-6, 3-3, 3-4, 11-3. -/
def planeReserved (p : PlaneWords) : Bool :=
  anyField p.k 58 40 || anyField p.iq 6 0 || anyField p.oq 22 0 || anyField p.xt 22 0 || anyField p.entries 15 9
    || decide (fld p.adapt 10 0 ≠ 0)

/-- The places of the words whose RSVD fields are not 0; those of STRIDE words have their own code (R249). -/
def reservedPlaces (m : ImgWords) : List Nat :=
  (m.planes.zipIdx.filter (fun p => planeReserved p.1.2)).map (fun p => place 2 p.2 (p.1.1 / 32) (p.1.1 % 32))
  ++ (m.routes.zipIdx.filter (fun r => bit r.1.2 0)).map (fun r => place 4 r.2 0 0)
  ++ (m.links.zipIdx.filter (fun l => decide (fld l.1.2 15 0 ≠ 0) || decide (fld l.1.2 48 47 = 3))).map
      (fun l => place 4 (m.routes.length + l.2) 0 0)
  ++ (m.tables.zipIdx.filter (fun t => anyField t.1.2.1 7 6)).map (fun t => place 5 t.2 0 0)

/-- The image that the loader makes of the words and the rate declarations. -/
def imageOf (m : ImgWords) (rates : List RateRec) : Image :=
  let planes := List.map (fun p => (p.1, planeOf rates p.1 p.2)) m.planes
  let ports := List.map (fun r => (r.1, portOf rates m.links r.1 r.2)) m.routes
  { m.rest with
    planes := planes
    ports := ports
    tables := Tab.map (fun t => (Tab.map (fun s => fld s 5 0) t.1, Tab.map flowOf t.2)) m.tables
    engines := Tab.map engineOf m.engines
    ends := (ports.filter (fun p => p.2.valid && !p.2.link)).map (fun p => (p.1, endOf planes rates p.1 p.2))
    reserved := reservedPlaces m
    reservedEq := (m.engines.zipIdx.filter (fun e => anyField e.1.2.eqs 14 0)).map (fun e => place 7 e.2 0 0) }

end Sys2Proof.Machine
end

