-- ==== Sys2Proof/Machine/Sha256.lean ====
section
/-! DEFINITION. SHA-256 (FIPS 180-4) and HMAC-SHA-256 (RFC 2104), by which images are identified (R295) and sessions
authenticated (R406). -/

namespace Sys2Proof.Machine

/-- The largest r below 2^`n` with r^k ≤ v, found bit by bit from `r`. -/
def rootBits (k v : Nat) : Nat → Nat → Nat
  | 0, r => r
  | n + 1, r => rootBits k v n (if (r + 2 ^ n) ^ k ≤ v then r + 2 ^ n else r)

/-- No number from 2 to n − 1 divides n. -/
def isPrime (n : Nat) : Bool := decide (1 < n) && (List.range n).all (fun k => decide (k < 2) || decide (n % k ≠ 0))

/-- The first 64 primes: those below 312. -/
def firstPrimes : List Nat := (List.range 312).filter isPrime

/-- The first 32 bits of the fractional part of the k-th root of p: the root of p · 2^32k, without its whole part. -/
def rootFraction (k p : Nat) : U32 := BitVec.ofNat 32 (rootBits k (p * 2 ^ (32 * k)) 38 0)

/-- Initial hash value: square roots of the first 8 primes. -/
def shaInit : List U32 := (firstPrimes.take 8).map (rootFraction 2)

/-- Round constants: cube roots of the first 64 primes. -/
def shaK : List U32 := firstPrimes.map (rootFraction 3)

/-- The xor of a word's rotations. -/
def rotXor (rs : List Nat) (x : U32) : U32 := rs.foldl (fun a r => a ^^^ x.rotateRight r) 0

/-- Word n steps back in a schedule that holds its newest word first. -/
def wordBack (w : List U32) (n : Nat) : U32 := w.getD (n - 1) 0

/-- The message schedule, newest word first: `n` further words. -/
def shaSchedule : Nat → List U32 → List U32
  | 0, w => w
  | n + 1, w =>
    let near := rotXor [17, 19] (wordBack w 2) ^^^ (wordBack w 2 >>> 10)
    let far := rotXor [7, 18] (wordBack w 15) ^^^ (wordBack w 15 >>> 3)
    shaSchedule n ((near + wordBack w 7 + far + wordBack w 16) :: w)

/-- The eight working variables. -/
structure ShaVars where
  a : U32
  b : U32
  c : U32
  d : U32
  e : U32
  f : U32
  g : U32
  h : U32
  deriving DecidableEq, Repr

def shaVars (l : List U32) : ShaVars :=
  let v := fun n => l.getD n 0
  ⟨v 0, v 1, v 2, v 3, v 4, v 5, v 6, v 7⟩

/-- One round, with the sum `kw` of its constant and its schedule word: b to h take their neighbours' values, d's with the
first temporary added, and a takes both temporaries. -/
def shaRound (s : ShaVars) (kw : U32) : ShaVars :=
  let pick := s.g ^^^ (s.e &&& (s.f ^^^ s.g))
  let most := (s.a &&& (s.b ||| s.c)) ||| (s.b &&& s.c)
  let first := kw + s.h + pick + rotXor [6, 11, 25] s.e
  ⟨first + most + rotXor [2, 13, 22] s.a, s.a, s.b, s.c, s.d + first, s.e, s.f, s.g⟩

/-- The eight variables added into the hash value. -/
def shaAdd (l : List U32) (s : ShaVars) : List U32 :=
  List.zipWith (· + ·) l [s.a, s.b, s.c, s.d, s.e, s.f, s.g, s.h]

/-- A big-endian word. -/
def beWord (bs : List Byte) : U32 := BitVec.ofNat 32 (leNat bs.reverse)

/-- Bytes of a number, most significant first. -/
def beBytes (n v : Nat) : List Byte := (leBytes n v).reverse

/-- Words of a block. -/
def blockWords (blk : List Byte) : List U32 := (List.range 16).map (fun i => beWord (sliceBytes blk (4 * i) 4))

/-- Compress one block of 64 bytes. -/
def shaBlock (h : List U32) (blk : List Byte) : List U32 :=
  let w := (shaSchedule 48 (blockWords blk).reverse).reverse
  shaAdd h ((List.zipWith (· + ·) shaK w).foldl shaRound (shaVars h))

/-- Message with its padding. -/
def shaPad (bs : List Byte) : List Byte :=
  bs ++ [0x80] ++ List.replicate ((119 - bs.length % 64) % 64) 0 ++ beBytes 8 (8 * bs.length)

/-- Compress `n` blocks. -/
def shaBlocks : Nat → List U32 → List Byte → List U32
  | 0, h, _ => h
  | n + 1, h, bs => shaBlocks n (shaBlock h (bs.take 64)) (bs.drop 64)

def sha256 (bs : List Byte) : List Byte :=
  let m := shaPad bs
  (shaBlocks (m.length / 64) shaInit m).flatMap (fun w => beBytes 4 w.toNat)

/-- HMAC-SHA-256 with a key of at most 64 bytes. -/
def hmac (key msg : List Byte) : List Byte :=
  let k := sliceBytes key 0 64
  let pad := fun (c : Byte) => k.map (fun b => b ^^^ c)
  sha256 (pad 0x5c ++ sha256 (pad 0x36 ++ msg))

end Sys2Proof.Machine
end

