-- ==== Sys2Proof/Machine/Images.lean ====
section
/-! DEFINITION. Lenilug images (R292 to R301, Tables 12-1 to 12-6): the container, its records, and class 1 of the load check. -/

namespace Sys2Proof

/-- Where the words of an image stand in the sections for which the specification gives contents and no byte layout (assumption
log 7). -/
opaque Config.parseImage : List Byte → Machine.ImgWords

end Sys2Proof

namespace Sys2Proof.Machine

/-! Header and directory (Tables 12-1, 12-2) -/

def imgHeader (bs : List Byte) : Nat := leAt bs 0 128
def hBytes (h : Nat) : Nat := nbits h 287 256
def hSect (h : Nat) : Nat := nbits h 303 288
def hFrate (h : Nat) : Nat := nbits h 351 320
def hSlack (h : Nat) : Nat := nbits h 367 352
def hSlrerun (h : Nat) : Nat := nbits h 383 368
def hSlreplay (h : Nat) : Nat := nbits h 399 384
def hSladapt (h : Nat) : Nat := nbits h 415 400
def hTiles (h : Nat) : Nat := nbits h 431 416
def hQueues (h : Nat) : Nat := nbits h 447 432
def hImgid (h : Nat) : Nat := nbits h 255 128

/-- Frame period W in FCLK (R298). -/
def framePeriod (h : Nat) : Nat := 1600000000 / hFrate h

/-- A directory entry. -/
structure Sect where
  typ : Nat := 0
  optional : Bool := false
  rsvd : Nat := 0
  off : Nat := 0
  len : Nat := 0
  count : Nat := 0
  deriving DecidableEq, Repr, Inhabited

def sectOf (e : Nat) : Sect :=
  { typ := nbits e 15 0
    optional := decide (nbits e 16 16 = 1)
    rsvd := nbits e 31 17
    off := nbits e 63 32
    len := nbits e 95 64
    count := nbits e 127 96 }

def directory (bs : List Byte) : List Sect :=
  (List.range (hSect (imgHeader bs))).map (fun i => sectOf (leAt bs (128 + 16 * i) 16))

def sectionOf (bs : List Byte) (typ : Nat) : Option Sect := (directory bs).find? (fun s => decide (s.typ = typ))

def rateOf (e : Nat) : RateRec :=
  { dq := nbits e 127 96
    init := nbits e 95 80
    kind := nbits e 79 78
    adapt := decide (nbits e 77 77 = 1)
    pend := nbits e 63 48
    cend := nbits e 47 32
    qid := nbits e 31 16
    grain := nbits e 15 12 }

def creditOf (e : Nat) : CreditRec :=
  { qid := nbits e 127 112
    lq := nbits e 111 96
    tq := nbits e 95 80
    nomax := nbits e 79 64
    rtt := nbits e 63 48
    route := nbits e 47 45
    hs := nbits e 44 39
    hr := nbits e 38 33
    wc := nbits e 31 0 }

/-- `n` records of `size` bytes at the start of a section. -/
def recordsOf (bs : List Byte) (typ n size : Nat) : List Nat :=
  match sectionOf bs typ with
  | none => []
  | some s => (List.range n).map (fun i => leAt bs (s.off + size * i) size)

def rateRecords (bs : List Byte) : List Nat := recordsOf bs 0x0008 (hQueues (imgHeader bs)) 16
def creditRecords (bs : List Byte) : List Nat := recordsOf bs 0x0009 (hQueues (imgHeader bs)) 16

/-- Quantisation records: 40 bytes each (Table 4-1), as many as the directory counts. -/
def quantRecords (bs : List Byte) : List Nat := recordsOf bs 0x0006 (((sectionOf bs 0x0006).map (·.count)).getD 0) 40

/-! Failures: a code of Table 12-6 with its DETAIL (Table 12-13). -/

abbrev Failures := List (Nat × Nat)

def failIf (bad : Bool) (code detail : Nat) : Failures := if bad then [(code, detail)] else []

/-- Failures of the entries of a list by their index. -/
def failEach {α : Type} (xs : List α) (f : α → Nat → Failures) : Failures := xs.zipIdx.flatMap (fun p => f p.1 p.2)

/-- The opcodes of Table 5-1. -/
def opcodes : List Nat :=
  [0x00, 0x01, 0x02, 0x03, 0x04, 0x05, 0x06, 0x07, 0x08, 0x09, 0x0A, 0x10, 0x11, 0x12, 0x13, 0x14, 0x20, 0x21, 0x22, 0x23, 0x24,
   0x25, 0x26, 0x27, 0x28, 0x29, 0x2A, 0x2B, 0x2C] ++ [0x30, 0x31, 0x32, 0x33, 0x40, 0x41, 0x42, 0x43]

/-- The known section types in ascending order. -/
def sectTypes : List Nat := [1, 2, 3, 4, 5, 6, 7, 8, 9, 0xA, 0xB, 0xC, 0xFF]

/-! Class 1: the container (R293 to R296, R5) -/

def hashRange (bs : List Byte) : List Byte := bs.take (hBytes (imgHeader bs) - 32)

/-- The same range with bytes 16 to 31 read as zero. -/
def identityRange (bs : List Byte) : List Byte :=
  (hashRange bs).take 16 ++ List.replicate 16 0 ++ (hashRange bs).drop 32

/-- Section types ascend, each once; sections start on 64-byte boundaries, in order, without overlap, inside the image. -/
def sectsOrdered (top : Nat) : Nat → Nat → List Sect → Bool
  | _, _, [] => true
  | typ, at_, s :: ss =>
    decide (typ < s.typ) && decide (at_ ≤ s.off) && decide (s.off % 64 = 0) && decide (s.off + s.len ≤ top)
      && sectsOrdered top s.typ (s.off + s.len) ss

/-- Unknown types must be optional, known ones must not be. -/
def sectKnown (s : Sect) : Bool := if sectTypes.contains s.typ then !s.optional else s.optional

def hashLast (bs : List Byte) : Bool :=
  match (directory bs).getLast? with
  | none => false
  | some s => decide (s.typ = 0xFF) && decide (s.len = 32) && decide (s.off + 32 = hBytes (imgHeader bs))

/-- Sections that this image must hold. -/
def required (h : Nat) : List Nat :=
  [1, 2, 3, 4, 5, 6, 8, 9, 0xA, 0xFF] ++ (if nbits h 96 96 = 1 then [0xB] else []) ++ (if nbits h 97 97 = 1 then [0xC] else [])

def checkContainer (d : Device) (received : Nat) (bs : List Byte) : Failures :=
  let h := imgHeader bs
  let ss := directory bs
  failIf (decide (nbits h 31 0 ≠ 0x474C4E4C)) 0x0101 0
  ++ failIf (decide (nbits h 47 32 ≠ 1)) 0x0102 0
  ++ failIf (decide (nbits h 79 64 ≠ odGet d 0x1000 3)) 0x0103 0
  ++ failIf (decide (nbits h 95 88 ≠ odGet d 0x1001 1 / 256) || decide (odGet d 0x1001 1 % 256 < nbits h 87 80)) 0x0104 0
  ++ failIf (decide (received < hBytes h) || decide (hBytes h < 160) || decide (sha256 (hashRange bs) ≠ sliceBytes bs (hBytes h - 32) 32))
      0x0105 (place 0xFF 0 0 0)
  ++ failIf (decide (hImgid h ≠ leAt (sha256 (identityRange bs)) 0 16)) 0x0106 0
  ++ failIf (!sectsOrdered (hBytes h) 0 (128 + 16 * hSect h) ss || !hashLast bs || decide (received ≠ hBytes h)
      || !(required h).all (fun t => ss.any (fun s => s.typ = t))) 0x0107 0
  ++ failEach ss (fun s i => failIf (!sectKnown s) 0x0107 (place s.typ i 0 0) ++ failIf (decide (s.rsvd ≠ 0)) 0x0108 (place s.typ i 0 0))
  ++ failIf (decide (nbits h 1023 768 ≠ 0) || decide (nbits h 319 304 ≠ 0) || decide (nbits h 127 99 ≠ 0)) 0x0108 0
  ++ failEach (rateRecords bs) (fun r i => failIf (decide (nbits r 76 64 ≠ 0) || decide (nbits r 11 0 ≠ 0)) 0x0108 (place 8 i 0 0))
  ++ failEach (creditRecords bs) (fun r i => failIf (decide (nbits r 32 32 ≠ 0) || decide (6 ≤ nbits r 47 45)) 0x0108 (place 9 i 0 0))
  ++ failEach (quantRecords bs) (fun r i => failIf (decide (nbits r 319 288 ≠ 0) || decide (nbits r 127 104 ≠ 0)) 0x0108 (place 6 i 0 0))
  ++ failIf (decide (268435456 < hBytes h)) 0x0109 0

end Sys2Proof.Machine
end

