-- ==== Sys2Proof/Machine/StepChecks.lean ====
section
/-! DEFINITION. The load check of step words (classes 0x02 to 0x04 of Table 12-6, and R5 for step words): reserved fields, operands,
expansion tables, tensors. Every test reads the words and the records of the image alone. -/

namespace Sys2Proof.Machine

/-- A step of an image: tile key, plane, number, word, and the image's quantisation records. -/
structure Site where
  img : Image
  recs : List Nat
  key : Nat
  p : Plane
  n : Nat
  w : BitVec 128

def Site.op (s : Site) : Nat := wOpcode s.w

/-- Some step of a plane has a property. -/
def anyStep (img : Image) (recs : List Nat) (key : Nat) (p : Plane) (f : Site → Bool) : Bool :=
  p.steps.any (fun e => f { img := img, recs := recs, key := key, p := p, n := e.1, w := e.2 })

/-! Reserved fields (R5, R111): Table 5-2 and the entry of each opcode -/

def opsWithDa : List Nat :=
  [0x05, 0x06, 0x07, 0x08, 0x09, 0x10, 0x11, 0x12, 0x13, 0x14, 0x21, 0x22, 0x24, 0x25, 0x26, 0x27, 0x28, 0x29, 0x2A, 0x2B, 0x2C, 0x32,
   0x40, 0x41, 0x42, 0x43]
def opsWithDb : List Nat := [0x05, 0x06, 0x07, 0x10, 0x11, 0x12, 0x13, 0x14, 0x20, 0x21, 0x26, 0x32, 0x40, 0x41, 0x42, 0x43]
def opsWithDc : List Nat := [0x03, 0x05, 0x09, 0x14, 0x21, 0x23, 0x2C, 0x32, 0x42]
def opsWithPr : List Nat := [0x05, 0x21, 0x25, 0x26, 0x27, 0x28, 0x29, 0x2A, 0x2B, 0x2C, 0x33, 0x42, 0x43]
/-- Opcodes that send tokens whose L they set. -/
def opsWithLm : List Nat :=
  [0x05, 0x06, 0x07, 0x08, 0x14, 0x21, 0x23, 0x25, 0x26, 0x27, 0x28, 0x29, 0x2A, 0x2B, 0x32, 0x33, 0x43]

/-- Opcodes by the top of the reserved field that ends at bit 8. -/
def reservedTop : Tab Nat :=
  [(0x00, 51), (0x01, 48), (0x02, 41), (0x03, 35), (0x04, 27), (0x05, 40), (0x06, 50), (0x07, 51), (0x08, 39), (0x09, 39), (0x0A, 51),
   (0x10, 18), (0x11, 17), (0x12, 20), (0x13, 14), (0x14, 16), (0x20, 33), (0x21, 20), (0x22, 49), (0x23, 48), (0x24, 49), (0x25, 38),
   (0x26, 20), (0x28, 11), (0x29, 32), (0x2A, 38), (0x2C, 11)]
  ++ [(0x30, 30), (0x31, 45), (0x33, 25), (0x40, 20), (0x41, 12), (0x42, 34)]

/-- LOSS: the reserved fields of its modes (Tables 11-8, 11-13). -/
def lossReserved (w : BitVec 128) : Bool :=
  match fld w 51 50 with
  | 0 | 1 => decide (fld w 28 8 ≠ 0)
  | 2 => bit w 49 || decide (fld w 20 8 ≠ 0)
  | _ => decide (fld w 30 8 ≠ 0)

/-- A field of the word holds a value that its table reserves. -/
def reservedValue (w : BitVec 128) : Bool :=
  match wOpcode w with
  | 0x02 => decide (fld w 51 50 = 3)
  | 0x05 => decide (4 < fld w 46 44) || [1, 5, 6, 7].contains (fld w 43 41)
  | 0x10 | 0x11 => decide (fld w 50 49 = 3) || decide (fld w 42 41 = 3)
  | 0x12 | 0x13 | 0x40 | 0x41 => decide (fld w 50 49 = 3)
  | 0x21 => decide (fld w 26 25 = 3)
  | 0x24 => decide (fld w 51 50 < 2)
  | 0x26 => decide (4 < fld w 51 49)
  | 0x28 => decide (fld w 48 47 = 3)
  | _ => false

/-- R5: a reserved field of a step word is not 0. -/
def stepReserved (w : BitVec 128) : Bool :=
  let op := wOpcode w
  (!opsWithDa.contains op && decide (wDa w ≠ 0)) || (!opsWithDb.contains op && decide (wDb w ≠ 0))
    || (!opsWithDc.contains op && decide (wDc w ≠ 0)) || (!opsWithPr.contains op && decide (wPr w ≠ 0))
    || (!opsWithLm.contains op && decide (wLm w ≠ 0))
    || ((Tab.find reservedTop op).map (fun hi => decide (fld w hi 8 ≠ 0))).getD false
    || (decide (op = 0x43) && lossReserved w) || reservedValue w

/-! Operands -/

/-- The descriptor registers whose operands the step's mode uses. -/
def operandRegs (w : BitVec 128) : List Nat :=
  let a := [wDa w]
  let b := [wDb w]
  let c := [wDc w]
  let when_ := fun (p : Bool) (rs : List Nat) => if p then rs else []
  match wOpcode w with
  | 0x03 => c
  | 0x05 => a ++ when_ (decide (0 < wNb w)) b ++ c
  | 0x06 => when_ (bit w 51) (a ++ b)
  | 0x09 => a ++ c
  | 0x14 => a ++ b ++ when_ (bit w 49) c
  | 0x20 => b
  | 0x21 => when_ (bit w 44) a ++ when_ (bit w 46) b ++ when_ (bit w 43) c
  | 0x23 => when_ (bit w 50) c
  | 0x2C => a ++ c
  | 0x32 => a ++ b ++ c
  | 0x42 => if bit w 49 then c else a ++ b
  | 0x43 => if fld w 51 50 = 3 then b else a
  | 0x07 | 0x10 | 0x11 | 0x12 | 0x13 | 0x26 | 0x40 | 0x41 => a ++ b
  | op => if opsWithDa.contains op then a else []

/-- The block memory that the descriptor in registers n and n + 1 names, itself or through its ring. -/
def descBm (p : Plane) (n : Nat) : Nat :=
  let d := regPair p n
  if bit d 63 then (iqAt p (fld d 62 59)).base / 1024 else fld d 62 59

/-- The aspect mode of a block memory of a tile (Table 2-8). -/
def declaredMode (img : Image) (key bm : Nat) : Nat :=
  ((img.regions.find? (fun r => decide (r.tile = key) && decide (r.bm = bm))).map (·.mode)).getD 0

/-- Registers that the step names: descriptor pairs, and its parameter block (R26, R115, R279). -/
def namedRegs (w : BitVec 128) : List Nat :=
  (operandRegs w).flatMap (fun n => [n, n + 1])
    ++ (if opsWithPr.contains (wOpcode w) then (List.range (if wOpcode w = 0x42 then 12 else 4)).map (wPr w + ·) else [])

/-- R26: a common register or one of the step's own context. -/
def regOwn (c r : Nat) : Bool := decide (r < 32) || (decide (r < 64) && decide ((r - 32) / 8 = c))

/-- FCLK that an issue takes by its operand counts (the entries of chapters 5, 7 and 11). -/
def stepCycles (p : Plane) (w : BitVec 128) : Nat :=
  match wOpcode w with
  | 0x05 => 8
  | 0x06 => if bit w 51 then wNa w + 8 else 1
  | 0x07 => 4
  | 0x08 | 0x09 => fld w 51 40 + 1
  | 0x0A => wNa w * 2 ^ (iqAt p (wIqa w)).grain
  | 0x10 | 0x11 => (fld w 40 29 + 1) * (if fld w 42 41 = 0 then 16 else 32)
  | 0x12 => 15 * fld w 33 31 + (fld w 42 38 - 1) * fld w 37 34 + 1
  | 0x13 => 16 * (fld w 44 33 + 1)
  | 0x14 => 17 * (fld w 48 39 + 1 + b2n (bit w 50)) + 8
  | 0x20 => 16
  | 0x21 => (if bit w 50 then 2 else 1) * (if bit w 44 then 128 else if fld w 22 21 = 1 then 32 else 16)
  | 0x22 => 128
  | 0x23 => if bit w 50 then 128 else 64
  | 0x24 => if fld w 51 50 = 2 then 2048 else 12288
  | 0x25 => 2 * (fld w 50 39 + 1)
  | 0x26 => 2 * (fld w 48 37 + 1)
  | 0x27 => 2 * fld w 50 47 * fld w 46 43
  | 0x28 => 2 * (fld w 42 40 + 1)
  | 0x29 => 8
  | 0x2A => 3 * ((fld w 50 39 + 16) / 16)
  | 0x2B => 2 * ((fld w 51 40 + 16) / 16) + 8
  | 0x2C => if fld w 51 50 = 0 then 72 else if fld w 51 50 = 3 then 64 + max (64 * fld w 23 18) (2 * fld w 23 18 * fld w 17 12) else 4160
  | 0x30 | 0x31 => wNb w * 2 ^ (iqAt p (wIqb w)).grain
  | 0x32 => selectCycles (fld w 19 8 + 1) (fld w 51 46 + 1)
  | 0x33 => max ((fld w 44 38 + 1) * (fld w 51 45 + 1) / 2) (cropTokens w) + 16
  | 0x40 => 16 * (fld w 42 31 + 1)
  | 0x41 => 16 * (fld w 44 33 + 1)
  | 0x42 => if bit w 49 then 32 else 80
  | 0x43 => if fld w 51 50 = 3 then 16 else 3 * ((fld w 48 37 + 16) / 16)
  | _ => 1
where
  /-- R182. -/
  selectCycles (ncand slots : Nat) : Nat :=
    let np := max 16 (2 ^ Nat.clog 2 ncand)
    let l := Nat.log2 np
    np * l * (l + 1) / 32 + np * slots / 16 + np / 2 + 128
  /-- Output tokens of CROP (R185). -/
  cropTokens (w : BitVec 128) : Nat :=
    let oh := fld w 44 38 + 1
    let ow := fld w 51 45 + 1
    let op := fld w 29 26
    if op ≤ 1 then oh * ow else oh * ((ow + op - 1) / op)

/-- Tokens of NA, NB and NO units. -/
def unitsA (p : Plane) (w : BitVec 128) : Nat := wNa w * 2 ^ (iqAt p (wIqa w)).grain
def unitsB (p : Plane) (w : BitVec 128) : Nat := wNb w * 2 ^ (iqAt p (wIqb w)).grain
def unitsO (p : Plane) (w : BitVec 128) : Nat := wNo w * 2 ^ (oqAt p (wOq w)).grain

/-- What the entries of R118, R119, R128, R130, R136 to R139 require of the fields. -/
def stepShapeBad (p : Plane) (w : BitVec 128) : Bool :=
  match wOpcode w with
  | 0x04 => decide (wNo w ≠ 0)
  | 0x0A => decide (unitsO p w ≠ unitsA p w)
  | 0x11 =>
    let d := regPair p (wDb w)
    !bit d 63 || decide (fld d 62 59 ≠ wIqb w) || (if bit w 18 then decide (unitsO p w ≠ unitsB p w) else decide (wNo w ≠ 0))
  | 0x12 => decide (fld w 42 38 = 0) || decide (fld w 37 34 = 0) || decide (fld w 33 31 = 0)
  | 0x28 => decide (fld w 51 50 < 2) && decide (wNo w ≠ 0)
  | 0x2A => decide (Tab.get 0 p.lt (256 * b2n (bit w 51)) = 0)
  | 0x30 => decide (wNa w ≠ 1) || decide (fld w 51 46 ≠ wNb w) || decide (wNo w ≠ wNb w)
  | 0x31 => decide (fld w 51 46 ≠ wNa w) || decide (wNa w ≠ wNb w) || decide (wNo w ≠ wNa w)
  | _ => false

/-- R174: IC's row and column counts, its staging size, and SOFF = −12 − PW for the stage's frequency-domain layer. -/
def icBad (s : Site) : Bool :=
  decide (s.op = 0x2C) && decide (fld s.w 51 50 = 3) &&
    (decide (fld s.w 23 18 = 0) || decide (fld s.w 17 12 = 0) || decide (2048 < fld s.w 23 18 * fld s.w 17 12 * (fld s.w 33 30 + 1))
      || !(s.img.stages.any (fun st => st.contexts.contains (s.key, wCtx s.w)
          && st.layers.any (fun l => (l.spectral.map (fun f => decide (sfld s.w 49 42 = -12 - f.pw))).getD false))))

/-- The two operands of an array step lie in different block memories (R22, R173). -/
def sameBm (p : Plane) (w : BitVec 128) : Bool :=
  if [0x10, 0x11, 0x12, 0x13, 0x14, 0x40, 0x41].contains (wOpcode w) then decide (descBm p (wDa w) = descBm p (wDb w))
  else decide (wOpcode w = 0x2C) && decide (descBm p (wDa w) = descBm p (wDc w))

/-- The step takes both inputs from one queue (R29). -/
def sameInputs (w : BitVec 128) : Bool := decide (0 < wNa w) && decide (0 < wNb w) && decide (wIqa w = wIqb w)

/-! Tensors -/

def recordFor (recs : List Nat) (tid : Nat) : Option (BitVec 320) :=
  (recs.find? (fun r => decide (r % 65536 = tid))).map (BitVec.ofNat 320)

def qOmode (r : BitVec 320) : Nat := fld r 23 22
def qRot (r : BitVec 320) : Nat := fld r 19 18

/-- What the image declares of the step's tensors. -/
def Site.uses (s : Site) : TensorUse :=
  (s.img.uses.find? (fun u => decide (u.tile = s.key) && decide (u.step = s.n))).getD {}
def Site.recA (s : Site) : Option (BitVec 320) := s.uses.a.bind (recordFor s.recs)
def Site.recB (s : Site) : Option (BitVec 320) := s.uses.b.bind (recordFor s.recs)
def Site.recOut (s : Site) : Option (BitVec 320) := s.uses.out.bind (recordFor s.recs)

/-- A test of a record, where the step has one. -/
def recTest (r : Option (BitVec 320)) (f : BitVec 320 → Bool) : Bool := (r.map f).getD false

/-- R53, Table 3-2: the array mode of CONV and MATW is that of the activation tensor. -/
def layoutBad (s : Site) : Bool :=
  (decide (s.op = 0x10) || decide (s.op = 0x11)) && recTest s.recA (fun r => decide (fld s.w 42 41 ≠ qOmode r))

/-- Steps that apply the enables and bounds of PR + 2 and PR + 3 (R115). -/
def narrows (w : BitVec 128) : Bool :=
  [0x21, 0x26, 0x2B].contains (wOpcode w) || (decide (wOpcode w = 0x27) && bit w 51)
    || (decide (wOpcode w = 0x28) && decide (fld w 51 50 = 3)) || (decide (wOpcode w = 0x2C) && decide (fld w 51 50 = 3))

/-- R115: PR + 2 and PR + 3, and RQ's own fields, against the output tensor's record. -/
def blockBad (s : Site) : Bool :=
  narrows s.w && recTest s.recOut (fun r =>
    let p2 := regRead s.p (wPr s.w + 2)
    let p3 := regRead s.p (wPr s.w + 3)
    decide (fld p2 31 16 ≠ fld r 63 48) || decide (fld p2 15 0 ≠ fld r 79 64) || decide (fld p3 31 16 ≠ qZ16 r)
      || decide (fld p3 15 8 ≠ qZp r) || decide (bit p3 1 ≠ bit r 17) || decide (bit p3 0 ≠ bit r 16) || decide (fld p3 7 2 ≠ 0)
      || (decide (s.op = 0x21) && (decide (bit s.w 24 ≠ bit r 17) || decide (bit s.w 23 ≠ bit r 16)
          || decide (fld s.w 26 25 ≠ qOmode r) || decide (fld s.w 22 21 ≠ qRot r))))

/-- R132: without SIQ the output scale must be static. R136: BCHK's fields are the record's. R135: a band's tensor is U8R. -/
def scaleFieldsBad (s : Site) : Bool :=
  recTest s.recOut (fun r => match s.op with
    | 0x05 => !bit s.w 47 && decide (fld s.w 46 44 ≠ 3) && decide (qKs r ≠ 0)
    | 0x04 => decide (fld s.w 51 36 ≠ fld r 95 80) || decide (fld s.w 35 28 ≠ fld r 103 96)
    | 0x03 => decide (qOmode r ≠ 2)
    | _ => false)

/-- Code 0x0202. -/
def operandBad (s : Site) : Bool :=
  let regs := operandRegs s.w
  sameInputs s.w || sameBm s.p s.w || regs.any (fun n => decide (n % 2 = 1) || decide (11 < descBm s.p n)
      || decide (declaredMode s.img s.key (descBm s.p n) ≠ 0))
    || (namedRegs s.w).any (fun r => !regOwn (wCtx s.w) r) || (opsWithPr.contains s.op && decide (wPr s.w % 4 ≠ 0))
    || decide (65536 < stepCycles s.p s.w) || stepShapeBad s.p s.w || icBad s || layoutBad s || blockBad s || scaleFieldsBad s

/-- The expansion table that a step names. -/
def tableOf (w : BitVec 128) : Option Nat :=
  match wOpcode w with
  | 0x10 | 0x11 | 0x12 | 0x40 | 0x42 => some (fld w 44 43)
  | 0x21 => if bit w 47 then none else some (fld w 49 48)
  | 0x43 => if fld w 51 50 = 3 then some (fld w 48 47) else none
  | _ => none

/-- R58: the step names a table that holds no weight tensor. -/
def emptyTable (s : Site) : Bool := ((tableOf s.w).map (fun n => !(xtAt s.p n).valid)).getD false

/-- R182, R185: SELECT's three block memories and time, CROP's counts. -/
def regionStepBad (s : Site) : Bool :=
  match s.op with
  | 0x32 =>
    let a := descBm s.p (wDa s.w)
    let b := descBm s.p (wDb s.w)
    let c := descBm s.p (wDc s.w)
    decide (a = b) || decide (a = c) || decide (b = c) || decide (65536 < stepCycles s.p s.w)
  | 0x33 =>
    let oh := fld s.w 44 38 + 1
    let ow := fld s.w 51 45 + 1
    decide (ow % 2 = 1) || decide (fld s.w 29 26 = 0) || decide (10 < fld s.w 29 26) || decide (wNa s.w ≠ 1)
      || decide (unitsB s.p s.w ≠ oh * ow / 2) || decide (unitsO s.p s.w ≠ stepCycles.cropTokens s.w)
  | _ => false

/-- R101. -/
def tfnBad (s : Site) : Bool :=
  let wide := fun (r : BitVec 320) => decide (qKs r ≠ 0) || decide (qOmode r ≠ 0)
  decide (s.op = 0x25) && (recTest s.recA wide || recTest s.recOut wide)

/-- Tokens that RQ emits (R123). -/
def rqUnits (w : BitVec 128) : Nat :=
  if bit w 43 then 0
  else if fld w 26 25 = 2 then 32
  else (if fld w 26 25 = 1 then 16 else 8) * (if bit w 50 then 2 else 1)

/-- Operations that accept W16 input (Table 5-1), or read no tensor's codes. -/
def acceptsWide (op : Nat) : Bool := decide (op < 0x10) || [0x10, 0x11, 0x30, 0x31].contains op

/-- R100, R123, R108: wide and rotated tensors. -/
def wideBad (s : Site) : Bool :=
  (!acceptsWide s.op && (recTest s.recA (fun r => decide (qOmode r ≠ 0)) || recTest s.recB (fun r => decide (qOmode r ≠ 0))))
    || (decide (s.op = 0x21) && ((decide (fld s.w 26 25 = 2) && !bit s.w 50) || decide (unitsO s.p s.w ≠ rqUnits s.w)))
    || (decide (0x10 ≤ s.op) && decide (s.op ≠ 0x10) && decide (s.op ≠ 0x11)
        && (recTest s.recA (fun r => decide (qRot r ≠ 0)) || recTest s.recB (fun r => decide (qRot r ≠ 0))))

/-! Factors (R82, R83) -/

/-- Scale codes of H: 2^−h. -/
def scaleBy (m : U32) (h : Nat) : U32 := if h = 0 then m else f32Scale m (-(h : Int))

/-- The factors that a SCALE step forms from effective scales (R132). -/
def factorsAt (kind h : Nat) (sa sb so : U32) : List U32 :=
  match kind with
  | 0 => [scaleBy (f32Div sa so) h]
  | 1 => [scaleBy (f32Div (f32Mul sa sb) so) h]
  | 2 => [scaleBy (f32Div sa so) h, scaleBy (f32Div sb so) h]
  | 4 => [scaleBy (f32Div (BitVec.ofNat 32 0x3F800000) so) h]
  | _ => []

/-- SFLOOR and SCEIL of a tensor. -/
def extremes (r : Option (BitVec 320)) : List U32 := (r.map (fun r => [qSfloor r, qSceil r])).getD []

/-- Every factor of a SCALE step at the extreme scales of its tensors (R83); an operand that the step does not have counts as 1. -/
def scaleFactorsAt (s : Site) : List U32 :=
  let one : List U32 := [BitVec.ofNat 32 0x3F800000]
  let orOne := fun (l : List U32) => if l.isEmpty then one else l
  (orOne (extremes s.recA)).flatMap (fun a => (orOne (extremes s.recB)).flatMap (fun b => (extremes s.recOut).flatMap (fun o =>
    factorsAt (fld s.w 46 44) (fld s.w 43 41) a b o)))

/-- R83: a factor is not a positive normal value. -/
def factorBad (s : Site) : Bool := decide (s.op = 0x05) && (scaleFactorsAt s).any (fun m => !f32PosNormal m)

/-! A-tiles (R48, R283) -/

def rowBad (s : Site) : Bool := decide (2 ≤ s.key % 32) && decide (0x40 ≤ s.op)

/-- R283: a step of ACTX longer than 2,048 FCLK. -/
def actxLong (s : Site) : Bool := s.p.adapt.aen && decide (s.p.adapt.actx = wCtx s.w) && decide (2048 < stepCycles s.p s.w)

/-- The failures of step words, by code. -/
def checkSteps (img : Image) (recs : List Nat) : Failures :=
  failEach img.planes (fun q i =>
    let at_ := place 2 i (q.1 / 32) (q.1 % 32)
    let bad := fun (f : Site → Bool) (code : Nat) => failIf (anyStep img recs q.1 q.2 f) code at_
    bad (fun s => !opcodes.contains s.op) 0x0201 ++ bad operandBad 0x0202 ++ bad emptyTable 0x0204 ++ bad rowBad 0x0205
      ++ bad actxLong 0x0208 ++ bad regionStepBad 0x0306 ++ bad factorBad 0x0403 ++ bad tfnBad 0x0404 ++ bad wideBad 0x0405)

/-- Class 1 of what the words hold (R5). -/
def checkReserved (img : Image) : Failures :=
  failEach img.planes (fun q i => failIf (q.2.steps.any (fun e => stepReserved e.2)) 0x0108 (place 2 i (q.1 / 32) (q.1 % 32)))
  ++ img.reserved.map (fun p => (0x0108, p))

end Sys2Proof.Machine
end

