-- ==== Sys2Proof/Machine/PlaneChecks.lean ====
section
/-! DEFINITION. The load check of planes, regions, stages, engines, tensors and the adapted head (classes 0x02 to 0x04 of Table 12-6)
that needs no walk of a frame pass. -/

namespace Sys2Proof.Machine

/-- Pairwise test of a list. -/
def anyPair {α : Type} (f : α → α → Bool) : List α → Bool
  | [] => false
  | x :: xs => xs.any (f x) || anyPair f xs

/-! Counters and tables (R28, R58) -/

/-- The chain of LINKs from counter n stays in its context and ends within four counters (R28). -/
def chainOk (p : Plane) (c : Nat) : Nat → Nat → Bool
  | 0, _ => false
  | fuel + 1, n =>
    let k := counterAt p n
    decide (n / 4 = c) && (!k.linken || chainOk p c fuel k.link)

/-- R28. A LOOPK with LOOPEN = 0 and a LINK with LINKEN = 0 name no counter: DEDUCED (assumption log 110). -/
def countersOk (p : Plane) : Bool :=
  p.steps.all (fun s => !wLoopen s.2 || decide (wLoopk s.2 / 4 = wCtx s.2)) && p.k.all (fun k => chainOk p (k.1 / 4) 4 k.1)

/-- Entries 16 to 255 are 0 where W8 = 0 (R58). -/
def tablesOk (p : Plane) : Bool :=
  p.xt.all (fun x => x.2.w8 || x.2.entries.all (fun e => decide (e.1 < 16) || decide (e.2 = 0)))

/-! Queue ownership (R151, R189, R310) -/

/-- The step pops an input queue: as IQA, as IQB or as SIQ. -/
def pops (w : BitVec 128) (iq : Nat) : Bool :=
  (decide (0 < wNa w) && decide (wIqa w = iq)) || (decide (0 < wNb w) && decide (wIqb w = iq))
    || (decide (wOpcode w = 0x05) && bit w 47 && decide (fld w 51 48 = iq))

/-- Contexts whose steps pop an input queue, and that fill an output queue. -/
def poppers (p : Plane) (iq : Nat) : List Nat := ((p.steps.filter (fun s => pops s.2 iq)).map (fun s => wCtx s.2)).dedup
def fillers (p : Plane) (oq : Nat) : List Nat :=
  ((p.steps.filter (fun s => decide (0 < wNo s.2) && decide (wOq s.2 = oq))).map (fun s => wCtx s.2)).dedup

/-- Exactly one context pops a declared input queue and fills a declared output queue; none uses an undeclared one (R189). Every
context pops a queue that is not WEIGHT (R310). -/
def ownershipOk (p : Plane) : Bool :=
  (List.range 16).all (fun q =>
      decide ((poppers p q).length = if (Tab.find p.iq q).isSome then 1 else 0)
        && decide ((fillers p q).length = if (Tab.find p.oq q).isSome then 1 else 0))
    && p.ctx.all (fun x => decide (x.2.state = .idle) || p.iq.any (fun q => decide (q.2.kind ≠ .weight) && (poppers p q.1).contains x.1))

/-- Tile key and input queue that an output queue without SHUT names. -/
def oqTile (q : OutQueue) : Nat × Nat := (32 * fld q.dest 13 9 + fld q.dest 8 4, fld q.dest 3 0)

/-- Output queues, and inbound station ports, that feed an input queue. -/
def tileFeeders (img : Image) (key iq : Nat) : List Nat :=
  img.planes.flatMap (fun p => (p.2.oq.filter (fun q => !q.2.shut && decide (oqTile q.2 = (key, iq)))).map (fun _ => p.1))
def portFeeders (img : Image) (key iq : Nat) : List Nat :=
  (img.ports.filter (fun p => p.2.valid && p.2.inbound && decide (32 * p.2.dcol + p.2.drow = key) && decide (p.2.diq = iq))).map (·.1)

/-- R151: one output queue, or one station port, feeds the queue, and SRC says which kind (Table 2-5). -/
def fedOnce (img : Image) (key iq src : Nat) : Bool :=
  if src = 0 ∨ src = 3 then
    decide ((tileFeeders img key iq).length = 1) && decide ((portFeeders img key iq).length = 0)
      && (tileFeeders img key iq).all (fun k => decide ((k = key) ↔ src = 3))
  else decide ((tileFeeders img key iq).length = 0) && decide ((portFeeders img key iq).length = 1)

/-- Every output queue without SHUT feeds a declared input queue. -/
def landsOk (img : Image) (p : Plane) : Bool :=
  p.oq.all (fun q => q.2.shut || ((Tab.find img.planes (oqTile q.2).1).bind (fun t => Tab.find t.iq (oqTile q.2).2)).isSome)

/-! Rings (R30, R191) -/

/-- R30, Table 2-5: sizes, one block memory (1,024 tokens each, twelve of them), alignment, room for WINDOW + 63 units. -/
def ringOk (q : InQueue) : Bool :=
  decide (4 ≤ q.size) && decide (q.size ≤ 10) && decide (q.grain ≤ 8) && decide (q.base + ringSize q ≤ 12288)
    && decide (q.base % ringSize q = 0) && decide ((q.window + 63) * 2 ^ q.grain ≤ ringSize q)

def ringsSum (p : Plane) : Nat := p.iq.foldl (fun n q => n + ringSize q.2) 0

/-- Failures of a plane. -/
def checkPlanes (img : Image) : Failures :=
  failEach img.planes (fun q i =>
    let p := q.2
    let at_ := place 2 i (q.1 / 32) (q.1 % 32)
    failIf (!countersOk p) 0x0203 at_
    ++ failIf (!tablesOk p) 0x0204 at_
    ++ failIf (!ownershipOk p || !landsOk img p || p.iq.any (fun x => !fedOnce img q.1 x.1 x.2.src)) 0x0206 at_
    ++ failIf (p.iq.any (fun x => !ringOk x.2) || decide (4096 < ringsSum p)) 0x0302 at_
    ++ failIf (decide (20 ≤ q.1 / 32) || decide (20 ≤ q.1 % 32)) 0x0304 at_)

/-! Regions (R236, R271) -/

/-- Two region records share a word of a tile. -/
def regionsMeet (x y : Region) : Bool :=
  decide (x.tile = y.tile) && decide (x.bm = y.bm) && decide (x.first < y.first + y.len) && decide (y.first < x.first + x.len)

/-- Two regions of one block memory declare different aspect modes. -/
def modesDiffer (x y : Region) : Bool := decide (x.tile = y.tile) && decide (x.bm = y.bm) && decide (x.mode ≠ y.mode)

/-- The placement rule of a row of Table 10-1, by KIND: 0 ring, 1 weights, 2 table sources, 3 sums, 4 band hold, 5 scale state, 6
workspace, 7 SB16 block, 8 selection, 9 code staging, 10 constants. -/
def placementOk (r : Region) : Bool :=
  match r.kind with
  | 1 => decide (r.mode = 0)
  | 2 => decide (r.mode = 0) && decide (r.len % 32 = 0)
  | 5 => decide (r.first % 512 = 0) && decide (r.len = 768)
  | 6 => decide (r.len % 128 = 0)
  | 7 => decide (r.len = 1152)
  | 10 => decide (r.len % 2 = 0)
  | k => decide (k < 11)

/-- A ring lies in a declared ring region. -/
def ringPlaced (img : Image) (key : Nat) (q : InQueue) : Bool :=
  img.regions.any (fun r => decide (r.tile = key) && decide (r.kind = 0) && decide (2048 * r.bm + r.first ≤ 2 * q.base)
    && decide (2 * (q.base + ringSize q) ≤ 2048 * r.bm + r.first + r.len))

/-- The band hold region of a context holds its declared tokens: 36 bytes each (R102, R135). -/
def holdPlaced (img : Image) (key : Nat) (x : Context) : Bool :=
  decide (x.holdCap = 0) || img.regions.any (fun r => decide (r.tile = key) && decide (r.kind = 4)
    && decide (2048 * r.bm + r.first = x.holdBase) && decide (36 * x.holdCap ≤ 16 * r.len))

def checkRegions (img : Image) : Failures :=
  failEach img.regions (fun r i =>
    failIf (decide (12 ≤ r.bm) || decide (2048 < r.first + r.len) || decide (4 ≤ r.mode) || !placementOk r) 0x0303
      (place 3 i (r.tile / 32) (r.tile % 32)))
  ++ failIf (anyPair regionsMeet img.regions || anyPair modesDiffer img.regions) 0x0303 (place 3 0 0 0)
  ++ failEach img.planes (fun q i => failIf (q.2.iq.any (fun x => !ringPlaced img q.1 x.2) || q.2.ctx.any (fun x => !holdPlaced img q.1 x.2))
      0x0303 (place 2 i (q.1 / 32) (q.1 % 32)))

/-! Stages (R19, R147, R168, R176, R188) -/

/-- Logical positions are neighbours. -/
def neighbours (x y : Nat) : Bool :=
  let gap := fun (a b : Nat) => (a - b) + (b - a)
  decide (gap (x / 32) (y / 32) + gap (x % 32) (y % 32) = 1)

def isChain : List Nat → Bool
  | x :: y :: l => neighbours x y && isChain (y :: l)
  | _ => true

/-- Every position of the bounding box, each once. -/
def isRectangle (l : List Nat) : Bool :=
  let cs := l.map (· / 32)
  let rs := l.map (· % 32)
  let span := fun (m : List Nat) => m.foldl max 0 + 1 - m.foldl min (m.foldl max 0)
  decide (l.dedup.length = l.length) && decide (l.length = span cs * span rs)

/-- Output size of one dimension (R147), floor toward minus infinity. -/
def outSize (n before after k s d : Nat) : Int := ((n : Int) + before + after - (d : Int) * ((k : Int) - 1) - 1) / (s : Int) + 1

def sizeBad (l : LayerDecl) : Bool :=
  decide (l.sh = 0) || decide (l.sw = 0) || decide (outSize l.h l.pt l.pb l.kh l.sh l.dh < 1) || decide (outSize l.w l.pl l.pr l.kw l.sw l.dw < 1)

/-- Span of a dilated filter. -/
def spanOf (k d : Nat) : Nat := (k - 1) * d + 1

/-- m · 2^e ≤ 4,096. -/
def within4096 (m : Nat) (e : Int) : Bool := if 0 ≤ e then decide (m * 2 ^ e.toNat ≤ 4096) else decide (m ≤ 4096 * 2 ^ (-e).toNat)

/-- R176: A_o ≤ 4,096 for every output channel, with the largest factor at the records' extreme scales. -/
def errorBound (rin rout : BitVec 320) (f : SpectralDecl) : Bool :=
  let m := f32Div (qSceil rin) (qSfloor rout)
  f32Finite m && f.sums.all (fun s => within4096 ((255 * s.1 + s.2) * f32Mant m) (f.xoff - 10 + f32Em m))

/-- R168. -/
def spectralBad (recs : List Nat) (l : LayerDecl) : Bool :=
  match l.spectral with
  | none => false
  | some f =>
    let sh := spanOf l.kh l.dh
    let sw := spanOf l.kw l.dw
    decide (l.sh ≠ 1) || decide (l.sw ≠ 1) || !(decide (f.groups = 1) || f.depthwise) || decide (31 < l.kh) || decide (31 < l.kw)
      || decide (49 < sh) || decide (49 < sw) || decide (max sh sw < 9) || decide (1024 < f.cin)
      || (match recordFor recs l.tidIn, recordFor recs l.tidOut with
        | some a, some b => decide (qOmode a ≠ 0) || decide (qOmode b ≠ 0) || !errorBound a b f
        | _, _ => true)

/-- Two stages claim one context (R188). -/
def stagesClash (x y : StageRec) : Bool := x.contexts.any (fun c => y.contexts.contains c)

def checkStages (recs : List Nat) (img : Image) : Failures :=
  failEach img.stages (fun s i =>
    failIf (s.layers.any sizeBad) 0x0301 (place 1 i 0 0)
    ++ failIf (!(isChain s.positions || isRectangle s.positions) || s.positions.any (fun k => decide (20 ≤ k / 32) || decide (20 ≤ k % 32)))
        0x0304 (place 1 i 0 0)
    ++ failIf (s.layers.any (spectralBad recs)) 0x0305 (place 1 i 0 0))
  ++ failIf (anyPair stagesClash img.stages) 0x0304 (place 1 0 0 0)

/-! Engines (R246, R247, R249) -/

/-- Opcodes of Table 10-7. -/
def strideOps : List Nat := [1, 2, 3, 4, 8, 9, 0x10, 0x11, 0x12, 0x18, 0x19, 0x1A, 0x3F]

def eOp (w : BitVec 64) : Nat := fld w 63 58
def eLen (w : BitVec 64) : Nat := fld w 48 42 + 1

/-- A field that the opcode does not use is not 0, or a field holds a value that it may not (Tables 10-6, 10-7). -/
def strideBad (w : BitVec 64) : Bool :=
  let op := eOp w
  let zeroBut := fun (ops : List Nat) (hi lo : Nat) => !ops.contains op && decide (fld w hi lo ≠ 0)
  !strideOps.contains op || zeroBut [1, 2, 3, 0x10, 0x11] 57 55 || zeroBut [8, 9] 54 53 || zeroBut [0x10, 0x11, 0x12] 52 42
    || zeroBut [0x10, 0x11] 41 41 || zeroBut [0x10, 0x12] 40 39 || decide (fld w 40 39 = 3) || decide (fld w 38 32 ≠ 0)
    || zeroBut [1, 2, 3, 4, 8, 0x12, 0x18, 0x19] 31 0
    || (decide (op = 4) && (decide (fld w 31 0 = 0) || decide (255 < fld w 31 0))) || (decide (op = 8) && decide (fld w 31 0 = 0))

/-- RD and PAD name an outbound queue in use, WR an inbound one. -/
def queueUseBad (e : Engine) (w : BitVec 64) : Bool :=
  let q := Tab.get {} e.eqs (fld w 52 49)
  if eOp w = 0x10 ∨ eOp w = 0x12 then !(q.valid && q.outbound) else decide (eOp w = 0x11) && !(q.valid && !q.outbound)

/-- The tile end of the queue at a station pass port. -/
def portTile (img : Image) (e : BitVec 14) : Option InQueue :=
  (Tab.find img.ports (epKey e)).bind (fun p =>
    if p.inbound then (Tab.find img.planes (32 * p.dcol + p.drow)).bind (fun t => Tab.find t.iq p.diq) else none)

/-- R247: shares and ring sizes. -/
def engineQueuesBad (img : Image) (e : Engine) : Bool :=
  e.eqs.any (fun q => q.2.valid && (if q.2.outbound then
      decide (((portTile img q.2.peer).map ringSize).getD 0 ≠ q.2.credmax) else decide (1024 < q.2.credmax)))
    || decide (2048 < e.eqs.foldl (fun n q => if q.2.valid ∧ ¬ q.2.outbound then n + q.2.credmax else n) 0)

/-- Spill regions that an engine names. -/
def regionsOf (e : Engine) : List Nat := (e.threads.filter (fun t => decide (0 < t.2.size))).map (·.2.region)

def checkEngines (img : Image) : Failures :=
  failEach img.engines (fun g i =>
    failIf (g.2.prog.any (fun w => strideBad w.2 || queueUseBad g.2 w.2 || decide (256 ≤ w.1)) || engineQueuesBad img g.2
      || g.2.semLoad.any (fun s => decide (255 < s.2))) 0x0207 (place 7 i 0 0))
  ++ failIf (anyPair (fun x y => (regionsOf x.2).any (fun r => (regionsOf y.2).contains r)) img.engines) 0x0207 (place 7 0 0 0)
  ++ img.reservedEq.map (fun p => (0x0207, p))

/-! The adapted head (R264, R271, R283) -/

/-- Block memories of a pair have the same aspect mode and the same regions (R271). -/
def pairOk (img : Image) (key a b : Nat) : Bool :=
  let rs := fun (bm : Nat) => (img.regions.filter (fun r => decide (r.tile = key) && decide (r.bm = bm))).map (fun r =>
    (r.kind, r.first, r.len, r.mode, r.persistent))
  decide (declaredMode img key a = declaredMode img key b) && (rs a).all (fun r => (rs b).contains r) && (rs b).all (fun r => (rs a).contains r)

/-- The plane pairs of an adaptation register. -/
def pairsOf (a : AdaptReg) : List (Nat × Nat) := [(a.pa0, a.pb0), (a.pa1, a.pb1), (a.pa2, a.pb2)].take a.npair

/-- A step of a context other than HCTX and ACTX, or a ring, uses a block memory of the weight planes (R264). -/
def planesShared (p : Plane) : Bool :=
  let bms := (pairsOf p.adapt).flatMap (fun q => [q.1, q.2])
  p.steps.any (fun s => decide (wCtx s.2 ≠ p.adapt.actx) && decide (wCtx s.2 ≠ p.adapt.hctx)
    && (operandRegs s.2).any (fun n => bms.contains (descBm p n)))
    || p.iq.any (fun q => bms.contains (q.2.base / 1024))

/-- A head tile (R264, R271, R283). -/
def headTileBad (img : Image) (key : Nat) : Bool :=
  match Tab.find img.planes key with
  | none => true
  | some p =>
    let a := p.adapt
    decide (2 ≤ key % 32) || !a.aen || decide (a.hctx = a.actx) || (Tab.find p.ctx a.hctx).isNone || (Tab.find p.ctx a.actx).isNone
      || decide (3276 < a.adq) || (pairsOf a).any (fun q => !pairOk img key q.1 q.2) || planesShared p

/-- The table of an adapted layer: 8-bit codes, non-decreasing, steps within the residual's range (R264). -/
def headTableBad (img : Image) (l : HeadLayer) : Bool :=
  let x := xtAt ((Tab.find img.planes l.tile).getD {}) l.xt
  let v := fun (k : Nat) => wint (Tab.get 0 x.entries k)
  !x.w8 || (List.range 255).any (fun k => decide (v (k + 1) < v k) || decide (254 < (v (k + 1) - v k) * 2 ^ l.rsh))

/-- R264: the tensors that HCTX reads and produces on a head tile have static scales, OMODE U8 and no rotation. -/
def headTensorBad (recs : List Nat) (img : Image) (h : HeadDecl) : Bool :=
  img.uses.any (fun u => h.tiles.contains u.tile
    && (let p := (Tab.find img.planes u.tile).getD {}
        decide (wCtx (stepAt p u.step) = p.adapt.hctx))
    && ([u.a, u.b, u.out].any (fun t => recTest (t.bind (recordFor recs)) (fun r =>
        decide (qKs r ≠ 0) || decide (qOmode r ≠ 0) || decide (qRot r ≠ 0)))))

/-- R264: a head stage is a 1×1 layer of stride 1 in one group. -/
def headLayerBad (img : Image) (h : HeadDecl) : Bool :=
  img.stages.any (fun s => s.positions.any (fun k => h.tiles.contains k) && s.layers.any (fun l =>
    decide (l.kh ≠ 1) || decide (l.kw ≠ 1) || decide (l.sh ≠ 1) || decide (l.sw ≠ 1) || decide (l.groups ≠ 1)))

/-- Whether any OPT step of the layer runs the second-moment rule. -/
def layerRule (img : Image) (l : HeadLayer) : Bool := ((Tab.find img.planes l.tile).map (fun p => optRule p l.pr)).getD false

/-- R279: OPT's factors at the image's own parameters are positive normal values. -/
def headFactorsBad (img : Image) (h : HeadDecl) : Bool :=
  h.layers.any (fun l => (headFactors h.lr h.beta1 h.beta2 h.epsv h h.grads l (layerRule img l)).any (fun m => !f32PosNormal m))

/-- FCLK that a head tile is charged (R283). -/
def headCharge (w adq hold : Nat) : Nat := (w * adq + 65535) / 65536 + adq + 2048 + hold

def checkHead (recs : List Nat) (bs : List Byte) (img : Image) : Failures :=
  match img.head with
  | none => []
  | some h =>
    let w := framePeriod (imgHeader bs)
    failEach h.tiles (fun k i => failIf (headTileBad img k) 0x0208 (place 0xB i (k / 32) (k % 32)))
    ++ failIf (headTensorBad recs img h || headLayerBad img h || h.layers.any (headTableBad img)) 0x0208 (place 0xB 0 0 0)
    ++ failIf (headFactorsBad img h) 0x0403 (place 0xB 0 0 0)
    ++ failEach h.tiles (fun k i => failIf (decide (w * hSladapt (imgHeader bs) / 65536
        < headCharge w (((Tab.find img.planes k).map (fun p => p.adapt.adq)).getD 0) h.dHold)) 0x0505 (place 0xB i (k / 32) (k % 32)))

/-! Records and accumulations (R65, R78, R107, R108) -/

/-- The value is that of some scale code of S2. -/
def isCodeValue (s2 v : U32) : Bool := (List.range 255).any (fun k => decide (scaleOfCode s2 (k + 1) = v))

def signed16 (n : Nat) : Int := signed 16 n

/-- R78. A reserved FMT or OMODE is rejected here too: DESIGN CHOICE (assumption log 111). -/
def quantBad (n : Nat) : Bool :=
  let r : BitVec 320 := BitVec.ofNat 320 n
  let omode := fld r 23 22
  let scales := [qSfloor r, qSdefault r, qSceil r]
  !(scales.all f32PosNormal && f32Le (qSfloor r) (qSdefault r) && f32Le (qSdefault r) (qSceil r))
    || !(decide (qKs r = 0) || f32PosNormal (qKs r))
    || decide (2 ≤ qFmt r) || decide (omode = 3)
    || (if qFmt r = 1 then !(f32PosNormal (qS2 r) && scales.all (isCodeValue (qS2 r))) else decide (qS2 r ≠ 0))
    || (decide (omode = 2) && decide (qZ16 r ≠ qZp r)) || (decide (omode = 0) && decide (qZ16 r ≠ 0))
    || (bit r 17 && bit r 16 && decide (signed16 (fld r 79 64) < signed16 (fld r 63 48)))
    || (decide (omode ≠ 2) && decide (fld r 103 96 ≠ 0))

/-- A TID that two records bear is reported at record 0: DESIGN CHOICE (assumption log 111). -/
def checkQuant (bs : List Byte) : Failures :=
  failEach (quantRecords bs) (fun r i => failIf (quantBad r) 0x0402 (place 6 i 0 0))
  ++ failIf (anyPair (fun (x y : Nat) => decide (x % 65536 = y % 65536)) (quantRecords bs)) 0x0402 (place 6 0 0 0)

/-- Channels of a rotation group (R107). -/
def rotGroup (rot : Nat) : Nat := if rot = 0 then 1 else if rot = 1 then 16 else if rot = 2 then 64 else 256

/-- The largest |wint| that an accumulation uses (R65). -/
def weightMax (img : Image) (a : AccumDecl) : Nat :=
  if a.i9 then 255
  else (a.tables.flatMap (fun t =>
    let x := xtAt ((Tab.find img.planes t.1).getD {}) t.2
    a.codes.map (fun k => (wint (Tab.get 0 x.entries k)).natAbs))).foldl max 0

/-- R65, its left side multiplied by g for a rotated tensor (R107). -/
def accumBad (img : Image) (a : AccumDecl) : Bool :=
  decide (2 ^ 20 < a.terms)
    || decide (2 ^ 47 - 1 < rotGroup a.rot * (a.terms * (if a.wide then 65535 else 255) * weightMax img a + a.bmax))

def checkTensors (recs : List Nat) (img : Image) : Failures :=
  failEach img.accums (fun a _ => failIf (accumBad img a) 0x0401 (place 1 a.stage 0 0))
  ++ failEach recs (fun r i =>
      let q := BitVec.ofNat 320 r
      failIf (decide (Tab.get 0 img.channelsOf (qTid q) % rotGroup (qRot q) ≠ 0)) 0x0405 (place 6 i 0 0))

end Sys2Proof.Machine
end

