-- ==== Sys2Proof/Machine/PassChecks.lean ====
section
/-! DEFINITION. The load check's walks (R59, R102, R135, R136, R195, R196, R238, R252, R253, R282): each context's frame pass and each
engine thread's, followed from their control fields alone. -/

namespace Sys2Proof.Machine

/-! Frame passes of contexts (R195) -/

/-- A plane with every counter at its load value. -/
def startPlane (p : Plane) : Plane := { p with k := Tab.map (fun k => { k with value := k.load }) p.k }

/-- Every counter of context c is at its load value. -/
def backAtLoad (p : Plane) (c : Nat) : Bool :=
  (List.range 4).all (fun n => decide ((counterAt p (4 * c + n)).value = (counterAt p (4 * c + n)).load))

/-- The issues of a pass from step `ptr` on, each given to `f` with the plane as it stands before it: none where the pass does not
come back to its entry within `fuel` issues, or meets a step of another context. -/
def walkFrom {α : Type} (f : α → Plane → BitVec 128 → α) (c entry : Nat) : Nat → Plane → Nat → α → Option α
  | 0, _, _, _ => none
  | fuel + 1, p, ptr, a =>
    let w := stepAt p ptr
    if wCtx w ≠ c then none
    else
      let a := f a p w
      let nx := issueNext p w
      if nx.2 = entry ∧ backAtLoad nx.1 c then some a else walkFrom f c entry fuel nx.1 nx.2 a

/-- The longest pass (R195). -/
def passLimit : Nat := 1048576

/-- A context's frame pass. -/
def walkPass {α : Type} (f : α → Plane → BitVec 128 → α) (p : Plane) (c : Nat) (a : α) : Option α :=
  walkFrom f c (ctxAt p c).entry passLimit (startPlane p) (ctxAt p c).entry a

/-- Used contexts of a plane. -/
def usedContexts (p : Plane) : List Nat := (p.ctx.filter (fun x => x.2.state ≠ .idle)).map (·.1)

/-- ACTX of an A-tile that belongs to the head: its pass is an update's (R275). -/
def isAdapt (p : Plane) (c : Nat) : Bool := p.adapt.aen && decide (p.adapt.actx = c)

/-- Tokens that a pass pops of each input queue and puts on each output queue. -/
structure Tally where
  popped : Tab Nat := []
  put : Tab Nat := []
  deriving DecidableEq, Repr, Inhabited

def addAt (m : Tab Nat) (k n : Nat) : Tab Nat := if n = 0 then m else Tab.set m k (Tab.get 0 m k + n)

/-- Tokens that SCALE pops of SIQ. -/
def sideTokens (w : BitVec 128) : Nat := if wOpcode w = 0x05 ∧ bit w 47 then 1 else 0

/-- One issue in a tally. -/
def tallyStep (t : Tally) (p : Plane) (w : BitVec 128) : Tally :=
  { popped := addAt (addAt (addAt t.popped (wIqa w) (unitsA p w)) (wIqb w) (unitsB p w)) (fld w 51 48) (sideTokens w)
    put := addAt t.put (wOq w) (unitsO p w) }

/-- Tallies of every pass of a plane; none where one does not come back (R195). -/
def planeTally (p : Plane) : Option Tally :=
  (usedContexts p).foldl (fun t c => t.bind (fun t => walkPass tallyStep p c t)) (some {})

/-! Tables in one accumulation (R59) -/

/-- What each bank of a context has accumulated since its clear: by bank, 0 nothing, t + 1 with table t, 5 without a table. -/
structure Mix where
  banks : Tab Nat := []
  bad : Bool := false
  deriving DecidableEq, Repr, Inhabited

/-- The clear takes place at this issue (R116). -/
def clears (p : Plane) (w : BitVec 128) : Bool :=
  decide (fld w 50 49 = 1) || (decide (fld w 50 49 = 2) && (List.range 4).all (fun n =>
    decide (fld w 48 45 / 2 ^ n % 2 = 0) || decide ((counterAt p (4 * wCtx w + n)).value = 0)))

/-- An array step adds into a bank with a table (R59), or a drain applies a table's XOFF. -/
def mixStep (m : Mix) (p : Plane) (w : BitVec 128) : Mix :=
  let op := wOpcode w
  let drain := fun (bank tab : Nat) =>
    let was := Tab.get 0 m.banks bank
    if was = 0 ∨ was = 5 ∨ (xtAt p (was - 1)).xoff = (xtAt p tab).xoff then m else { m with bad := true }
  if op = 0x10 ∨ op = 0x11 ∨ op = 0x12 ∨ op = 0x13 ∨ op = 0x40 then
    let bank := b2n (bit w 51)
    let now := if op = 0x13 then 5 else fld w 44 43 + 1
    let was := if clears p w then 0 else Tab.get 0 m.banks bank
    { banks := Tab.set m.banks bank now, bad := m.bad || (decide (was ≠ 0) && decide (was ≠ now)) }
  else if op = 0x21 ∧ ¬ bit w 44 ∧ ¬ bit w 47 then drain (b2n (bit w 51)) (fld w 49 48)
  else if op = 0x43 ∧ fld w 51 50 = 3 then drain (b2n (bit w 49)) (fld w 48 47)
  else m

/-! Tile-bands (R102, R135, R136) -/

/-- A context's band: whether one is open, its held queues, the tokens held of each, the largest NA of its steps by queue, tokens in
the hold region, and what the walk has found wrong: a BAND in an open band or a BCHK in none, a ring or a hold region too small. -/
structure BandWalk where
  open_ : Bool := false
  hmask : Nat := 0
  held : Tab Nat := []
  most : Tab Nat := []
  hold : Nat := 0
  orderBad : Bool := false
  ringBad : Bool := false
  holdBad : Bool := false
  deriving DecidableEq, Repr, Inhabited

/-- A held band input holds its WINDOW, what the band holds back and the largest NA of the band's steps (R102). -/
def bandRings (b : BandWalk) (p : Plane) : Bool :=
  (List.range 16).any (fun q => decide (b.hmask / 2 ^ q % 2 = 1)
    && decide (ringSize (iqAt p q) < (iqAt p q).window * 2 ^ (iqAt p q).grain + Tab.get 0 b.held q + Tab.get 0 b.most q))

def bandPop (b : BandWalk) (q n : Nat) : BandWalk :=
  if b.hmask / 2 ^ q % 2 = 1 then
    { b with held := addAt b.held q n, most := Tab.set b.most q (max n (Tab.get 0 b.most q)) }
  else b

def bandStep (b : BandWalk) (p : Plane) (w : BitVec 128) : BandWalk :=
  let op := wOpcode w
  if op = 0x03 then
    { open_ := true
      hmask := fld w 51 36
      orderBad := b.orderBad || b.open_
      ringBad := b.ringBad
      holdBad := b.holdBad }
  else if op = 0x04 then
    { orderBad := b.orderBad || !b.open_
      ringBad := b.ringBad || bandRings b p
      holdBad := b.holdBad || decide ((ctxAt p (wCtx w)).holdCap < b.hold) }
  else if b.open_ then
    let b := bandPop (bandPop b (wIqa w) (unitsA p w)) (wIqb w) (unitsB p w)
    if op = 0x21 ∧ ¬ bit w 43 then { b with hold := b.hold + unitsO p w } else b
  else b

/-! Words that an update writes (R282) -/

/-- Start words of the code words, state records and sum words that OPT writes in an update pass: block memory and word. -/
structure OptWalk where
  codes : List (Nat × Nat) := []
  states : List (Nat × Nat) := []
  sums : List (Nat × Nat) := []
  deriving DecidableEq, Repr, Inhabited

/-- `n` words from an operand's start, as block memory and word. -/
def operandWords (p : Plane) (c reg n : Nat) : List (Nat × Nat) :=
  let o := operandOf p c reg
  (List.range n).map (fun i => (o.bm, opWord o i % 2048))

def optStepWords (a : OptWalk) (p : Plane) (w : BitVec 128) : OptWalk :=
  if wOpcode w ≠ 0x42 then a
  else if bit w 49 then { a with sums := a.sums ++ operandWords p (wCtx w) (wDc w) 16 }
  else { a with
    codes := a.codes ++ operandWords p (wCtx w) (wDa w) 16
    states := a.states ++ operandWords p (wCtx w) (wDb w) 64 }

/-- A list of words is a region's words, each once. -/
def coversOnce (ws : List (Nat × Nat)) (regions : List (Nat × Nat × Nat)) : Bool :=
  let want := regions.flatMap (fun r => (List.range r.2.2).map (fun i => (r.1, r.2.1 + i)))
  decide (ws.length = want.length) && want.all (fun x => decide (ws.count x = 1))

/-- R282 on one head tile: every code word, state record and sum word of its layers is written exactly once. -/
def updateBad (img : Image) (h : HeadDecl) (key : Nat) : Bool :=
  let p := (Tab.find img.planes key).getD {}
  let ls := h.layers.filter (fun l => l.tile = key)
  match walkPass optStepWords p p.adapt.actx {} with
  | none => true
  | some a => !(coversOnce a.codes (ls.map (·.codes)) && coversOnce a.states (ls.map (·.states)) && coversOnce a.sums (ls.map (·.sums)))

/-! Engine threads (R252, R253) -/

/-- A thread in a walk: address registers, loop counters and starts, slot counter; the tokens moved on each queue, the effect on
each semaphore as (raised, lowered), and whether an address range has left the region. -/
structure ThreadWalk where
  a : Tab Nat := []
  l : Tab Nat := []
  lstart : Tab Nat := []
  sc : Nat := 0
  moved : Tab Nat := []
  posts : Tab Nat := []
  takes : Tab Nat := []
  out : Bool := false
  deriving DecidableEq, Repr, Inhabited

/-- The range of an RD, WR or PAD leaves the region (R252); addresses are 32-bit. -/
def leavesRegion (size a n : Nat) : Bool := decide (size < a + n)

/-- One instruction: the thread after it and the next instruction; none at END. -/
def threadStep (size : Nat) (w : BitVec 64) (pc : Nat) (t : ThreadWalk) : ThreadWalk × Option Nat :=
  let imm := fld w 31 0
  let ar := fld w 57 55
  let lc := fld w 54 53
  let n := eLen w
  let a := Tab.get 0 t.a ar
  let next := some ((pc + 1) % 256)
  let moved := addAt t.moved (fld w 52 49) n
  match eOp w with
  | 0x01 => ({ t with a := Tab.set t.a ar imm }, next)
  | 0x02 => ({ t with a := Tab.set t.a ar ((a + imm) % 2 ^ 32) }, next)
  | 0x03 => ({ t with a := Tab.set t.a ar (t.sc * imm % 2 ^ 32) }, next)
  | 0x04 => ({ t with sc := if imm = 0 then 0 else (t.sc + 1) % imm }, next)
  | 0x08 => ({ t with l := Tab.set t.l lc imm, lstart := Tab.set t.lstart lc ((pc + 1) % 256) }, next)
  | 0x09 =>
    let v := Tab.get 0 t.l lc - 1
    ({ t with l := Tab.set t.l lc v }, if v = 0 then next else some (Tab.get 0 t.lstart lc))
  | 0x10 | 0x11 => ({ t with
      a := if bit w 41 then Tab.set t.a ar ((a + n) % 2 ^ 32) else t.a
      moved := moved
      out := t.out || leavesRegion size a n }, next)
  | 0x12 => ({ t with moved := moved }, next)
  | 0x18 => ({ t with takes := addAt t.takes (imm % 4) 1 }, next)
  | 0x19 => ({ t with posts := addAt t.posts (imm % 4) 1 }, next)
  | 0x3F => (t, none)
  | _ => (t, next)

/-- A thread's frame pass: none where END is not met within `fuel` instructions. -/
def walkThread (e : Engine) (size : Nat) : Nat → Nat → ThreadWalk → Option ThreadWalk
  | 0, _, _ => none
  | fuel + 1, pc, t =>
    match threadStep size (Tab.get 0 e.prog pc) pc t with
    | (t, none) => some t
    | (t, some pc) => walkThread e size fuel pc t

/-- The first pass of a thread, from reset registers. -/
def threadPass (e : Engine) (th : Thread) : Option ThreadWalk := walkThread e th.size passLimit th.entry {}

/-- Passes after which SC has come round: the largest IMM of a NEXTS of the program. -/
def slotPasses (e : Engine) : Nat := e.prog.foldl (fun m w => if eOp w.2 = 4 then max m (fld w.2 31 0) else m) 1

/-- R252: over the passes until SC has come round, no range leaves the thread's region. -/
def boundsBad (e : Engine) (th : Thread) : Bool :=
  let run := (List.range (slotPasses e)).foldl (fun t _ => t.bind (walkThread e th.size passLimit th.entry)) (some {})
  (run.map (·.out)).getD false

def sumTab (ms : List (Tab Nat)) (k : Nat) : Nat := ms.foldl (fun n m => n + Tab.get 0 m k) 0

/-- R253: every pass ends, moves exactly D_q on each queue, and leaves every semaphore as it was. -/
def enginePassBad (rates : List RateRec) (e : Engine) : Bool :=
  let passes := (e.threads.filter (fun t => t.2.used)).map (fun t => threadPass e t.2)
  match passes.mapM id with
  | none => true
  | some ts =>
    let dq := fun (q : EngineQueue) =>
      ((if q.outbound then rateFrom rates (32768 + q.peer.toNat) else rateInto rates (32768 + q.peer.toNat)).map (·.dq)).getD 0
    e.eqs.any (fun q => q.2.valid && decide (sumTab (ts.map (·.moved)) q.1 ≠ dq q.2))
      || (List.range 4).any (fun s => decide (sumTab (ts.map (·.posts)) s ≠ sumTab (ts.map (·.takes)) s))

/-! Rate balance (R196) -/

def isTileEnd (e : Nat) : Bool := decide (e < 32768)
def endTile (e : Nat) : Nat := 32 * (e / 512 % 32) + e / 16 % 32

/-- Contexts at the two ends of a queue, as 4 · tile key + context; an engine counts as 4096 + its number. -/
def endNode (img : Image) (producer : Bool) (e : Nat) : Option Nat :=
  if isTileEnd e then
    let p := (Tab.find img.planes (endTile e)).getD {}
    ((if producer then fillers p (e % 16) else poppers p (e % 16)).head?).map (fun c => 4 * endTile e + c)
  else (img.engines.find? (fun g => g.2.eqs.any (fun q => q.2.valid && decide (32768 + q.2.peer.toNat = e)))).map (fun g => 4096 + g.1)

/-- Nodes that a set reaches in one queue more. -/
def reachMore (edges : List (Nat × Nat)) (ns : List Nat) : List Nat :=
  (ns ++ ((edges.filter (fun e => ns.contains e.1)).map (·.2))).dedup

/-- The queue closes a cycle: its producer is reached from its consumer. -/
def closesCycle (img : Image) (rates : List RateRec) (r : RateRec) : Bool :=
  let edges := rates.filterMap (fun q => match endNode img true q.pend, endNode img false q.cend with
    | some a, some b => some (a, b)
    | _, _ => none)
  match endNode img true r.pend, endNode img false r.cend with
  | some a, some b => ((List.range edges.length).foldl (fun ns _ => reachMore edges ns) [b]).contains a
  | _, _ => false

/-- The queue into which the MATW steps that pop a WEIGHT queue forward it; none where a step that pops it does not forward. -/
def forwardsTo (img : Image) (rates : List RateRec) (r : RateRec) : Option RateRec :=
  let key := endTile r.cend
  let p := (Tab.find img.planes key).getD {}
  let ss := (p.steps.filter (fun s => pops s.2 (r.cend % 16))).map (·.2)
  if ss.all (fun w => decide (wOpcode w = 0x11) && bit w 18 && decide (wIqb w = r.cend % 16)) then
    ss.head?.bind (fun w => rateFrom rates (tileEndNo key (wOq w)))
  else none

/-- The ring of queues from a WEIGHT queue on, until it comes back (R238). -/
def ringFrom (img : Image) (rates : List RateRec) (r : RateRec) : Nat → RateRec → List RateRec → Option (List RateRec)
  | 0, _, _ => none
  | fuel + 1, q, acc =>
    match forwardsTo img rates q with
    | none => none
    | some n => if n.qid = r.qid then some (q :: acc) else ringFrom img rates r fuel n (q :: acc)

/-- R238: a WEIGHT queue with initial tokens is of a closed ring of 2 to 400 tiles whose passes carry every partition equally
often. -/
def ringBad (img : Image) (rates : List RateRec) (r : RateRec) : Bool :=
  match ringFrom img rates r 400 r [] with
  | none => true
  | some qs =>
    let total := qs.foldl (fun n q => n + q.init) 0
    decide (qs.length < 2) || qs.any (fun q => decide (q.kind ≠ 3)) || decide (total = 0) || decide (r.dq % total ≠ 0)

/-- R196: both ends' passes carry D_q, and initial tokens stand where they may. -/
def balanceBad (img : Image) (rates : List RateRec) (r : RateRec) : Bool :=
  let tally := fun (e : Nat) => ((Tab.find img.planes (endTile e)).bind planeTally).getD {}
  (isTileEnd r.pend && decide (Tab.get 0 (tally r.pend).put (r.pend % 16) ≠ r.dq))
    || (isTileEnd r.cend && decide (Tab.get 0 (tally r.cend).popped (r.cend % 16) ≠ r.dq))
    || (decide (0 < r.init) && (if r.kind = 3 then ringBad img rates r else !closesCycle img rates r))

/-- Every queue of a plane has its rate record (R297). -/
def undeclared (rates : List RateRec) (key : Nat) (p : Plane) : Bool :=
  p.iq.any (fun q => (rateInto rates (tileEndNo key q.1)).isNone) || p.oq.any (fun q => (rateFrom rates (tileEndNo key q.1)).isNone)

/-- The failures that the walks find. -/
def checkPasses (rates : List RateRec) (img : Image) : Failures :=
  failEach img.planes (fun q i =>
    let p := q.2
    let at_ := place 2 i (q.1 / 32) (q.1 % 32)
    let bands := (usedContexts p).filterMap (fun c => walkPass bandStep p c {})
    failIf (bands.any (fun b => b.orderBad || b.open_)) 0x0202 at_
    ++ failIf ((usedContexts p).any (fun c => ((walkPass mixStep p c {}).map (·.bad)).getD false)) 0x0204 at_
    ++ failIf (bands.any (·.ringBad)) 0x0302 at_
    ++ failIf (bands.any (·.holdBad)) 0x0303 at_
    ++ failIf (planeTally p).isNone 0x0501 at_
    ++ failIf (undeclared rates q.1 p) 0x0502 at_)
  ++ failEach rates (fun r i => failIf (balanceBad img rates r) 0x0502 (place 8 i 0 0))
  ++ failEach img.engines (fun g i =>
    failIf (g.2.threads.any (fun t => t.2.used && boundsBad g.2 t.2)) 0x0207 (place 7 i 0 0)
    ++ failIf (enginePassBad rates g.2) 0x0503 (place 7 i 0 0))
  ++ (match img.head with
    | none => []
    | some h => failEach h.tiles (fun k i => failIf (updateBad img h k) 0x0208 (place 0xB i (k / 32) (k % 32))))

end Sys2Proof.Machine
end

