-- ==== Sys2Proof/Machine/FrameRun.lean ====
section
/-! DEFINITION. The abstract frame run of the load check (R206, R208), with the engine threads of R253, and the update run of the
adaptation contexts (R275). A step or instruction takes and gives its tokens in one go. In every round each context and each thread
tries one issue, in their order, and every source and sink moves what it can: by R208 the order decides nothing. -/

namespace Sys2Proof.Machine

/-- A queue in a run: its declaration and capacity, tokens put and popped in this run, those that bands hold back, and the credits
that held outputs have reserved (R102). -/
structure QRun where
  rate : RateRec := {}
  cap : Nat := 0
  put : Nat := 0
  got : Nat := 0
  held : Nat := 0
  reserved : Nat := 0
  deriving DecidableEq, Repr, Inhabited

def QRun.present (q : QRun) : Nat := q.rate.init + q.put - q.got
/-- Tokens that count under R31. -/
def QRun.avail (q : QRun) : Nat := q.present - q.held
/-- Credits. -/
def QRun.room (q : QRun) : Nat := q.cap - (q.present + q.reserved)
/-- The frame's last token is in (R193): the waiver of R31. -/
def QRun.last (q : QRun) : Bool := decide (q.rate.dq ≤ q.put)

/-- A context in a run: its plane as its counters stand, its step, its open band with what it holds by input queue and for one
output queue, the hurdle that it waits at, and whether its pass is complete. -/
structure CtxRun where
  key : Nat := 0
  c : Nat := 0
  p : Plane := {}
  ptr : Nat := 0
  open_ : Bool := false
  hmask : Nat := 0
  heldIn : Tab Nat := []
  heldOut : Nat := 0
  heldOq : Nat := 0
  hurdle : Option (Nat × Nat) := none
  done : Bool := false
  deriving DecidableEq, Repr, Inhabited

/-- An engine thread in a run. -/
structure ThreadRun where
  engine : Nat := 0
  e : Engine := {}
  size : Nat := 0
  pc : Nat := 0
  t : ThreadWalk := {}
  done : Bool := false
  deriving DecidableEq, Repr, Inhabited

/-- A run: queues by QID, contexts, threads, semaphores at key 4 · engine + number, and whether the last round moved anything. -/
structure Run where
  queues : Tab QRun := []
  ctxs : List CtxRun := []
  threads : List ThreadRun := []
  sems : Tab Nat := []
  moved : Bool := true
  deriving DecidableEq, Repr, Inhabited

def Run.q (r : Run) (qid : Nat) : QRun := Tab.get {} r.queues qid
def Run.modQ (r : Run) (qid : Nat) (f : QRun → QRun) : Run := { r with queues := Tab.modify {} r.queues qid f, moved := true }

/-- QIDs of the queues at a context's input and output queue. -/
def qidIn (x : CtxRun) (iq : Nat) : Nat := (iqAt x.p iq).qid
def qidOut (x : CtxRun) (oq : Nat) : Nat := (oqAt x.p oq).qid

/-- Conditions 2 and 3 of R31. -/
def runInput (r : Run) (x : CtxRun) (iq units : Nat) : Bool :=
  let d := iqAt x.p iq
  let q := r.q d.qid
  let n := units * 2 ^ d.grain
  decide (units = 0) || (decide (n ≤ q.avail) && (q.last || decide (d.window * 2 ^ d.grain + n ≤ q.avail)))

/-- The head step of a context could issue: R31, and the tokens that SCALE and SEMIT look for (R132, R133). -/
def runReady (r : Run) (x : CtxRun) : Bool :=
  let w := stepAt x.p x.ptr
  !x.done && decide (x.hurdle = none) && runInput r x (wIqa w) (wNa w) && runInput r x (wIqb w) (wNb w)
    && decide (sideTokens w ≤ (r.q (qidIn x (fld w 51 48))).avail)
    && (decide (wOpcode w ≠ 0x07) || decide (0 < (r.q (qidIn x (wIqa w))).avail))
    && decide (unitsO x.p w ≤ (r.q (qidOut x (wOq w))).room)

/-- A context pops n tokens: an open band holds those of its inputs back. -/
def runPop (r : Run) (x : CtxRun) (iq n : Nat) : Run × CtxRun :=
  if n = 0 then (r, x)
  else if x.open_ ∧ x.hmask / 2 ^ iq % 2 = 1 then
    (r.modQ (qidIn x iq) (fun q => { q with held := q.held + n }), { x with heldIn := addAt x.heldIn iq n })
  else (r.modQ (qidIn x iq) (fun q => { q with got := q.got + n }), x)

/-- A context produces n tokens; in an open band RQ's go to its hold region. -/
def runPut (r : Run) (x : CtxRun) (w : BitVec 128) : Run × CtxRun :=
  let n := unitsO x.p w
  if n = 0 then (r, x)
  else if x.open_ ∧ wOpcode w = 0x21 ∧ ¬ bit w 43 then
    (r.modQ (qidOut x (wOq w)) (fun q => { q with reserved := q.reserved + n }), { x with heldOut := x.heldOut + n, heldOq := wOq w })
  else (r.modQ (qidOut x (wOq w)) (fun q => { q with put := q.put + n }), x)

/-- BCHK releases the band: its held units are popped, its outputs sent. -/
def runRelease (r : Run) (x : CtxRun) : Run × CtxRun :=
  let r := x.heldIn.foldl (fun r h => r.modQ (qidIn x h.1) (fun q => { q with held := q.held - h.2, got := q.got + h.2 })) r
  let r := r.modQ (qidOut x x.heldOq) (fun q => { q with reserved := q.reserved - x.heldOut, put := q.put + x.heldOut })
  (r, { x with open_ := false, hmask := 0, heldIn := [], heldOut := 0 })

/-- One issue of a context that is ready. -/
def runIssue (r : Run) (x : CtxRun) : Run × CtxRun :=
  let w := stepAt x.p x.ptr
  let op := wOpcode w
  let a := runPop r x (wIqa w) (unitsA x.p w)
  let b := runPop a.1 a.2 (wIqb w) (unitsB x.p w)
  let s := runPop b.1 b.2 (fld w 51 48) (sideTokens w)
  let o := runPut s.1 s.2 w
  let m := if op = 0x04 then runRelease o.1 o.2
    else (o.1, if op = 0x03 then { o.2 with open_ := true, hmask := fld w 51 36 } else o.2)
  let nx := issueNext m.2.p w
  ({ m.1 with moved := true },
    { m.2 with
      p := nx.1
      ptr := nx.2
      hurdle := if op = 0x02 then some (fld w 51 50, fld w 49 42) else none
      done := decide (nx.2 = (ctxAt x.p x.c).entry) && backAtLoad nx.1 x.c })

/-- The contexts of a run, each trying one issue. -/
def runContexts : Run → List CtxRun → List CtxRun → Run
  | r, acc, [] => { r with ctxs := acc.reverse }
  | r, acc, x :: xs =>
    if runReady r x then
      let y := runIssue r x
      runContexts y.1 (y.2 :: acc) xs
    else runContexts r (x :: acc) xs

/-- Hurdles on which every member context of the run waits complete (R212). -/
def runHurdles (r : Run) : Run :=
  let member := fun (x : CtxRun) (h : Nat × Nat) => decide (Tab.get 0 x.p.hurdles h.2 / 2 ^ x.c % 2 = 1)
  let full := fun (h : Nat × Nat) => r.ctxs.all (fun x => !member x h || decide (x.hurdle = some h))
  if r.ctxs.any (fun x => (x.hurdle.map full).getD false) then
    { r with
      moved := true
      ctxs := r.ctxs.map (fun x => if (x.hurdle.map full).getD false then { x with hurdle := none } else x) }
  else r

/-- QID of an engine queue. -/
def engineQid (r : Run) (q : EngineQueue) : Nat :=
  ((r.queues.find? (fun x => decide ((if q.outbound then x.2.rate.pend else x.2.rate.cend) = 32768 + q.peer.toNat))).map (·.1)).getD 0

/-- One instruction of a thread, where it can issue (R249 to R253). -/
def runThread (r : Run) (t : ThreadRun) : Run × ThreadRun :=
  let w := Tab.get 0 t.e.prog t.pc
  let n := eLen w
  let q := engineQid r (Tab.get {} t.e.eqs (fld w 52 49))
  let sem := 4 * t.engine + fld w 1 0
  let go := fun (r : Run) =>
    let s := threadStep t.size w t.pc t.t
    ({ r with moved := true }, { t with t := s.1, pc := s.2.getD t.pc, done := s.2.isNone })
  if t.done then (r, t)
  else match eOp w with
    | 0x10 | 0x12 => if n ≤ (r.q q).room then go (r.modQ q (fun x => { x with put := x.put + n })) else (r, t)
    | 0x11 => if n ≤ (r.q q).avail then go (r.modQ q (fun x => { x with got := x.got + n })) else (r, t)
    | 0x18 => if 0 < Tab.get 0 r.sems sem then go { r with sems := Tab.set r.sems sem (Tab.get 0 r.sems sem - 1) } else (r, t)
    | 0x19 => go { r with sems := Tab.set r.sems sem (Tab.get 0 r.sems sem + 1) }
    | _ => go r

def runThreads : Run → List ThreadRun → List ThreadRun → Run
  | r, acc, [] => { r with threads := acc.reverse }
  | r, acc, t :: ts =>
    let y := runThread r t
    runThreads y.1 (y.2 :: acc) ts

/-- An end of a queue that is neither a tile's nor an engine's: a source supplies the frame as credits allow, a sink drains. -/
def outsideEnd (img : Image) (e : Nat) : Bool :=
  !isTileEnd e && img.engines.all (fun g => g.2.eqs.all (fun q => !q.2.valid || decide (32768 + q.2.peer.toNat ≠ e)))

def runOutside (img : Image) (r : Run) : Run :=
  r.queues.foldl (fun r e =>
    let q := r.q e.1
    let n := if outsideEnd img q.rate.pend then min (q.rate.dq - q.put) q.room else 0
    let r := if 0 < n then r.modQ e.1 (fun q => { q with put := q.put + n }) else r
    let q := r.q e.1
    if outsideEnd img q.rate.cend ∧ q.got < q.put then r.modQ e.1 (fun q => { q with got := q.put }) else r) r

/-- Rounds until one moves nothing. -/
def runRounds (img : Image) : Nat → Run → Run
  | 0, r => r
  | fuel + 1, r =>
    let r := runOutside img { r with moved := false }
    let r := runContexts r [] r.ctxs
    let r := runHurdles (runThreads r [] r.threads)
    if r.moved then runRounds img fuel r else r

/-- The run has succeeded: every pass is complete and every queue is back at its initial tokens. -/
def runComplete (r : Run) : Bool :=
  r.ctxs.all (fun x => x.done && decide (x.hurdle = none)) && r.threads.all (·.done)
    && r.queues.all (fun q => decide (q.2.present = q.2.rate.init) && decide (q.2.held = 0) && decide (q.2.reserved = 0))

/-- The start of the frame run (`adapt` = false) or the update run, each queue at capacity L_q. -/
def runStart (img : Image) (rates : List RateRec) (credits : List CreditRec) (adapt : Bool) : Run :=
  { queues := (rates.filter (fun r => r.adapt = adapt)).foldl (fun m r =>
      Tab.set m r.qid { rate := r, cap := ((credits.find? (fun c => decide (c.qid = r.qid))).map (·.lq)).getD 0 }) []
    ctxs := img.planes.flatMap (fun q => ((usedContexts q.2).filter (fun c => isAdapt q.2 c = adapt)).map (fun c =>
      { key := q.1, c := c, p := startPlane q.2, ptr := (ctxAt q.2 c).entry }))
    threads := if adapt then [] else img.engines.flatMap (fun g => (g.2.threads.filter (fun t => t.2.used)).map (fun t =>
      { engine := g.1, e := g.2, size := t.2.size, pc := t.2.entry }))
    sems := if adapt then [] else img.engines.foldl (fun m g => g.2.semLoad.foldl (fun m s => Tab.set m (4 * g.1 + s.1) s.2) m) [] }

/-- As many rounds as the passes may have issues. -/
def frameRun (img : Image) (rates : List RateRec) (credits : List CreditRec) (adapt : Bool) : Run :=
  let r := runStart img rates credits adapt
  runRounds img ((r.ctxs.length + r.threads.length + 1) * passLimit) r

/-- A queue of one pass has an end in the other (R275). -/
def passesMixed (img : Image) (r : RateRec) : Bool :=
  let wrong := fun (ends : Plane → Nat → List Nat) (e : Nat) =>
    isTileEnd e && (let p := (Tab.find img.planes (endTile e)).getD {}
      (ends p (e % 16)).any (fun c => isAdapt p c != r.adapt))
  wrong fillers r.pend || wrong poppers r.cend

/-- Code 0x0602. -/
def checkRun (img : Image) (rates : List RateRec) (credits : List CreditRec) : Failures :=
  failIf (!runComplete (frameRun img rates credits false) || !runComplete (frameRun img rates credits true)
    || rates.any (passesMixed img)) 0x0602 (place 9 0 0 0)

end Sys2Proof.Machine
end

