-- ==== Sys2Proof/Machine/RouteChecks.lean ====
section
/-! DEFINITION. The load check of rates, credits, routes and timetables (R45, R159, R203 to R205, R218, R225, R226, R244, R245, R254, R298,
R332). -/

namespace Sys2Proof.Machine

/-! Class 5: frame period, slack, pacer rates -/

/-- ⌈x / y⌉. -/
def ceilDiv (x y : Nat) : Nat := (x + y - 1) / y

/-- FCLK of slack in a frame period (R159), and ⌊W × (1 − slack)⌋ (R225, R245, R254). -/
def slackOf (h : Nat) : Nat := framePeriod h * hSlack h / 65536
def usableOf (h : Nat) : Nat := framePeriod h * (65536 - hSlack h) / 65536

/-- R159: the declared cycles of a tile with the slack exceed the frame period. The three units run at the same time, so the bound is
on each: DEDUCED (assumption log 112). -/
def periodBad (h : Nat) (c : Nat × Nat × Nat) : Bool := decide (framePeriod h < max c.1 (max c.2.1 c.2.2) + slackOf h)

/-- Rate record of the queue with an endpoint at either end (R297). -/
def rateAt (rates : List RateRec) (ep : Nat) : Option RateRec := (rateFrom rates (32768 + ep)).or (rateInto rates (32768 + ep))

def checkRates (bs : List Byte) (rates : List RateRec) (img : Image) : Failures :=
  let h := imgHeader bs
  failEach img.stages (fun s i => failIf (s.cycles.any (periodBad h)) 0x0504 (place 1 i 0 0))
  ++ failIf (decide (32768 < hSlack h) || decide (hSlack h < hSlrerun h + hSlreplay h + hSladapt h)) 0x0505 0
  ++ failEach img.engines (fun g i => failIf (g.2.eqs.any (fun q => q.2.valid &&
      (match rateAt rates q.2.peer.toNat with
        | none => true
        | some r => decide (usableOf h = 0) || decide (q.2.rate < ceilDiv (r.dq * 65536) (usableOf h))))) 0x0506 (place 7 i 0 0))

/-! Class 6: credits (R203 to R205, R245, R332) -/

/-- Hops between two logical positions. -/
def hopsBetween (x y : Nat) : Nat :=
  let gap := fun (a b : Nat) => (a - b) + (b - a)
  gap (x / 32) (y / 32) + gap (x % 32) (y % 32)

/-- Hops from a tile to tile (c, 0) of the station that an end names. -/
def stationHops (tile e : Nat) : Nat := hopsBetween tile (32 * (e / 64 % 32))

/-- The station port that a shuttle end names. -/
def portOfEnd (img : Image) (e : Nat) : Option StationPort := Tab.find img.ports (epKey (BitVec.ofNat 14 e))

/-- The unit reads HBM before it sends on this queue: an engine's RD, the feeder's code tokens, the gather tokens (Table 10-4). -/
def readsFirst (img : Image) (e : Nat) : Bool :=
  let key := epKey (BitVec.ofNat 14 e)
  img.engines.any (fun g => g.2.eqs.any (fun q => q.2.valid && decide (32768 + q.2.peer.toNat = e)
      && g.2.prog.any (fun w => decide (eOp w.2 = 0x10) && decide (fld w.2 52 49 = q.1))))
    || decide (img.bind.codeEnd = key) || (img.bind.cropIn.isSome && decide (img.bind.cropB = key))

/-- The two ends of a queue by route, ROUTE of Table 12-5: 0 same tile, 1 within the berth, 2 linked, 3 Folsa, 4 tile to unit, 5 unit
to tile. -/
def routeOf (img : Image) (r : RateRec) : Nat :=
  let linked := fun (e : Nat) => match portOfEnd img e with
    | some p => if p.link then (if p.fin.kind = 2 then some 3 else some 2) else none
    | none => none
  if isTileEnd r.pend ∧ isTileEnd r.cend then (if endTile r.pend = endTile r.cend then 0 else 1)
  else if isTileEnd r.pend then (linked r.cend).getD 4
  else (linked r.pend).getD 5

/-- The least RTT of a queue (Tables 8-5 and 10-4, R332), G = 20. The far end of a linked queue is in another image, so its hops are
those declared. -/
def routeBound (img : Image) (r : RateRec) (c : CreditRec) : Nat :=
  let near := if isTileEnd r.pend then stationHops (endTile r.pend) r.cend else stationHops (endTile r.cend) r.pend
  let hs := if isTileEnd r.pend then max c.hs (near + 1) else c.hs
  let hr := if isTileEnd r.pend then c.hr else max c.hr (near + 1)
  match routeOf img r with
  | 0 => 4
  | 1 => 4 * hopsBetween (endTile r.pend) (endTile r.cend) + 8
  | 2 => 4 * (hs + hr) + 83
  | 3 => 4 * (hs + hr) + 2603
  | 4 => 4 * near + 51
  | _ => 4 * near + (if readsFirst img r.pend then 435 else 51)

/-- NOmax (R205): the largest issue into the queue, of its steps or of its engine's instructions. -/
def largestPut (img : Image) (r : RateRec) : Nat :=
  if isTileEnd r.pend then
    let p := (Tab.find img.planes (endTile r.pend)).getD {}
    (List.map (fun (s : Nat × BitVec 128) => if wOq s.2 = r.pend % 16 then unitsO p s.2 else 0) p.steps).foldl max 0
  else (img.engines.flatMap (fun g => g.2.eqs.flatMap (fun q =>
    if q.2.valid ∧ 32768 + q.2.peer.toNat = r.pend then
      List.map (fun (w : Nat × BitVec 64) => if (eOp w.2 = 0x10 ∨ eOp w.2 = 0x12) ∧ fld w.2 52 49 = q.1 then eLen w.2 else 0) g.2.prog
    else []))).foldl max 0

/-- T_q (R205). -/
def rateTerm (nomax rtt wc dq : Nat) : Nat := nomax * ceilDiv (dq * rtt) (wc * nomax)

/-- CREDMAX of a queue: its producing tile's, else the ring of its consuming tile. -/
def queueCredmax (img : Image) (r : RateRec) : Option Nat :=
  if isTileEnd r.pend then (Tab.find img.planes (endTile r.pend)).map (fun p => (oqAt p (r.pend % 16)).credmax)
  else (Tab.find img.planes (endTile r.cend)).map (fun p => ringSize (iqAt p (r.cend % 16)))

/-- The grains of every end of a queue are its record's (R203). -/
def grainBad (img : Image) (r : RateRec) : Bool :=
  let port := fun (e : Nat) => !isTileEnd e && (match portOfEnd img e with
    | some p => p.link && decide (p.fin.grain ≠ r.grain)
    | none => false)
  let engine := fun (e : Nat) => img.engines.any (fun g => g.2.eqs.any (fun q => q.2.valid && decide (32768 + q.2.peer.toNat = e)
    && decide (q.2.grain ≠ r.grain)))
  let tile := fun (e : Nat) (grain : Plane → Nat) => isTileEnd e
    && ((Tab.find img.planes (endTile e)).map (fun p => decide (grain p ≠ r.grain))).getD true
  tile r.pend (fun p => (oqAt p (r.pend % 16)).grain) || tile r.cend (fun p => (iqAt p (r.cend % 16)).grain)
    || port r.pend || port r.cend || engine r.pend || engine r.cend

/-- R204: CREDMAX ≥ L_q + T_q, with T_q recomputed from the bounds; a queue between tiles gives its producer the ring that it feeds
(Table 2-6), and a memory-side consumer has W_c = ⌊W × (1 − slack)⌋ (R245). -/
def creditBad (h : Nat) (img : Image) (rates : List RateRec) (c : CreditRec) : Bool :=
  match rates.find? (fun r => r.qid = c.qid) with
  | none => true
  | some r =>
    let nomax := max 1 (max c.nomax (largestPut img r))
    let tq := rateTerm nomax (max c.rtt (routeBound img r c)) c.wc r.dq
    decide (c.wc = 0) || (decide (routeOf img r = 4) && decide (c.wc ≠ usableOf h)) || decide (c.nomax < largestPut img r)
      || decide (c.tq < tq) || ((queueCredmax img r).map (fun m => decide (m < c.lq + tq))).getD true
      || (isTileEnd r.pend && isTileEnd r.cend && decide (queueCredmax img r
        ≠ (Tab.find img.planes (endTile r.cend)).map (fun p => ringSize (iqAt p (r.cend % 16)))))

/-- The route and its hops are those of the queue's ends (R205, R245). -/
def tripBad (img : Image) (rates : List RateRec) (c : CreditRec) : Bool :=
  match rates.find? (fun r => r.qid = c.qid) with
  | none => false
  | some r => decide (c.route ≠ routeOf img r) || decide (c.rtt < routeBound img r c)

def checkCredits (h : Nat) (img : Image) (rates : List RateRec) (credits : List CreditRec) : Failures :=
  failEach credits (fun c i => failIf (creditBad h img rates c) 0x0601 (place 9 i 0 0) ++ failIf (tripBad img rates c) 0x0604 (place 9 i 0 0))
  ++ failEach rates (fun r i => failIf (grainBad img r) 0x0603 (place 8 i 0 0)
    ++ failIf (credits.all (fun c => decide (c.qid ≠ r.qid))) 0x0601 (place 8 i 0 0))

/-! Class 7: timetables (R225, R226) -/

/-- Longest run of allocated slots, counted around the wrap: the slots twice over. -/
def longestRun (tt : List Nat) : Nat :=
  ((tt ++ tt).foldl (fun (r : Nat × Nat) t => if t = 0 then (0, r.2) else (r.1 + 1, max r.2 (r.1 + 1))) (0, 0)).2

def flowsMeet (x y : Nat × FlowEntry) : Bool :=
  decide (x.2.base ≤ y.2.base + y.2.count) && decide (y.2.base ≤ x.2.base + x.2.count)

/-- The berth's slots of a link direction: 64 of a shared one (R226, R333), 256 of another. -/
def slotsOf (key : Nat) : Nat := if linkShared key ∨ folsaTable ≤ key then 64 else 256

/-- Where a queue's tokens enter the shuttle and where they leave it: endpoint indices; none for one that stays in the mesh. -/
def shuttleEnds (img : Image) (r : RateRec) : Option (BitVec 14 × BitVec 14) :=
  let e := if isTileEnd r.pend then r.cend else r.pend
  if isTileEnd r.pend ∧ isTileEnd r.cend then none
  else (portOfEnd img e).map (fun p =>
    let far := if p.link then p.fin.peer else p.peer
    if isTileEnd r.pend then (BitVec.ofNat 14 e, far) else (far, BitVec.ofNat 14 e))

/-- The link directions on the path from a link on (R220). -/
def pathFrom (src dest : BitVec 14) : Nat → Nat → List Nat
  | 0, _ => []
  | fuel + 1, key =>
    match linkLanding key with
    | none => [key]
    | some die => key :: pathFrom src dest fuel (landingLink die src dest)

def linkPath (src dest : BitVec 14) : List Nat := pathFrom src dest 4 (firstLink src)

/-- Link directions that a queue uses with their destination and tokens per frame. Those of another berth's stations are in that
berth's image; one whose path crosses a Folsa port ends there. -/
def linkLoads (b : Nat) (img : Image) (rates : List RateRec) : List (Nat × BitVec 14 × Nat) :=
  rates.flatMap (fun r => match shuttleEnds img r with
    | none => []
    | some (s, t) => ((linkPath s t).filter (fun k => decide (200 ≤ k) || decide (k / 20 % 5 = b))).map (fun k => (k, t, r.dq)))

/-- D_f of a flow on a link direction. -/
def flowLoad (loads : List (Nat × BitVec 14 × Nat)) (key : Nat) (f : FlowEntry) : Nat :=
  loads.foldl (fun n l => if l.1 = key ∧ flowHolds l.2.1 f then n + l.2.2 else n) 0

/-- R225: S_f × laps ≥ D_f. -/
def flowShort (h : Nat) (loads : List (Nat × BitVec 14 × Nat)) (key : Nat) (slots : List Nat) (f : FlowEntry) : Bool :=
  decide (slots.count f.tag * (usableOf h / 256) < flowLoad loads key f)

def tableBad (h : Nat) (loads : List (Nat × BitVec 14 × Nat)) (key : Nat) (tt : Tab Nat) (flows : Tab FlowEntry) : Bool :=
  let n := slotsOf key
  let slots := (List.range n).map (Tab.get 0 tt)
  let valid := flows.filter (fun f => f.2.valid)
  decide ((slots.filter (fun t => t = 0)).length < n / 16) || decide (n / 8 < longestRun slots)
    || slots.any (fun t => decide (t ≠ 0) && valid.all (fun f => decide (f.2.tag ≠ t)))
    || valid.any (fun f => !slots.contains f.2.tag) || anyPair flowsMeet valid
    || valid.any (fun f => flowShort h loads key slots f.2)

/-- A used link direction has a flow for every destination. -/
def linkUncovered (img : Image) (l : Nat × BitVec 14 × Nat) : Bool :=
  !((Tab.find img.tables l.1).map (fun t => t.2.any (fun f => flowHolds l.2.1 f.2))).getD false

def checkTables (h b : Nat) (img : Image) (rates : List RateRec) : Failures :=
  let loads := linkLoads b img rates
  failEach img.tables (fun t i => failIf (tableBad h loads t.1 t.2.1 t.2.2) 0x0701 (place 5 i 0 0))
  ++ failIf (loads.any (linkUncovered img)) 0x0701 (place 5 0 0 0)

/-! Router ports (R44, R45) -/

/-- Ports that a token leaves by on its way from a tile along the row and then the column: tile key and direction, 0 north, 1 east, 2
south, 3 west. -/
def meshPath (dest : Nat) : Nat → Nat → List (Nat × Nat)
  | 0, _ => []
  | fuel + 1, key =>
    if key = dest then []
    else
      let dir := if key / 32 < dest / 32 then 1 else if dest / 32 < key / 32 then 3 else if key % 32 < dest % 32 then 2 else 0
      let next := if dir = 1 then key + 32 else if dir = 3 then key - 32 else if dir = 2 then key + 1 else key - 1
      (key, dir) :: meshPath dest fuel next

/-- The station that an end is behind, as the tile (c, 0) that it hangs on. -/
def stationTile (e : Nat) : Nat := 32 * (e / 64 % 32)

/-- Port directions that a queue's tokens use: out of the producing core (4), through the mesh, into the consuming core (5) or the
station (0 of the tile of row 0), and out of a station into it (6). -/
def queuePorts (r : RateRec) : List (Nat × Nat) :=
  if isTileEnd r.pend ∧ isTileEnd r.cend then
    if endTile r.pend = endTile r.cend then []
    else (endTile r.pend, 4) :: meshPath (endTile r.cend) 40 (endTile r.pend) ++ [(endTile r.cend, 5)]
  else if isTileEnd r.pend then
    (endTile r.pend, 4) :: meshPath (stationTile r.cend) 40 (endTile r.pend) ++ [(stationTile r.cend, 0)]
  else (stationTile r.pend, 6) :: meshPath (endTile r.cend) 40 (stationTile r.pend) ++ [(endTile r.cend, 5)]

/-- Tokens per frame through each port direction. -/
def portLoads (rates : List RateRec) : Tab Nat :=
  rates.foldl (fun m r => (queuePorts r).foldl (fun m p => addAt m (8 * p.1 + p.2) r.dq) m) []

/-- R45: more than one flit per FCLK over the frame period. -/
def checkRouters (h : Nat) (rates : List RateRec) : Failures :=
  failEach (portLoads rates) (fun p _ => failIf (decide (framePeriod h < p.2)) 0x0702 (place 8 0 (p.1 / 256) (p.1 / 8 % 32)))

/-! Endpoints (R218, R244) -/

/-- Output queues with SHUT = 1 name a station port of berth b (R218). -/
def endpointsOk (b : Nat) (p : Plane) : Bool :=
  p.oq.all (fun q => !q.2.shut || (decide (epDomain q.2.dest = b) && decide (epStation q.2.dest < 20)))

/-- Unit ports that a pass port of berth b may peer with: its memory-side units (Table 10-3) and the queue manager (R244). -/
def peerUnits (b : Nat) : List (BitVec 14) :=
  (List.range 16).map (engineEp b) ++ [feederEp b, cropEp b, queueManagerEp]

/-- A pass port peers with a unit of the berth; a link port with a station port. -/
def portBad (b : Nat) (p : Nat × StationPort) : Bool :=
  p.2.valid && (decide (p.1 / 1280 ≠ b) ||
    (if p.2.link then !epIsStation p.2.fin.peer else !(peerUnits b).contains p.2.peer))

/-- An engine queue is bound to a pass port of the berth that peers with its engine (R246). -/
def engineEndBad (b : Nat) (img : Image) (e : Nat) (q : EngineQueue) : Bool :=
  q.valid && (decide (epDomain q.peer ≠ b) || (match Tab.find img.ports (epKey q.peer) with
    | none => true
    | some p => p.link || decide (p.peer ≠ engineEp b e) || decide (p.inbound ≠ q.outbound)))

def checkEndpoints (b : Nat) (img : Image) : Failures :=
  failEach img.planes (fun q i => failIf (!endpointsOk b q.2) 0x0703 (place 2 i (q.1 / 32) (q.1 % 32)))
  ++ failEach img.ports (fun p i => failIf (portBad b p) 0x0703 (place 4 i 0 0))
  ++ failEach img.engines (fun g i => failIf (g.2.eqs.any (fun q => engineEndBad b img g.1 q.2)) 0x0703 (place 7 i 0 0))

end Sys2Proof.Machine
end

