-- ==== Sys2Proof/Machine/LoadCheck.lean ====
section
/-! DEFINITION. The load check as a whole (R299): phase A over the image, phase B against the berth (R243, R256, R301, R335), and its
verdict. -/

namespace Sys2Proof.Machine

/-! Class 8: against the berth (R301, R243, R256, R335) -/

/-- Slots of a berth, other than k, that are resident. -/
def residents (d : Device) (b k : Nat) : List Nat :=
  (List.range 4).filter (fun j => decide (j ≠ k) && decide (3 ≤ slotState d b j) && decide (slotState d b j ≤ 6))

def residentImages (d : Device) (b k : Nat) : List Image := (residents d b k).filterMap (fun j => (slotAt d b j).image)

/-- The block-memory rules between resident slots. -/
def regionClash (x y : Region) : Bool :=
  regionsMeet x y || (decide (x.tile = y.tile) && decide (x.bm = y.bm) && decide (x.mode ≠ y.mode))

/-- The spill regions that an image names, each with its bytes: threads of an engine that name one region share it (R246). -/
def spillRegions (img : Image) : List (Nat × Nat) :=
  (img.engines.flatMap (fun g => (g.2.threads.filter (fun t => t.2.used && decide (0 < t.2.size))).map (fun t => (t.2.region, 32 * t.2.size)))).foldl
    (fun rs r => if rs.any (fun x => x.1 = r.1) then rs else rs ++ [r]) []

/-- Bytes of every spill region of an image. -/
def spillSizes (img : Image) : List Nat := (spillRegions img).map (·.2)

def imageRate (img : Image) : Nat :=
  img.engines.foldl (fun n g => g.2.eqs.foldl (fun n q => if q.2.valid then n + q.2.rate else n) n) 0

/-- A resident slot of another berth claims the channel with another peer, or the port is disabled. -/
def channelClash (d : Device) (b : Nat) (img : Image) (c : Nat × Nat × Nat) : Bool :=
  !odFlag d (0x8900 + c.1) 1 || (List.range 4).any (fun j => decide (j ≠ b) && (residentImages d j 4).any (fun y =>
    y.channels.any (fun x => decide (x.1 = c.1) && decide (x.2.1 = c.2.1)) && decide (peerId y c.1 ≠ peerId img c.1)))

def checkBerth (d : Device) (b k : Nat) (img : Image) : Failures :=
  failEach img.regions (fun r i => failIf ((residentImages d b k).any (fun y => y.regions.any (regionClash r))) 0x0802
    (place 3 i (r.tile / 32) (r.tile % 32)))
  ++ failIf (poolAllocAll (berthAt d b).hbm 0 (spillSizes img)).isNone 0x0803 (place 7 0 0 0)
  ++ failIf (decide (pacerBudget < streamRates d b + queueRates d b + imageRate img)) 0x0804 (place 7 0 0 0)
  ++ failEach img.channels (fun c i => failIf (channelClash d b img c) 0x0805 (place 0xC i 0 0))

/-! The verdict (R299) -/

/-- Classes in ascending order; within a class, section order and record order. -/
def failBefore (x y : Nat × Nat) : Bool :=
  decide (x.1 / 256 < y.1 / 256) || (decide (x.1 / 256 = y.1 / 256) && (decide (x.2 < y.2) || (decide (x.2 = y.2) && decide (x.1 < y.1))))

def firstFailure : Failures → Option (Nat × Nat)
  | [] => none
  | f :: fs =>
    match firstFailure fs with
    | none => some f
    | some g => some (if failBefore g f then g else f)

/-- Every test of phase A after the container's: what the words reserve, then classes 2 to 7. -/
def checkContent (b : Nat) (img : Image) (bs : List Byte) : Failures :=
  let h := imgHeader bs
  let recs := quantRecords bs
  let rates := (rateRecords bs).map rateOf
  let credits := (creditRecords bs).map creditOf
  checkSteps img recs ++ checkPlanes img ++ checkRegions img ++ checkStages recs img ++ checkEngines img ++ checkHead recs bs img
    ++ checkQuant bs ++ checkTensors recs img ++ checkPasses rates img ++ checkRates bs rates img ++ checkCredits h img rates credits
    ++ checkRun img rates credits ++ checkTables h b img rates ++ checkRouters h rates ++ checkEndpoints b img ++ img.failure.toList

/-- The image that the loader reads from bytes (assumption log 7). -/
def readImage (bs : List Byte) : Image := imageOf (Config.parseImage bs) ((rateRecords bs).map rateOf)

/-- Phase A and, where it passes, phase B, of bytes whose sections read as `img`. -/
def loadVerdict (img : Image) (d : Device) (b k received : Nat) (bs : List Byte) : Option (Nat × Nat) :=
  match firstFailure (checkContainer d received bs ++ checkReserved img) with
  | some f => some f
  | none =>
    match firstFailure (checkContent b img bs) with
    | some f => some f
    | none => firstFailure (checkBerth d b k img)

end Sys2Proof.Machine
end

