-- ==== Sys2Proof/Machine/Slots.lean ====
section
/-! DEFINITION. What the end of a load check and the end of a slot's writing do (R299, R302, R303, R243). -/

namespace Sys2Proof.Machine

/-- The bytes of the stored image of a slot. -/
def slotBytes (d : Device) (b k : Nat) : List Byte :=
  memReadBytes (berthAt d b).hbm.mem (slotStore k) (slotAt d b k).received

/-- Spill data that nothing has written: zero payload, P = 1, the other sideband bits 0 (R243). -/
def fillSpill (h : Hbm) (addr bytes : Nat) : Hbm :=
  { h with
    mem := memClear addr (addr + bytes) h.mem
    side := (List.range (bytes / 32)).foldl (fun m k => Tab.set m (addr / 32 + k) { p := true }) h.side
    err := h.err.filter (fun e => !touchesToken addr bytes e.1) }

/-- Give every thread the base of its spill region, from the first granules of the image's regions in order. -/
def giveEngines (img : Image) (gs : List Nat) : Tab Engine :=
  Tab.map (fun e => { e with threads := Tab.map (fun t =>
    { t with base := poolAddr (gs.getD ((spillRegions img).findIdx (fun r => r.1 = t.region)) 0) }) e.threads }) img.engines

/-- Fill every spill region of an image. -/
def fillImage (h : Hbm) (img : Image) : Hbm :=
  img.engines.foldl (fun h g => g.2.threads.foldl (fun h t =>
    if t.2.used && decide (0 < t.2.size) then fillSpill h t.2.base (32 * t.2.size) else h) h) h

/-- The committed epochs of a slot's former image are discarded (R303, R290). -/
def dropEpochs (d : Device) (b k : Nat) : Device :=
  modBerth d b (fun x => { x with adapt := { x.adapt with ring := x.adapt.ring.filter (fun e => e.slot ≠ k) } })

/-- The quantisation record of a tensor (R78); all 0 where the image holds none. -/
def recordOfTid (bs : List Byte) (tid : Nat) : BitVec 320 :=
  BitVec.ofNat 320 (((quantRecords bs).find? (fun r => decide (r % 65536 = tid))).getD 0)

/-- Entering WRITING (R303): the scale state mirror of the slot, its epochs and the defaults-restored causes (R290, R404). -/
def enterWriting (img : Image) (d : Device) (b k : Nat) (bs : List Byte) : Device :=
  match poolAllocAll (berthAt d b).hbm (0x10000 + k) (spillSizes img) with
  | none => d
  | some (gs, h) =>
    let img := { img with
      engines := giveEngines img gs
      bind := { img.bind with record := recordOfTid bs img.bind.tid } }
    let lost := !(slotRing d b k).isEmpty
    let d := dropEpochs d b k
    let d := if lost then listRestored (setCause d 4096 (2 ^ b)) (0x8810 + b) 2 else d
    let d := modBerth d b (fun x => { x with
      hbm := fillImage h img
      mirror := x.mirror.filter (fun e => e.1 / 2 ^ 26 ≠ k) })
    let d := setSlot d b k
      { received := (slotAt d b k).received
        image := some img
        rates := (rateRecords bs).map rateOf
        credits := (creditRecords bs).map creditOf
        granules := gs
        rateSum := imageRate img
        imgid := BitVec.ofNat 128 (hImgid (imgHeader bs)) }
    let d := odPut (odPut (odPut d (0x3000 + 4 * b + k) 3 (hImgid (imgHeader bs))) (0x3000 + 4 * b + k) 4 0) (0x3000 + 4 * b + k) 5 0
    setSlotState (setCause d 64 (2 ^ b)) b k 3

/-- IMAGE_LOAD_CHECK_DONE: to WRITING, or to REFUSED with STATUS and DETAIL. IMGID shows the stored image's identity. The stored
bytes' sections read as `img`. -/
def checkDone (img : Image) (d : Device) (b k : Nat) : Device :=
  let bs := slotBytes d b k
  match loadVerdict img d b k bs.length bs with
  | none => enterWriting img d b k bs
  | some f =>
    let d := odPut (odPut (odPut d (0x3000 + 4 * b + k) 3 (hImgid (imgHeader bs))) (0x3000 + 4 * b + k) 4 f.1) (0x3000 + 4 * b + k) 5 f.2
    setSlotState d b k 7

def execImageLoadCheckDone (b k : Fin 4) (s : State) : Host.Outcome State Fault Refusal :=
  onDev (guarded (fun d => firmwareReady d && decide (slotState d b.val k.val = 2))
    (fun d => checkDone (readImage (slotBytes d b.val k.val)) d b.val k.val)) s

/-- SLOT_WRITE_DONE: every plane and region is written; the slot is LOADED, and its PAIR records go out (R337). -/
def writeDone (d : Device) (b k : Nat) : Device :=
  match (slotAt d b k).image with
  | none => d
  | some img => sendPairs (setSlotState (loadSlotTiles d b k img) b k 4) b k

def execSlotWriteDone (b k : Fin 4) (s : State) : Host.Outcome State Fault Refusal :=
  onDev (guarded (fun d => firmwareReady d && decide (slotState d b.val k.val = 3)) (fun d => writeDone d b.val k.val)) s

/-! Storing an image (R302, Table 12-7) -/

/-- The slot takes no image: it is RELEASING or RUNNING, or in a changeover. -/
def slotBusy (d : Device) (b k : Nat) : Bool :=
  decide (slotState d b k = 5) || decide (slotState d b k = 6) || ((coOf d b).active && decide ((coOf d b).target = k))

/-- A write begins: the slot's image, its pool regions and its planes go. -/
def beginImage (d : Device) (b k : Nat) : Device :=
  let sl := slotAt d b k
  let d := modBerth d b (fun x => { x with hbm := poolFree x.hbm sl.granules })
  let d := (slotTiles d b k).foldl (fun d key => modTile d b key (fun t => setPlane t k {})) d
  let d := setSlot d b k { imgid := sl.imgid }
  let d := odPut (odPut (odPut d (0x3000 + 4 * b + k) 3 0) (0x3000 + 4 * b + k) 4 0) (0x3000 + 4 * b + k) 5 0
  setSlotState d b k 1

/-- The last segment is stored: the check begins. -/
def storeImage (d : Device) (b k : Nat) (bs : List Byte) : Device :=
  let d := modBerth d b (fun x => { x with hbm := hbmWriteBytes x.hbm (slotStore k) bs })
  let d := setSlot d b k { slotAt d b k with received := bs.length }
  setSlotState d b k 2

end Sys2Proof.Machine
end

