-- ==== Sys2Proof/Machine/JopState.lean ====
section
/-! DEFINITION. What the object dictionary service reads and writes behind the frames of JOP: the values of objects, the contents
of DOMAIN objects, and the effect of every write (R362, R376, R384, R391, R399 to R403, R408 to R414, R440, R448 to R450). -/

namespace Sys2Proof.Machine

/-- The bytes in which a committed epoch is read as a SNAPSHOT (Table 11-12): no layout is given. -/
opaque Config.snapshotBytes : Machine.Epoch → List Byte
/-- The epoch that snapshot bytes spell; none where they spell none. -/
opaque Config.snapshotEpoch : List Byte → Option Machine.Epoch
/-- Byte n of the scan area beyond its header and its block memories (R321): the order of these parts is not given. -/
opaque Config.scanByte : Machine.ScanArea → Nat → Byte
/-- A scan area after bytes beyond its header are written at an offset. -/
opaque Config.scanWrite : Machine.ScanArea → Nat → List Byte → Machine.ScanArea

/-! Values (R409, R414) -/

/-- Pointers and counters of a queue record (Table 15-13). -/
def queueValue (d : Device) (q s : Nat) : Nat :=
  let r := ringOf d q
  if s = 0x0E then r.pi.toNat
  else if s = 0x0F then r.ci.toNat
  else if s = 0x10 then r.fepoch.toNat
  else if s = 0x11 then r.items
  else if s = 0x12 then r.dropped
  else if s = 0x13 then r.flushed
  else if s = 0x14 then r.resets.toNat
  else if s = 0x15 then r.badDoorbells
  else if s = 0x16 then r.gapsSeen
  else odGet d (0x4000 + q) s

/-- Pointers of a host event queue (Table 15-14). -/
def evqValue (d : Device) (h s : Nat) : Nat :=
  let q := evqAt d h
  if s = 5 then q.pi.toNat else if s = 6 then q.ci.toNat else if s = 7 then evqPending d h else odGet d (0x8180 + h) s

/-- Module hardware objects (Table 19-20). -/
def hardwareValue (d : Device) (s : Nat) : Nat :=
  if s = 1 then d.power.bid
  else if s = 2 then (if cablePresent d then cableDecoded d / 150 else 0)
  else if s = 3 then availW d
  else if s = 4 then effectiveW d
  else if s = 6 then b2n (sfpAt d 0).present + 2 * b2n (sfpAt d 1).present
  else odGet d 0x8450 s

/-- LR, BETA1, BETA2 and EPSV: the written value, else the running image's (Table 11-12). -/
def adaptValue (d : Device) (b s : Nat) : Nat :=
  let image := fun (f : HeadDecl → U32) => (adaptParam d b s (((headOf d b).map f).getD 0)).toNat
  if s = 6 then image (·.lr)
  else if s = 7 then image (·.beta1)
  else if s = 8 then image (·.beta2)
  else if s = 9 then image (·.epsv)
  else odGet d (0x8800 + b) s

/-- Version in the inactive bank; 0 none (Table 16-15). -/
def inactiveVersion (d : Device) : Nat :=
  if d.fw.inactiveValid then (Config.fwVerify (if d.fw.active = 0 then d.fw.bank1 else d.fw.bank0)).getD 0 else 0

/-- PAIRING, one octet for each channel (Table 13-5). -/
def pairingValue (d : Device) (p : Nat) : Nat :=
  leNat ((List.range 63).map (fun ch => BitVec.ofNat 8 (pairingOf d p ch)))

/-- The value that a read of an object returns. -/
def odValue (d : Device) (i s : Nat) : Nat :=
  match odKind i with
  | some .identity => if s = 8 then d.fw.active else odGet d i s
  | some .firmware => if s = 4 then inactiveVersion d else odGet d i s
  | some .comm => if s = 9 then d.sessions.length else odGet d i s
  | some .time => if s = 1 then d.time else odGet d i s
  | some .queue => queueValue d (i - 0x4000) s
  | some .hub => if s = 2 then d.hub.nextSeq.toNat else if s = 4 then d.hub.uncleared.length else odGet d i s
  | some .eventQueue => evqValue d (i - 0x8180) s
  | some .power => if s = 3 then d.power.fR else odGet d i s
  | some .hardware => hardwareValue d s
  | some .adapt => adaptValue d (i - 0x8800) s
  | some .folsa => if s = 7 then pairingValue d (i - 0x8900) else odGet d i s
  | some .test => if s = 3 then b2n d.power.testEn else odGet d i s
  | _ => odGet d i s

/-! Contents of DOMAIN objects -/

/-- A fault record (Table 17-5). -/
def faultBytes (r : FaultRec) : List Byte :=
  leBytes 32 (r.seq.toNat * 2 ^ 224 + r.time % 2 ^ 64 * 2 ^ 160 + r.blame.toNat * 2 ^ 128 + r.reporter.toNat * 2 ^ 96
    + r.info.toNat * 2 ^ 64 + r.count % 65536 * 2 ^ 48 + r.rootseq.toNat * 2 ^ 32 + r.source % 512 * 2 ^ 23 + r.action % 8 * 2 ^ 20
    + r.outcome % 4 * 2 ^ 18 + b2n r.root * 2 ^ 17 + b2n r.esc * 2 ^ 16 + b2n r.inj * 2 ^ 15 + r.react % 32)

/-- A discard record (Table 17-11). -/
def discardBytes (r : Discard) : List Byte :=
  leBytes 16 (r.time % 2 ^ 64 * 2 ^ 64 + r.qid % 65536 * 2 ^ 48 + r.berth % 4 * 2 ^ 46 + r.cause % 16 * 2 ^ 42 + r.f % 4096 * 2 ^ 30
    + r.qkind % 4 * 2 ^ 28 + r.count % 2 ^ 28)

/-- STALL_TOTALS: 80 bytes a stage, in stage-map order (R414). -/
def stallBytes (d : Device) (b : Nat) : List Byte :=
  match (slotAt d b (runSlot d b)).image with
  | none => []
  | some img => (List.range img.stages.length).flatMap (fun st =>
      leBytes 2 st ++ List.replicate 14 0 ++ (List.range 8).flatMap (fun i => leBytes 8 (Tab.get 0 d.stallTotals (2 ^ 20 * b + 8 * st + i)).toNat))

/-- The committed epoch of a berth: one of its ring, or epoch 0, the image content (R287). -/
def committedEpoch (d : Device) (b : Nat) : Option Epoch :=
  (headOf d b).map (fun h =>
    let k := odGet d (0x8810 + b) 2
    { number := k, imgid := (slotAt d b (runSlot d b)).imgid, copies := epochCopies d b k h })

/-- An HBM queue that its DATA object reaches, in direction `dir` (R377). -/
def dataOpen (d : Device) (q dir : Nat) : Bool := (ringOf d q).enabled && decide (qLoc d q = 1) && decide (qDir d q = dir)

/-- Bytes of the present content of a DOMAIN object (R399). -/
def domainSize (d : Device) (i s : Nat) : Nat :=
  match odKind i with
  | some .slot => if slotState d ((i - 0x3000) / 4) ((i - 0x3000) % 4) < 2 then 0 else (slotAt d ((i - 0x3000) / 4) ((i - 0x3000) % 4)).received
  | some .firmware => (if d.fw.active = 0 then d.fw.bank0 else d.fw.bank1).length
  | some .snapshot => ((committedEpoch d (i - 0x8820)).map (fun e => (Config.snapshotBytes e).length)).getD 0
  | some .scanData => if (berthAt d (i - 0x3020)).scan.allocated then scanBytes else 0
  | some .queue => if s = 0x17 ∧ dataOpen d (i - 0x4000) 0 then ringHeld (ringOf d (i - 0x4000)) * (qBytes d (i - 0x4000) + 1) else 0
  | some .stallTotals => (stallBytes d (i - 0x3120)).length
  | some .hub => 32 * d.hub.log.length
  | some .discardLog => 16 * d.hub.discards.length
  | _ => 0

/-- The tile and the block-memory byte that stand at a place of the scan area: every record of a position begins with its 384 KiB
of block memory (R321; DEDUCED, assumption log 28). -/
def scanBm (n : Nat) : Option (Nat × Nat) :=
  let r := (n - 64) / 458752
  let o := (n - 64) % 458752
  if 64 ≤ n ∧ r < 400 ∧ o < 393216 then some (tileKey (r / 20) (r % 20), o) else none

/-- A byte of a scan area: header, block memory, or what has no place of its own. -/
def scanAt (x : ScanArea) (n : Nat) : Byte :=
  if n < 64 then x.header.getD n 0
  else match (scanBm n).bind (fun p => (Tab.find x.tiles p.1).map (fun t => memRead t.mem p.2)) with
    | some v => v
    | none => Config.scanByte x n

/-- `n` bytes of a scan area from an offset: the header, then the records. -/
def scanSlice (x : ScanArea) (off n : Nat) : List Byte := (List.range n).map (fun k => scanAt x (off + k))

/-- One byte written at a place of the block memories. -/
def scanPoke (x : ScanArea) (n : Nat) (v : Byte) : ScanArea :=
  match scanBm n with
  | none => x
  | some (k, a) =>
    if (Tab.find x.tiles k).isSome then
      { x with tiles := Tab.modify {} x.tiles k (fun t => { t with mem := memWrite t.mem a v }) }
    else x

/-- Bytes written at an offset of the records: block memory in place, the rest as the free layout has it. -/
def scanPut (x : ScanArea) (off : Nat) (bs : List Byte) : ScanArea :=
  let free := Config.scanWrite x off bs
  let mem := fun (k : Nat) => ((Tab.find x.tiles k).map (·.mem)).getD []
  let kept := { free with tiles := List.map (fun (p : Nat × Tile) => (p.1, { p.2 with mem := mem p.1 })) free.tiles }
  (List.range bs.length).foldl (fun y i => scanPoke y (off + i) (bs.getD i 0)) kept

/-- `n` bytes of a DOMAIN object's content from an offset; DATA, whose reads consume items, is read by `dataRead`. -/
def domainSlice (d : Device) (i off n : Nat) : List Byte :=
  match odKind i with
  | some .slot => memReadBytes (berthAt d ((i - 0x3000) / 4)).hbm.mem (slotStore ((i - 0x3000) % 4) + off) n
  | some .firmware => sliceBytes (if d.fw.active = 0 then d.fw.bank0 else d.fw.bank1) off n
  | some .snapshot => sliceBytes (((committedEpoch d (i - 0x8820)).map Config.snapshotBytes).getD []) off n
  | some .scanData => scanSlice (berthAt d (i - 0x3020)).scan off n
  | some .stallTotals => sliceBytes (stallBytes d (i - 0x3120)) off n
  | some .hub => sliceBytes (d.hub.log.flatMap faultBytes) off n
  | some .discardLog => sliceBytes (d.hub.discards.flatMap discardBytes) off n
  | _ => []

/-! Status codes (Table 16-8) -/

def stOk : Nat := 0x00
def stNoObject : Nat := 0x01
def stNoSubindex : Nat := 0x02
def stAccess : Nat := 0x03
def stLength : Nat := 0x04
def stRange : Nat := 0x05
def stState : Nat := 0x06
def stRole : Nat := 0x07
def stAuth : Nat := 0x08
def stReplay : Nat := 0x09
def stBusy : Nat := 0x0A
def stResource : Nat := 0x0B
def stRefused : Nat := 0x0C
def stSegment : Nat := 0x0D
def stFrame : Nat := 0x0E

/-- An object that the firmware lacks, or its row. -/
def findRow (i s : Nat) : Nat × OdRow :=
  match odKind i with
  | none => (stNoObject, default)
  | some k => match odRow k s with
    | none => (stNoSubindex, default)
    | some r => (stOk, r)

/-! Firmware update (R391) -/

/-- A slot is between LOADING and RELEASING with its work pending, or an image of firmware is being written. -/
def fwBusy (d : Device) : Bool :=
  (List.range 16).any (fun x => [1, 2, 3, 5].contains (slotState d (x / 4) (x % 4)))
    || d.transfers.any (fun t => decide (t.index = 0x1020) && t.write)

/-- FW_COMMAND is accepted: nothing pending, and a verified bank to boot for commands 1 and 2. -/
def fwAllowed (d : Device) (cmd : Nat) : Bool := firmwareReady d && !fwBusy d && (decide (cmd = 3) || d.fw.inactiveValid)

/-- The inactive bank is marked to boot. -/
def fwMark (d : Device) : Device := { d with fw := { d.fw with marked := true, tries := 0 } }
def fwUnmark (d : Device) : Device := { d with fw := { d.fw with marked := false, tries := 0 } }

def fwCommand (d : Device) (cmd : Nat) : Device :=
  if cmd = 1 then fwMark d else if cmd = 2 then warmResetAll (fwMark d) else fwUnmark d

/-! Writes -/

/-- TX_DISABLE and link of a cage after a write of its port's ENABLE or SPEED (R475). -/
def portRefresh (d : Device) (c : Nat) : Device :=
  let p := sfpAt d c
  setSfp d c { p with
    txDisable := !cageReady d c p
    unfit := p.present && decide (p.rate < odGet d (0x2000 + c) 2)
    link := p.link && cageReady d c p }

/-- A port is enabled: it reports the groups of the enabled streams that join on it (R344). -/
def portReports (d : Device) (c : Nat) : Device := (joined d c).foldl (fun d g => portSend d c (groupReport d g.2)) d

def portWrite (d : Device) (c s v : Nat) : Device × Nat :=
  let on := odFlag d (0x2000 + c) 1
  let d := portRefresh (odStore d (0x2000 + c) s v) c
  (if s = 1 ∧ v = 1 ∧ !on then portReports d c else d, stOk)

/-- JOP status of an enable that left a stream's STATUS (R400): pool and pacer RESOURCE, clash and bad field REFUSED, and STATE
while the stream is FREEING. -/
def enableStatus (c : Nat) : Nat := if c = 1 ∨ c = 2 then stResource else if c = 3 ∨ c = 4 then stRefused else stState

/-- Fields that accept writes while the stream is enabled (R362). -/
def streamLive (d : Device) (n s v : Nat) : Bool :=
  decide (s = 0x18) || decide (s = 0x19) || decide (s = 0x1A)
    || (decide (s = 0x0D) && decide (v + 8 * (strm d n s / 8 % 2) = strm d n s + 8 * (v / 8 % 2)))

def streamWrite (d : Device) (n s v : Nat) : Device × Nat :=
  if s = 1 then
    (if v = 0 then (disableStream d n, stOk)
    else if (streamAt d n).active then (d, stOk)
    else
      let d := enableStream d n
      (d, if (streamAt d n).active then stOk else enableStatus (strm d n 0x1C)))
  else if (streamAt d n).active && !streamLive d n s v then (d, stState)
  else if s = 0x19 then (anchorWrite d n v, stOk)
  else (odStore d (0x2400 + n) s v, stOk)

/-- Result of a changeover or scan command: a refused one leaves its reason in CO_STATUS (R323). -/
def coResult (b : Nat) (d : Device) : Device × Nat := (d, if odGet d (0x3010 + b) 7 = 0 then stOk else stRefused)

def changeoverWrite (d : Device) (b v : Nat) : Device × Nat :=
  let k := v % 16
  let mode := v / 16 % 4
  let halted := decide (v / 64 % 2 = 1)
  if 127 < v ∨ (3 < k ∧ k ≠ 15) ∨ (halted ∧ (mode = 0 ∨ k = 15)) then (d, stRange)
  else if k < 4 ∧ availW d < 120 then (d, stState)
  else coResult b (if mode = 0 then orderly d b k else forced d b k mode halted)

def scanWriteCommand (d : Device) (b v : Nat) : Device × Nat :=
  coResult b (if v = 1 then haltCommand d b else if v = 2 then resumeCommand d b else if v = 3 then scanOutCommand d b
    else if v = 4 then scanInCommand d b else holdReleaseCommand d b)

def slotWrite (d : Device) (b k : Nat) : Device × Nat :=
  if slotState d b k = 0 then (d, stOk)
  else if slotState d b k = 4 ∨ slotState d b k = 7 then (unloadSlot (wakeBerth d b) b k, stOk)
  else (d, stState)

/-- Field values of a queue record that are in their stated ranges (Table 15-13). -/
def queueFieldOk (s v : Nat) : Bool :=
  if s = 4 then decide (v < 4)
  else if s = 5 then [32, 64, 128, 256].contains v
  else if s = 6 then decide (16 ≤ v) && decide (v ≤ 65536) && isPow2 v
  else if s = 0x0A then decide (v < 32) || decide (v = 0xFF)
  else true

/-- Queue record (R376): the fields accept writes while ENABLE is FALSE, EVQ at any time. -/
def queueWrite (d : Device) (q s v : Nat) : Device × Nat :=
  if s = 1 then
    (if v = 0 then (disableQueue d q, stOk)
    else if (ringOf d q).enabled then (d, stOk)
    else
      let c := queueCheck d q
      (enableQueue d q, if c = 0 then stOk else if c = 3 then stRefused else stResource))
  else if s = 0x0C then (flushQueue d q 0, stOk)
  else if !queueFieldOk s v then (d, stRange)
  else if s = 0x0A then (queueEvent (odStore d (0x4000 + q) s v) q, stOk)
  else if (ringOf d q).enabled then (d, stState)
  else (odStore d (0x4000 + q) s v, stOk)

/-- Host event queue record (R384). -/
def evqWriteField (d : Device) (h s v : Nat) : Device × Nat :=
  if s = 1 then
    (if v = 0 then (odPut d (0x8180 + h) 1 0, stOk)
    else
      let d := evqEnable d h
      (d, if evqEnabled d h then stOk else stRange))
  else if s = 3 ∧ !isPow2 v then (d, stRange)
  else if evqEnabled d h then (d, stState)
  else (odStore d (0x8180 + h) s v, stOk)

def mpowerWrite (d : Device) (v : Nat) : Device × Nat :=
  if v = 3 then
    (if mstate d = 0 then (d, stOk) else if activeAllowed d then (mpowerActive d, stOk) else (d, stState))
  else if moorAllowed d then (if v = 1 then moor d else dockState d, stOk)
  else (d, stState)

def bpowerWrite (d : Device) (b v : Nat) : Device × Nat :=
  if v = 1 then (if holdAllowed d b then (holdBerth d b, stOk) else (d, stState))
  else if v = 2 then (if dozeAllowed d b then (dozeBerth d b, stOk) else (d, stState))
  else if mstate d = 0 then (if bpstate d b = 0 then d else wakeBerth d b, stOk)
  else (d, stState)

/-- Adaptation command (R288, R290). -/
def adaptCommand (d : Device) (b v : Nat) : Device × Nat :=
  if v = 1 then (pauseAdapt d b, stOk)
  else if v = 2 then (resumeAdapt d b, stOk)
  else if v = 6 then (abortAdapt d b, stOk)
  else if (headOf d b).isNone then (d, stState)
  else if (rollbackEpoch d b v).isNone then (d, stRange)
  else if rollbackBusy d b then (d, stState)
  else (rollback d b v, stOk)

/-- A binding to a queue of the wrong direction is refused (R364). -/
def adaptWrite (d : Device) (b s v : Nat) : Device × Nat :=
  if s = 0x0C then adaptCommand d b v
  else if (s = 2 ∧ !bindingOk d v 1) ∨ (s = 3 ∧ !bindingOk d v 0) then (d, stRange)
  else if s = 1 then (showAdapt (odStore d (0x8800 + b) s v) b, stOk)
  else (odStore d (0x8800 + b) s v, stOk)

def folsaWrite (d : Device) (p s v : Nat) : Device × Nat :=
  if s = 1 then (if v = 1 then enableFolsa d p else disableFolsa d p, stOk) else (odStore d (0x8900 + p) s v, stOk)

/-- Injection points (R440): arming needs test mode, and a source with a detector. -/
def injectionWrite (d : Device) (i s v : Nat) : Device × Nat :=
  if s = 6 then
    (if v = 0 then (injectionDisarm d i, stOk)
    else if !testMode d then (d, stState)
    else (injectionArm d i, stOk))
  else if s = 1 ∧ !injectable v then (d, stRange)
  else (odStore d (0xF010 + i) s v, stOk)

/-- A routing entry has no reserved bit set and a target that Table 15-9 has. -/
def routeOk (v : Nat) : Bool :=
  decide (v / 256 % 128 = 0) && (decide (v % 256 < 6) || (decide (16 ≤ v % 256) && decide (v % 256 < 48)))

/-- A write in MOOR needs a berth, a port or HBM beyond the saved objects (R449). -/
def moorRefuses (d : Device) (i s v : Nat) : Bool :=
  match odKind i with
  | some .port => decide (s = 1) || decide (s = 2)
  | some .stream => decide (s = 1)
  | some .slot => true
  | some .changeover => decide (s ≠ 6)
  | some .scanData => true
  | some .snapshot => true
  | some .berthReset => true
  | some .berthPower => decide (s = 2)
  | some .queue => decide (s = 0x17) || (decide (s = 1) && decide (v = 1) && decide (qLoc d (i - 0x4000) = 1))
  | some .adapt => decide (s = 0x0C)
  | some .folsa => decide (s = 1)
  | some .injection => decide (s = 6)
  | _ => false

/-- The effect of a write whose access, length and range of its row are good, with its status. `auth` and `role` are those of
the request. -/
def writeObject (d : Device) (auth : Bool) (role i s v : Nat) : Device × Nat :=
  match odKind i with
  | some .restored => if s = 1 then (causeClear d v, stOk) else (odStore d i s v, stOk)
  | some .restoreDefaults => (restoreDefaults d, stOk)
  | some .firmware => if fwAllowed d v then (fwCommand d v, stOk) else (d, stState)
  | some .comm =>
    if s ≤ 6 then ({ d with journal := d.journal ++ [{ key := 256 * i + s, value := v }] }, stOk) else (odStore d i s v, stOk)
  | some .time => if s = 1 then (timeWrite d v, stOk) else (odStore d i s v, stOk)
  | some .port => portWrite d (i - 0x2000) s v
  | some .exception => if bindingOk d v 0 then (odStore d i s v, stOk) else (d, stRange)
  | some .stream => if s = 0x12 ∧ !isPow2 v then (d, stRange) else streamWrite d (i - 0x2400) s v
  | some .slot => slotWrite d ((i - 0x3000) / 4) ((i - 0x3000) % 4)
  | some .changeover =>
    if s = 2 then changeoverWrite d (i - 0x3010) v
    else if s = 8 then scanWriteCommand d (i - 0x3010) v
    else (odStore d i s v, stOk)
  | some .berthReset => if mstate d = 0 then (berthResetAll (wakeBerth d (i - 0x3130)) (i - 0x3130), stOk) else (d, stState)
  | some .queue => queueWrite d (i - 0x4000) s v
  | some .reaction =>
    if reactionRefused (128 * (i - 0x8000) + s - 1) v then (d, stRange) else (reactionWrite d (128 * (i - 0x8000) + s - 1) v, stOk)
  | some .hub =>
    if s = 5 then (if v < 512 ∨ v = 0xFFFF then (clearSources d v, stOk) else (d, stRange)) else (odStore d i s v, stOk)
  | some .route => if routeOk v then (odStore d i s v, stOk) else (d, stRange)
  | some .eventQueue => evqWriteField d (i - 0x8180) s v
  | some .power =>
    if s = 9 then mpowerWrite d v
    else if s = 2 ∧ v % 100 ≠ 0 then (d, stRange)
    else (odStore d i s v, stOk)
  | some .berthPower => if s = 2 then bpowerWrite d (i - 0x8410) v else (odStore d i s v, stOk)
  | some .warmReset => ({ d with fw := { d.fw with warmDue := true } }, stOk)
  | some .adapt => adaptWrite d (i - 0x8800) s v
  | some .folsa => folsaWrite d (i - 0x8900) s v
  | some .test =>
    if v ≠ 0x54455354 then (d, stRange) else (testEnter d role auth v, stOk)
  | some .injection => injectionWrite d (i - 0xF010) s v
  | _ => (odStore d i s v, stOk)

end Sys2Proof.Machine
end

