-- ==== Sys2Proof/Machine/Jop.lean ====
section
/-! DEFINITION. The host interface: BAR0, the mailbox, the management port, MCTP, JOP frames with their sessions, segmented
transfers and the flash journal (R389 to R414). -/

namespace Sys2Proof.Machine

/-! Frames (R398, R399) -/

/-- The request that a frame's first 32 bytes and its payload spell (Table 16-6). -/
def parseFrame (tr : Transport) (bs : List Byte) : JopReq :=
  let h := leAt bs 0 32
  let n := nbits h 191 176
  { tr := tr
    op := nbits h 135 128
    seq := BitVec.ofNat 32 (nbits h 255 224)
    sid := BitVec.ofNat 32 (nbits h 223 192)
    index := nbits h 151 136
    sub := nbits h 159 152
    tag := BitVec.ofNat 32 (nbits h 127 96)
    offset := nbits h 95 64
    auth := decide (nbits h 9 9 = 1)
    payload := sliceBytes bs 32 n
    authTag := if nbits h 9 9 = 1 then sliceBytes bs (32 + n) 16 else []
    header := sliceBytes bs 0 32 }

def jopOps : List Nat := [0x01, 0x02, 0x03, 0x04, 0x05, 0x06, 0x10, 0x11, 0x20]

/-- Largest payload of a transport (R398). -/
def maxPayload : Transport → Nat
  | .mailbox => 4048
  | .udp => 1024
  | .mctp => 1024

/-- A frame is answered FRAME (R398). -/
def frameBad (tr : Transport) (bs : List Byte) : Bool :=
  let h := leAt bs 0 32
  decide (bs.length < 32) || decide (nbits h 7 0 ≠ 1)
    || decide (bs.length ≠ 32 + nbits h 191 176 + 16 * nbits h 9 9)
    || decide (maxPayload tr < nbits h 191 176)
    || !jopOps.contains (nbits h 135 128)
    || decide (nbits h 63 10 ≠ 0) || decide (nbits h 8 8 ≠ 0) || decide (nbits h 175 160 ≠ 0)
    || (decide (nbits h 95 64 ≠ 0) && decide (nbits h 135 128 ≠ 0x04))

/-- Header of a response: the request's fields with RESP = 1 (R399). -/
def responseHeader (r : JopReq) (status len : Nat) (auth : Bool) : List Byte :=
  leBytes 32 (r.seq.toNat * 2 ^ 224 + r.sid.toNat * 2 ^ 192 + len * 2 ^ 176 + status * 2 ^ 160 + r.sub * 2 ^ 152 + r.index * 2 ^ 136
    + r.op * 2 ^ 128 + r.tag.toNat * 2 ^ 96 + r.offset * 2 ^ 64 + b2n auth * 2 ^ 9 + 2 ^ 8 + 1)

/-- Tag of a frame under a session key (R406). -/
def frameTag (key header payload : List Byte) : List Byte := (hmac key (header ++ payload)).take 16

/-- A response frame, tagged where a key is given. -/
def responseFrame (key : Option (List Byte)) (r : JopReq) (status : Nat) (payload : List Byte) : List Byte :=
  let h := responseHeader r status payload.length key.isSome
  h ++ payload ++ (match key with
    | some k => frameTag k h payload
    | none => [])

/-! Sessions (R405 to R407) -/

def sessionOf (d : Device) (tr : Transport) (sid : U32) : Option Session :=
  d.sessions.find? (fun s => decide (s.sid = sid) && decide (s.tr = tr))

def modSession (d : Device) (sid : U32) (f : Session → Session) : Device :=
  { d with sessions := d.sessions.map (fun s => if s.sid = sid then f s else s) }

/-- What becomes of a request before it is executed. -/
inductive Verdict where
  /-- Discarded without a response. -/
  | drop (d : Device)
  /-- The stored response of the same request is sent again. -/
  | again (d : Device) (bytes : List Byte)
  /-- Answered with a status. -/
  | answer (d : Device) (status : Nat)
  /-- Executed at a role. -/
  | go (d : Device) (role : Nat)

/-- A frame whose tag fails is counted; the 16th in a row closes the session (R406). -/
def tagFailed (d : Device) (s : Session) : Device :=
  let d := odAdd d 0x1100 0x0A 1
  if 16 ≤ s.fails + 1 then closeSession d s.sid else modSession d s.sid (fun s => { s with fails := s.fails + 1 })

/-- Admission of a request in a session. -/
def admitSession (d : Device) (r : JopReq) (s : Session) : Verdict :=
  if r.authTag ≠ frameTag s.key r.header r.payload then .drop (tagFailed d s)
  else
    let d := modSession d s.sid (fun s => { s with fails := 0 })
    if s.lastSeq < r.seq then
      .go (modSession d s.sid (fun s => { s with lastSeq := r.seq, lastTag := r.authTag, lastResp := [], usedAt := d.time }))
        (odGet d (0x1110 + s.slot) 2)
    else if r.seq = s.lastSeq ∧ r.authTag = s.lastTag then
      (if s.lastResp.isEmpty then .drop d else .again d s.lastResp)
    else .answer (odAdd d 0x1100 0x0B 1) stReplay

/-- Objects 0x1000 to 0x100F, which every requester may read (R405). -/
def openObject (i : Nat) : Bool := decide (0x1000 ≤ i) && decide (i ≤ 0x100F)
def isRead (op : Nat) : Bool := decide (op = 0x01) || decide (op = 0x20)

/-- Every key slot is disabled, as at delivery. -/
def noKeys (d : Device) : Bool := (List.range 4).all (fun k => !odFlag d (0x1110 + k) 3)

/-- Admission (R405 to R407). -/
def vetRequest (d : Device) (r : JopReq) : Verdict :=
  if r.sid ≠ 0 then
    match sessionOf d r.tr r.sid with
    | none => .answer d stAuth
    | some s => if r.auth then admitSession d r s else .answer d stAuth
  else if r.auth then .answer d stAuth
  else if r.op = 0x10 then .go d 0
  else if r.tr = .mailbox ∧ !odFlag d 0x1100 7 then .go d 2
  else if isRead r.op && openObject r.index then .go d 0
  else if decide (r.tr = .mctp) && decide (mstate d = 5) && noKeys d && decide (r.op = 0x02) && decide (r.index = 0x8400)
      && decide (r.sub = 9) && decide (r.payload = [3]) then .go d 2
  else .answer d stAuth

/-- The role has the right to the access (R405, R440). -/
def roleAllows (r : JopReq) : Bool :=
  decide (r.op = 0x10) || decide (r.op = 0x11)
    || (if 0xF000 ≤ r.index ∧ r.index ≤ 0xF0FF ∧ !isRead r.op then decide (r.role = 2) && r.auth
      else if r.role = 0 then isRead r.op
      else if r.role = 1 then
        !(decide (0x1100 ≤ r.index) && decide (r.index ≤ 0x11FF)) && !(decide (r.index = 0x1020) && (decide (r.sub = 1) || decide (r.sub = 3)))
      else true)

/-- The access is served in the module's power state: in DOCK a few over MCTP, before READY reads of the identity (R397, R449,
R450, R478). -/
def powerAllows (d : Device) (r : JopReq) : Bool :=
  if mstate d = 5 then
    decide (r.tr = .mctp) && (decide (r.op = 0x10) || decide (r.op = 0x11)
      || (isRead r.op && (openObject r.index || decide (r.index = 0x1010) || decide (r.index = 0x8400)))
      || (decide (r.op = 0x02) && decide (r.index = 0x8400) && decide (r.sub = 9)))
  else if !firmwareReady d then decide (r.tr = .mctp) && isRead r.op && openObject r.index
  else true

/-! Replies -/

def trKey : Transport → Nat
  | .mailbox => 0
  | .udp => 1
  | .mctp => 2

/-- The message of a frame on MCTP (R397). -/
def mctpBytes (d : Device) (bs : List Byte) : List Byte := 0x7E :: leBytes 2 (odGet d 0x1000 1) ++ bs

/-- Hand a response frame to its transport; on the mailbox it waits for MBX_RESPONSE_DONE while the request is being served. -/
def sendReply (d : Device) (r : JopReq) (bs : List Byte) : Device :=
  match r.tr with
  | .mailbox => if d.mbx.busy then { d with responses := Tab.set d.responses 0 (r, bs) } else d
  | .udp => { d with udpOut := d.udpOut ++ [(r.peer, r.pport, bs)] }
  | .mctp => { d with mctpOut := d.mctpOut ++ [mctpBytes d bs] }

/-- A response is made: its session, if it is still open, keeps it for a repeat of the request (R407). -/
def deliverReply (d : Device) (r : JopReq) (bs : List Byte) : Device :=
  let d := if r.sid = 0 then d else modSession d r.sid (fun s => if s.lastSeq = r.seq then { s with lastResp := bs } else s)
  sendReply d r bs

/-- Key that tags a response: of the session that OPEN has just made, or of the request's session. -/
def replyKey (before after : Device) (r : JopReq) (status : Nat) : Option (List Byte) :=
  if r.op = 0x10 ∧ status = stOk then after.sessions.getLast?.map (·.key)
  else if r.sid = 0 then none
  else (sessionOf before r.tr r.sid).map (·.key)

/-- Give the answer to an executed request; the answer to a write that entered the flash journal waits for its record (R403). -/
def conclude (before after : Device) (r : JopReq) (status : Nat) (payload : List Byte) : Device :=
  let bs := responseFrame (replyKey before after r status) r status payload
  if before.journal.length < after.journal.length then
    { after with journal := after.journal.dropLast ++ (after.journal.drop (after.journal.length - 1)).map (fun e => { e with reply := some (r, bs) }) }
  else deliverReply after r bs

/-! Serving a request -/

/-- Drop the head request of a transport; a mailbox request that gets no response leaves BUSY. -/
def popRequest (d : Device) (tr : Transport) : Device :=
  { d with requests := Tab.modify [] d.requests (trKey tr) (fun l => l.drop 1) }

/-- The request at the head of its transport; on MCTP that in the message. -/
def headRequest (d : Device) (tr : Transport) (msg : List Byte) : Option JopReq :=
  match tr with
  | .mctp =>
    if d.power.aux && decide (msg.headD 0 = 0x7E) && decide (leAt msg 1 2 = odGet d 0x1000 1) && decide (35 ≤ msg.length)
    then some (parseFrame .mctp (msg.drop 3)) else none
  | _ => (Tab.get [] d.requests (trKey tr)).head?

/-- An operation: its effect, its status and the payload of its response. -/
abbrev Op := Device → JopReq → Device × Nat × List Byte

/-- Gates and execution of an admitted request. -/
def execute (run : Op) (d : Device) (r : JopReq) : Device :=
  if !powerAllows d r then conclude d d r stState []
  else if !roleAllows r then conclude d d r stRole []
  else
    let (d1, c, pl) := run d r
    conclude d d1 r c (if c = stOk then pl else [])

/-- Serve the head request of a transport where it asks for operation `op`. -/
def serve (tr : Transport) (msg : List Byte) (op : Nat) (run : Op) (d : Device) : Device :=
  match headRequest d tr msg with
  | none => d
  | some r =>
    if tr = .mctp ∧ frameBad .mctp (msg.drop 3) then sendReply d r (responseFrame none r stFrame [])
    else if r.op ≠ op then d
    else
      let d := popRequest d tr
      match vetRequest d r with
      | .drop d => if tr = .mailbox then { d with mbx := { d.mbx with busy := false } } else d
      | .again d bs => sendReply d r bs
      | .answer d c => conclude d d r c []
      | .go d role => execute run d { r with role := role }

/-! READ, WRITE, INFO (R399 to R403) -/

/-- READ. -/
def runRead : Op := fun d r =>
  let (c, row) := findRow r.index r.sub
  if c ≠ stOk then (d, c, [])
  else if row.acc = 2 ∨ row.acc = 4 ∨ row.typ = 12 then (d, stAccess, [])
  else if !r.payload.isEmpty then (d, stLength, [])
  else (d, stOk, leBytes row.size (odValue d r.index r.sub))

def execRead (tr : Transport) (msg : List Byte) (s : State) : Host.Outcome State Fault Refusal :=
  onDev (serve tr msg 0x01 runRead) s

/-- Length and range of a value for its row (Table 16-9). -/
def valueStatus (row : OdRow) (bs : List Byte) : Nat :=
  let v := leNat bs
  if row.typ = 8 ∨ row.typ = 9 then (if row.size < bs.length then stLength else stOk)
  else if bs.length ≠ row.size then stLength
  else if row.typ = 1 ∧ 1 < v then stRange
  else if row.typ ≤ 5 ∧ (v < row.lo ∨ row.hi < v) then stRange
  else stOk

/-- WRITE. -/
def runWrite : Op := fun d r =>
  let (c, row) := findRow r.index r.sub
  if c ≠ stOk then (d, c, [])
  else if row.acc = 0 ∨ row.typ = 12 then (d, stAccess, [])
  else
    let c := valueStatus row r.payload
    if c ≠ stOk then (d, c, [])
    else if 0xF000 ≤ r.index ∧ r.index ≤ 0xF0FF ∧ !d.power.testEn then (d, stState, [])
    else if mstate d = 2 ∧ moorRefuses d r.index r.sub (leNat r.payload) then (d, stState, [])
    else
      let (d1, c) := writeObject d r.auth r.role r.index r.sub (leNat r.payload)
      (d1, c, [])

def execWrite (tr : Transport) (msg : List Byte) (s : State) : Host.Outcome State Fault Refusal :=
  onDev (serve tr msg 0x02 runWrite) s

/-- INFO. -/
def runInfo : Op := fun d r =>
  let (c, row) := findRow r.index r.sub
  if c ≠ stOk then (d, c, [])
  else if !r.payload.isEmpty then (d, stLength, [])
  else (d, stOk, [BitVec.ofNat 8 row.typ, BitVec.ofNat 8 row.acc, BitVec.ofNat 8 row.cls, 0]
    ++ leBytes 4 (if row.typ = 12 then domainSize d r.index r.sub else row.size))

def execInfo (tr : Transport) (msg : List Byte) (s : State) : Host.Outcome State Fault Refusal :=
  onDev (serve tr msg 0x20 runInfo) s

/-! OPEN and CLOSE (R406) -/

/-- Sessions that a transport may hold. -/
def sessionLimit : Transport → Nat
  | .udp => 4
  | .mctp => 2
  | .mailbox => 2

/-- A session identity that is not 0 and not in use, from a drawn number upward. -/
def newSid (d : Device) (n : Nat) : U32 :=
  (((List.range 16).map (fun k => BitVec.ofNat 32 (n + k))).find? (fun s => decide (s ≠ 0) && d.sessions.all (fun x => x.sid ≠ s))).getD 1

/-- OPEN. -/
def runOpen : Op := fun d r =>
  let k := leAt r.payload 0 1
  if r.payload.length ≠ 32 then (d, stLength, [])
  else if 3 < k ∨ leAt r.payload 1 15 ≠ 0 then (d, stRange, [])
  else if !odFlag d (0x1110 + k) 3 then (d, stAuth, [])
  else if sessionLimit r.tr ≤ (d.sessions.filter (fun s => s.tr = r.tr)).length then (d, stBusy, [])
  else
    let nc := sliceBytes r.payload 16 16
    let nd := leBytes 16 (Config.drawn d.drawn).toNat
    let sid := newSid d ((Config.drawn (d.drawn + 1)).toNat % 2 ^ 32)
    let text : List Byte := [0x4A, 0x4F, 0x50, 0x53]
    let key := hmac (leBytes 32 (odGet d (0x1110 + k) 1)) (text ++ nc ++ nd ++ leBytes 4 sid.toNat)
    let ses : Session := { sid := sid, tr := r.tr, slot := k, key := key, usedAt := d.time }
    ({ d with sessions := d.sessions ++ [ses], drawn := d.drawn + 2 }, stOk, leBytes 4 sid.toNat ++ List.replicate 12 0 ++ nd)

def execOpen (tr : Transport) (msg : List Byte) (s : State) : Host.Outcome State Fault Refusal :=
  onDev (serve tr msg 0x10 runOpen) s

/-- CLOSE. -/
def runClose : Op := fun d r =>
  if (sessionOf d r.tr r.sid).isNone then (d, stAuth, [])
  else if !r.payload.isEmpty then (d, stLength, [])
  else (closeSession d r.sid, stOk, [])

def execClose (tr : Transport) (msg : List Byte) (s : State) : Host.Outcome State Fault Refusal :=
  onDev (serve tr msg 0x11 runClose) s

/-- SESSION_IDLE_TIMEOUT: 60 s without an accepted request. -/
def execSessionIdleTimeout (sid : U32) (s : State) : Host.Outcome State Fault Refusal :=
  onDev (guarded (fun d => d.sessions.any (fun x => decide (x.sid = sid) && decide (x.usedAt + 6000000000 ≤ d.time)))
    (fun d => closeSession d sid)) s

/-! Segmented transfers (R408, Table 16-12) -/

def transferOf (d : Device) (i s : Nat) : Option SegTransfer := d.transfers.find? (fun t => decide (t.index = i) && decide (t.sub = s))
def setTransfer (d : Device) (x : SegTransfer) : Device :=
  { d with transfers := d.transfers.map (fun t => if t.index = x.index ∧ t.sub = x.sub then x else t) }

/-- Largest total of a write (Table 16-12). -/
def domainLimit (d : Device) (i : Nat) : Nat :=
  match odKind i with
  | some .slot => 268435456
  | some .firmware => 33554432
  | some .snapshot => 67108864
  | some .scanData => scanBytes
  | some .queue => qEntries d (i - 0x4000) * (qBytes d (i - 0x4000) + 1)
  | _ => 0

/-- A write of IMAGE in a slot: busy slots refuse with 0x0801 (R302); a load in progress is not written over. -/
def imageStart (d : Device) (b k : Nat) : Device × Nat :=
  if slotBusy d b k then (odPut d (0x3000 + 4 * b + k) 4 0x0801, stRefused)
  else if slotState d b k = 2 ∨ slotState d b k = 3 then (d, stState)
  else (wakeBerth d b, stOk)

/-- The scan area exists from the first scan or write on (R321). -/
def scanArea (d : Device) (b : Nat) : Device × Nat :=
  let x := berthAt d b
  if bstate d b ≠ 4 then (d, stState)
  else if x.scan.allocated then (d, stOk)
  else match poolAlloc x.hbm scanBytes (0x30000 + b) with
    | none => (d, stResource)
    | some (_, h) => (modBerth d b (fun x => { x with hbm := h, scan := { x.scan with allocated := true } }), stOk)

/-- What the opening of a write asks of its object. -/
def writeStart (d : Device) (i : Nat) : Device × Nat :=
  match odKind i with
  | some .slot => imageStart d ((i - 0x3000) / 4) ((i - 0x3000) % 4)
  | some .firmware => (odPut { d with fw := { d.fw with inactiveValid := false, marked := false } } 0x1020 2 1, stOk)
  | some .scanData => scanArea d (i - 0x3020)
  | some .queue => if dataOpen d (i - 0x4000) 1 then (d, stOk) else (d, stState)
  | _ => (d, stOk)

/-- The object is a DOMAIN; its row or the status that answers the operation. -/
def domainRow (r : JopReq) : Nat × OdRow :=
  let (c, row) := findRow r.index r.sub
  if c ≠ stOk then (c, row) else if row.typ = 12 then (stOk, row) else (stAccess, row)

/-- SEG_INIT: 0 opens a read, a total a write. -/
def runSegInit : Op := fun d r =>
  let (c, row) := domainRow r
  let total := leAt r.payload 0 4
  let new : SegTransfer := { index := r.index, sub := r.sub, sid := r.sid, tr := r.tr, lastAt := d.time }
  if c ≠ stOk then (d, c, [])
  else if r.payload.length ≠ 4 then (d, stLength, [])
  else if (transferOf d r.index r.sub).isSome then (d, stBusy, [])
  else if total = 0 then
    let n := domainSize d r.index r.sub
    ({ d with transfers := d.transfers ++ [{ new with total := n }] }, stOk, leBytes 4 n)
  else if row.acc = 0 then (d, stAccess, [])
  else if domainLimit d r.index < total then (d, stRange, [])
  else if mstate d = 2 ∧ moorRefuses d r.index r.sub 1 then (d, stState, [])
  else
    let (d, c) := writeStart d r.index
    if c ≠ stOk then (d, c, []) else ({ d with transfers := d.transfers ++ [{ new with write := true, total := total }] }, stOk, [])

def execSegInit (tr : Transport) (msg : List Byte) (s : State) : Host.Outcome State Fault Refusal :=
  onDev (serve tr msg 0x03 runSegInit) s

/-- Entries of DATA bytes: a flag byte before each entry. -/
def dataEntries (eb : Nat) : Nat → List Byte → List (Nat × List Byte)
  | 0, _ => []
  | n + 1, bs => ((bs.headD 0).toNat, sliceBytes bs 1 eb) :: dataEntries eb n (bs.drop (eb + 1))

/-- The first whole item of a list of entries, and the rest. -/
def splitItem : List (Nat × List Byte) → Option (List (Nat × List Byte) × List (Nat × List Byte))
  | [] => none
  | e :: es =>
    if e.1 / 2 % 2 = 1 then some ([e], es)
    else match splitItem es with
      | none => none
      | some (it, rest) => some (e :: it, rest)

/-- Append every whole item to a host-produced HBM queue, each at once (R377); how many entries were taken, or none where one
finds no room. -/
def appendItems (q : Nat) : Nat → Device → List (Nat × List Byte) → Option (Device × Nat)
  | 0, d, _ => some (d, 0)
  | n + 1, d, es =>
    match splitItem es with
    | none => some (d, 0)
    | some (it, rest) =>
      if it.length ≤ qEntries d q - 1 - ringHeld (ringOf d q) then
        match appendItems q n (dataWrite d q (it.flatMap (·.2)) (it.any (fun e => decide (e.1 / 4 % 2 = 1)))) rest with
        | none => none
        | some (d, k) => some (d, k + it.length)
      else none

/-- Bytes of DATA arrive: whole items are appended, the rest waits for more. -/
def dataSegment (d : Device) (t : SegTransfer) (bs : List Byte) : Option (Device × List Byte) :=
  let q := t.index - 0x4000
  let step := qBytes d q + 1
  let all := t.data ++ bs
  let es := dataEntries (qBytes d q) (all.length / step) all
  match appendItems q es.length d es with
  | none => none
  | some (d, k) => some (d, all.drop (k * step))

/-- Bytes written into the scan area, in place (Table 16-12); the first ones release a hold (R316). -/
def scanSegment (d : Device) (b off : Nat) (bs : List Byte) : Device :=
  let d := if (berthAt d b).holdFrames then releaseHeld d b else d
  modBerth d b (fun x =>
    let h := (List.range 64).map (fun i => if off ≤ i ∧ i < off + bs.length then bs.getD (i - off) 0 else x.scan.header.getD i 0)
    let body := if 64 < off + bs.length then scanPut x.scan off bs else x.scan
    { x with scan := { body with allocated := true, header := h, hostWritten := true } })

/-- The bytes of a segment take effect (Table 16-12). -/
def segmentEffect (d : Device) (t : SegTransfer) (bs : List Byte) : Option (Device × List Byte) :=
  match odKind t.index with
  | some .slot =>
    let b := (t.index - 0x3000) / 4
    let k := (t.index - 0x3000) % 4
    if t.moved = 0 then (if slotBusy d b k then none else some (beginImage d b k, bs)) else some (d, t.data ++ bs)
  | some .scanData => if bstate d (t.index - 0x3020) = 4 then some (scanSegment d (t.index - 0x3020) t.moved bs, []) else none
  | some .queue => if dataOpen d (t.index - 0x4000) 1 then dataSegment d t bs else none
  | _ => some (d, t.data ++ bs)

/-- SEG_DATA of a read: the bytes asked for, as many as remain and the transport carries. -/
def segRead (d : Device) (r : JopReq) (t : SegTransfer) : Device × Nat × List Byte :=
  let want := min (min (leAt r.payload 0 4) (t.total - t.moved)) (maxPayload r.tr)
  if r.payload.length ≠ 4 then (d, stLength, [])
  else if decide (odKind t.index = some .queue) then
    let (d, bs) := dataRead (ringHeld (ringOf d (t.index - 0x4000))) d (t.index - 0x4000) want
    (setTransfer d { t with moved := t.moved + bs.length, lastAt := d.time }, stOk, bs)
  else if want < t.total - t.moved ∧ want % 4 ≠ 0 then (d, stSegment, [])
  else (setTransfer d { t with moved := t.moved + want, lastAt := d.time }, stOk, domainSlice d t.index t.moved want)

/-- SEG_DATA of a write: the next bytes, a multiple of 4 unless they are the last. -/
def segWrite (d : Device) (r : JopReq) (t : SegTransfer) : Device × Nat × List Byte :=
  let n := r.payload.length
  if t.total < t.moved + n ∨ (t.moved + n < t.total ∧ n % 4 ≠ 0) then (d, stSegment, [])
  else if n = 0 then (d, stLength, [])
  else match segmentEffect d t r.payload with
    | none => (d, stState, [])
    | some (d, data) => (setTransfer d { t with moved := t.moved + n, data := data, lastAt := d.time }, stOk, [])

/-- The open transfer of the request's session on its object. -/
def myTransfer (d : Device) (r : JopReq) : Option SegTransfer :=
  (transferOf d r.index r.sub).bind (fun t => if t.sid = r.sid ∧ t.tr = r.tr then some t else none)

/-- SEG_DATA. -/
def runSegData : Op := fun d r =>
  let (c, _) := domainRow r
  if c ≠ stOk then (d, c, [])
  else match myTransfer d r with
    | none => (d, stSegment, [])
    | some t => if r.offset ≠ t.moved then (d, stSegment, []) else if t.write then segWrite d r t else segRead d r t

def execSegData (tr : Transport) (msg : List Byte) (s : State) : Host.Outcome State Fault Refusal :=
  onDev (serve tr msg 0x04 runSegData) s

/-- The image of the inactive bank is complete: the security block checks it (R391). -/
def firmwareEnd (d : Device) (bs : List Byte) : Device :=
  let good := (Config.fwVerify bs).isSome
  let fw := if d.fw.active = 0 then { d.fw with bank1 := bs } else { d.fw with bank0 := bs }
  odPut { d with fw := { fw with inactiveValid := good } } 0x1020 2 (if good then 3 else 4)

/-- A staged snapshot is complete: installed as a new epoch where its identity is the running image's (R291). -/
def snapshotEnd (d : Device) (b : Nat) (bs : List Byte) : Device × Nat :=
  match headOf d b, Config.snapshotEpoch bs with
  | some h, some e =>
    if e.imgid ≠ (slotAt d b (runSlot d b)).imgid then (d, stRefused)
    else if rollbackBusy d b then (d, stState)
    else (installEpoch d b e.number h e.copies, stOk)
  | _, _ => (d, stRefused)

/-- The action of a completed write (Table 16-12). -/
def writeEnd (d : Device) (t : SegTransfer) : Device × Nat :=
  match odKind t.index with
  | some .slot => (storeImage d ((t.index - 0x3000) / 4) ((t.index - 0x3000) % 4) t.data, stOk)
  | some .firmware => (firmwareEnd d t.data, stOk)
  | some .snapshot => snapshotEnd d (t.index - 0x8820) t.data
  | _ => (d, stOk)

/-- SEG_END: the total once more; only then does the action of a write take place. Any other status closes the transfer as an
abort does. -/
def runSegEnd : Op := fun d r =>
  let (c, _) := domainRow r
  if c ≠ stOk then (d, c, [])
  else match myTransfer d r with
    | none => (d, stSegment, [])
    | some t =>
      if r.payload.length ≠ 4 then (abortTransfer d t, stLength, [])
      else if leAt r.payload 0 4 ≠ t.total ∨ (t.write ∧ t.moved ≠ t.total) then (abortTransfer d t, stSegment, [])
      else if !t.write then (dropTransfer d t.index t.sub, stOk, [])
      else
        let (d1, c) := writeEnd d t
        if c = stOk then (dropTransfer d1 t.index t.sub, stOk, []) else (abortTransfer d t, c, [])

def execSegEnd (tr : Transport) (msg : List Byte) (s : State) : Host.Outcome State Fault Refusal :=
  onDev (serve tr msg 0x05 runSegEnd) s

/-- SEG_ABORT. -/
def runSegAbort : Op := fun d r =>
  let (c, _) := domainRow r
  if c ≠ stOk then (d, c, [])
  else if !r.payload.isEmpty then (d, stLength, [])
  else match myTransfer d r with
    | none => (d, stSegment, [])
    | some t => (abortTransfer d t, stOk, [])

def execSegAbort (tr : Transport) (msg : List Byte) (s : State) : Host.Outcome State Fault Refusal :=
  onDev (serve tr msg 0x06 runSegAbort) s

/-- SEG_TRANSFER_TIMEOUT: 10 s without a segment. -/
def execSegTransferTimeout (index sub : Nat) (s : State) : Host.Outcome State Fault Refusal :=
  onDev (fun d => match transferOf d index sub with
    | none => d
    | some t => if t.lastAt + 1000000000 ≤ d.time then abortTransfer d t else d) s

/-! The flash journal (R403, R413) -/

/-- Sessions on a transport whose address changes are closed (R413). -/
def addressChanged (d : Device) (key : Nat) : Device :=
  let close := fun (tr : Transport) (d : Device) => ((d.sessions.filter (fun s => s.tr = tr)).map (·.sid)).foldl closeSession d
  if key = 0x110002 ∨ key = 0x110005 then close .udp d else if key = 0x110006 then close .mctp d else d

/-- A record is in flash: the object keeps its value, and the write is answered. Objects 0x1100:01 to 06 take their value once
the answer is sent. -/
def commitRecord (d : Device) (e : JournalRec) : Device :=
  let d := { d with flash := Tab.set d.flash e.key e.value }
  let d := match e.reply with
    | none => d
    | some (r, bs) => deliverReply d r bs
  if 0x110001 ≤ e.key ∧ e.key ≤ 0x110006 then
    let changed := decide (odGet d (e.key / 256) (e.key % 256) ≠ e.value)
    let d := odPut d (e.key / 256) (e.key % 256) e.value
    if changed then addressChanged d e.key else d
  else d

def execJournalCommit (s : State) : Host.Outcome State Fault Refusal :=
  onDev (fun d => match d.journal with
    | [] => d
    | e :: es => commitRecord { d with journal := es } e) s

/-! The mailbox (R395) -/

/-- The request that a mailbox GO submits. -/
def mailboxFrame (d : Device) : List Byte := memReadBytes d.mbx.req 0 d.mbx.len

/-- GO is accepted: BUSY, and the request waits; a malformed one has its answer at once. -/
def mailboxSubmit (d : Device) : Device :=
  let bs := mailboxFrame d
  let d := { d with mbx := { d.mbx with busy := true } }
  if d.mbx.len < 32 ∨ 4096 < d.mbx.len ∨ frameBad .mailbox bs then
    let r := parseFrame .mailbox (memReadBytes d.mbx.req 0 32)
    sendReply d r (responseFrame none r stFrame [])
  else { d with requests := Tab.modify [] d.requests 0 (fun l => l ++ [parseFrame .mailbox bs]) }

/-- A write of MBX_CTRL (Table 16-5): the clear of DONE first, then IRQEN and LEN, then GO. -/
def mailboxControl (d : Device) (w : U32) : Device :=
  let d := { d with mbx := { d.mbx with
    done := d.mbx.done && !bit w 29
    irqen := bit w 28
    len := fld w 12 0 } }
  if !bit w 31 || !firmwareReady d then d
  else if d.mbx.busy || d.mbx.done then odAdd d 0x1100 0x0C 1
  else mailboxSubmit d

/-- The mailbox answers while the PCIe function is up. -/
def execMbxGo (w : U32) (s : State) : Host.Outcome State Fault Refusal :=
  onDev (guarded (fun d => d.pcie.up) (fun d => mailboxControl d w)) s

/-- The same register, written for its DONE bit. -/
def execMbxDoneClear (w : U32) (s : State) : Host.Outcome State Fault Refusal :=
  onDev (guarded (fun d => d.pcie.up) (fun d => mailboxControl d w)) s

/-- MBX_RESPONSE_DONE: the response frame and MBX_RLEN are written, BUSY ends, DONE sets. -/
def mailboxDone (d : Device) (bs : List Byte) : Device :=
  let d := { d with
    responses := Tab.erase d.responses 0
    mbx := { d.mbx with
      resp := memWriteBytes [] 0 bs
      rlen := bs.length
      busy := false
      done := true } }
  if d.mbx.irqen then signalVector d 32 else d

def execMbxResponseDone (s : State) : Host.Outcome State Fault Refusal :=
  onDev (fun d => match Tab.find d.responses 0 with
    | none => d
    | some (_, bs) => if d.mbx.busy then mailboxDone d bs else d) s

/-! BAR0 (R393, R394, Table 16-3) -/

/-- Write of an MSI-X table entry: address and data words are kept, and the vector control masks or unmasks the vector. -/
def msixWrite (d : Device) (off bytes : Nat) (v : U64) : Device :=
  let n := off / 16
  let d := if (bytes = 4 ∨ bytes = 8) ∧ off % bytes = 0 then { d with pcie := { d.pcie with
      table := (List.range (bytes / 4)).foldl (fun t i => Tab.set t (off / 4 + i) (BitVec.ofNat 32 (v.toNat / 2 ^ (32 * i)))) d.pcie.table } }
    else d
  let ctrl : Option Bool := if off % 16 = 12 ∧ bytes = 4 then some (bit v 0) else if off % 16 = 8 ∧ bytes = 8 then some (bit v 32) else none
  match ctrl with
  | none => d
  | some true => maskVector d n
  | some false => unmaskVector d n

/-- A host write of `bytes` bytes at an offset of BAR0. -/
def registerWrite (d : Device) (off bytes : Nat) (v : U64) : Device :=
  if off = 0x10 then (if bytes = 4 then mailboxControl d (BitVec.ofNat 32 v.toNat) else d)
  else if 0x1000 ≤ off ∧ off < 0x2000 then
    (if (bytes = 1 ∨ bytes = 2 ∨ bytes = 4 ∨ bytes = 8) ∧ off % bytes = 0 then
      { d with mbx := { d.mbx with req := memWriteBytes d.mbx.req (off - 0x1000) (leBytes bytes v.toNat) } }
    else d)
  else if 0x10000 ≤ off ∧ off < 0x10210 then msixWrite d (off - 0x10000) bytes v
  else if 0x20000 ≤ off ∧ off < 0x40000 then queueDoorbell d ((off - 0x20000) / 8) (if off % 8 = 0 then bytes else 0) v
  else if 0x40000 ≤ off ∧ off < 0x40100 then eventDoorbell d ((off - 0x40000) / 8) (if off % 8 = 0 then bytes else 0) v
  else d

def execRegisterWrite (off : BitVec 20) (bytes : Nat) (v : U64) (s : State) : Host.Outcome State Fault Refusal :=
  onDev (guarded (fun d => d.pcie.up) (fun d => registerWrite d off.toNat bytes v)) s

/-- FWSTATE (Table 16-4). -/
def fwStateWord (d : Device) : Nat :=
  (if d.fw.fwstate = 0 then 0 else odGet d 0x1000 7 / 65536 % 65536 * 65536) + 16 * b2n (faultLow d) + d.fw.fwstate % 16

/-- MBX_CTRL as it reads (Table 16-5): GO reads 0. -/
def mailboxWord (d : Device) : Nat := b2n d.mbx.busy * 2 ^ 30 + b2n d.mbx.done * 2 ^ 29 + b2n d.mbx.irqen * 2 ^ 28 + d.mbx.len % 8192

/-- Dword of the MSI-X table: the fourth of an entry is its vector control, bit 0 the mask. -/
def msixWord (d : Device) (i : Nat) : Nat :=
  if i % 4 = 3 then b2n !d.pcie.unmasked.contains (i / 4) else (Tab.get 0 d.pcie.table i).toNat

/-- What a host read of `bytes` bytes at an offset of BAR0 returns. -/
def registerRead (d : Device) (off bytes : Nat) : Nat :=
  if off = 0x00 ∧ bytes = 4 then 0x4A524B34
  else if off = 0x04 ∧ bytes = 4 then fwStateWord d
  else if off = 0x10 ∧ bytes = 4 then mailboxWord d
  else if off = 0x14 ∧ bytes = 4 then d.mbx.rlen % 8192
  else if 0x2000 ≤ off ∧ off + bytes ≤ 0x3000 ∧ (bytes = 1 ∨ bytes = 2 ∨ bytes = 4 ∨ bytes = 8) ∧ off % bytes = 0 then
    memReadNat d.mbx.resp (off - 0x2000) bytes
  else if 0x10000 ≤ off ∧ off < 0x10210 ∧ (bytes = 4 ∨ bytes = 8) ∧ off % bytes = 0 then
    (List.range (bytes / 4)).foldl (fun n i => n + 2 ^ (32 * i) * msixWord d ((off - 0x10000) / 4 + i)) 0
  else if 0x18000 ≤ off ∧ off < 0x18008 ∧ (bytes = 4 ∨ bytes = 8) ∧ off % bytes = 0 then
    d.pcie.pending.foldl (fun n v => Nat.lor n (2 ^ v)) 0 / 2 ^ (8 * (off - 0x18000)) % 2 ^ (8 * bytes)
  else 0

/-! The management port and MCTP (R396, R397) -/

/-- The port sends and accepts. -/
def mgmtUp (d : Device) : Bool :=
  firmwareReady d && decide (mstate d = 0) && odFlag d 0x1100 1 && decide (odGet d 0x1100 2 ≠ 0)

/-- MGMT_DATAGRAM. -/
def mgmtDatagram (d : Device) (g : Datagram) : Device :=
  let own := odGet d 0x1100 2
  match g.arp with
  | some a => if a.toNat = own then { d with arpOut := d.arpOut ++ [a] } else { d with mgmtDiscards := d.mgmtDiscards + 1 }
  | none =>
    if g.udp && decide (g.dst.toNat = own) && decide (g.dport = odGet d 0x1100 5) then
      let r := { parseFrame .udp g.body with peer := g.src, pport := g.sport }
      if frameBad .udp g.body then sendReply d r (responseFrame none r stFrame [])
      else { d with requests := Tab.modify [] d.requests 1 (fun l => l ++ [r]) }
    else { d with mgmtDiscards := d.mgmtDiscards + 1 }

def execMgmtDatagram (g : Datagram) (s : State) : Host.Outcome State Fault Refusal :=
  onDev (guarded mgmtUp (fun d => mgmtDatagram d g)) s

/-- MCTP_CONTROL: the five control commands that the endpoint answers. -/
def execMctpControl (c : MctpCmd) (s : State) : Host.Outcome State Fault Refusal :=
  onDev (guarded (fun d => d.power.aux) (fun d =>
    let d := match c with
      | .setEid e => { d with mctpEid := e }
      | _ => d
    { d with mctpControlOut := d.mctpControlOut ++ [(c, d.mctpEid)] })) s

end Sys2Proof.Machine
end

