-- ==== Sys2Proof/Machine/Firmware.lean ====
section
/-! DEFINITION. Firmware boot (R391) and what the bracket shows (R421, R474, R476). -/

namespace Sys2Proof.Machine

/-- FW_BOOT_NEXT: FW_COMMAND 1. -/
def execFwBootNext (s : State) : Host.Outcome State Fault Refusal :=
  onDev (guarded (fun d => fwAllowed d 1) (fun d => fwCommand d 1)) s

/-- FW_BOOT_WARM: FW_COMMAND 2. -/
def execFwBootWarm (s : State) : Host.Outcome State Fault Refusal :=
  onDev (guarded (fun d => fwAllowed d 2) (fun d => fwCommand d 2)) s

/-- FW_CANCEL: FW_COMMAND 3. -/
def execFwCancel (s : State) : Host.Outcome State Fault Refusal :=
  onDev (guarded (fun d => fwAllowed d 3) (fun d => fwCommand d 3)) s

/-- The marked bank did not reach READY in 10 s: the ROM starts it again, and after 3 boots the other bank (R391). -/
def bootAgain (d : Device) : Device :=
  if d.fw.tries < 3 then startCores (bootFirmware d)
  else odPut (startCores { d with fw := { d.fw with active := 1 - d.fw.active, marked := false, tries := 0 } }) 0x1020 2 5

/-- BOOT_READY_TIMEOUT. -/
def execBootReadyTimeout (s : State) : Host.Outcome State Fault Refusal :=
  onDev (guarded (fun d => d.fw.running && d.fw.marked && decide (d.fw.fwstate ≠ 2) && decide (d.fw.bootAt + 1000000000 ≤ d.time)) bootAgain) s

/-! Bracket LEDs (Table 19-8) -/

inductive Led where
  | off | green | amber | red | greenBlink | amberBlink | redBlink | locate
  deriving DecidableEq, Repr

/-- L0. -/
def led0 (d : Device) : Led :=
  let slots := (List.range 16).map (fun x => slotState d (x / 4) (x % 4))
  let running := (List.range 4).any (fun b => bstate d b = 2)
  if !d.power.aux then .off
  else if odGet d 0x8450 5 = 1 ∧ d.fw.selfTested then .locate
  else if mstate d = 5 then .off
  else if !d.fw.selfTested then .amber
  else if mstate d = 2 then .greenBlink
  else if !d.fw.running || !running || slots.any (fun s => decide (1 ≤ s) && decide (s ≤ 3)) then .amber
  else .green

/-- L1. -/
def led1 (d : Device) : Led :=
  let on := (List.range 2).filter (fun c => odFlag d (0x2000 + c) 1)
  if !d.power.aux then .off
  else if !d.fw.selfTested then .amber
  else if on.isEmpty then .off
  else if on.any (fun c => !(sfpAt d c).link) then .amber
  else .green

/-- L2. -/
def led2 (d : Device) : Led :=
  if !d.power.aux then .off
  else if mstate d = 5 ∧ d.power.tripped then .redBlink
  else if !d.fw.selfTested then .amber
  else if faultLow d then .red
  else if odGet d 0xF000 1 = 1 then .amberBlink
  else .off

end Sys2Proof.Machine
end

