-- ==== Sys2Proof/Machine/Stride.lean ====
section
/-! DEFINITION. The stride engines (R246 to R253): each command issues the head instruction of one thread. -/

namespace Sys2Proof.Machine

/-! Fields of an instruction word (Table 10-6) -/

def sOp (w : BitVec 64) : Nat := fld w 63 58
def sAr (w : BitVec 64) : Nat := fld w 57 55
def sLc (w : BitVec 64) : Nat := fld w 54 53
def sEq (w : BitVec 64) : Nat := fld w 52 49
/-- Tokens of the transfer: LEN + 1. -/
def sLen (w : BitVec 64) : Nat := fld w 48 42 + 1
def sInc (w : BitVec 64) : Bool := bit w 41
def sLctl (w : BitVec 64) : Nat := fld w 40 39
def sImm (w : BitVec 64) : U32 := BitVec.ofNat 32 w.toNat

/-- The working record of one issuing instruction. -/
structure Se where
  b : Nat
  e : Nat
  pt : Nat
  g : Engine
  th : Thread
  w : BitVec 64

def seOf (d : Device) (b e pt : Nat) : Se :=
  let g := engineAt (berthAt d b) e
  let th := Tab.get {} g.threads pt
  { b := b, e := e, pt := pt, g := g, th := th, w := Tab.get 0 g.prog th.pc }

def arOf (x : Se) : U32 := Tab.get 0 x.th.a (sAr x.w)
def setAr (x : Se) (v : U32) : Thread := { x.th with a := Tab.set x.th.a (sAr x.w) v }
def lcOf (x : Se) : U32 := Tab.get 0 x.th.l (sLc x.w)
def eqOf (x : Se) : EngineQueue := Tab.get {} x.g.eqs (sEq x.w)
/-- Station port key of the instruction's engine queue. -/
def eqKey (x : Se) : Nat := epKey (eqOf x).peer
def nextPc (x : Se) : Nat := (x.th.pc + 1) % 256

/-- The thread's head instruction is the command's, and clocks and thread run (R250). -/
def strideHead (op : Nat) (d : Device) (x : Se) : Bool :=
  berthLive d x.b && x.th.used && x.th.running && decide (sOp x.w = op)

/-- The engine after the issue: the thread's new state and program counter. -/
def seCommit (d : Device) (x : Se) (g : Engine) (th : Thread) (pc : Nat) : Device :=
  let d := modBerth d x.b (fun y => { y with
    engines := Tab.set y.engines x.e { g with
      threads := Tab.set g.threads x.pt { th with pc := pc }
      lastThread := x.pt } })
  modBerth d x.b (fun y => { y with idleSince := d.time })

def seAlways (_ : Device) (_ : Se) : Bool := true

/-! Registers and loops -/

def opSeta (d : Device) (x : Se) : Option Device := some (seCommit d x x.g (setAr x (sImm x.w)) (nextPc x))
def opAdda (d : Device) (x : Se) : Option Device := some (seCommit d x x.g (setAr x (arOf x + sImm x.w)) (nextPc x))
def opSets (d : Device) (x : Se) : Option Device := some (seCommit d x x.g (setAr x (x.th.sc * sImm x.w)) (nextPc x))

/-- (SC + 1) mod IMM; the remainder by 0 is open. -/
def nextSlot (sc imm : U32) : U32 :=
  if imm = 0 then BitVec.ofInt 32 (Config.divZero (sc.toNat + 1)) else BitVec.ofNat 32 ((sc.toNat + 1) % imm.toNat)

def opNexts (d : Device) (x : Se) : Option Device :=
  some (seCommit d x x.g { x.th with sc := nextSlot x.th.sc (sImm x.w) } (nextPc x))

def opLoop (d : Device) (x : Se) : Option Device :=
  some (seCommit d x x.g { x.th with
    l := Tab.set x.th.l (sLc x.w) (sImm x.w)
    lstart := Tab.set x.th.lstart (sLc x.w) (nextPc x) } (nextPc x))

def opEndl (d : Device) (x : Se) : Option Device :=
  let n := lcOf x - 1
  some (seCommit d x x.g { x.th with l := Tab.set x.th.l (sLc x.w) n }
    (if n = 0 then nextPc x else Tab.get 0 x.th.lstart (sLc x.w)))

/-! Transfers (R250 to R252) -/

/-- Transfers of an engine that are outstanding. -/
def engineTransfers (d : Device) (x : Se) : List Transfer := (berthAt d x.b).hbm.transfers.filter (fun t => t.engine = x.e)

/-- Fewer than 8 transfers are outstanding. -/
def slotFree (d : Device) (x : Se) : Bool := decide ((engineTransfers d x).length < 8)

/-- The address range stays in the thread's region (R252). -/
def inRegion (x : Se) : Bool := decide ((arOf x).toNat + sLen x.w ≤ x.th.size)

def strideFault (d : Device) (x : Se) : Device :=
  let tg := tag 7 x.b (engineEp x.b x.e).toNat
  berthReport d x.b 13 tg tg 0

/-- AR after issue (Table 10-6, INC). -/
def stepAr (x : Se) (th : Thread) : Thread :=
  if sInc x.w then { th with a := Tab.set th.a (sAr x.w) (arOf x + BitVec.ofNat 32 (sLen x.w)) } else th

/-- L of the k-th of n emitted tokens under LCTL. -/
def lctl (ctl k n : Nat) (stored : Bool) : Bool :=
  if ctl = 0 then stored else if ctl = 1 then false else decide (k + 1 = n)

/-- Credits that an outbound queue's instruction takes at issue. -/
def takeCredits (d : Device) (pk n : Nat) : Device :=
  let u := endAt d pk
  setEnd d pk { u with
    cred := u.cred - n
    reserved := u.reserved + n }

/-- A unit sends tokens against credits taken at issue. -/
def sendTaken (d : Device) (pk : Nat) (ts : List Token) : Device :=
  ts.foldl (fun d t =>
    let u := endAt d pk
    sendShuttle (setEnd d pk { u with
        reserved := u.reserved - 1
        produced := u.produced + 1 })
      { data := t.data, sb := t.sb, src := unitEp d pk, dest := keyEp pk }) d

/-- FR is set by a later instruction of the thread than its outstanding reads (R249). -/
def overtakeReads (d : Device) (x : Se) : Device :=
  modBerth d x.b (fun y => { y with hbm := { y.hbm with transfers := y.hbm.transfers.map (fun t =>
    if t.engine = x.e ∧ t.thread = x.pt then { t with fr := false } else t) } })

/-- No earlier read of this thread or of this queue is outstanding: FR and the order of the queue's tokens are settled. -/
def readsDone (d : Device) (x : Se) : Bool :=
  (engineTransfers d x).all (fun t => t.write || (decide (t.thread ≠ x.pt) && decide (t.eq ≠ sEq x.w)))

/-- The tokens that a read outside the region sends (R252). V and S are 0, and L where LCTL says "as stored", as in spill data
that was never written (R243): DEDUCED (assumption log 23). -/
def boundsTokens (x : Se) : List Token :=
  (List.range (sLen x.w)).map (fun k =>
    { data := 0, sb := { p := true, l := lctl (sLctl x.w) k (sLen x.w) false, f := x.th.frF, e := x.th.frE } })

def outReady (d : Device) (x : Se) : Bool :=
  (eqOf x).valid && (eqOf x).outbound && decide (sLen x.w ≤ (endAt d (eqKey x)).cred)

/-- RD issues with credits for its tokens and a transfer slot. -/
def rdReady (d : Device) (x : Se) : Bool := outReady d x && slotFree d x && (inRegion x || readsDone d x)

def opRd (d : Device) (x : Se) : Option Device :=
  if sLctl x.w = 3 then none
  else
    let d := takeCredits d (eqKey x) (sLen x.w)
    if inRegion x then
      let d := modBerth (overtakeReads d x) x.b (fun y => { y with hbm := { y.hbm with transfers := y.hbm.transfers ++
        [{ engine := x.e
           thread := x.pt
           eq := sEq x.w
           addr := x.th.base / 32 + (arOf x).toNat
           len := sLen x.w
           lctl := sLctl x.w }] } })
      some (seCommit d x x.g (stepAr x x.th) (nextPc x))
    else
      let d := sendTaken (strideFault d x) (eqKey x) (boundsTokens x)
      some (seCommit d x x.g (stepAr x x.th) (nextPc x))

/-- Tokens of an inbound queue that no earlier WR has taken. -/
def freshTokens (u : UEnd) : List Token := u.tokens.drop u.claimed

/-- WR issues with its tokens present and a transfer slot. -/
def wrReady (d : Device) (x : Se) : Bool :=
  (eqOf x).valid && !(eqOf x).outbound && decide (sLen x.w ≤ (freshTokens (endAt d (eqKey x))).length) && slotFree d x

/-- FR takes F and E of a token. -/
def setFr (th : Thread) (t : Option Token) : Thread :=
  match t with
  | none => th
  | some t => { th with frF := t.sb.f, frE := t.sb.e }

/-- The buffer keeps a WR's tokens until they leave for the controller. -/
def claimTokens (d : Device) (pk n : Nat) : Device := setEnd d pk { endAt d pk with claimed := (endAt d pk).claimed + n }

/-- WR takes its tokens at issue; a write that leaves its region is discarded with them (R252). -/
def opWr (d : Device) (x : Se) : Option Device :=
  let u := endAt d (eqKey x)
  let ts := (freshTokens u).take (sLen x.w)
  let d := overtakeReads d x
  let d := if inRegion x then claimTokens d (eqKey x) (sLen x.w) else consumeBehind d (eqKey x) u.claimed (sLen x.w)
  let th := setFr (stepAr x x.th) ts.getLast?
  if inRegion x then
    let d := modBerth d x.b (fun y => { y with hbm := { y.hbm with transfers := y.hbm.transfers ++
      [{ engine := x.e
         thread := x.pt
         eq := sEq x.w
         write := true
         addr := x.th.base / 32 + (arOf x).toNat
         len := sLen x.w
         tokens := ts }] } })
    some (seCommit d x x.g th (nextPc x))
  else some (seCommit (strideFault d x) x x.g th (nextPc x))

/-- PAD's payload: IMM[15:0] in each of 16 halfwords. -/
def padData (imm : U32) : Payload := BitVec.ofNat 256 ((List.range 16).foldl (fun n k => n + imm.toNat % 65536 * 2 ^ (16 * k)) 0)

def padTokens (x : Se) : List Token :=
  (List.range (sLen x.w)).map (fun k =>
    { data := padData (sImm x.w)
      sb :=
        { v := decide ((sImm x.w).toNat / 65536 % 2 = 1)
          l := lctl (sLctl x.w) k (sLen x.w) (Config.padLast ((arOf x).toNat + k))
          f := x.th.frF
          e := x.th.frE } })

def padReady (d : Device) (x : Se) : Bool := outReady d x && readsDone d x

def opPad (d : Device) (x : Se) : Option Device :=
  if sLctl x.w = 3 then none
  else
    let d := takeCredits d (eqKey x) (sLen x.w)
    let d := if inRegion x then sendTaken d (eqKey x) (padTokens x)
      else sendTaken (strideFault d x) (eqKey x) (boundsTokens x)
    some (seCommit d x x.g (stepAr x x.th) (nextPc x))

/-! Semaphores (R251, Table 10-7) -/

def semNo (x : Se) : Nat := (sImm x.w).toNat % 4
def semOf (x : Se) : Nat := Tab.get 0 x.g.sems (semNo x)

def takeReady (_ : Device) (x : Se) : Bool := decide (0 < semOf x)

def opTake (d : Device) (x : Se) : Option Device :=
  some (seCommit d x { x.g with sems := Tab.set x.g.sems (semNo x) (semOf x - 1) } x.th (nextPc x))

/-- Every earlier WR of the thread is acknowledged. -/
def writesAcked (d : Device) (x : Se) : Bool := (engineTransfers d x).all (fun t => !t.write || decide (t.thread ≠ x.pt))

/-- An engine semaphore counts from 0 to 255 (R246); what one more than 255 gives is open. -/
def raiseSem (n v : Nat) : Nat := if v < 255 then v + 1 else (Config.semOverflow n).toNat

def opPost (d : Device) (x : Se) : Option Device :=
  some (seCommit d x { x.g with sems := Tab.set x.g.sems (semNo x) (raiseSem (semNo x) (semOf x)) } x.th (nextPc x))

def opFence (d : Device) (x : Se) : Option Device := some (seCommit d x x.g x.th (nextPc x))

/-- END: back to the entry instruction; a changeover may be waiting for it (R311). -/
def opEndp (d : Device) (x : Se) : Option Device := some (pokeSwitch (seCommit d x x.g x.th x.th.entry) x.b)

/-! The commands -/

/-- The instruction of this opcode may issue now, as far as its own queues, transfers and semaphores go (R250, R251). -/
def opReady (op : Nat) (d : Device) (x : Se) : Bool :=
  match op with
  | 0x10 => rdReady d x
  | 0x11 => wrReady d x
  | 0x12 => padReady d x
  | 0x18 => takeReady d x
  | 0x19 => writesAcked d x
  | 0x1A => writesAcked d x
  | _ => true

/-- A thread whose head instruction can issue. -/
def threadReady (d : Device) (b e pt : Nat) : Bool :=
  let x := seOf d b e pt
  strideHead (sOp x.w) d x && opReady (sOp x.w) d x

/-- Threads before pt in the turn that starts behind the thread that issued last. -/
def threadsBefore (last pt : Nat) : List Nat := ((List.range 4).map (fun i => (last + 1 + i) % 4)).takeWhile (fun n => n ≠ pt)

/-- It is this thread's turn: no thread before it can issue (R250). -/
def threadTurn (d : Device) (b e pt : Nat) : Bool :=
  (threadsBefore (engineAt (berthAt d b) e).lastThread pt).all (fun n => !threadReady d b e n)

/-- Run on the configuration of engine e (R311). -/
def engineSide (b e : Nat) (f : State → Host.Outcome State Fault Refusal) (s : State) : Host.Outcome State Fault Refusal :=
  if engineSwitched s.dev b e then
    match f { s with dev := swapUnits s.dev b } with
    | .next t => .next { t with dev := swapUnits t.dev b }
    | o => o
  else f s

/-- A thread issues its head instruction: no change where it is not the command's, cannot issue yet or is not in its turn
(assumption log 1). -/
def issueStride (op : Nat) (ready : Device → Se → Bool) (act : Device → Se → Option Device) (b e pt : Nat) (s : State) :
    Host.Outcome State Fault Refusal :=
  let x := seOf s.dev b e pt
  if strideHead op s.dev x && ready s.dev x && threadTurn s.dev b e pt then
    match act s.dev x with
    | none => .refused .reservedField
    | some d => .next { s with dev := d }
  else .next s

/-- The command of a stride instruction. -/
def strideCommand (op : Nat) (ready : Device → Se → Bool) (act : Device → Se → Option Device) (b e pt : Nat) (s : State) :
    Host.Outcome State Fault Refusal :=
  engineSide b e (issueStride op ready act b e pt) s

def execSeta (b : Fin 4) (e : Fin 16) (pt : Fin 4) (s : State) : Host.Outcome State Fault Refusal :=
  strideCommand 0x01 seAlways opSeta b.val e.val pt.val s
def execAdda (b : Fin 4) (e : Fin 16) (pt : Fin 4) (s : State) : Host.Outcome State Fault Refusal :=
  strideCommand 0x02 seAlways opAdda b.val e.val pt.val s
def execSets (b : Fin 4) (e : Fin 16) (pt : Fin 4) (s : State) : Host.Outcome State Fault Refusal :=
  strideCommand 0x03 seAlways opSets b.val e.val pt.val s
def execNexts (b : Fin 4) (e : Fin 16) (pt : Fin 4) (s : State) : Host.Outcome State Fault Refusal :=
  strideCommand 0x04 seAlways opNexts b.val e.val pt.val s
def execLoop (b : Fin 4) (e : Fin 16) (pt : Fin 4) (s : State) : Host.Outcome State Fault Refusal :=
  strideCommand 0x08 seAlways opLoop b.val e.val pt.val s
def execEndl (b : Fin 4) (e : Fin 16) (pt : Fin 4) (s : State) : Host.Outcome State Fault Refusal :=
  strideCommand 0x09 seAlways opEndl b.val e.val pt.val s
def execRd (b : Fin 4) (e : Fin 16) (pt : Fin 4) (s : State) : Host.Outcome State Fault Refusal :=
  strideCommand 0x10 rdReady opRd b.val e.val pt.val s
def execWr (b : Fin 4) (e : Fin 16) (pt : Fin 4) (s : State) : Host.Outcome State Fault Refusal :=
  strideCommand 0x11 wrReady opWr b.val e.val pt.val s
def execPad (b : Fin 4) (e : Fin 16) (pt : Fin 4) (s : State) : Host.Outcome State Fault Refusal :=
  strideCommand 0x12 padReady opPad b.val e.val pt.val s
def execTake (b : Fin 4) (e : Fin 16) (pt : Fin 4) (s : State) : Host.Outcome State Fault Refusal :=
  strideCommand 0x18 takeReady opTake b.val e.val pt.val s
def execPost (b : Fin 4) (e : Fin 16) (pt : Fin 4) (s : State) : Host.Outcome State Fault Refusal :=
  strideCommand 0x19 writesAcked opPost b.val e.val pt.val s
def execFence (b : Fin 4) (e : Fin 16) (pt : Fin 4) (s : State) : Host.Outcome State Fault Refusal :=
  strideCommand 0x1A writesAcked opFence b.val e.val pt.val s
def execEndp (b : Fin 4) (e : Fin 16) (pt : Fin 4) (s : State) : Host.Outcome State Fault Refusal :=
  strideCommand 0x3F seAlways opEndp b.val e.val pt.val s

/-- WR_ACKNOWLEDGE (R251): HBM acknowledges the engine's oldest write that it has performed. -/
def wrAcknowledge (d : Device) (b e : Nat) : Device :=
  modBerth d b (fun y => { y with hbm := { y.hbm with
    transfers := y.hbm.transfers.eraseP (fun t => decide (t.engine = e) && t.write && t.done) } })

def execWrAcknowledge (b : Fin 4) (e : Fin 16) (s : State) : Host.Outcome State Fault Refusal :=
  onDev (guarded (fun d => berthLive d b.val) (fun d => wrAcknowledge d b.val e.val)) s

end Sys2Proof.Machine
end

