-- ==== Sys2Proof/Machine/HbmOps.lean ====
section
/-! DEFINITION. The pacer, the HBM controller and the light agent (R240, R241, R254 to R257). -/

namespace Sys2Proof.Machine

/-! The pacer (R254, R255) -/

/-- τ = ⌊H × 65,536 / RATE⌋, saturating at 2^32 − 1, which a RATE of 0 gives. -/
def pacerTau (h rate : Nat) : Nat := if rate = 0 then 4294967295 else min (h * 65536 / rate) 4294967295

/-- Headroom of an engine queue: tokens that the consumer has not freed, or free space of the buffer. -/
def headroom (d : Device) (q : EngineQueue) : Nat :=
  let u := endAt d (epKey q.peer)
  if q.outbound then q.credmax - u.cred else q.credmax - u.tokens.length

/-- A request of an engine queue: its τ, unit port number and queue. -/
structure PaceReq where
  tau : Nat
  unit : Nat
  eq : Nat
  deriving DecidableEq, Repr, Inhabited

def paceBefore (a b : PaceReq) : Bool :=
  decide (a.tau < b.tau) || (decide (a.tau = b.tau) && (decide (a.unit < b.unit) || (decide (a.unit = b.unit) && decide (a.eq < b.eq))))

/-- Rated requests that are pending: one for each engine queue with a transfer that is not admitted. -/
def paceReqs (d : Device) (b : Nat) : List PaceReq :=
  let waiting := (berthAt d b).hbm.transfers.filter (fun t => !t.admitted)
  (List.range 16).flatMap (fun e =>
    let v := if engineSwitched d b e then swapUnits d b else d
    ((engineAt (berthAt v b) e).eqs.filter (fun q => q.2.valid && waiting.any (fun t => decide (t.engine = e) && decide (t.eq = q.1)))).map
      (fun q => { tau := pacerTau (headroom v q.2) q.2.rate, unit := 16 * (b % 2) + e, eq := q.1 }))

def paceBest : List PaceReq → Option PaceReq
  | [] => none
  | r :: rs =>
    match paceBest rs with
    | none => some r
    | some q => some (if paceBefore q r then q else r)

/-- Admit the oldest transfer of an engine queue. -/
def admitFirst (e q : Nat) : List Transfer → List Transfer
  | [] => []
  | t :: ts =>
    if t.engine = e ∧ t.eq = q ∧ !t.admitted then { t with admitted := true } :: ts else t :: admitFirst e q ts

def admitRated (h : Hbm) (b : Nat) (r : PaceReq) : Hbm :=
  let e := r.unit - 16 * (b % 2)
  { h with
    transfers := admitFirst e r.eq h.transfers
    admission := h.admission ++ [.transfer e r.eq]
    sinceLight := min (h.sinceLight + 1) 15 }

def admitLight (h : Hbm) : Hbm :=
  match h.lightQ with
  | [] => h
  | r :: rs => { h with
    lightQ := rs
    admission := h.admission ++ [.light r]
    sinceLight := 0 }

/-- The transfer that a grant to an engine queue admits. -/
def nextTransfer (h : Hbm) (e q : Nat) : Option Transfer :=
  h.transfers.find? (fun t => decide (t.engine = e) && decide (t.eq = q) && !t.admitted)

/-- The tokens of an admitted write leave the engine's buffer for the controller, which frees their space and returns their credits
(R250). -/
def leaveBuffer (d : Device) (b e q : Nat) : Device := onEngine d b e (fun d =>
  match nextTransfer (berthAt d b).hbm e q with
  | none => d
  | some t =>
    let pk := epKey (Tab.get {} (engineAt (berthAt d b) e).eqs q).peer
    if t.write then consumeEnd (setEnd d pk { endAt d pk with claimed := (endAt d pk).claimed - t.len }) pk t.len else d)

/-- PACER_GRANT (R255): one grant in an MCLK in which the admission queue has room. -/
def pacerGrant (d : Device) (b : Nat) : Device :=
  let h := (berthAt d b).hbm
  let put := fun (d : Device) (h : Hbm) => modBerth d b (fun x => { x with hbm := h })
  if !h.lightQ.isEmpty && decide (15 ≤ h.sinceLight) then put d (admitLight h)
  else match paceBest (paceReqs d b) with
    | some r => put (leaveBuffer d b (r.unit - 16 * (b % 2)) r.eq) (admitRated h b r)
    | none => put d (if !h.lightQ.isEmpty then admitLight h else { h with sinceLight := min (h.sinceLight + 1) 15 })

/-- The berth's memory controller works: MCLK runs and HBM is not in self-refresh. -/
def hbmLive (d : Device) (b : Nat) : Bool := d.power.fabric && decide (mstate d = 0) && !(berthAt d b).hbm.selfRefresh

def execPacerGrant (b : Fin 4) (s : State) : Host.Outcome State Fault Refusal :=
  onDev (guarded (fun d => hbmLive d b.val && decide ((berthAt d b.val).hbm.admission.length < 32)) (fun d => pacerGrant d b.val)) s

/-! The controller (R240, R241, R251, R252) -/

/-- What RD sends of the token stored at `a`: its V, P, S and F, L by LCTL, E of the slot that the engine runs. -/
def rdToken (d : Device) (b : Nat) (t : Transfer) (k : Nat) : Token :=
  let tok := hbmDelivered (berthAt d b).hbm (t.addr + k)
  { tok with sb := { tok.sb with
    l := lctl t.lctl k t.len tok.sb.l
    e := unitEpoch d b } }

/-- Set FR of a thread (R249). -/
def modFr (d : Device) (b e pt : Nat) (t : Option Token) : Device :=
  modBerth d b (fun y =>
    let g := engineAt y e
    { y with engines := Tab.set y.engines e { g with threads := Tab.set g.threads pt (setFr (Tab.get {} g.threads pt) t) } })

/-- A read: its tokens leave the engine, and the transfer ends. -/
def finishRead (d : Device) (b : Nat) (t : Transfer) : Device := onEngine d b t.engine (fun d =>
  let toks := (List.range t.len).map (rdToken d b t)
  let d := (List.range t.len).foldl (fun d k => hbmNote d b (t.addr + k)) d
  let d := modBerth d b (fun y => { y with hbm := { y.hbm with transfers := y.hbm.transfers.erase t } })
  let q := Tab.get {} (engineAt (berthAt d b) t.engine).eqs t.eq
  sendTaken (if t.fr then modFr d b t.engine t.thread toks.getLast? else d) (epKey q.peer) toks)

/-- A write is done and waits to be acknowledged. -/
def finishWrite (d : Device) (b : Nat) (t : Transfer) : Device :=
  modBerth d b (fun y =>
    let h := t.tokens.zipIdx.foldl (fun h p => hbmWriteToken h (t.addr + p.2) p.1) y.hbm
    { y with hbm := { h with transfers := h.transfers.replace t { t with done := true, tokens := [] } } })

/-- The byte lies where firmware or the decoder lays data out by itself: the System region (Table 10-2), or a picture buffer (R352). -/
def unlaidByte (d : Device) (b a : Nat) : Bool :=
  (decide (0x40000000 ≤ a) && decide (a < poolBase)) ||
    d.streams.any (fun p => decide (strmBerth d p.1 = b) && p.2.bufs.any (fun g => decide (poolAddr g ≤ a) && decide (a < poolAddr g + p.2.bufBytes)))

/-- A byte as a light read finds it. -/
def lightByte (d : Device) (b a : Nat) : Byte :=
  if unlaidByte d b a then Config.hbmByte d.time a else memRead (berthAt d b).hbm.mem a

/-- A light request at HBM (R257): a write merges into the tokens that it touches and stores sideband 0; a token that reads
uncorrectable on the way is reported. A read's answer goes to the requester as one or two light flits. -/
def finishLight (d : Device) (b : Nat) (r : LightReq) : Device :=
  let d := hbmRangeNote d b r.addr r.len
  if r.write then
    modBerth d b (fun y =>
      let h := hbmWriteBytes y.hbm r.addr (sliceBytes r.data 0 r.len)
      { y with hbm := { h with lightOut := h.lightOut ++ [(r.src, [])] } })
  else
    let bs := (List.range r.len).map (fun i => lightByte d b (r.addr + i))
    sendLightBytes (modBerth d b (fun y => { y with hbm := { y.hbm with lightOut := y.hbm.lightOut ++ [(r.src, bs)] } }))
      (lightAgentEp b) (BitVec.ofNat 14 r.src) bs

/-- HBM_ACCESS_COMPLETE: the oldest access of the admission queue completes. -/
def hbmComplete (d : Device) (b : Nat) : Device :=
  let h := (berthAt d b).hbm
  match h.admission with
  | [] => d
  | a :: rest =>
    let d := modBerth d b (fun y => { y with hbm := { y.hbm with admission := rest } })
    match a with
    | .light r => finishLight d b r
    | .transfer e q =>
      match h.transfers.find? (fun t => decide (t.engine = e) && decide (t.eq = q) && t.admitted && !t.done) with
      | none => d
      | some t => if t.write then finishWrite d b t else finishRead d b t

def execHbmAccessComplete (b : Fin 4) (s : State) : Host.Outcome State Fault Refusal :=
  onDev (guarded (fun d => hbmLive d b.val) (fun d => hbmComplete d b.val)) s

/-- A light transfer that the agent takes: 1 to 64 bytes inside one 64-byte block. -/
def lightLegal (r : LightReq) : Bool :=
  decide (1 ≤ r.len) && decide (r.len ≤ 64) && decide (r.addr % 64 + r.len ≤ 64)

/-- An endpoint that reaches the HBM of berth b (R242): the queue manager, the PCIe interface and P4; the berth's own stations,
memory-side units and purser. -/
def reachesHbm (b : Nat) (e : BitVec 14) : Bool :=
  [queueManagerEp, epUnitOf 0 67, epUnitOf 0 76, epUnitOf (b / 2) (72 + b), lightAgentEp b, feederEp b, cropEp b, decodeEp b].contains e
    || (decide (epDomain e = b) && decide (epStation e < 20))
    || (decide (epDomain e = 4 + b / 2) && decide (epUnit e / 16 = b % 2))

/-- LIGHT_REQUEST (R240, R257). A request of another shape is no light transfer and reaches no agent, and one from an endpoint that
does not reach this berth's HBM has no effect (R242). -/
def execLightRequest (b : Fin 4) (r : LightReq) (s : State) : Host.Outcome State Fault Refusal :=
  if 12884901888 ≤ r.addr then .fault .hbmAddress
  else onDev (guarded (fun d => lightLegal r && reachesHbm b.val (BitVec.ofNat 14 r.src) && d.power.fabric) (fun d =>
    modBerth d b.val (fun x => { x with hbm := { x.hbm with lightQ := x.hbm.lightQ ++ [r] } }))) s

end Sys2Proof.Machine
end

