-- ==== Sys2Proof/Machine/CodeOps.lean ====
section
/-! DEFINITION. The code-to-code steps TFN, ELT, POOL, GPOOL, RESIZE, SOFTMAX and LNORM (R125 to R131). They read
UINT8 tokens and emit UINT8 tokens; unless stated otherwise an output's V is the OR of the V of the tokens it derives
from. -/

namespace Sys2Proof.Machine

/-- The 32 codes of the token at word i. -/
def codesAt (t : Tile) (o : Operand) (i : Int) : List Nat :=
  (List.range 32).map (fun k => byteOf t o (i + ((k / 16 : Nat) : Int)) (k % 16))

/-- Take note of reading the token at word i. -/
def touchToken (x : Xe) (o : Operand) (i : Int) : Xe := touchWord (touchWord x o i) o (i + 1)

/-- A UINT8 output token: masked outputs hold the zero point (R114). -/
def outU8 (v : Bool) (zp : Nat) (cs : List Nat) : OutTok :=
  if v then { data := payloadOfCodes cs } else { data := fillByte zp, v := false }

/-! TFN (R125) -/

def opTfn (x : Xe) : Option Xe :=
  let nt := fld x.w 50 39 + 1
  let x := { x with cycles := 2 * nt }
  let p := paramsOf x
  if allMasked (tokensA x ++ tokensB x) then some { x with out := maskedU8 x p.zp } else
  let oa := opA x
  let tab := b2n (bit x.w 51)
  let x := touchWords x oa (wordRange (2 * nt))
  some { x with out := (List.range nt).map (fun k =>
    let i : Int := ((2 * k : Nat) : Int)
    outU8 (tokenV x.pl oa i) p.zp ((codesAt x.t oa i).map (fun c => ltAt x.pl tab c % 256))) }

/-! ELT (Table 5-10, R126) -/

/-- A dyadic number m · 2^e. -/
structure Dyadic where
  m : Int
  e : Int
  deriving DecidableEq, Repr, Inhabited

def dyMul (k : Int) (f : U32) : Dyadic := ⟨k * f32Int f, f32Em f⟩
def dyAlign (a : Dyadic) (e : Int) : Int := a.m * 2 ^ (a.e - e).toNat
def dyAdd (a b : Dyadic) : Dyadic := let e := min a.e b.e; ⟨dyAlign a e + dyAlign b e, e⟩
def dyNeg (a : Dyadic) : Dyadic := ⟨-a.m, a.e⟩
def dyLt (a b : Dyadic) : Bool := let e := min a.e b.e; decide (dyAlign a e < dyAlign b e)
def dyRne (a : Dyadic) : Int := rneScale a.m a.e

/-- The exact value x of one element, rounded once (R126). -/
def eltValue (op : Nat) (ma mb : U32) (da db : Int) : Int :=
  let a := dyMul da ma
  let b := dyMul db mb
  if op = 0 then dyRne (dyAdd a b)
  else if op = 1 then dyRne (dyAdd a (dyNeg b))
  else if op = 2 then dyRne (dyMul (da * db) ma)
  else if op = 3 then dyRne (if dyLt a b then b else a)
  else dyRne (if dyLt b a then b else a)

def opElt (x : Xe) : Option Xe :=
  let w := x.w
  let op := fld w 51 49
  let nt := fld w 48 37 + 1
  let x := { x with cycles := 2 * nt }
  let p := paramsOf x
  if 4 < op then none else
  if allMasked (tokensA x ++ tokensB x) then some { x with out := maskedU8 x p.zp } else
  let oa := opA x
  let ob := opB x
  let x := touchWords (touchWords x oa (wordRange (2 * nt))) ob (wordRange (2 * nt))
  let (x, bad) := factorCheck x (if op = 2 then [p.ma] else [p.ma, p.mb])
  let rows := (List.range nt).map (fun k =>
    let i : Int := ((2 * k : Nat) : Int)
    let v := tokenV x.pl oa i || tokenV x.pl ob i
    let ns := ((codesAt x.t oa i).zip (codesAt x.t ob i)).map (fun e =>
      if bad then (p.zp : Int)
      else bounded p (eltValue op p.ma p.mb ((e.1 : Int) - fld w 36 29) ((e.2 : Int) - fld w 28 21)) p.zp)
    (v, ns))
  let x := rows.foldl (fun x r => finishU8 x p.zp (r.1 && !x.poison) r.2) x
  some { x with out := rows.map (fun r => outU8 r.1 p.zp (r.2.map clampU8)) }

/-! POOL (Table 5-11, R127) -/

/-- The word offsets of the KH × KW window tokens. -/
def poolTaps (w : BitVec 128) : List Int :=
  (List.range (fld w 50 47)).flatMap (fun r => (List.range (fld w 46 43)).map (fun q =>
    ((r * fld w 34 24 + q * fld w 42 35 : Nat) : Int)))

/-- Max mode: the largest code per channel over the valid window tokens. -/
def poolMaxCodes (t : Tile) (o : Operand) (taps : List Int) : List Nat :=
  (List.range 32).map (fun k => taps.foldl (fun m i => max m ((codesAt t o i).getD k 0)) 0)

def opPoolMax (x : Xe) : Option Xe :=
  let taps := poolTaps x.w
  let x := { x with cycles := 2 * taps.length }
  let oa := opA x
  let x := taps.foldl (fun x i => touchToken x oa i) x
  let live := taps.filter (fun i => tokenV x.pl oa i)
  let masked := taps.filter (fun i => !tokenV x.pl oa i)
  if allMasked (tokensA x ++ tokensB x) then
    -- R34: NO units, V = 0; the window's masked tokens hold the zero point, as the popped ones do (R114)
    let data := if masked.isEmpty then ((tokensA x ++ tokensB x).getD 0 {}).data else payloadOfCodes (poolMaxCodes x.t oa masked)
    some { x with out := List.replicate (noTokens x.pl x.w) { data := data, v := false } }
  else
    -- every window token masked: the masked tokens' own codes, V = 0 (R114)
    let codes := poolMaxCodes x.t oa (if live.isEmpty then taps else live)
    some { x with out := [{ data := payloadOfCodes codes, v := !live.isEmpty }] }

/-- Average mode: t = rne(Σ(a − ZIN) × MA / DIV), one exact value. -/
def avgValue (s : Int) (ma : U32) (div : Nat) : Int :=
  let m := s * f32Int ma
  let e := f32Em ma
  if 0 ≤ e then rneDiv (m * 2 ^ e.toNat) div else rneDiv m (div * 2 ^ (-e).toNat)

def opPoolAverage (x : Xe) : Option Xe :=
  let taps := poolTaps x.w
  let zin := fld x.w 23 16
  let x := { x with cycles := 2 * taps.length }
  let p := paramsOf x
  if allMasked (tokensA x ++ tokensB x) then some { x with out := maskedU8 x p.zp } else
  let oa := opA x
  let x := taps.foldl (fun x i => touchToken x oa i) x
  let live := taps.filter (fun i => tokenV x.pl oa i)
  let (x, bad) := factorCheck x [p.ma]
  let ns := (List.range 32).map (fun k =>
    let s := live.foldl (fun s i => s + ((codesAt x.t oa i).getD k 0 : Int) - zin) (0 : Int)
    if bad then (p.zp : Int) else bounded p (avgValue s p.ma (fld x.w 15 8)) p.zp)
  let v := !live.isEmpty
  let x := finishU8 x p.zp (v && !x.poison) ns
  some { x with out := [outU8 v p.zp (ns.map clampU8)] }

/-! GPOOL (Table 5-12, R128): one issue takes the TPP + 1 tokens of one pixel. DEDUCED (log 9). -/

/-- Lane 32p + k of the bank. -/
def gpoolLane (t : Tile) (o : Operand) (l : Nat) : Nat := (codesAt t o ((2 * (l / 32) : Nat) : Int)).getD (l % 32) 0

/-- The part the two accumulate modes share: `f old code` is a lane's new value for a valid token. -/
def gpoolAccumulate (x : Xe) (f : Int → Int → Int) : Option Xe :=
  let w := x.w
  let bk := bankKey x (bit w 49)
  let tpp := fld w 42 40 + 1
  let x := { x with cycles := 2 * tpp, banksR := [bk] }
  match clearControl x (fld w 48 47) (fld w 46 43) (bankAt x.t bk) with
  | none => none
  | some b =>
    if allMasked (tokensA x ++ tokensB x) then some { x with t := setBank x.t bk b } else
    let oa := opA x
    let x := touchWords x oa (wordRange (2 * tpp))
    let valid := fun (l : Nat) => decide (l / 32 < tpp) && tokenV x.pl oa ((2 * (l / 32) : Nat) : Int)
    let b' := setLanes b (fun l => if valid l then f (laneVal b l) (gpoolLane x.t oa l) else laneVal b l)
    let any := (List.range tpp).any (fun p => tokenV x.pl oa ((2 * p : Nat) : Int))
    some { x with t := setBank x.t bk { poisonBank b' x.poison with anyTok := b.anyTok || any } }

def opGpoolMaxAcc (x : Xe) : Option Xe := gpoolAccumulate x (fun old a => max old a)
def opGpoolSumAcc (x : Xe) : Option Xe := gpoolAccumulate x (fun old a => old + a - (fld x.w 19 12 : Int))

/-- The part the two emit modes share: the codes of a lane and whether the mode requantises. -/
def gpoolEmit (x : Xe) (avg : Bool) : Option Xe :=
  let w := x.w
  let bk := bankKey x (bit w 49)
  let tpp := fld w 42 40 + 1
  let x := { x with cycles := 2 * tpp, banksR := [bk] }
  let p := paramsOf x
  if allMasked (tokensA x ++ tokensB x) then some { x with out := maskedU8 x p.zp } else
  let b := bankAt x.t bk
  let x := xPoison x b.poison
  let (x, bad) := if avg then factorCheck x [p.ma] else (x, false)
  let ns := (List.range (32 * tpp)).map (fun l =>
    if !avg then laneVal b l
    else if bad then (p.zp : Int) else bounded p (avgValue (laneVal b l) p.ma (fld w 39 20)) p.zp)
  let x := if avg then finishU8 x p.zp (b.anyTok && !x.poison) ns else x
  some { x with out := (codeTokens 0 (ns.map clampU8)).map (fun d =>
    if b.anyTok then { data := d } else { data := fillByte p.zp, v := false }) }

def opGpoolEmitMax (x : Xe) : Option Xe := gpoolEmit x false
def opGpoolEmitAvg (x : Xe) : Option Xe := gpoolEmit x true

/-! RESIZE (R129) -/

/-- rne((wa·a + wb·b + wc·c + wd·d) / 16). -/
def bilin (wa wb wc wd a b c d : Nat) : Nat := (rneShift ((wa * a + wb * b + wc * c + wd * d : Nat) : Int) 4).toNat

def opResize (x : Xe) : Option Xe :=
  let x := { x with cycles := 8 }
  let p := paramsOf x
  if allMasked (tokensA x ++ tokensB x) then some { x with out := maskedU8 x p.zp } else
  let o := opA x
  let h : Int := (fld x.w 51 44 : Nat)
  let v : Int := (fld x.w 43 33 : Nat)
  let taps := [0, h, v, v + h]
  let x := taps.foldl (fun x i => touchToken x o i) x
  let a := codesAt x.t o 0
  let b := codesAt x.t o h
  let c := codesAt x.t o v
  let d := codesAt x.t o (v + h)
  let valid := taps.any (fun i => tokenV x.pl o i)
  let out := fun (wa wb wc wd : Nat) => outU8 valid p.zp ((List.range 32).map (fun k =>
    bilin wa wb wc wd (a.getD k 0) (b.getD k 0) (c.getD k 0) (d.getD k 0)))
  some { x with out := [out 9 3 3 1, out 3 9 1 3, out 3 1 9 3, out 1 3 3 9] }

/-! SOFTMAX (R130) -/

/-- The codes of the first n elements with the V of their tokens. -/
def elemsAt (x : Xe) (o : Operand) (n : Nat) : List (Nat × Bool) :=
  (List.range n).map (fun k => (codeAt x.t o k, tokenV x.pl o ((2 * (k / 32) : Nat) : Int)))

/-- Σ lt[mx − a] over the valid elements. -/
def softSum (pl : Plane) (tab mx : Nat) (es : List (Nat × Bool)) : Nat :=
  es.foldl (fun s e => if e.2 then s + ltAt pl tab (mx - e.1) else s) 0

def softMax (es : List (Nat × Bool)) : Nat := es.foldl (fun m e => if e.2 then max m e.1 else m) 0

def opSoftmax (x : Xe) : Option Xe :=
  let n := fld x.w 50 39 + 1
  let tab := b2n (bit x.w 51)
  let x := { x with cycles := 3 * ((n + 15) / 16) }
  if allMasked (tokensA x ++ tokensB x) then some { x with out := maskedU8 x 0 } else
  let oa := opA x
  let x := touchWords x oa (wordRange (2 * ((n + 31) / 32)))
  let es := elemsAt x oa n
  let mx := softMax es
  let s := softSum x.pl tab mx es
  let out := es.map (fun e => if e.2 then (min (rneDiv ((255 * ltAt x.pl tab (mx - e.1) : Nat) : Int) s) 255).toNat else 0)
  let any := es.any (·.2)
  some { x with out := (codeTokens 0 out).map (fun d => if any then { data := d } else { data := 0, v := false }) }

/-! LNORM (R131) -/

/-- The rounded values t[k] of one pixel. -/
def lnormValues (d : List Int) (eps : Nat) (g : U32) : List Int :=
  let n : Int := (d.length : Int)
  let s1 := d.foldl (· + ·) 0
  let s2 := d.foldl (fun s v => s + v * v) 0
  let v := n * s2 - s1 * s1 + eps
  let mp := if v = 0 then f32Zero false else f32Mul (rsqrtRn v.toNat 1) g
  d.map (fun dk => rneScale ((n * dk - s1) * f32Int mp) (f32Em mp))

def opLnorm (x : Xe) : Option Xe :=
  let n := fld x.w 51 40 + 1
  let zin := fld x.w 39 32
  let x := { x with cycles := 2 * ((n + 15) / 16) + 8 }
  let p := paramsOf x
  if allMasked (tokensA x ++ tokensB x) then some { x with out := maskedU8 x p.zp } else
  let oa := opA x
  let x := touchWords x oa (wordRange (2 * ((n + 31) / 32)))
  let es := elemsAt x oa n
  let (x, bad) := factorCheck x [p.ma]
  let ts := lnormValues (es.map (fun e => (e.1 : Int) - zin)) (fld x.w 31 8) p.ma
  let ns := ts.map (fun t => if bad then (p.zp : Int) else bounded p t p.zp)
  let any := es.any (·.2)
  let x := finishU8 x p.zp (any && !x.poison) ns
  some { x with out := (codeTokens p.zp (ns.map clampU8)).map (fun d =>
    if any then { data := d } else { data := fillByte p.zp, v := false }) }

end Sys2Proof.Machine
end

