-- ==== Sys2Proof/Machine/AdaptSteps.lean ====
section
/-! DEFINITION. The adaptation steps of the A-tiles: BWD, WGRAD, LOSS and OPT (R276 to R282). -/

namespace Sys2Proof.Machine

/-! BWD (Table 11-6, R276). The weight block of forward output group g lies 16 · g words after start(db). DEDUCED (log 11). -/

def bwdDelta (t : Tile) (oa ob : Operand) (xt : XTable) (ng pstr c j : Nat) : Int :=
  (List.range (16 * (ng + 1))).foldl (fun acc n =>
    acc + (byteOf t oa ((j * pstr + n / 16 : Nat) : Int) (n % 16) : Int)
      * expand xt (weightCode t ob xt.w8 ((n / 16 * (if xt.w8 then 16 else 8) : Nat) : Int) c (n % 16))) 0

def bwdSum (t : Tile) (ob : Operand) (xt : XTable) (ng c : Nat) : Int :=
  (List.range (16 * (ng + 1))).foldl (fun acc n =>
    acc + expand xt (weightCode t ob xt.w8 ((n / 16 * (if xt.w8 then 16 else 8) : Nat) : Int) c (n % 16))) 0

def opBwd (x : Xe) : Option Xe :=
  let w := x.w
  let bk := bankKey x (bit w 51)
  let xt := xtAt x.pl (fld w 44 43)
  let ng := fld w 42 31
  let pstr := fld w 30 21
  let x := { x with cycles := 16 * (ng + 1), banksW := [bk] }
  match clearControl x (fld w 50 49) (fld w 48 45) (bankAt x.t bk) with
  | none => none
  | some b =>
    if allMasked (tokensA x ++ tokensB x) then some { x with t := setBank x.t bk (poisonBank b x.poison) } else
    let oa := opA x
    let ob := opB x
    let x := touchWords x oa ((List.range 16).flatMap (fun j => (List.range (ng + 1)).map (fun g => ((j * pstr + g : Nat) : Int))))
    let x := touchWords x ob (wordRange ((ng + 1) * (if xt.w8 then 16 else 8)))
    let b := addLanes b (fun l => bwdDelta x.t oa ob xt ng pstr (l / 16) (l % 16))
    let b := addTransSums b (bwdSum x.t ob xt ng)
    some { x with t := setBank x.t bk (poisonBank b x.poison) }

/-! WGRAD (Table 11-7, R277) -/

def wgradDelta (t : Tile) (oa ob : Operand) (nt astr gstr i j : Nat) : Int :=
  (List.range (16 * (nt + 1))).foldl (fun acc n =>
    acc + (byteOf t oa ((n * astr : Nat) : Int) j : Int) * ((byteOf t ob ((n * gstr : Nat) : Int) i : Int) - 128)) 0

def opWgrad (x : Xe) : Option Xe :=
  let w := x.w
  let bk := 8 + b2n (bit w 51)
  let nt := fld w 44 33
  let astr := fld w 32 23
  let gstr := fld w 22 13
  let x := { x with cycles := 16 * (nt + 1), banksW := [bk] }
  match clearControl x (fld w 50 49) (fld w 48 45) (bankAt x.t bk) with
  | none => none
  | some b =>
    if allMasked (tokensA x ++ tokensB x) then some { x with t := setBank x.t bk (poisonBank b x.poison) } else
    let oa := opA x
    let ob := opB x
    let x := touchWords x oa ((List.range (16 * (nt + 1))).map (fun n => ((n * astr : Nat) : Int)))
    let x := touchWords x ob ((List.range (16 * (nt + 1))).map (fun n => ((n * gstr : Nat) : Int)))
    let b := addLanes b (fun l => wgradDelta x.t oa ob nt astr gstr (l / 16) (l % 16))
    let b := addRowSums b (fun i => (List.range (16 * (nt + 1))).foldl (fun acc n =>
      acc + (byteOf x.t ob ((n * gstr : Nat) : Int) i : Int) - 128) 0)
    some { x with t := setBank x.t bk (poisonBank b x.poison) }

/-! LOSS (Table 11-8, R278) -/

/-- Sample weight, class and label of a target header (Table 11-2). -/
def tgtW (p : Payload) : Nat := fld p 31 24
def tgtClass (p : Payload) : Nat := fld p 23 16
def tgtLabelBit (p : Payload) (k : Nat) : Int := b2n (bit p (32 + k))
def tgtLabel16 (p : Payload) (k : Nat) : Int := signed 16 (fld p (32 + 16 * k + 15) (32 + 16 * k))

/-- off[k] of the three losses, before the clamp. -/
def offCe (pl : Plane) (lts wgt cls mx s : Nat) (k a : Nat) : Int :=
  rneDiv (128 * (wgt : Int) * ((ltAt pl lts (mx - a) : Int) - (if k = cls then (s : Int) else 0))) (255 * s)
def offBce (pl : Plane) (lts wgt : Nat) (label : Int) (a : Nat) : Int :=
  rneDiv (128 * (wgt : Int) * ((ltAt pl lts a : Int) - 65535 * label)) (255 * 65535)
def offSl1 (beta wgt : Nat) (d : Int) : Int :=
  -- clamp(d / (16β), −1, 1) as an exact fraction with denominator 16β
  rneDiv (128 * (wgt : Int) * clampI (-(16 * beta : Int)) (16 * beta) d) (255 * 16 * beta)

/-- The part the three loss modes share: `off k a` from the sample's logits and target. -/
def lossCore (x : Xe) (off : Payload → List (Nat × Bool) → Nat → Nat → Int) : Option Xe :=
  let n := fld x.w 48 37 + 1
  let x := { x with cycles := 3 * ((n + 15) / 16) }
  let oa := opA x
  let tb := (frontTokens x.t x.pl (wIqb x.w) 1).getD 0 {}
  let x := touchFront (touchWords x oa (wordRange (2 * ((n + 31) / 32)))) (wIqb x.w) 1
  let es := elemsAt x oa n
  let masked := !tb.sb.v || decide (tgtW tb.data = 0) || !(es.any (·.2))
  let offs := if !masked then es.zipIdx.map (fun e => off tb.data es e.2 e.1.1) else es.map (fun _ => 0)
  let codes := offs.map (fun o => (128 + clampI (-127) 127 o).toNat)
  let units := max (noTokens x.pl x.w) ((n + 31) / 32)
  let pads := codeTokens 128 (codes ++ List.replicate (32 * units - codes.length) 128)
  some { x with
    gradSum := (offs.map (fun o => o.natAbs)).foldl (· + ·) 0
    satSub := 2
    satN := if x.poison then 0 else (offs.filter (fun o => decide (o < -127) || decide (127 < o))).length
    out := pads.map (fun d => { data := d, v := !masked }) }

def opLossCe (x : Xe) : Option Xe :=
  let lts := b2n (bit x.w 49)
  lossCore x (fun tgt es k a =>
    let mx := softMax es
    offCe x.pl lts (tgtW tgt) (tgtClass tgt) mx (softSum x.pl lts mx es) k a)

def opLossBce (x : Xe) : Option Xe :=
  lossCore x (fun tgt _ k a => offBce x.pl (b2n (bit x.w 49)) (tgtW tgt) (tgtLabelBit tgt k) a)

/-- Smooth-L1: LTS is reserved in this mode (Table 11-8). -/
def opLossSmoothL1 (x : Xe) : Option Xe :=
  if bit x.w 49 then none else
  lossCore x (fun tgt _ k a =>
    offSl1 (fld x.w 28 21) (tgtW tgt) (16 * ((a : Int) - fld x.w 36 29) - tgtLabel16 tgt k))

/-- LOSS drain (Table 11-13): element (channel i, pixel j) has its forward code at byte i of word j of DB. DEDUCED (log 11). -/
def opLossDrain (x : Xe) : Option Xe :=
  let w := x.w
  let bk := bankKey x (bit w 49)
  let mlo := fld w 46 39
  let mhi := fld w 38 31
  let x := { x with cycles := 16, banksR := [bk] }
  if allMasked (tokensA x ++ tokensB x) then some { x with out := maskedU8 x 128 } else
  let b := bankAt x.t bk
  let ob := opB x
  let p := paramsOf x
  let x := xPoison (touchWords x ob (wordRange 16)) b.poison
  let (x, bad) := factorCheck x [p.ma]
  let tv := fun (l : Nat) => if bad then 0 else scaledRounded (laneVal b l - 128 * transSum b (l / 16)) p.ma (xtU x.pl (fld w 48 47))
  let fw := fun (l : Nat) => byteOf x.t ob ((l % 16 : Nat) : Int) (l / 16)
  let open_ := fun (l : Nat) => decide (mlo < fw l) && decide (fw l < mhi)
  let outv := fun (l : Nat) => if open_ l then (clampI 1 255 (tv l + 128)).toNat else 128
  let lanes := List.range 256
  let bmx := lanes.foldl (fun m l => if outv l ≠ 128 then max m (min (tv l).natAbs top32) else m) x.pl.swap.bmx.toNat
  let clampN := (lanes.filter (fun l => open_ l && (decide (tv l + 128 < 1) || decide (255 < tv l + 128)))).length
  let x := if x.poison then x
    else { x with pl := { x.pl with swap := { x.pl.swap with bmx := BitVec.ofNat 32 bmx } }, satSub := 2, satN := clampN }
  let pixel := fun (j : Nat) => (List.range 16).map (fun i => outv (laneOf i j))
  some { x with out := (List.range 8).map (fun k => { data := payloadOfCodes (pixel (2 * k) ++ pixel (2 * k + 1)) }) }

/-! OPT (Table 11-9, R279 to R281) -/

/-- The registers PR to PR + 9 that OPT reads (R279). -/
structure OptRegs where
  mg : U32
  lr : U32
  mbias : U32
  b1 : U32
  b1c : U32
  b2 : U32
  b2c : U32
  epsv : U32
  s2m : U32
  s2v : U32
  deriving DecidableEq, Repr, Inhabited

def optRegs (x : Xe) : OptRegs :=
  let r := fun n => regRead x.pl (wPr x.w + n)
  ⟨r 0, r 1, r 2, r 3, r 4, r 5, r 6, r 7, r 8, r 9⟩

/-- One weight before OPT: code, residual, momentum and second-moment codes, and its corrected gradient. -/
structure OptIn where
  code : Nat
  r : Int
  mc : Int
  vc : Nat
  cg : Int
  deriving DecidableEq, Repr, Inhabited

/-- One weight after OPT, before its state is encoded. -/
structure OptOut where
  code : Nat
  r : Int
  clamped : Bool
  m : U32
  v : U32
  deriving DecidableEq, Repr, Inhabited

/-- The code within 7 of the old one whose weight is nearest to `ws`; ties to the smaller distance in code, then the
lower code (R280). -/
def nearestCode (xt : XTable) (rsh code : Nat) (ws : Int) : Nat :=
  let lo := code - 7
  let hi := min 255 (code + 7)
  let dist := fun (k : Nat) => (ws - expand xt k * 2 ^ rsh).natAbs
  let far := fun (k : Nat) => ((k : Int) - code).natAbs
  ((List.range (hi + 1 - lo)).map (lo + ·)).foldl (fun best k =>
    if dist k < dist best ∨ (dist k = dist best ∧ (far k < far best ∨ (far k = far best ∧ k < best))) then k else best) code

/-- rne(−(st × lr)), the exact product rounded once. A value outside I32 is kept exact: DESIGN CHOICE (assumption log 115). -/
def optStep (st lr : U32) : Int :=
  if f32Finite st && f32Finite lr then rneScale (-(f32Int st * f32Int lr)) (f32Em st + f32Em lr)
  else Config.roundNonFinite (f32Neg (f32Mul st lr))

/-- The optimiser rule for one weight (R280). -/
def optWeight (o : OptRegs) (rule : Bool) (rsh : Nat) (xt : XTable) (km kv : Nat) (i : OptIn) : OptOut :=
  let g := f32Mul (f32OfInt i.cg) o.mg
  let g := if f32Exp o.mg < 255 then f32OfDyadic (i.cg * f32Int o.mg) (f32Em o.mg) else g
  let mold := f32Mul (scaleOfCode o.s2m km) (f32OfInt i.mc)
  let vold := f32Mul (scaleOfCode o.s2v kv) (f32OfInt i.vc)
  let m := f32Add (f32Mul o.b1 mold) (f32Mul o.b1c g)
  let v := if rule then f32Add (f32Mul o.b2 vold) (f32Mul o.b2c (f32Mul g g)) else 0
  let st := if rule then f32Mul m (f32Rsqrt (f32Add v o.epsv)) else m
  let d := optStep st o.lr
  let ws := expand xt i.code * 2 ^ rsh + i.r + d
  let c2 := nearestCode xt rsh i.code ws
  let r2 := ws - expand xt c2 * 2 ^ rsh
  { code := c2, r := clampI (-128) 127 r2, clamped := decide (r2 < -128 ∨ 127 < r2), m := m, v := v }

/-- |a| of a binary32. -/
def f32Abs (a : U32) : U32 := BitVec.ofNat 32 (fld a 30 0)

/-- a ≤ k · b for binary32 a and b and an integer k, exactly. -/
def f32LeTimes (a b : U32) (k : Nat) : Bool :=
  if f32Finite a && f32Finite b then !dyLt (dyMul k b) (dyMul 1 a) else f32Le a b

/-- The smallest block code k whose scale times `top` reaches the largest magnitude; 255 where none does (R280). -/
def blockCode (s2 : U32) (top : Nat) (ms : List U32) : Nat × Bool :=
  match firstCode (fun k => ms.all (fun m => f32LeTimes (f32Abs m) (scaleOfCode s2 k) top)) 255 1 with
  | some k => (k, false)
  | none => (255, true)

/-- rne(a / b). -/
def f32Quot (a b : U32) : Int :=
  if f32Finite a && f32Finite b then
    let e := f32Em a - f32Em b
    let q := if 0 ≤ e then rneDiv ((f32Mant a * 2 ^ e.toNat : Nat) : Int) (f32Mant b)
      else rneDiv (f32Mant a : Int) (f32Mant b * 2 ^ (-e).toNat)
    if f32Sign a != f32Sign b then -q else q
  else Config.roundNonFinite (f32Div a b)

/-- The operand on the inactive plane: the partner of the block memory it resolves to (R271). -/
def partnerOp (x : Xe) (o : Operand) : Operand := if o.ring then o else { o with bm := partnerBm x.pl.adapt o.bm }

/-- The inputs of the 16 weights of word j. -/
def optInputs (x : Xe) (oa ob : Operand) (bank : Bank) (za j : Nat) : List OptIn :=
  let sb : Int := ((4 * j : Nat) : Int)
  (List.range 16).map (fun i =>
    { code := byteOf x.t oa (j : Int) i
      r := signed 8 (byteOf x.t ob sb i)
      mc := signed 8 (byteOf x.t ob (sb + 1) i)
      vc := byteOf x.t ob (sb + 2) i
      cg := laneVal bank (laneOf i j) - za * rowSum bank i })

/-- One weight word of OPT with FIN = 0. -/
def optWord (o : OptRegs) (rule : Bool) (rsh : Nat) (xt : XTable) (oa ob : Operand) (bank : Bank) (za : Nat) (x : Xe)
    (j : Nat) : Xe :=
  let sb : Int := ((4 * j : Nat) : Int)
  let ins := optInputs x oa ob bank za j
  let km := byteOf x.t ob (sb + 3) 0
  let kv := byteOf x.t ob (sb + 3) 1
  let outs := ins.map (optWeight o rule rsh xt km kv)
  let bm := blockCode o.s2m 127 (outs.map (·.m))
  let bv := if rule then blockCode o.s2v 255 (outs.map (·.v)) else (1, false)
  let sm := scaleOfCode o.s2m bm.1
  let sv := scaleOfCode o.s2v bv.1
  let mcs := outs.map (fun u => BitVec.ofInt 8 (clampI (-127) 127 (f32Quot u.m sm)))
  let vcs := outs.map (fun u => if rule then BitVec.ofInt 8 (clampI 0 255 (f32Quot u.v sv)) else (0 : Byte))
  let pa := partnerOp x oa
  let pb := partnerOp x ob
  let x := writeWord x (opWord pa (j : Int)) (leNat (outs.map (fun u => BitVec.ofNat 8 u.code)))
  let x := writeWord x (opWord pb sb) (leNat (outs.map (fun u => BitVec.ofInt 8 u.r)))
  let x := writeWord x (opWord pb (sb + 1)) (leNat mcs)
  let x := writeWord x (opWord pb (sb + 2)) (leNat vcs)
  let x := writeWord x (opWord pb (sb + 3)) (bm.1 + 256 * bv.1)
  let cs := (ins.zip outs).zipIdx.foldl (fun cs e =>
    Tab.modify 0 cs e.2 (fun v => toI32 (v.toInt + expand xt e.1.2.code - expand xt e.1.1.code))) x.t.csdelta
  let rc := (outs.filter (·.clamped)).length
  { x with
    t := { x.t with csdelta := cs }
    acnts := x.acnts ++ [(10, rc), (11, b2n bm.2 + b2n bv.2)] }

/-- The part of OPT that both forms share: the bank and what poisons the update (Table 11-11). -/
def optBank (x : Xe) : Bank := bankAt x.t (8 + b2n (bit x.w 51))

def opOpt (x : Xe) : Option Xe :=
  let w := x.w
  let bank := optBank x
  let x := { x with cycles := 80, banksR := [8 + b2n (bit w 51)] }
  if allMasked (tokensA x ++ tokensB x) then some x else
  let oa := opA x
  let ob := opB x
  let n := x.reps.length
  let x := touchWords (touchWords x oa (wordRange 16)) ob (wordRange 64)
  let unc := (x.reps.drop n).any (fun r => decide (r.1 = 1))
  let x := { x with adaptBad := bank.poison || unc }
  -- every word is read from the active plane as it stood before the step
  some ((List.range 16).foldl
    (optWord (optRegs x) (bit w 50) (fld w 48 45) (xtAt x.pl (fld w 44 43)) oa ob bank (fld w 42 35)) x)

/-- OPT with FIN = 1 (R281). -/
def opOptFin (x : Xe) : Option Xe :=
  let w := x.w
  let bank := optBank x
  let x := { x with cycles := 32, banksR := [8 + b2n (bit w 51)] }
  if allMasked (tokensA x ++ tokensB x) then some x else
  let oc := opC x
  let o := optRegs x
  let n := x.reps.length
  let x := touchWords x oc (wordRange 16)
  let unc := (x.reps.drop n).any (fun r => decide (r.1 = 1))
  let x := { x with adaptBad := bank.poison || unc }
  let pc := partnerOp x oc
  let x := (List.range 16).foldl (fun (x : Xe) (i : Nat) =>
    let cs2 := colSum x.t oc i + (Tab.get 0 x.t.csdelta i).toInt
    let step := if f32Finite o.mbias then rneScale (rowSum bank i * f32Int o.mbias) (f32Em o.mbias)
      else Config.roundNonFinite o.mbias
    let b2 := biasOf x.t oc i - step
    writeWord x (opWord pc (i : Int)) (a48Bytes (toA48 cs2) + 2 ^ 64 * a48Bytes (toA48 b2))) x
  some { x with t := { x.t with csdelta := [] } }

end Sys2Proof.Machine
end

