-- ==== Sys2Proof/Machine/ArrayOps.lean ====
section
/-! DEFINITION. What the array steps CONV, MATW, DWCONV and MATA compute (R116 to R120). Each effect answers none where
an operand field holds a value that the specification reserves. -/

namespace Sys2Proof.Machine

/-! CONV and MATW (Table 5-5, R117, R118) -/

/-- Where the low element of channel ch of pixel j in group g lies: word and byte, by activation layout AM. -/
def convLow (t : Tile) (o : Operand) (am pstr g j ch : Nat) : Int :=
  if am = 0 then byteOf t o ((j * pstr + g : Nat) : Int) ch
  else if am = 1 then byteOf t o ((j * pstr + 2 * g + ch / 8 : Nat) : Int) (2 * (ch % 8))
  else byteOf t o ((j * pstr + 4 * (g / 2) + g % 2 : Nat) : Int) ch

/-- Word of the high token's half for pixel j in group g, split wide layout. -/
def convHighWord (pstr g j : Nat) : Int := ((j * pstr + 4 * (g / 2) + g % 2 + 2 : Nat) : Int)

/-- The high byte as a signed number; a masked high token reads as zero (R100). -/
def convHigh (t : Tile) (pl : Plane) (o : Operand) (am pstr g j ch : Nat) : Int :=
  if am = 0 then 0
  else if am = 1 then signed 8 (byteOf t o ((j * pstr + 2 * g + ch / 8 : Nat) : Int) (2 * (ch % 8) + 1))
  else if tokenV pl o (convHighWord pstr g j) then signed 8 (byteOf t o (convHighWord pstr g j) ch) else 0

/-- hi_pass_needed(g) (R117). -/
def convHighNeeded (pl : Plane) (o : Operand) (am pstr g : Nat) : Bool :=
  if am = 0 then false else if am = 1 then true
  else (List.range 16).any (fun j => tokenV pl o (convHighWord pstr g j))

/-- The exact sum that one issue adds into lane (i, j): low pass plus 2^8 times the high pass (R67, R117). -/
def convDelta (t : Tile) (pl : Plane) (oa ob : Operand) (xt : XTable) (am ng pstr : Nat) (i j : Nat) : Int :=
  (List.range (ng + 1)).foldl (fun acc g =>
    (List.range 16).foldl (fun acc ch =>
      let w := expand xt (weightCode t ob xt.w8 ((g * (if xt.w8 then 16 else 8) : Nat) : Int) ch i)
      acc + convLow t oa am pstr g j ch * w + convHigh t pl oa am pstr g j ch * w * 256) acc) 0

/-- The activation words that an issue reads. -/
def convReads (am ng pstr : Nat) : List Int :=
  (List.range (ng + 1)).flatMap (fun g => (List.range 16).flatMap (fun j =>
    if am = 0 then [((j * pstr + g : Nat) : Int)]
    else if am = 1 then [((j * pstr + 2 * g : Nat) : Int), ((j * pstr + 2 * g + 1 : Nat) : Int)]
    else [((j * pstr + 4 * (g / 2) + g % 2 : Nat) : Int), convHighWord pstr g j]))

/-- The part that CONV and MATW share. `masked` is the outcome of R34: the step then adds nothing, but its clear (R116) happens, as
in every array step. DEDUCED (log 101). -/
def convCore (x : Xe) (masked : Bool) : Option Xe :=
  let w := x.w
  let bk := bankKey x (bit w 51)
  let xt := xtAt x.pl (fld w 44 43)
  let am := fld w 42 41
  let ng := fld w 40 29
  let pstr := fld w 28 19
  let hi := (List.range (ng + 1)).filter (fun g => convHighNeeded x.pl (opA x) am pstr g)
  let lastWide := convHighNeeded x.pl (opA x) am pstr ng
  let x := { x with cycles := 16 * (ng + 1) + 16 * hi.length, lastGroup := if lastWide then 32 else 16, banksW := [bk] }
  if am = 3 then none else
  match clearControl x (fld w 50 49) (fld w 48 45) (bankAt x.t bk) with
  | none => none
  | some b =>
    if masked then some { x with t := setBank x.t bk (poisonBank b x.poison) } else
    let oa := opA x
    let ob := opB x
    let x := touchWords x oa (convReads am ng pstr)
    let x := touchWords x ob (wordRange ((ng + 1) * (if xt.w8 then 16 else 8)))
    let b := addLanes b (fun l => convDelta x.t x.pl oa ob xt am ng pstr (l / 16) (l % 16))
    some { x with t := setBank x.t bk (poisonBank b x.poison) }

def opConv (x : Xe) : Option Xe := convCore x (allMasked (tokensA x ++ tokensB x))

/-- MATW (R118): CONV's computation; with FWD = 1 the units popped from IQB go on, unchanged but for the P of their own read (R35,
R191) and of an F mismatch of the step (R114). -/
def opMatw (x : Xe) : Option Xe :=
  let fwd := bit x.w 18
  let units := poppedFor x (wIqb x.w) (nbTokens x)
  let mism := checkFrames x
  match convCore x (allMasked (if fwd then tokensA x else tokensA x ++ tokensB x)) with
  | none => none
  | some x =>
    some (if fwd then { touchFront x (wIqb x.w) (nbTokens x) with out := units.map (fun t => { moved t with p := mism }) } else x)

/-! DWCONV (Table 5-6, R119) -/

def dwDelta (t : Tile) (oa ob : Operand) (xt : XTable) (kw dil str pstr i j : Nat) : Int :=
  (List.range kw).foldl (fun acc tap =>
    acc + (byteOf t oa (((j * str + tap * dil) * pstr : Nat) : Int) i : Int) * expand xt (weightCode t ob xt.w8 0 tap i)) 0

/-- DWCONV. Where every popped token is masked the clear of R116 still happens: DEDUCED (log 101). -/
def opDwconv (x : Xe) : Option Xe :=
  let w := x.w
  let bk := bankKey x (bit w 51)
  let xt := xtAt x.pl (fld w 44 43)
  let kw := fld w 42 38
  let dil := fld w 37 34
  let str := fld w 33 31
  let pstr := fld w 30 21
  let np := 15 * str + (kw - 1) * dil + 1
  let x := { x with cycles := np, banksW := [bk] }
  match clearControl x (fld w 50 49) (fld w 48 45) (bankAt x.t bk) with
  | none => none
  | some b =>
    if allMasked (tokensA x ++ tokensB x) then some { x with t := setBank x.t bk (poisonBank b x.poison) } else
    let oa := opA x
    let ob := opB x
    let x := touchWords x oa ((List.range np).map (fun p => ((p * pstr : Nat) : Int)))
    let x := touchWords x ob (wordRange (if xt.w8 then kw else (kw + 1) / 2))
    let b := addLanes b (fun l => dwDelta x.t oa ob xt kw dil str pstr (l / 16) (l % 16))
    some { x with t := setBank x.t bk (poisonBank b x.poison) }

/-! MATA (Table 5-7, R120) -/

/-- The I9 row operand of term n (R62): code − ZB. -/
def mataRow (t : Tile) (ob : Operand) (zb n i : Nat) : Int := (byteOf t ob (n : Int) i : Int) - zb

def mataDelta (t : Tile) (oa ob : Operand) (ng pstr zb i j : Nat) : Int :=
  (List.range (16 * (ng + 1))).foldl (fun acc n =>
    acc + (byteOf t oa ((j * pstr + n / 16 : Nat) : Int) (n % 16) : Int) * mataRow t ob zb n i) 0

/-- MATA. Where every popped token is masked the clear of R116 still happens: DEDUCED (log 101). -/
def opMata (x : Xe) : Option Xe :=
  let w := x.w
  let bk := bankKey x (bit w 51)
  let ng := fld w 44 33
  let pstr := fld w 32 23
  let zb := fld w 22 15
  let x := { x with cycles := 16 * (ng + 1), banksW := [bk] }
  match clearControl x (fld w 50 49) (fld w 48 45) (bankAt x.t bk) with
  | none => none
  | some b =>
    if allMasked (tokensA x ++ tokensB x) then some { x with t := setBank x.t bk (poisonBank b x.poison) } else
    let oa := opA x
    let ob := opB x
    let x := touchWords x oa (convReads 0 ng pstr)
    let x := touchWords x ob (wordRange (16 * (ng + 1)))
    let b := addLanes b (fun l => mataDelta x.t oa ob ng pstr zb (l / 16) (l % 16))
    let b := addRowSums b (fun i => (List.range (16 * (ng + 1))).foldl (fun acc n => acc + mataRow x.t ob zb n i) 0)
    some { x with t := setBank x.t bk (poisonBank b x.poison) }

end Sys2Proof.Machine
end

