-- ==== Sys2Proof/Machine/MoverOps.lean ====
section
/-! DEFINITION. The mover steps PASS, SEND, COPY, STEER and MERGE (R137 to R139, R201, R202). -/

namespace Sys2Proof.Machine

def opPass (x : Xe) : Option Xe :=
  let n := naTokens x
  let ts := poppedFor x (wIqa x.w) n
  let x := { touchFront x (wIqa x.w) n with poison := false, cycles := n }
  some { x with out := ts.map moved }

/-- Token k that SEND or COPY reads, and whether its own read is bad. -/
def readToken (x : Xe) (o : Operand) (k : Nat) : OutTok :=
  let i : Int := ((2 * k : Nat) : Int)
  let a := opWord o i
  let b := opWord o (i + 1)
  let bad := [2 * a, 2 * a + 1, 2 * b, 2 * b + 1].any (fun g => decide (Tab.find x.t.ecc g = some .double))
    || (o.ring && Tab.get false x.pl.sideBad (1024 * o.iq + opPos o i / 2))
  { data := tokenData x.t o i, v := tokenV x.pl o i, s := tokenS x.pl o i, p := tokenP x.pl o i || bad }

/-- SEND (R137). A poisoned token among those that it reads marks every output (R35). -/
def opSend (x : Xe) : Option Xe :=
  let nt := fld x.w 51 40 + 1
  let o := opA x
  let ts := (List.range nt).map (readToken x o)
  let x := touchWords x o (wordRange (2 * nt))
  some { x with cycles := nt, out := ts }

def opCopy (x : Xe) : Option Xe :=
  let nt := fld x.w 51 40 + 1
  let o := opA x
  let oc := opC x
  let ts := (List.range nt).map (readToken x o)
  let x := { touchWords x o (wordRange (2 * nt)) with cycles := nt }
  some (ts.zipIdx.foldl (fun x e =>
    writeWord (writeWord x (opWord oc (2 * (e.2 : Int))) (fld e.1.data 127 0)) (opWord oc (2 * (e.2 : Int) + 1))
      (fld e.1.data 255 128)) x)

/-- STEER (R138, R202). -/
def opSteer (x : Xe) : Option Xe :=
  let w := x.w
  let bit0 := fld w 45 40
  let pol := bit w 39
  let ctl := (poppedFor x (wIqa w) 1).getD 0 {}
  let data := poppedFor x (wIqb w) (nbTokens x)
  let per := 2 ^ (iqAt x.pl (wIqb w)).grain
  let mism := decide (ctl.sb.f ≠ (data.getD 0 {}).sb.f)
  let x := touchFront (touchFront x (wIqa w) 1) (wIqb w) (nbTokens x)
  let x := { x with poison := mism || ctl.sb.p, cycles := data.length }
  let x := if mism then xRep x 10 0 else x
  some { x with out := data.zipIdx.map (fun e =>
    let t := e.1
    if t.sb.s then moved t
    else
      let sel := ctl.sb.v && (bit ctl.data (bit0 + e.2 / per) != pol)
      if sel then moved t
      else { data := fillByte (fld w 38 31), v := false, keep := some { t.sb with v := false } }) }

/-- MERGE (R139). -/
def opMerge (x : Xe) : Option Xe :=
  let w := x.w
  let na := naTokens x
  let as_ := poppedFor x (wIqa w) na
  let bs := poppedFor x (wIqb w) (nbTokens x)
  let mism := decide ((as_.getD 0 {}).sb.f ≠ (bs.getD 0 {}).sb.f)
  let x := touchFront (touchFront x (wIqa w) na) (wIqb w) (nbTokens x)
  let x := { x with poison := mism, cycles := na }
  let x := if mism then xRep x 10 0 else x
  let conf := ((as_.zip bs).filter (fun e => e.1.sb.v && e.2.sb.v && !e.1.sb.s && !e.2.sb.s)).length
  let x := xCnt x 13 conf
  some { x with out := (as_.zip bs).map (fun e => moved (if e.1.sb.v then e.1 else e.2)) }

end Sys2Proof.Machine
end

