-- ==== Sys2Proof/Machine/Selection.lean ====
section
/-! DEFINITION. Box selection (SELECT, R177 to R182) and crops (CROP, R184, R185). -/

namespace Sys2Proof.Machine

/-! SELECT -/

/-- Candidate n (Table 7-6), read from its word. -/
structure Cand where
  idx : Nat
  bits : BitVec 128
  deriving DecidableEq, Repr, Inhabited

def cX0 (c : Cand) : Int := sfld c.bits 15 0
def cY0 (c : Cand) : Int := sfld c.bits 31 16
def cX1 (c : Cand) : Int := sfld c.bits 47 32
def cY1 (c : Cand) : Int := sfld c.bits 63 48
def cScore (c : Cand) : Nat := fld c.bits 79 64
def cClass (c : Cand) : Nat := fld c.bits 87 80
def cValid (c : Cand) : Bool := bit c.bits 88

/-- R178, but for CVALID. -/
def admitted (smin : Nat) (core : Option Payload) (c : Cand) : Bool :=
  decide (smin ≤ cScore c) && decide (cX0 c < cX1 c) && decide (cY0 c < cY1 c) &&
  (match core with
   | none => true
   | some k => decide (2 * sfld k 15 0 ≤ cX0 c + cX1 c ∧ cX0 c + cX1 c < 2 * sfld k 47 32) &&
       decide (2 * sfld k 31 16 ≤ cY0 c + cY1 c ∧ cY0 c + cY1 c < 2 * sfld k 63 48))

/-- Rank order (R179): higher score first, then lower index. -/
def ranksBefore (a b : Cand) : Bool := decide (cScore b < cScore a) || (decide (cScore a = cScore b) && decide (a.idx ≤ b.idx))

def insertRanked (c : Cand) : List Cand → List Cand
  | [] => [c]
  | d :: ds => if ranksBefore c d then c :: d :: ds else d :: insertRanked c ds

def rankSort : List Cand → List Cand
  | [] => []
  | c :: cs => insertRanked c (rankSort cs)

def candArea (c : Cand) : Int := (cX1 c - cX0 c) * (cY1 c - cY0 c)

/-- Candidate b suppresses a (R180): IoU > T / 256. -/
def suppresses (caw : Bool) (t : Nat) (a b : Cand) : Bool :=
  let iw := max 0 (min (cX1 a) (cX1 b) - max (cX0 a) (cX0 b))
  let ih := max 0 (min (cY1 a) (cY1 b) - max (cY0 a) (cY0 b))
  let inn := iw * ih
  let un := candArea a + candArea b - inn
  (!caw || decide (cClass a = cClass b)) && decide ((t : Int) * un < 256 * inn)

/-- The walk of R180: kept candidates, how many were suppressed, and whether the slots filled first. -/
def selectWalk (caw : Bool) (t slots : Nat) : List Cand → List Cand → Nat → List Cand × Nat × Bool
  | [], kept, sup => (kept, sup, false)
  | a :: as_, kept, sup =>
    if kept.length = slots then (kept, sup, true)
    else if kept.any (suppresses caw t a) then selectWalk caw t slots as_ kept (sup + 1)
    else selectWalk caw t slots as_ (kept ++ [a]) sup

/-- The candidate fields in the analysis frame (R181). -/
def translated (core : Option Payload) (c : Cand) : Nat :=
  match core with
  | none => setFld c.bits 88 88 1 |>.toNat
  | some k =>
    let ox := 4 * (fld k 79 64 : Int)
    let oy := 4 * (fld k 95 80 : Int)
    let cl := fun (v : Int) => unsigned 16 (clampI (-32768) 32767 v)
    (setFld (setFld (setFld (setFld (setFld c.bits 88 88 1) 15 0 (cl (cX0 c + ox))) 31 16 (cl (cY0 c + oy))) 47 32
      (cl (cX1 c + ox))) 63 48 (cl (cY1 c + oy))).toNat

/-- A box-slot token payload (Table 7-9). -/
def slotPayload (core : Option Payload) (stream live s : Nat) (c : Cand) : Payload :=
  BitVec.ofNat 256 (translated core c + 2 ^ 128 * c.idx + 2 ^ 144 * s + 2 ^ 152 * live + 2 ^ 160 * stream)

/-- The least power of two that is at least n and at least 16 (R182). -/
def npOf (n : Nat) : Nat := if n ≤ 16 then 16 else 2 ^ (Nat.log2 (n - 1) + 1)

/-- The candidate words in order: 0 to 2,047 at A, the rest at B. -/
def candAt (t : Tile) (oa ob : Operand) (n : Nat) : Cand :=
  { idx := n, bits := BitVec.ofNat 128 (if n < 2048 then word t oa (n : Int) else word t ob ((n - 2048 : Nat) : Int)) }

def opSelect (x : Xe) : Option Xe :=
  let w := x.w
  let slots := fld w 51 46 + 1
  let n := fld w 19 8 + 1
  let np := npOf n
  let lg := Nat.log2 np
  let x := { x with cycles := np * lg * (lg + 1) / 32 + np * slots / 16 + np / 2 + 128 }
  if allMasked (tokensA x ++ tokensB x) then some { x with out := maskedZero x } else
  let oa := opA x
  let ob := opB x
  let oc := opC x
  let core := if bit w 44 then some (headToken x.t x.pl (wIqb w)).data else none
  let x := touchWords x oa (wordRange (min n 2048))
  let x := touchWords x ob (wordRange (n - 2048))
  let cands := ((List.range n).map (candAt x.t oa ob)).filter cValid
  let adm := cands.filter (admitted (fld w 35 20) core)
  let r := selectWalk (bit w 45) (fld w 43 36) slots (rankSort adm) [] 0
  let live := r.1.length
  let x := xCnt (xCnt (xCnt x 9 (cands.length - adm.length)) 10 r.2.1) 11 (b2n r.2.2)
  let stream := x.ctx.stream
  let toks : List OutTok := r.1.zipIdx.map (fun e => { data := slotPayload core stream live e.2 e.1 })
  let x := (List.range (np / 4)).foldl (fun (x : Xe) (k : Nat) =>
    writeWord x (opWord oc (k : Int)) (leNat ((List.range 16).map (fun b => Config.rankByte w (16 * k + b))))) x
  some { x with out := toks ++ List.replicate (slots - live) { data := 0, v := false } }
where
  headToken (t : Tile) (pl : Plane) (iq : Nat) : Token := (frontTokens t pl iq 1).getD 0 {}

/-! CROP (Table 7-11, R185) -/

/-- One sample of a gather token (Table 7-10): its 128 bits. -/
def gatherSample (p : Payload) (n : Nat) : BitVec 128 := BitVec.ofNat 128 (fld p (128 * n + 127) (128 * n))

def sampleFill (s : BitVec 128) : Bool := bit s 112

/-- Channel k of a sample (R185). -/
def sampleCode (fill : Nat) (s : BitVec 128) (k : Nat) : Nat :=
  if sampleFill s then fill
  else
    let wy := fld s 111 104
    let wx := fld s 103 96
    let at_ := fun lo => fld s (lo + 8 * k + 7) (lo + 8 * k)
    (rneShift (((256 - wx) * (256 - wy) * at_ 0 + wx * (256 - wy) * at_ 24 + (256 - wx) * wy * at_ 48
      + wx * wy * at_ 72 : Nat) : Int) 16).toNat

/-- The output token that holds pixels `from` … of one crop row, `op` pixels to a token. -/
def cropToken (zp fill op ow : Nat) (row : List (BitVec 128 × Bool)) (k : Nat) : OutTok :=
  let px := (row.drop (op * k)).take (min op (ow - op * k))
  { data := payloadOfCodes ((px.flatMap (fun s => (List.range 3).map (sampleCode fill s.1)))
      ++ List.replicate (32 - 3 * px.length) zp)
    p := px.any (·.2) }

def opCrop (x : Xe) : Option Xe :=
  let w := x.w
  let ow := fld w 51 45 + 1
  let oh := fld w 44 38 + 1
  let fill := fld w 37 30
  let op := fld w 29 26
  if op = 0 ∨ 10 < op then none else
  let p := paramsOf x
  let nTok := oh * ((ow + op - 1) / op)
  let x := { x with cycles := max (oh * ow / 2) nTok + 16 }
  let slot := (poppedFor x (wIqa w) 1).getD 0 {}
  let gather := poppedFor x (wIqb w) (oh * ow / 2)
  let x := touchFront (touchFront x (wIqa w) 1) (wIqb w) (oh * ow / 2)
  let x := { x with poison := slot.sb.p || checkFrames x }
  if !slot.sb.v then some { x with out := List.replicate nTok { data := fillByte p.zp, v := false } } else
  let samples := gather.flatMap (fun t => [(gatherSample t.data 0, t.sb.p), (gatherSample t.data 1, t.sb.p)])
  let x := xCnt x 12 ((samples.filter (fun s => sampleFill s.1)).length)
  some { x with out := (List.range oh).flatMap (fun r =>
    (List.range ((ow + op - 1) / op)).map (cropToken p.zp fill op ow ((samples.drop (ow * r)).take ow))) }

end Sys2Proof.Machine
end

