-- ==== Sys2Proof/Machine/Spectral.lean ====
section
/-! DEFINITION. The spectral steps XFORM (modes FR, FS, IS and IC) and SPEC (R171 to R175). -/

namespace Sys2Proof.Machine

/-! SB16 records in block memory (R171) -/

/-- Exponent, stored poison bit and element m of the record at word `base`. -/
def recExp (t : Tile) (o : Operand) (base : Int) : Int := signed 8 (byteOf t o base 0)
def recPoison (t : Tile) (o : Operand) (base : Int) : Bool := decide (byteOf t o base 1 % 2 = 1)
def recElem (t : Tile) (o : Operand) (base : Int) (m : Nat) : Cplx :=
  let n := nbits (word t o (base + 2 + ((m / 4 : Nat) : Int))) (32 * (m % 4) + 31) (32 * (m % 4))
  ⟨signed 16 (n % 65536), signed 16 (n / 65536)⟩

/-- Take note of reading the record at word `base`: its tokens' P and its stored poison bit (R171). -/
def touchRecord (x : Xe) (o : Operand) (base : Int) : Xe :=
  let x := touchWords x o ((wordRange 18).map (fun i => base + i))
  xPoison x (recPoison x.t o base)

/-- The 18 words of a record. -/
def recordBytes (v : SbVec) (p : Bool) : List Byte :=
  BitVec.ofNat 8 (unsigned 8 v.e) :: BitVec.ofNat 8 (b2n p) :: List.replicate 30 0
    ++ v.els.flatMap (fun e => leBytes 2 (unsigned 16 e.re) ++ leBytes 2 (unsigned 16 e.im))

def writeRecord (x : Xe) (o : Operand) (base : Int) (v : SbVec) (p : Bool) : Xe :=
  let bs := recordBytes v p
  (List.range 18).foldl (fun (x : Xe) (n : Nat) => writeWord x (opWord o (base + (n : Int))) (leAt bs (16 * n) 16)) x

/-- The 9 tokens of a record (R70). -/
def recordTokens (v : SbVec) : List Payload :=
  let bs := recordBytes v false
  (List.range 9).map (fun k => payloadOf (sliceBytes bs (32 * k) 32))

/-! XFORM (Table 7-1, R173) -/

/-- The 64 source terms of an output vector: element and exponent. -/
abbrev SrcTerms := List (Cplx × Int)

/-- One 64-point DFT: grid, and the exact sums on it. -/
def dft (forward : Bool) (src : SrcTerms) : Int × List Cplx :=
  let g := src.foldl (fun g s => max g (s.2 - 14)) (-1000)
  (g, (List.range 64).map (fun k =>
    sbSum g (src.zipIdx.map (fun s => (s.1.1, twiddle forward (s.2 * k), s.1.2 - 14)))))

/-- Straight and gathered source vectors of a block (R173). -/
def straight (t : Tile) (o : Operand) (n : Nat) : SrcTerms :=
  (List.range 64).map (fun m => (recElem t o (18 * (n : Int)) m, recExp t o (18 * (n : Int))))
def gathered (t : Tile) (o : Operand) (n : Nat) : SrcTerms :=
  (List.range 64).map (fun m => (recElem t o (18 * (m : Int)) n, recExp t o (18 * (m : Int))))

def touchBlock (x : Xe) (o : Operand) : Xe := (List.range 64).foldl (fun (x : Xe) (v : Nat) => touchRecord x o (18 * (v : Int))) x

/-- Write one renormalised vector and count a clamp at e = 127 (R72). -/
def writeVec (x : Xe) (o : Operand) (base : Int) (g : Int) (acc : List Cplx) : Xe :=
  let r := renormalise acc g
  xCnt (writeRecord x o base r.1 x.poison) 8 (b2n r.2)

/-- XFORM FR: one block row of one channel. -/
def opXformFr (x : Xe) : Option Xe :=
  let w := x.w
  let x := { x with cycles := 72 }
  if allMasked (tokensA x ++ tokensB x) then some x else
  let oa := opA x
  let wpp := fld w 33 30 + 1
  let ch := fld w 41 34
  let at_ := fun (j : Nat) => ((j * wpp + ch / 16 : Nat) : Int)
  let x := (List.range 64).foldl (fun x j => touchWord x oa (at_ j)) x
  let src : SrcTerms := (List.range 64).map (fun j => (⟨(byteOf x.t oa (at_ j) (ch % 16) : Int) - fld w 49 42, 0⟩, 0))
  let r := dft true src
  some (writeVec x (opC x) 0 r.1 r.2)

/-- The part FS and IS share: 64 output vectors. -/
def xformBlock (x : Xe) (forward : Bool) (src : Tile → Operand → Nat → SrcTerms) : Option Xe :=
  let x := { x with cycles := 4160 }
  if allMasked (tokensA x ++ tokensB x) then some x else
  let oa := opA x
  let oc := opC x
  let x := touchBlock x oa
  let t := x.t
  some ((List.range 64).foldl (fun (x : Xe) (n : Nat) =>
    let r := dft forward (src t oa n)
    writeVec x oc (18 * (n : Int)) r.1 r.2) x)

def opXformFs (x : Xe) : Option Xe := xformBlock x true gathered
def opXformIs (x : Xe) : Option Xe := xformBlock x false straight

/-- XFORM IC (R174): codes into the staging region. -/
def opXformIc (x : Xe) : Option Xe :=
  let w := x.w
  let nr := fld w 23 18
  let vc := fld w 17 12
  let ir0 := fld w 29 24
  let wpp := fld w 33 30 + 1
  let ch := fld w 41 34
  let x := { x with cycles := max (64 + 64 * nr) (64 + 2 * nr * vc) }
  if allMasked (tokensA x ++ tokensB x) then some x else
  let oa := opA x
  let oc := opC x
  let p := paramsOf x
  let x := touchBlock x oa
  let (x, bad) := factorCheck x [p.ma]
  let t := x.t
  let ns := (List.range nr).map (fun r =>
    let d := dft false (gathered t oa (ir0 + r))
    (d.2.take vc).map (fun c =>
      if bad then (p.zp : Int) else bounded p (scaledRounded c.re p.ma (d.1 + sfld w 49 42)) p.zp))
  let x := finishU8 x p.zp (!x.poison) ns.flatten
  some (ns.flatten.zipIdx.foldl (fun x e =>
    writePart x (16 * opWord oc ((e.2 * wpp + ch / 16 : Nat) : Int) + ch % 16) [BitVec.ofNat 8 (clampU8 e.1)]) x)

/-! SPEC (Table 7-3, R175) -/

/-- The terms of element k: record c of X times record c of W, and the bias record times 1. -/
def specTerms (t : Tile) (oa ob : Operand) (nc xcs wcs : Nat) (bias : Bool) (k : Nat) : List (Cplx × Cplx × Int) :=
  (List.range (nc + 1)).map (fun c =>
    (recElem t oa ((c * xcs : Nat) : Int) k, recElem t ob ((c * wcs : Nat) : Int) k,
      recExp t oa ((c * xcs : Nat) : Int) + recExp t ob ((c * wcs : Nat) : Int)))
  ++ (if bias then [((⟨1, 0⟩ : Cplx), recElem t ob (((nc + 1) * wcs : Nat) : Int) k, recExp t ob (((nc + 1) * wcs : Nat) : Int))]
      else [])

def opSpec (x : Xe) : Option Xe :=
  let w := x.w
  let bk := bankKey x (bit w 51)
  let bias := bit w 50
  let nc := fld w 48 39
  let xcs := fld w 38 28
  let wcs := fld w 27 17
  let terms := nc + 1 + b2n bias
  let x := { x with cycles := 17 * terms + 8, banksW := [bk] }
  if allMasked (tokensA x ++ tokensB x) then
    some { x with t := setBank x.t bk clearedBank, out := if bit w 49 then [] else maskedZero x }
  else
  let oa := opA x
  let ob := opB x
  let x := (List.range (nc + 1)).foldl (fun x c => touchRecord x oa ((c * xcs : Nat) : Int)) x
  let x := (List.range terms).foldl (fun x c => touchRecord x ob ((c * wcs : Nat) : Int)) x
  let g := (specTerms x.t oa ob nc xcs wcs bias 0).foldl (fun g s => max g s.2.2) (-1000)
  let acc := (List.range 64).map (fun k => sbSum g (specTerms x.t oa ob nc xcs wcs bias k))
  -- the bank's A48 hold the sums: real part of sum k in lane 2k, imaginary part in lane 2k + 1 (log 10)
  let b := setLanes clearedBank (fun l =>
    if l < 128 then (if l % 2 = 0 then (acc.getD (l / 2) ⟨0, 0⟩).re else (acc.getD (l / 2) ⟨0, 0⟩).im) else 0)
  let x := { x with t := setBank x.t bk (poisonBank b x.poison) }
  if bit w 49 then some (writeVec x (opC x) 0 g acc)
  else
    let r := renormalise acc g
    some { xCnt x 8 (b2n r.2) with out := (recordTokens r.1).map (fun d => { data := d }) }

end Sys2Proof.Machine
end

