-- ==== Sys2Proof/Machine/VectorOps.lean ====
section
/-! DEFINITION. The accumulator and requantisation steps ZPC, ACCIN, ACCOUT, RQ and ROTW (R121 to R124). -/

namespace Sys2Proof.Machine

/-- Corrected value of channel i (R80, R81): v − z · cs[i] + b[i], or with the row sums in place of cs. -/
def corrected (t : Tile) (ob : Operand) (b : Bank) (rs : Bool) (zin : Int) (i : Nat) (v : Int) : Int :=
  v - zin * (if rs then rowSum b i else colSum t ob i) + biasOf t ob i

/-- ZPC (Table 5-8, R121). -/
def opZpc (x : Xe) : Option Xe :=
  let bk := bankKey x (bit x.w 51)
  let x := { x with cycles := 16, banksR := [bk] }
  if allMasked (tokensA x ++ tokensB x) then some x else
  let ob := opB x
  let x := touchWords x ob (wordRange 16)
  let b := bankAt x.t bk
  let b' := setLanes b (fun l => corrected x.t ob b (bit x.w 50) (sfld x.w 49 34) (l / 16) (laneVal b l))
  some { x with t := setBank x.t bk (poisonBank b' x.poison) }

/-- Value k of token t of a bank image: channel t >> 2, pixel 4 (t & 3) + k (R122). -/
def accLane (tok k : Nat) : Nat := laneOf (tok / 4) (4 * (tok % 4) + k)

/-- The 64 payloads of a bank (R122). -/
def bankTokens (b : Bank) : List Payload :=
  (List.range 64).map (fun tok => BitVec.ofNat 256 (leNat ((List.range 4).flatMap (fun k =>
    leBytes 8 (a48Bytes (Tab.get 0 b.acc (accLane tok k)))))))

/-- ACCOUT (R122). Bits [48:8] are reserved. -/
def opAccout (x : Xe) : Option Xe :=
  let bk := bankKey x (bit x.w 51)
  let dst := bit x.w 50
  let x := { x with cycles := if dst then 128 else 64, banksR := [bk] }
  if allMasked (tokensA x ++ tokensB x) then some { x with out := if dst then [] else maskedZero x } else
  let b := bankAt x.t bk
  let bad := residueMismatch b
  let x := if bad then xRep x 0 0 else x
  let p := b.poison || bad
  if dst then
    let wp := (if bit x.w 49 then false else x.ctx.wp) || p
    let oc := opC x
    let x := { x with ctx := { x.ctx with wp := wp } }
    some ((bankTokens b).zipIdx.foldl (fun x e =>
      let x := writeWord x (opWord oc (2 * (e.2 : Int))) (fld e.1 127 0)
      writeWord x (opWord oc (2 * (e.2 : Int) + 1)) (fld e.1 255 128)) x)
  else
    let x := xPoison x p
    some { x with out := (bankTokens b).map (fun d => { data := d }) }

/-- ACCIN (R122). -/
def opAccin (x : Xe) : Option Xe :=
  let bk := bankKey x (bit x.w 51)
  let x := { x with cycles := 128, banksR := [bk] }
  if allMasked (tokensA x ++ tokensB x) then some x else
  let oa := opA x
  let x := touchWords x oa (wordRange 128)
  let x := xPoison x (bit x.w 50 && x.ctx.wp)
  let b := addLanes (bankAt x.t bk) (fun l => imageLane x.t oa 0 (l / 16) (l % 16))
  some { x with t := setBank x.t bk (poisonBank b x.poison) }

/-! RQ (Table 5-9, R123) -/

/-- The 16 channel values of pixel j of bank number n (0: BK, 1: the other) before requantisation. -/
def rqPixel (x : Xe) (n j : Nat) : List Int :=
  let src := bit x.w 44
  let b := bankAt x.t (bankKey x (bit x.w 51 != decide (n = 1)))
  let ob := opShift (opB x) (16 * n)
  let raw := (List.range 16).map (fun i => if src then imageLane x.t (opA x) (128 * n) i j else laneVal b (laneOf i j))
  let cv := if bit x.w 46 then raw.zipIdx.map (fun e => corrected x.t ob b (bit x.w 45) (sfld x.w 42 27) e.2 e.1) else raw
  if fld x.w 22 21 = 1 ∧ src = false then hadamard cv else cv

/-- u of R69 for an RQ step. -/
def rqU (x : Xe) : Int := if bit x.w 47 then 0 else xtU x.pl (fld x.w 49 48)

/-- z_out: ZP for U8 and U8R, Z16 for W16. -/
def rqZout (x : Xe) (p : Params) : Int := if fld x.w 26 25 = 1 then p.z16 else (p.zp : Int)

/-- The values n of one pixel: every channel after the narrowing bounds (R84). -/
def rqBounded (x : Xe) (p : Params) (n j : Nat) : List Int :=
  (rqPixel x n j).map (fun cv =>
    narrow (bit x.w 24) (bit x.w 23) p.lo p.hi (scaledRounded cv p.ma (rqU x) + rqZout x p))

/-- Pack 16 or 32 values of 16 bits, low byte first. -/
def halfBytes (cs : List Int) : List Byte := cs.flatMap (fun c => leBytes 2 (unsigned 16 c))

/-- Low and high tokens of a split-wide pair (R99): the high token is valid exactly when some high byte is non-zero. -/
def splitPair (cs : List Int) : List OutTok :=
  let his := cs.map (fun c => unsigned 16 c / 256)
  [{ data := payloadOf (cs.map (fun c => BitVec.ofNat 8 (unsigned 16 c))) },
   { data := payloadOfCodes his, v := his.any (fun h => decide (h ≠ 0)) }]

/-- The tokens of the drained pixels: 16 lists of 16 (PAIR = 0) or 32 (PAIR = 1) clamped codes. -/
def rqTokens (omode : Nat) (wide pair : Bool) (px : List (List Int)) : List OutTok :=
  if omode = 1 then
    px.flatMap (fun cs => (List.range (cs.length / 16)).map (fun k =>
      { data := payloadOf (halfBytes ((cs.drop (16 * k)).take 16)) }))
  else if omode = 2 then
    (if wide then px.flatMap splitPair
     else px.flatMap (fun cs => [{ data := payloadOf (cs.map (fun c => BitVec.ofInt 8 c)) }, { data := 0, v := false }]))
  else if pair then px.map (fun cs => { data := payloadOf (cs.map (fun c => BitVec.ofInt 8 c)) })
  else (List.range 8).map (fun k =>
    { data := payloadOf (((px.getD (2 * k) []) ++ (px.getD (2 * k + 1) [])).map (fun c => BitVec.ofInt 8 c)) })

/-- The masked units of an RQ step (R114). -/
def rqMasked (x : Xe) (p : Params) : List OutTok :=
  (List.range (noTokens x.pl x.w)).map (fun k =>
    if fld x.w 26 25 = 1 then { data := fillHalf p.z16, v := false }
    else if fld x.w 26 25 = 2 ∧ k % 2 = 1 then { data := 0, v := false }
    else { data := fillByte p.zp, v := false })

/-- Write a list of tokens to block memory, two words per token. -/
def writeTokens (x : Xe) (o : Operand) (ts : List OutTok) : Xe :=
  ts.zipIdx.foldl (fun x e =>
    let x := writeWord x (opWord o (2 * (e.2 : Int))) (fld e.1.data 127 0)
    writeWord x (opWord o (2 * (e.2 : Int) + 1)) (fld e.1.data 255 128)) x

def opRq (x : Xe) : Option Xe :=
  let w := x.w
  let pair := bit w 50
  let src := bit w 44
  let omode := fld w 26 25
  let nb := if pair then 2 else 1
  let keys := if pair then [bankKey x false, bankKey x true] else [bankKey x (bit w 51)]
  let rot := decide (fld w 22 21 = 1) && !src
  let x := { x with
    cycles := nb * (if src then 128 else 16 + (if rot then 16 else 0)), banksR := if src then [] else keys }
  if omode = 3 then none else
  let p := paramsOf x
  if allMasked (tokensA x ++ tokensB x) then some { x with out := if bit w 43 then [] else rqMasked x p } else
  let x := if bit w 46 then touchWords x (opB x) (wordRange (16 * nb)) else x
  let x := if src then xPoison (touchWords x (opA x) (wordRange (128 * nb))) x.ctx.wp
    else keys.foldl (fun x k =>
      let b := bankAt x.t k
      let bad := residueMismatch b
      xPoison (if bad then xRep x 0 0 else x) (b.poison || bad)) x
  let (x, bad) := factorCheck x [p.ma]
  let z := rqZout x p
  let ns := (List.range 16).map (fun j => (List.range nb).flatMap (fun n => rqBounded x p n j))
  let ns := if bad then ns.map (fun l => l.map (fun _ => z)) else ns
  let wide := decide (omode = 1) || (decide (omode = 2) && x.ctx.wide)
  let fmin : Int := if wide then -32768 else 0
  let fmax : Int := if wide then 32767 else 255
  let all := ns.flatten
  let sat := satCount fmin fmax all
  let x := if x.poison then x
    else if omode = 2 then
      let x := statAdd x z all
      { x with ctx := { x.ctx with satcnt := x.ctx.satcnt + sat } }
    else { statAdd x z all with satSub := if omode = 1 then 2 else 1, satN := sat }
  let toks := rqTokens omode x.ctx.wide pair (ns.map (fun l => l.map (clampI fmin fmax)))
  some (if bit w 43 then writeTokens x (opC x) toks else { x with out := toks })

/-! ROTW (R124) -/

/-- The rotated workspace as values: pixel j, channel k of g. -/
def rotwPixel (x : Xe) (g j : Nat) : List Int :=
  hadamard ((List.range g).map (fun k => imageLane x.t (opA x) ((128 * (k / 16) : Nat) : Int) (k % 16) j))

def opRotw (x : Xe) : Option Xe :=
  let gsel := fld x.w 51 50
  if gsel < 2 then none else
  let g := if gsel = 2 then 64 else 256
  let x := { x with cycles := (if gsel = 2 then 2 else 3) * 16 * g }
  if allMasked (tokensA x ++ tokensB x) then some x else
  let oa := opA x
  let before := x.reps.length
  let x := touchWords x oa (wordRange (8 * g))
  let unc := (x.reps.drop before).any (fun r => decide (r.1 = 1))
  let x := { x with ctx := { x.ctx with wp := x.ctx.wp || unc } }
  let px := (List.range 16).map (rotwPixel x g)
  let val : Nat → Nat → Nat := fun k j => unsigned 64 (toA48 ((px.getD j []).getD k 0)).toInt
  -- word n of the workspace holds elements 2n and 2n + 1 of its images
  some ((List.range (8 * g)).foldl (fun (x : Xe) (n : Nat) =>
    let e : Nat := 2 * (n % 128)
    let k : Nat := 16 * (n / 128) + e / 16
    writeWord x (opWord oa (n : Int)) (val k (e % 16) + 2 ^ 64 * val k (e % 16 + 1))) x)

end Sys2Proof.Machine
end

