-- ==== Sys2Proof/Machine/Sequencer.lean ====
section
/-! DEFINITION. The sequencer (R26 to R37): when a head step is eligible, what its issue does to the tile and the berth, what
its completion does, and the watchdog. -/

namespace Sys2Proof.Machine

/-! Eligibility (R31, R283, R285) -/

/-- A context as the sequencer sees it: where the berth has been halted, a context that its hurdle or hold lets go stops in HALT
(R320). -/
def seenCtx (y : Berth) (x : Context) : Context :=
  if y.haltDone && (decide (x.state = .ready) || decide (x.state = .wait)) then { x with state := .halt } else x

/-- The working record of the head step of context c of the running plane. -/
def workOf (d : Device) (b key c : Nat) : Xe :=
  let t := tileAt d b key
  let p := planeAt t t.run
  { t := t
    pl := p
    c := c
    ctx := seenCtx (berthAt d b) (ctxAt p c)
    w := stepAt p (ctxAt p c).ptr
    first := (berthAt d b).first }

/-- Opcodes of the array unit (Table 5-1), and of those that add into a bank. -/
def arrayOpcode (op : Nat) : Bool := [0x10, 0x11, 0x12, 0x13, 0x14, 0x2C, 0x40, 0x41].contains op
def bankOpcode (op : Nat) : Bool := [0x10, 0x11, 0x12, 0x13, 0x40, 0x41].contains op

/-- Take note of the sidebands of the n oldest tokens of a queue (R34, R35, R191). -/
def touchSides (x : Xe) (iq n : Nat) : Xe := (List.range n).foldl (fun y k => touchSide y iq (slotOf (iqAt x.pl iq) k)) x

/-- A frame whose outputs carry P = 1 (R89, R114, R132) marks the steps of its context; SCALE and SEMIT work for the next one. -/
def framePoison (x : Xe) : Bool := x.ctx.frameP && decide (wOpcode x.w ≠ 0x07) && decide (wOpcode x.w ≠ 0x05)

/-- What a step takes note of before its work: the sidebands of the tokens that it pops (R34, R35, R191), a frame whose outputs
carry P = 1, and the F check of R114. Of the popped tokens a bank takes poison from those alone that enter it as operands (R73),
and from an F mismatch. DEDUCED (log 102). -/
def readPopped (x : Xe) : Xe :=
  let y := touchSides (touchSides x (wIqa x.w) (naTokens x)) (wIqb x.w) (nbTokens x)
  let y := if bankOpcode (wOpcode x.w) then { y with poison := false } else xPoison y (framePoison x)
  if checkFrames x then xRep (xPoison y true) 9 0 else y

/-- The working record of a head step that has looked at its popped tokens. -/
def stepOf (d : Device) (b key c : Nat) : Xe := readPopped (workOf d b key c)

/-- Every counter of context c is at its load value. -/
def atLoad (p : Plane) (c : Nat) : Bool :=
  (List.range 4).all (fun n => decide ((counterAt p (4 * c + n)).value = (counterAt p (4 * c + n)).load))

/-- The head step starts a frame pass of its context (R195). -/
def atEntry (x : Xe) : Bool := decide (x.ctx.ptr = x.ctx.entry) && atLoad x.pl x.c

/-- HCTX of an A-tile at its entry under a hold (R285): FPC has reached G. -/
def headHeld (x : Xe) : Bool :=
  let a := x.pl.adapt
  a.aen && a.hold && decide (a.hctx = x.c) && atEntry x && decide (x.pl.swap.g.toNat ≤ x.pl.swap.fpc.toNat)

/-- The context may have its head step examined: not idle, halted or held by a hurdle (Table 2-7). HCTX that a hold keeps in
HURDLE is examined again, because its condition is a level (R285). -/
def examined (x : Xe) : Bool :=
  decide (x.ctx.state = .ready) || decide (x.ctx.state = .wait)
    || (decide (x.ctx.state = .hurdle) && x.t.inflight.all (fun f => !(f.hurdle && decide (f.ctx = x.c))))

/-- Tokens of OQ that the step reserves: none for a re-run's requantise steps (R198). -/
def reserveTokens (x : Xe) : Nat :=
  if x.ctx.wide && x.ctx.bandOpen && decide (wOpcode x.w = 0x21) then 0 else noTokens x.pl x.w

/-- The unit is free (R31, R116, R452). -/
def unitFree (u : ExecUnit) (fclk droop : Nat) (t : Tile) : Bool :=
  match u with
  | .none => true
  | .array => decide (droop ≤ fclk) && t.inflight.all (fun f => decide (f.unit ≠ .array) || decide (f.freeAt ≤ fclk))
  | _ => t.inflight.all (fun f => decide (f.unit ≠ u))

/-- ACTX issues only while it has budget (R283). -/
def budgetOk (x : Xe) : Bool :=
  !(x.pl.adapt.aen && decide (x.pl.adapt.actx = x.c)) || decide (0 < x.t.bud)

/-- Conditions 2 to 5 of R31, with the budget. -/
def eligible (u : ExecUnit) (fclk droop : Nat) (x : Xe) : Bool :=
  headInputs x.pl x.c && decide (reserveTokens x ≤ (oqAt x.pl (wOq x.w)).cred) && unitFree u fclk droop x.t && budgetOk x

/-- Condition 6 of R31: the bank order of R21. -/
def banksOk (u : ExecUnit) (x : Xe) : Bool :=
  match u with
  | .array => x.banksW.all (fun k => x.t.inflight.all (fun f => !f.banksR.contains k))
  | .vector => x.banksR.all (fun k => x.t.inflight.all (fun f => !f.banksW.contains k))
  | _ => true

/-! Issue -/

/-- The tokens of a step with their sidebands (R114, R35): moved ones keep theirs. On a WEIGHT queue L is 0 (R193). -/
def sealTokens (x : Xe) : List Token :=
  let n := x.out.length
  let weight := decide ((oqAt x.pl (wOq x.w)).kind = .weight)
  let last := lastFlag x && !weight
  x.out.zipIdx.map (fun e => match e.1.keep with
    | some sb =>
      { data := e.1.data
        sb := { sb with
          p := sb.p || e.1.p || (x.poison && decide (wOpcode x.w ≠ 0x11))
          l := sb.l && !weight } }
    | none =>
      { data := e.1.data
        sb :=
          { v := e.1.v
            p := e.1.p || x.poison || x.ctx.frameP
            l := last && decide (e.2 + 1 = n)
            s := e.1.s
            e := x.ctx.e
            f := x.ctx.f } })

/-- Reserve input tokens of a queue at issue (R32). -/
def reserveIn (p : Plane) (iq n : Nat) : Plane :=
  if n = 0 then p else setIq p iq { iqAt p iq with reserved := (iqAt p iq).reserved + n }

/-- Tokens that SCALE pops from SIQ. -/
def siqTokens (w : BitVec 128) : Nat := if wOpcode w = 0x05 ∧ bit w 47 then 1 else 0

/-- The record of the step in flight. -/
def flightOf (x0 x : Xe) (u : ExecUnit) (fclk : Nat) : InFlight :=
  { ctx := x.c
    unit := u
    start := fclk
    freeAt := fclk + (x.cycles - x.lastGroup)
    iqa := wIqa x.w
    na := naTokens x0
    iqb := wIqb x.w
    nb := nbTokens x0
    siq := fld x.w 51 48
    ns := siqTokens x.w
    oq := wOq x.w
    no := noTokens x0.pl x.w
    sent := x.out.length
    banksW := x.banksW
    banksR := x.banksR
    budget := x.pl.adapt.aen && decide (x.pl.adapt.actx = x.c)
    cycles := x.cycles
    satSub := x.satSub
    satN := x.satN
    band := x0.ctx.bandOpen
    hurdle := x.hurdle }

/-- The output of an open tile-band goes to its hold region (R102, R135). -/
def toHold (x : Xe) : Bool := decide (wOpcode x.w = 0x21) && !bit x.w 43 && x.ctx.bandOpen

/-- The plane after an issue: reservations, the next step, FPC of a head tile. -/
def issuedPlane (x0 x : Xe) (cto : Nat) : Plane :=
  let oq := wOq x.w
  let n := reserveTokens x0
  let p := setOq x.pl oq { oqAt x.pl oq with
    cred := (oqAt x.pl oq).cred - n
    reserved := (oqAt x.pl oq).reserved + n }
  let p := reserveIn (reserveIn (reserveIn p (wIqa x.w) (naTokens x0)) (wIqb x.w) (nbTokens x0)) (fld x.w 51 48) (siqTokens x.w)
  let a := p.adapt
  let p := if a.aen && decide (a.hctx = x.c) && atEntry x0 then { p with swap := { p.swap with fpc := p.swap.fpc + 1 } } else p
  let nx := if x.rerun then (p, x.ctx.ptr) else issueNext p x.w
  setCtx nx.1 x.c { x.ctx with
    ptr := nx.2
    state := if x.hurdle then .hurdle else .ready
    waitFrom := cto }

/-- The tile after an issue. -/
def issuedTile (x0 x : Xe) (u : ExecUnit) (fclk cto : Nat) : Tile :=
  let arrival := if x.hurdle then
      let k := 256 * (match x.ctx.scope with | .pipeline => 0 | .berth => 1 | .module => 2) + x.ctx.hid
      Tab.set x.t.arrival k (Tab.get 0 x.t.arrival k ||| 2 ^ x.c)
    else x.t.arrival
  { setPlane x.t x.t.run (issuedPlane x0 x cto) with
    inflight := x.t.inflight ++ [flightOf x0 x u fclk]
    lastCtx := x.c
    issued := true
    arrival := arrival }

/-- A hurdle's first arrival starts its timeout (R215). -/
def hurdleStart (d : Device) (b : Nat) (scope : Scope) (hid : Nat) : Device :=
  let mark := fun (h : Hurdle) => if h.started then h else { h with started := true, since := d.time }
  match scope with
  | .module => { d with moduleHurdles := Tab.modify {} d.moduleHurdles hid mark }
  | .berth => modBerth d b (fun x => { x with hurdles := Tab.modify {} x.hurdles (256 + hid) mark })
  | .pipeline => modBerth d b (fun x => { x with hurdles := Tab.modify {} x.hurdles hid mark })

/-- Reports, counters, mirror writes and posts of a step (R41, R97, R98, R104, R109, R278, R280). -/
def stepEffects (d : Device) (b key : Nat) (x : Xe) : Device :=
  let tg := physTag d b key
  let d := x.reps.foldl (fun d r => berthReport d b r.1 tg tg r.2) d
  let d := x.cnts.foldl (fun d c => berthCount d b c.1 c.2) d
  let d := x.acnts.foldl (fun d c => odAdd d (0x8810 + b) c.1 c.2) d
  let base := x.t.run * 2 ^ 26
  modBerth d b (fun y => { y with
    mirror := x.mirror.foldl (fun m w => Tab.set m (base + 1024 * w.tid + w.stream) w.entry) y.mirror
    reruns := if x.rerun then y.reruns ++ [(key, x.c, x.ctx.stream, x.ctx.f.toNat)] else y.reruns
    adapt := { y.adapt with
      gradSum := y.adapt.gradSum + x.gradSum
      bad := y.adapt.bad || x.adaptBad }
    idleSince := d.time })

/-- Held input units of a released tile-band leave their rings (R103). -/
def popHeld (d : Device) (b key hmask : Nat) : Device :=
  (List.range 16).foldl (fun d iq =>
    let t := tileAt d b key
    let n := (iqAt (planeAt t t.run) iq).held
    if hmask / 2 ^ iq % 2 = 1 ∧ 0 < n then
      let d := modTile d b key (fun t => setPlane t t.run (setIq (planeAt t t.run) iq { iqAt (planeAt t t.run) iq with held := 0 }))
      popRing d b key t.run iq n
    else d) d

/-- Held input units of a re-run band go back to the front of their rings (R103). -/
def rewindHeld (p : Plane) (hmask : Nat) : Plane :=
  { p with iq := List.map (fun (q : Nat × InQueue) =>
      if hmask / 2 ^ q.1 % 2 = 1 then (q.1, { q.2 with held := 0 }) else q) p.iq }

/-! Completion (R32) -/

/-- The popped tokens of one queue at completion: held back in an open tile-band's input, else popped. -/
def retireQueue (d : Device) (b key k : Nat) (f : InFlight) (iq n : Nat) : Device :=
  let p := planeAt (tileAt d b key) k
  let x := ctxAt p f.ctx
  if f.band && x.bandOpen && decide (x.hmask / 2 ^ iq % 2 = 1) then
    setTile d b key (setPlane (tileAt d b key) k (setIq p iq { iqAt p iq with
      reserved := (iqAt p iq).reserved - n
      held := (iqAt p iq).held + n }))
  else popRing d b key k iq n

/-- A step completes: its units are popped, its budget is charged and its saturated elements are counted. -/
def finishStep (d : Device) (b key : Nat) (f : InFlight) : Device :=
  let k := (tileAt d b key).run
  let d := modTile d b key (fun t => { t with
    inflight := t.inflight.erase f
    bud := if f.budget then t.bud - f.cycles else t.bud })
  let d := retireQueue d b key k f f.iqa f.na
  let d := retireQueue d b key k f f.iqb f.nb
  let d := retireQueue d b key k f f.siq f.ns
  if f.satSub = 0 then d else berthCount d b f.satSub f.satN

/-- The issue of a step whose work is done: x0 is the record before it and x after it. -/
def commitStep (d : Device) (b key : Nat) (u : ExecUnit) (x0 x : Xe) : Device :=
  let fclk := (berthAt d b).fclk
  let toks := sealTokens x
  let hold := toHold x
  let x := if hold then holdTokens { x with ctx := { x.ctx with holdOq := wOq x.w } } toks else x
  let hm := x0.ctx.hmask
  let x := if x.rerun then { x with pl := rewindHeld x.pl hm } else x
  let d := setTile d b key (issuedTile x0 x u fclk (berthAt d b).cto)
  let d := stepEffects d b key x
  let d := if hold then d else toks.foldl (emitToken b key x.t.run (wOq x.w)) d
  let d := x.release.foldl (emitToken b key x.t.run x.ctx.holdOq) d
  let d := if wOpcode x.w = 0x04 ∧ !x.rerun then popHeld d b key hm else d
  if x.hurdle then hurdleStart d b x.ctx.scope x.ctx.hid
  else if u = .none then finishStep d b key (flightOf x0 x u fclk)
  else d

/-- The context's state alone changes. -/
def noteState (d : Device) (b key c : Nat) (st : CtxState) : Device :=
  modTile d b key (fun t => setPlane t t.run (setCtx (planeAt t t.run) c { ctxAt (planeAt t t.run) c with state := st }))

/-! The order of the contexts (R37) -/

/-- A step form: opcode and unit of Table 5-1, its submode, what it needs beyond R31, and its work. -/
structure StepRow where
  opcode : Nat
  unit : ExecUnit
  mode : Xe → Bool
  ready : Xe → Bool
  op : Xe → Option Xe

def anyMode (_ : Xe) : Bool := true
def alwaysReady (_ : Xe) : Bool := true
def modeAt (hi lo n : Nat) (x : Xe) : Bool := decide (fld x.w hi lo = n)

/-! The steps without a unit -/

def opNop (x : Xe) : Option Xe := some x

/-- WAIT (R141): no earlier step of the context is on a selected unit. -/
def waitReady (x : Xe) : Bool :=
  x.t.inflight.all (fun f => decide (f.ctx ≠ x.c) || !(
    (bit x.w 51 && decide (f.unit = .array)) || (bit x.w 50 && decide (f.unit = .vector)) || (bit x.w 49 && decide (f.unit = .mover))))

/-- BCHK (R136, R104): earlier vector steps are done, and a re-run's post is acknowledged. -/
def bchkReady (x : Xe) : Bool :=
  x.t.inflight.all (fun f => decide (f.ctx ≠ x.c) || decide (f.unit ≠ .vector)) && !(x.ctx.wide && x.ctx.ackWait)

/-- HURDLE (R140): the context enters the HURDLE state for [49:42] HID of scope [51:50]. -/
def opHurdle (x : Xe) : Option Xe :=
  let sc := fld x.w 51 50
  if sc = 3 then none
  else some { x with
    hurdle := true
    ctx := { x.ctx with
      hid := fld x.w 49 42
      scope := if sc = 0 then .pipeline else if sc = 1 then .berth else .module } }

/-- The rows of Table 5-1. -/
def controlRows : List StepRow :=
  [⟨0x00, .none, anyMode, alwaysReady, opNop⟩, ⟨0x01, .none, anyMode, waitReady, opNop⟩, ⟨0x02, .none, anyMode, alwaysReady, opHurdle⟩,
   ⟨0x03, .none, anyMode, alwaysReady, opBand⟩, ⟨0x04, .none, anyMode, bchkReady, opBchk⟩,
   ⟨0x05, .vector, anyMode, scaleReady, opScale⟩, ⟨0x06, .vector, modeAt 51 51 0, alwaysReady, opStatSend⟩,
   ⟨0x06, .vector, modeAt 51 51 1, alwaysReady, opStatUpdate⟩, ⟨0x07, .vector, anyMode, semitReady, opSemit⟩,
   ⟨0x08, .mover, anyMode, alwaysReady, opSend⟩, ⟨0x09, .mover, anyMode, alwaysReady, opCopy⟩, ⟨0x0A, .mover, anyMode, alwaysReady, opPass⟩,
   ⟨0x30, .mover, anyMode, alwaysReady, opSteer⟩, ⟨0x31, .mover, anyMode, alwaysReady, opMerge⟩, ⟨0x33, .mover, anyMode, alwaysReady, opCrop⟩]

def arrayRows : List StepRow :=
  [⟨0x10, .array, anyMode, alwaysReady, opConv⟩, ⟨0x11, .array, anyMode, alwaysReady, opMatw⟩, ⟨0x12, .array, anyMode, alwaysReady, opDwconv⟩,
   ⟨0x13, .array, anyMode, alwaysReady, opMata⟩, ⟨0x14, .array, anyMode, alwaysReady, opSpec⟩,
   ⟨0x2C, .array, modeAt 51 50 0, alwaysReady, opXformFr⟩, ⟨0x2C, .array, modeAt 51 50 1, alwaysReady, opXformFs⟩,
   ⟨0x2C, .array, modeAt 51 50 2, alwaysReady, opXformIs⟩, ⟨0x2C, .array, modeAt 51 50 3, alwaysReady, opXformIc⟩,
   ⟨0x40, .array, anyMode, alwaysReady, opBwd⟩, ⟨0x41, .array, anyMode, alwaysReady, opWgrad⟩]

def vectorRows : List StepRow :=
  [⟨0x20, .vector, anyMode, alwaysReady, opZpc⟩, ⟨0x21, .vector, anyMode, alwaysReady, opRq⟩, ⟨0x22, .vector, anyMode, alwaysReady, opAccin⟩,
   ⟨0x23, .vector, anyMode, alwaysReady, opAccout⟩, ⟨0x24, .vector, anyMode, alwaysReady, opRotw⟩, ⟨0x25, .vector, anyMode, alwaysReady, opTfn⟩,
   ⟨0x26, .vector, anyMode, alwaysReady, opElt⟩, ⟨0x27, .vector, modeAt 51 51 0, alwaysReady, opPoolMax⟩,
   ⟨0x27, .vector, modeAt 51 51 1, alwaysReady, opPoolAverage⟩, ⟨0x28, .vector, modeAt 51 50 0, alwaysReady, opGpoolMaxAcc⟩,
   ⟨0x28, .vector, modeAt 51 50 1, alwaysReady, opGpoolSumAcc⟩, ⟨0x28, .vector, modeAt 51 50 2, alwaysReady, opGpoolEmitMax⟩,
   ⟨0x28, .vector, modeAt 51 50 3, alwaysReady, opGpoolEmitAvg⟩, ⟨0x29, .vector, anyMode, alwaysReady, opResize⟩,
   ⟨0x2A, .vector, anyMode, alwaysReady, opSoftmax⟩, ⟨0x2B, .vector, anyMode, alwaysReady, opLnorm⟩, ⟨0x32, .vector, anyMode, alwaysReady, opSelect⟩,
   ⟨0x42, .vector, modeAt 49 49 0, alwaysReady, opOpt⟩, ⟨0x42, .vector, modeAt 49 49 1, alwaysReady, opOptFin⟩,
   ⟨0x43, .vector, modeAt 51 50 0, alwaysReady, opLossCe⟩, ⟨0x43, .vector, modeAt 51 50 1, alwaysReady, opLossBce⟩,
   ⟨0x43, .vector, modeAt 51 50 2, alwaysReady, opLossSmoothL1⟩, ⟨0x43, .vector, modeAt 51 50 3, alwaysReady, opLossDrain⟩]

def stepRows : List StepRow := controlRows ++ arrayRows ++ vectorRows

/-- The head step of context c could issue now: every condition of R31 and of its opcode holds. -/
def couldIssue (d : Device) (b key c : Nat) : Bool :=
  let x := stepOf d b key c
  examined x && !headHeld x &&
    (match stepRows.find? (fun r => decide (wOpcode x.w = r.opcode) && r.mode x) with
      | none => false
      | some r => eligible r.unit (berthAt d b).fclk (berthAt d b).droopUntil x && r.ready x
          && ((r.op x).map (banksOk r.unit)).getD false)

/-- Places of a context in the search order that starts after the context that issued last. -/
def searchPlace (last c : Nat) : Nat := (c + 7 - last) % 4

/-- No context before c in the search order could issue (R37). -/
def inTurn (d : Device) (b key c : Nat) : Bool :=
  let last := (tileAt d b key).lastCtx
  (List.range 4).all (fun n => decide (searchPlace last c ≤ searchPlace last n) || !couldIssue d b key n)

/-- The command of a step row. Where the running head step of the context is not such a step, nothing changes (assumption
log 1). Where it is and lacks something, its context waits; HCTX under a hold enters HURDLE (R285). Where a context that comes
before it in the search order could issue, the sequencer does not choose it (R37): nothing changes. -/
def stepCommand (opcode : Nat) (u : ExecUnit) (mode ready : Xe → Bool) (op : Xe → Option Xe) (t : TileId) (c : Fin 4) (s : State) :
    Host.Outcome State Fault Refusal :=
  let d := s.dev
  let b := t.b.val
  let key := keyOf d t
  let x := stepOf d b key c.val
  let y := berthAt d b
  if !(berthLive d b && examined x && decide (wOpcode x.w = opcode) && decide (wCtx x.w = c.val) && mode x) then .next s
  else if headHeld x then .next { s with dev := hurdleStart (noteState d b key c.val .hurdle) b .berth x.pl.adapt.shid }
  else if !(eligible u y.fclk y.droopUntil x && ready x) then .next { s with dev := noteState d b key c.val .wait }
  else match op x with
    | none => .refused .reservedField
    | some z =>
      if !banksOk u z then .next { s with dev := noteState d b key c.val .wait }
      else if inTurn d b key c.val then .next { s with dev := commitStep d b key u x z }
      else .next s

/-! The commands -/

def execNop (t : TileId) (c : Fin 4) (s : State) : Host.Outcome State Fault Refusal :=
  stepCommand 0x00 .none anyMode alwaysReady opNop t c s
def execWait (t : TileId) (c : Fin 4) (s : State) : Host.Outcome State Fault Refusal :=
  stepCommand 0x01 .none anyMode waitReady opNop t c s
def execHurdle (t : TileId) (c : Fin 4) (s : State) : Host.Outcome State Fault Refusal :=
  stepCommand 0x02 .none anyMode alwaysReady opHurdle t c s
def execBand (t : TileId) (c : Fin 4) (s : State) : Host.Outcome State Fault Refusal :=
  stepCommand 0x03 .none anyMode alwaysReady opBand t c s
def execBchk (t : TileId) (c : Fin 4) (s : State) : Host.Outcome State Fault Refusal :=
  stepCommand 0x04 .none anyMode bchkReady opBchk t c s

def execScale (t : TileId) (c : Fin 4) (s : State) : Host.Outcome State Fault Refusal :=
  stepCommand 0x05 .vector anyMode scaleReady opScale t c s
def execStatSend (t : TileId) (c : Fin 4) (s : State) : Host.Outcome State Fault Refusal :=
  stepCommand 0x06 .vector (modeAt 51 51 0) alwaysReady opStatSend t c s
def execStatUpdate (t : TileId) (c : Fin 4) (s : State) : Host.Outcome State Fault Refusal :=
  stepCommand 0x06 .vector (modeAt 51 51 1) alwaysReady opStatUpdate t c s
def execSemit (t : TileId) (c : Fin 4) (s : State) : Host.Outcome State Fault Refusal :=
  stepCommand 0x07 .vector anyMode semitReady opSemit t c s
def execSend (t : TileId) (c : Fin 4) (s : State) : Host.Outcome State Fault Refusal :=
  stepCommand 0x08 .mover anyMode alwaysReady opSend t c s
def execCopy (t : TileId) (c : Fin 4) (s : State) : Host.Outcome State Fault Refusal :=
  stepCommand 0x09 .mover anyMode alwaysReady opCopy t c s
def execPass (t : TileId) (c : Fin 4) (s : State) : Host.Outcome State Fault Refusal :=
  stepCommand 0x0A .mover anyMode alwaysReady opPass t c s
def execConv (t : TileId) (c : Fin 4) (s : State) : Host.Outcome State Fault Refusal :=
  stepCommand 0x10 .array anyMode alwaysReady opConv t c s
def execMatw (t : TileId) (c : Fin 4) (s : State) : Host.Outcome State Fault Refusal :=
  stepCommand 0x11 .array anyMode alwaysReady opMatw t c s
def execDwconv (t : TileId) (c : Fin 4) (s : State) : Host.Outcome State Fault Refusal :=
  stepCommand 0x12 .array anyMode alwaysReady opDwconv t c s
def execMata (t : TileId) (c : Fin 4) (s : State) : Host.Outcome State Fault Refusal :=
  stepCommand 0x13 .array anyMode alwaysReady opMata t c s
def execSpec (t : TileId) (c : Fin 4) (s : State) : Host.Outcome State Fault Refusal :=
  stepCommand 0x14 .array anyMode alwaysReady opSpec t c s
def execZpc (t : TileId) (c : Fin 4) (s : State) : Host.Outcome State Fault Refusal :=
  stepCommand 0x20 .vector anyMode alwaysReady opZpc t c s
def execRq (t : TileId) (c : Fin 4) (s : State) : Host.Outcome State Fault Refusal :=
  stepCommand 0x21 .vector anyMode alwaysReady opRq t c s
def execAccin (t : TileId) (c : Fin 4) (s : State) : Host.Outcome State Fault Refusal :=
  stepCommand 0x22 .vector anyMode alwaysReady opAccin t c s
def execAccout (t : TileId) (c : Fin 4) (s : State) : Host.Outcome State Fault Refusal :=
  stepCommand 0x23 .vector anyMode alwaysReady opAccout t c s
def execRotw (t : TileId) (c : Fin 4) (s : State) : Host.Outcome State Fault Refusal :=
  stepCommand 0x24 .vector anyMode alwaysReady opRotw t c s
def execTfn (t : TileId) (c : Fin 4) (s : State) : Host.Outcome State Fault Refusal :=
  stepCommand 0x25 .vector anyMode alwaysReady opTfn t c s
def execElt (t : TileId) (c : Fin 4) (s : State) : Host.Outcome State Fault Refusal :=
  stepCommand 0x26 .vector anyMode alwaysReady opElt t c s
def execPoolMax (t : TileId) (c : Fin 4) (s : State) : Host.Outcome State Fault Refusal :=
  stepCommand 0x27 .vector (modeAt 51 51 0) alwaysReady opPoolMax t c s
def execPoolAverage (t : TileId) (c : Fin 4) (s : State) : Host.Outcome State Fault Refusal :=
  stepCommand 0x27 .vector (modeAt 51 51 1) alwaysReady opPoolAverage t c s
def execGpoolMaxAccumulate (t : TileId) (c : Fin 4) (s : State) : Host.Outcome State Fault Refusal :=
  stepCommand 0x28 .vector (modeAt 51 50 0) alwaysReady opGpoolMaxAcc t c s
def execGpoolSumAccumulate (t : TileId) (c : Fin 4) (s : State) : Host.Outcome State Fault Refusal :=
  stepCommand 0x28 .vector (modeAt 51 50 1) alwaysReady opGpoolSumAcc t c s
def execGpoolEmitMax (t : TileId) (c : Fin 4) (s : State) : Host.Outcome State Fault Refusal :=
  stepCommand 0x28 .vector (modeAt 51 50 2) alwaysReady opGpoolEmitMax t c s
def execGpoolEmitAverage (t : TileId) (c : Fin 4) (s : State) : Host.Outcome State Fault Refusal :=
  stepCommand 0x28 .vector (modeAt 51 50 3) alwaysReady opGpoolEmitAvg t c s
def execResize (t : TileId) (c : Fin 4) (s : State) : Host.Outcome State Fault Refusal :=
  stepCommand 0x29 .vector anyMode alwaysReady opResize t c s
def execSoftmax (t : TileId) (c : Fin 4) (s : State) : Host.Outcome State Fault Refusal :=
  stepCommand 0x2A .vector anyMode alwaysReady opSoftmax t c s
def execLnorm (t : TileId) (c : Fin 4) (s : State) : Host.Outcome State Fault Refusal :=
  stepCommand 0x2B .vector anyMode alwaysReady opLnorm t c s
def execXformFr (t : TileId) (c : Fin 4) (s : State) : Host.Outcome State Fault Refusal :=
  stepCommand 0x2C .array (modeAt 51 50 0) alwaysReady opXformFr t c s
def execXformFs (t : TileId) (c : Fin 4) (s : State) : Host.Outcome State Fault Refusal :=
  stepCommand 0x2C .array (modeAt 51 50 1) alwaysReady opXformFs t c s
def execXformIs (t : TileId) (c : Fin 4) (s : State) : Host.Outcome State Fault Refusal :=
  stepCommand 0x2C .array (modeAt 51 50 2) alwaysReady opXformIs t c s
def execXformIc (t : TileId) (c : Fin 4) (s : State) : Host.Outcome State Fault Refusal :=
  stepCommand 0x2C .array (modeAt 51 50 3) alwaysReady opXformIc t c s
def execSteer (t : TileId) (c : Fin 4) (s : State) : Host.Outcome State Fault Refusal :=
  stepCommand 0x30 .mover anyMode alwaysReady opSteer t c s
def execMerge (t : TileId) (c : Fin 4) (s : State) : Host.Outcome State Fault Refusal :=
  stepCommand 0x31 .mover anyMode alwaysReady opMerge t c s
def execSelect (t : TileId) (c : Fin 4) (s : State) : Host.Outcome State Fault Refusal :=
  stepCommand 0x32 .vector anyMode alwaysReady opSelect t c s
def execCrop (t : TileId) (c : Fin 4) (s : State) : Host.Outcome State Fault Refusal :=
  stepCommand 0x33 .mover anyMode alwaysReady opCrop t c s
def execBwd (t : TileId) (c : Fin 4) (s : State) : Host.Outcome State Fault Refusal :=
  stepCommand 0x40 .array anyMode alwaysReady opBwd t c s
def execWgrad (t : TileId) (c : Fin 4) (s : State) : Host.Outcome State Fault Refusal :=
  stepCommand 0x41 .array anyMode alwaysReady opWgrad t c s
def execOpt (t : TileId) (c : Fin 4) (s : State) : Host.Outcome State Fault Refusal :=
  stepCommand 0x42 .vector (modeAt 49 49 0) alwaysReady opOpt t c s
def execOptFin (t : TileId) (c : Fin 4) (s : State) : Host.Outcome State Fault Refusal :=
  stepCommand 0x42 .vector (modeAt 49 49 1) alwaysReady opOptFin t c s
def execLossCe (t : TileId) (c : Fin 4) (s : State) : Host.Outcome State Fault Refusal :=
  stepCommand 0x43 .vector (modeAt 51 50 0) alwaysReady opLossCe t c s
def execLossBce (t : TileId) (c : Fin 4) (s : State) : Host.Outcome State Fault Refusal :=
  stepCommand 0x43 .vector (modeAt 51 50 1) alwaysReady opLossBce t c s
def execLossSmoothL1 (t : TileId) (c : Fin 4) (s : State) : Host.Outcome State Fault Refusal :=
  stepCommand 0x43 .vector (modeAt 51 50 2) alwaysReady opLossSmoothL1 t c s
def execLossDrain (t : TileId) (c : Fin 4) (s : State) : Host.Outcome State Fault Refusal :=
  stepCommand 0x43 .vector (modeAt 51 50 3) alwaysReady opLossDrain t c s

/-! STEP_COMPLETE, SEQUENCER_WATCHDOG, RERUN_ACK, BUDGET_REFILL -/

/-- The oldest step of a context in flight on a unit; a HURDLE step completes with its hurdle instead. -/
def oldestFlight (t : Tile) (c : Nat) (u : ExecUnit) : Option InFlight :=
  t.inflight.find? (fun f => decide (f.ctx = c) && decide (f.unit = u) && !f.hurdle)

/-- R32: exactly NO units have been sent. A step of which that is not so does not complete. DEDUCED (log 103). -/
def confirmed (f : InFlight) : Bool := decide (f.sent = f.no)

def execStepComplete (t : TileId) (c : Fin 4) (u : ExecUnit) (s : State) : Host.Outcome State Fault Refusal :=
  onDev (fun d =>
    let key := keyOf d t
    match oldestFlight (tileAt d t.b.val key) c.val u with
    | none => d
    | some f => if berthLive d t.b.val && confirmed f then finishStep d t.b.val key f else d) s

/-- R36: 2^20 FCLK without completing, reported once for a step. -/
def watchdogFlight (t : Tile) (c : Nat) (u : ExecUnit) (fclk : Nat) : Option InFlight :=
  t.inflight.find? (fun f => decide (f.ctx = c) && decide (f.unit = u) && !f.hurdle && !f.watched && decide (f.start + 1048576 ≤ fclk))

def execSequencerWatchdog (t : TileId) (c : Fin 4) (u : ExecUnit) (s : State) : Host.Outcome State Fault Refusal :=
  onDev (fun d =>
    let b := t.b.val
    let key := keyOf d t
    match watchdogFlight (tileAt d b key) c.val u (berthAt d b).fclk with
    | none => d
    | some f =>
      let d := modTile d b key (fun tl => { tl with inflight := tl.inflight.map (fun g => if g = f then { g with watched := true } else g) })
      berthReport d b 4 (physTag d b key) (physTag d b key) c.val) s

/-- R104: the queue manager's acknowledgement reaches the context. -/
def execRerunAck (t : TileId) (c : Fin 4) (s : State) : Host.Outcome State Fault Refusal :=
  onDev (fun d =>
    let b := t.b.val
    let key := keyOf d t
    if (berthAt d b).rerunAcks.contains (key, c.val) then
      modTile (modBerth d b (fun x => { x with rerunAcks := x.rerunAcks.erase (key, c.val) })) b key
        (fun tl => setPlane tl tl.run (setCtx (planeAt tl tl.run) c.val { ctxAt (planeAt tl tl.run) c.val with ackWait := false }))
    else d) s

/-- R283: BUD = min(BUD + ADQ, ADQ). -/
def execBudgetRefill (t : TileId) (s : State) : Host.Outcome State Fault Refusal :=
  onDev (fun d => if berthLive d t.b.val then
      modTile d t.b.val (keyOf d t) (fun tl =>
        let adq : Int := ((planeAt tl tl.run).adapt.adq : Int)
        { tl with bud := min (tl.bud + adq) adq })
    else d) s

end Sys2Proof.Machine
end

