-- ==== Sys2Proof/Machine/Hurdles.lean ====
section
/-! DEFINITION. Hurdles (R212 to R215, R284, R285): arrival of pursers, completion and timeout. -/

namespace Sys2Proof.Machine

def scopeCode : Scope → Nat
  | .pipeline => 0
  | .berth => 1
  | .module => 2

/-- Berths that a hurdle seen from berth b covers (R212). -/
def hurdleBerths (d : Device) (b : Nat) : Scope → List Nat
  | .pipeline => pipelineBerths d b (runSlot d b)
  | .berth => [b]
  | .module => [0, 1, 2, 3]

/-- Of them, those with a running plane: only its table counts (R212). -/
def hurdleRunning (d : Device) (b : Nat) (scope : Scope) : List Nat := (hurdleBerths d b scope).filter (fun x => decide (runSlot d x < 4))

/-- State of the hurdle as berth b keeps it; module hurdles are the module's. -/
def hurdleAt (d : Device) (b : Nat) (scope : Scope) (hid : Nat) : Hurdle :=
  match scope with
  | .module => Tab.get {} d.moduleHurdles hid
  | _ => Tab.get {} (berthAt d b).hurdles (256 * scopeCode scope + hid)

def setHurdle (d : Device) (b : Nat) (scope : Scope) (hid : Nat) (h : Hurdle) : Device :=
  match scope with
  | .module => { d with moduleHurdles := Tab.set d.moduleHurdles hid h }
  | _ => modBerth d b (fun x => { x with hurdles := Tab.set x.hurdles (256 * scopeCode scope + hid) h })

/-- The tile is a member of its berth's swap hurdle under this HID (R285). -/
def isSwapTile (t : Tile) (scope : Scope) (hid : Nat) : Bool :=
  decide (scope = .berth) && (planeAt t t.run).adapt.aen && decide ((planeAt t t.run).adapt.shid = hid)

/-- A tile reports arrival: every member context has arrived, and for a swap hurdle it is held. -/
def tileArrived (t : Tile) (scope : Scope) (hid : Nat) : Bool :=
  if isSwapTile t scope hid then tileHeld t
  else
    let members := Tab.get 0 (planeAt t t.run).hurdles hid
    decide (Tab.get 0 t.arrival (256 * scopeCode scope + hid) &&& members = members)

/-- Some context or purser has arrived. -/
def someArrived (d : Device) (b : Nat) (scope : Scope) (hid : Nat) : Bool :=
  (hurdleRunning d b scope).any (fun x => (positions d x).any (fun p =>
    let t := tileAt d x p.2.2
    if isSwapTile t scope hid then tileHeld t else decide (0 < Tab.get 0 t.arrival (256 * scopeCode scope + hid))))

/-- Pursers that are members have arrived: P4 of a module hurdle, the berth's purser of a berth hurdle that declares it. -/
def pursersArrived (d : Device) (b : Nat) (scope : Scope) (hid : Nat) : Bool :=
  match scope with
  | .pipeline => true
  | .berth => !(hurdleAt d b scope hid).withPurser || (hurdleAt d b scope hid).purserArrived
  | .module => (hurdleAt d b scope hid).purserArrived

/-- First tile that has not reported arrival, by berth, column and row. -/
def firstMissing (d : Device) (b : Nat) (scope : Scope) (hid : Nat) : Option (Nat × Nat × Nat) :=
  ((hurdleRunning d b scope).flatMap (fun x => (positions d x).map (fun p => (x, p.1, p.2.1, p.2.2)))).findSome? (fun p =>
    if tileArrived (tileAt d p.1 p.2.2.2) scope hid then none else some (p.1, p.2.1, p.2.2.1))

/-! Pursers -/

/-- Firmware work tied to a purser's arrival is done (R212): the update's last sample has been sent, or the hold thresholds
are written. -/
def workDone (d : Device) (b : Nat) (h : Hurdle) : Bool :=
  let u := runBind d b
  if h.tied = 1 then (adaptOf d b).updating && (endAt d u.sampleEnd).tokens.isEmpty && (endAt d u.targetEnd).tokens.isEmpty
  else if h.tied = 2 then (adaptOf d b).pendingEpoch.isSome && (((headOf d b).map (fun x =>
      (headKeys d b x.tiles).all (fun k => let t := tileAt d b k; (planeAt t t.run).adapt.hold))).getD false)
  else true

/-- Berths whose declaration of a module hurdle ties work to P4. -/
def moduleTied (d : Device) (hid : Nat) : List Nat :=
  (List.range 4).filter (fun b => decide ((Tab.get {} (berthAt d b).hurdles (512 + hid)).tied ≠ 0))

/-- HURDLE_PORT_WRITE: P0 to P3 at their berth's hurdles, P4 at module hurdles. -/
def hurdlePort (d : Device) (core : Nat) (scope : Scope) (hid : Nat) : Device :=
  match scope with
  | .pipeline => d
  | .berth =>
    let h := hurdleAt d core scope hid
    if core < 4 ∧ h.withPurser ∧ workDone d core h then
      hurdleStart (setHurdle d core scope hid { h with purserArrived := true }) core scope hid
    else d
  | .module =>
    let h := hurdleAt d 0 scope hid
    let tied := moduleTied d hid
    -- with no work tied to it, P4 follows the first context (R212)
    if core = 4 ∧ (if tied.isEmpty then h.started = true else tied.all (fun b => workDone d b (Tab.get {} (berthAt d b).hurdles (512 + hid))) = true) then
      hurdleStart (setHurdle d 0 scope hid { h with purserArrived := true }) 0 scope hid
    else d

def execHurdlePortWrite (core : Core) (scope : Scope) (hid : Fin 256) (s : State) : Host.Outcome State Fault Refusal :=
  onDev (fun d => hurdlePort d core.val scope hid.val) s

/-! Completion -/

/-- A tile's contexts leave the HURDLE state; arrival bits clear (R212). -/
def releaseTile (scope : Scope) (hid cto : Nat) (t : Tile) : Tile :=
  let p := planeAt t t.run
  let mine := fun (x : Context) => decide (x.state = .hurdle) && decide (x.scope = scope) && decide (x.hid = hid)
  let p := { p with ctx := List.map (fun (x : Nat × Context) =>
    if mine x.2 && t.inflight.any (fun f => f.hurdle && decide (f.ctx = x.1)) then (x.1, { x.2 with state := .ready, waitFrom := cto }) else x) p.ctx }
  { setPlane t t.run p with arrival := Tab.erase t.arrival (256 * scopeCode scope + hid) }

/-- The HURDLE steps of a tile that complete. -/
def hurdleFlights (t : Tile) (scope : Scope) (hid : Nat) : List InFlight :=
  t.inflight.filter (fun f => f.hurdle &&
    (let x := ctxAt (planeAt t t.run) f.ctx; decide (x.scope = scope) && decide (x.hid = hid)))

def releaseHurdle (d : Device) (scope : Scope) (hid b : Nat) : Device :=
  let cto := (berthAt d b).cto
  let d := (positions d b).foldl (fun d p =>
    let fs := hurdleFlights (tileAt d b p.2.2) scope hid
    let d := modTile d b p.2.2 (fun t => if isSwapTile t scope hid then swapTile cto t else releaseTile scope hid cto t)
    fs.foldl (fun d f => finishStep d b p.2.2 f) d) d
  setHurdle d b scope hid { hurdleAt d b scope hid with started := false, purserArrived := false }

/-- What firmware does when the update hurdle or the swap hurdle of a head completes. -/
def hurdleWork (d : Device) (b : Nat) (scope : Scope) (hid : Nat) : Device :=
  match headOf d b with
  | none => d
  | some h =>
    if scope = .berth ∧ hid = h.updateHid then updateDone d b
    else if scope = .berth ∧ hid = h.swapHid then commitEpoch d b
    else d

def hurdleComplete (d : Device) (b : Nat) (scope : Scope) (hid : Nat) : Device :=
  hurdleWork ((hurdleBerths d b scope).foldl (fun d x => releaseHurdle d scope hid x) d) b scope hid

/-- A member has arrived: a context, or a purser. -/
def anyArrived (d : Device) (b : Nat) (scope : Scope) (hid : Nat) : Bool :=
  someArrived d b scope hid || (decide (scope ≠ .pipeline) && (hurdleAt d b scope hid).purserArrived)

/-- Every tile and every member purser has reported arrival. -/
def hurdleFull (d : Device) (b : Nat) (scope : Scope) (hid : Nat) : Bool :=
  anyArrived d b scope hid && pursersArrived d b scope hid && (firstMissing d b scope hid).isNone

def execHurdleComplete (b : Fin 4) (scope : Scope) (hid : Fin 256) (s : State) : Host.Outcome State Fault Refusal :=
  onDev (guarded (fun d => hurdleFull d b.val scope hid.val) (fun d => hurdleComplete d b.val scope hid.val)) s

/-! Timeout (R215): once for a wait. -/

/-- INFO is the HID; the first tile that has not arrived is blamed, or where only a purser is missing, the purser. -/
def hurdleTimeout (d : Device) (b : Nat) (scope : Scope) (hid : Nat) : Device :=
  let h := hurdleAt d b scope hid
  let d := setHurdle d b scope hid { h with started := false }
  let blame := match firstMissing d b scope hid with
    | some p => tileTag p.1 p.2.1 p.2.2
    | none => tag 9 0 (if scope = .module then 4 else b)
  let d := berthReport d b 8 blame (tag 9 0 (if scope = .module then 4 else b)) hid
  -- a swap's hold that does not complete aborts its update (Table 11-11)
  match headOf d b with
  | none => d
  | some x => if scope = .berth ∧ hid = x.swapHid then abortUpdate d b else d

def execHurdleTimeout (b : Fin 4) (scope : Scope) (hid : Fin 256) (s : State) : Host.Outcome State Fault Refusal :=
  onDev (guarded (fun d => let h := hurdleAt d b.val scope hid.val
      h.started && !(berthAt d b.val).haltDone && decide (h.since + msCounts (odGet d 0x8010 8) ≤ d.time))
    (fun d => hurdleTimeout d b.val scope hid.val)) s

end Sys2Proof.Machine
end

