-- ==== Sys2Proof/Machine/Timeouts.lean ====
section
/-! DEFINITION. Credit timeouts (R426): when a producer end waits only for credits, what it reports, and where its timer
stands still. -/

namespace Sys2Proof.Machine

/-- CTO_FCLK (0x8010:07). -/
def ctoFclk (d : Device) : Nat := odGet d 0x8010 7

/-- The timers of a berth run: it is neither HALTED nor cut, and no gangway lane is being switched. -/
def timersRun (d : Device) (b : Nat) : Bool :=
  berthLive d b && (decide (bstate d b = 2) || decide (bstate d b = 3)) && d.laneSwitch.isNone
    && !((berthAt d b).repair.active && (berthAt d b).repair.restarting)

/-- The queue through a station port crosses a Folsa port that is not UP. -/
def folsaStops (d : Device) (pk : Nat) : Bool :=
  match folsaOf d pk with
  | none => false
  | some c => decide (odGet d (0x8900 + c.1) 2 ≠ 3)

/-- Consumer end of a queue that leaves its tile or unit through station port pk: the tile that pops the receiving ring of a
linked queue, the unit at a pass port. A consumer in another module is named by the Folsa port toward it. -/
def portConsumer (d : Device) (pk : Nat) : U32 :=
  let sp := portAt d pk
  if !sp.link then tag 7 (pk / 1280) sp.peer.toNat
  else match folsaOf d pk with
    | some c => tag 4 0 c.1
    | none =>
      let r := portAt d (epKey sp.fin.peer)
      tileTag (epDomain sp.fin.peer) r.dcol r.drow

/-- Consumer end of an output queue of berth b. -/
def oqConsumer (d : Device) (b : Nat) (q : OutQueue) : U32 :=
  if q.shut then portConsumer d (epKey q.dest) else tileTag b (q.dest.toNat / 512) (q.dest.toNat / 16 % 32)

/-- A context waits only for credits on the output queue of its head step (R31). -/
def contextStarved (d : Device) (b key c : Nat) : Bool :=
  let x := workOf d b key c
  let q := oqAt x.pl (wOq x.w)
  x.pl.live && examined x && !headHeld x && headInputs x.pl c && decide (q.cred < reserveTokens x) && budgetOk x
    && !(q.shut && folsaStops d (epKey q.dest))

/-- An engine thread's head RD or PAD lacks nothing but credits on queue q. -/
def threadStarved (d : Device) (b e pt q : Nat) : Bool :=
  let x := seOf d b e pt
  (strideHead 0x10 d x && slotFree d x || strideHead 0x12 d x && readsDone d x)
    && decide (sEq x.w = q) && (eqOf x).valid && (eqOf x).outbound && decide ((endAt d (eqKey x)).cred < sLen x.w)

/-- A memory-side unit holds tokens for a queue without credit. -/
def unitStarved (u : UEnd) : Bool := u.valid && !u.tokens.isEmpty && decide (u.cred = 0)

/-- A link endpoint sender holds a whole unit and has no room at the receiver. -/
def senderStarved (d : Device) (pk : Nat) (sp : StationPort) : Bool :=
  sp.valid && sp.link && !sp.fin.receiver && decide (2 ^ sp.fin.grain ≤ sp.fin.buf.length)
    && decide (sp.fin.cap + 1 ≤ (sp.fin.filled - sp.fin.freed).toNat) && !folsaStops d pk

/-- Some thread of the berth's engines is starved on the queue through port pk. -/
def engineStarved (d : Device) (b pk : Nat) : Bool :=
  (berthAt d b).engines.any (fun g => g.2.eqs.any (fun q => q.2.valid && q.2.outbound && decide (epKey q.2.peer = pk)
    && (List.range 4).any (fun pt => threadStarved d b g.1 pt q.1)))

/-- Start or stop the timer of one end. -/
def watchEnd (cto : Nat) (starved : Bool) (u : UEnd) : UEnd :=
  if !starved then { u with waiting := false }
  else if u.waiting then u
  else { u with
    waiting := true
    waitFrom := cto }

/-- The timers of a berth's unit ends and link senders. -/
def watchEnds (d : Device) (b : Nat) : Device := bothUnits d b (fun d =>
  let cto := (berthAt d b).cto
  { d with
    ends := List.map (fun (p : Nat × UEnd) =>
      if p.1 / 1280 = b then (p.1, watchEnd cto (unitStarved p.2 || engineStarved d b p.1) p.2) else p) d.ends
    ports := List.map (fun (p : Nat × StationPort) =>
      if p.1 / 1280 = b ∧ p.2.link then (p.1, { p.2 with uend := watchEnd cto (senderStarved d p.1 p.2) p.2.uend }) else p) d.ports })

/-- The timer of an end has run out. -/
def endLate (d : Device) (b : Nat) (u : UEnd) : Bool := u.waiting && decide (u.waitFrom + ctoFclk d ≤ (berthAt d b).cto)

/-- CREDIT_TIMEOUT of a tile context. -/
def contextTimeout (d : Device) (t : TileId) (c q : Nat) : Device :=
  let b := t.b.val
  let key := keyOf d t
  let x := workOf d b key c
  if contextStarved d b key c && decide (wOq x.w = q) && decide (x.ctx.waitFrom + ctoFclk d ≤ (berthAt d b).cto) then
    let o := oqAt x.pl q
    let d := berthReport d b 7 (oqConsumer d b o) (tileTag b t.col.val t.row.val) o.qid
    let now := (berthAt d b).cto
    modTile d b key (fun tl => setPlane tl tl.run (setCtx (planeAt tl tl.run) c { ctxAt (planeAt tl tl.run) c with waitFrom := now }))
  else d

/-- An end's timer starts again after its report. -/
def restartEnd (d : Device) (pk : Nat) : Device :=
  setEnd d pk { endAt d pk with waitFrom := (berthAt d (pk / 1280)).cto }

/-- CREDIT_TIMEOUT of the unit end at station port pk, reported by endpoint `ep`. -/
def unitTimeout (d : Device) (pk : Nat) (ep : BitVec 14) : Device :=
  let b := pk / 1280
  let u := endAt d pk
  if endLate d b u then
    let sp := portAt d pk
    restartEnd (berthReport d b 7 (tileTag b sp.dcol sp.drow) (tag 7 b ep.toNat) u.qid) pk
  else d

/-- CREDIT_TIMEOUT of a link sender. -/
def senderTimeout (d : Device) (pk : Nat) : Device :=
  let b := pk / 1280
  let sp := portAt d pk
  if senderStarved d pk sp && endLate d b sp.uend then
    let d := berthReport d b 7 (portConsumer d pk) (tag 7 b (keyEp pk).toNat) sp.uend.qid
    setPort d pk { sp with uend := { sp.uend with waitFrom := (berthAt d b).cto } }
  else d

def producerBerth : Producer → Nat
  | .context t _ => t.b.val
  | .engine b _ _ => b.val
  | .unit b _ _ => b.val
  | .endpoint b _ _ => b.val

def creditTimeout (d : Device) (who : Producer) (q : Nat) : Device :=
  match who with
  | .context t c => contextTimeout d t c.val q
  | .engine b e pt => onEngine d b.val e.val (fun d =>
    if threadStarved d b.val e.val pt.val q then unitTimeout d (eqKey (seOf d b.val e.val pt.val)) (engineEp b.val e.val) else d)
  | .unit b s p => bothUnits d b.val (fun d =>
    let pk := portKey b.val s.val p.val
    if unitStarved (endAt d pk) then unitTimeout d pk (portAt d pk).peer else d)
  | .endpoint b s p => bothUnits d b.val (fun d => senderTimeout d (portKey b.val s.val p.val))

def execCreditTimeout (who : Producer) (q : Fin 16) (s : State) : Host.Outcome State Fault Refusal :=
  onDev (guarded (fun d => timersRun d (producerBerth who)) (fun d => creditTimeout d who q.val)) s

end Sys2Proof.Machine
end

