-- ==== Sys2Proof/Machine/Dispatch.lean ====
section
/-! DEFINITION. The meaning of each command: one arm for each constructor of `Instr`, in the table's order. -/

namespace Sys2Proof.Machine

def exec (i : Instr) (s : State) : Host.Outcome State Fault Refusal :=
  match i with
  | .nop t c => Sys2Proof.Machine.execNop t c s
  | .stepComplete t c u => Sys2Proof.Machine.execStepComplete t c u s
  | .sequencerWatchdog t c u => Sys2Proof.Machine.execSequencerWatchdog t c u s
  | .wait t c => Sys2Proof.Machine.execWait t c s
  | .hurdle t c => Sys2Proof.Machine.execHurdle t c s
  | .band t c => Sys2Proof.Machine.execBand t c s
  | .bchk t c => Sys2Proof.Machine.execBchk t c s
  | .rerunAck t c => Sys2Proof.Machine.execRerunAck t c s
  | .scale t c => Sys2Proof.Machine.execScale t c s
  | .statSend t c => Sys2Proof.Machine.execStatSend t c s
  | .statUpdate t c => Sys2Proof.Machine.execStatUpdate t c s
  | .semit t c => Sys2Proof.Machine.execSemit t c s
  | .send t c => Sys2Proof.Machine.execSend t c s
  | .copy t c => Sys2Proof.Machine.execCopy t c s
  | .pass t c => Sys2Proof.Machine.execPass t c s
  | .conv t c => Sys2Proof.Machine.execConv t c s
  | .matw t c => Sys2Proof.Machine.execMatw t c s
  | .dwconv t c => Sys2Proof.Machine.execDwconv t c s
  | .mata t c => Sys2Proof.Machine.execMata t c s
  | .spec t c => Sys2Proof.Machine.execSpec t c s
  | .zpc t c => Sys2Proof.Machine.execZpc t c s
  | .rq t c => Sys2Proof.Machine.execRq t c s
  | .accin t c => Sys2Proof.Machine.execAccin t c s
  | .accout t c => Sys2Proof.Machine.execAccout t c s
  | .rotw t c => Sys2Proof.Machine.execRotw t c s
  | .tfn t c => Sys2Proof.Machine.execTfn t c s
  | .elt t c => Sys2Proof.Machine.execElt t c s
  | .poolMax t c => Sys2Proof.Machine.execPoolMax t c s
  | .poolAverage t c => Sys2Proof.Machine.execPoolAverage t c s
  | .gpoolMaxAccumulate t c => Sys2Proof.Machine.execGpoolMaxAccumulate t c s
  | .gpoolSumAccumulate t c => Sys2Proof.Machine.execGpoolSumAccumulate t c s
  | .gpoolEmitMax t c => Sys2Proof.Machine.execGpoolEmitMax t c s
  | .gpoolEmitAverage t c => Sys2Proof.Machine.execGpoolEmitAverage t c s
  | .resize t c => Sys2Proof.Machine.execResize t c s
  | .softmax t c => Sys2Proof.Machine.execSoftmax t c s
  | .lnorm t c => Sys2Proof.Machine.execLnorm t c s
  | .xformFr t c => Sys2Proof.Machine.execXformFr t c s
  | .xformFs t c => Sys2Proof.Machine.execXformFs t c s
  | .xformIs t c => Sys2Proof.Machine.execXformIs t c s
  | .xformIc t c => Sys2Proof.Machine.execXformIc t c s
  | .steer t c => Sys2Proof.Machine.execSteer t c s
  | .merge t c => Sys2Proof.Machine.execMerge t c s
  | .select t c => Sys2Proof.Machine.execSelect t c s
  | .crop t c => Sys2Proof.Machine.execCrop t c s
  | .bwd t c => Sys2Proof.Machine.execBwd t c s
  | .wgrad t c => Sys2Proof.Machine.execWgrad t c s
  | .opt t c => Sys2Proof.Machine.execOpt t c s
  | .optFin t c => Sys2Proof.Machine.execOptFin t c s
  | .lossCe t c => Sys2Proof.Machine.execLossCe t c s
  | .lossBce t c => Sys2Proof.Machine.execLossBce t c s
  | .lossSmoothL1 t c => Sys2Proof.Machine.execLossSmoothL1 t c s
  | .lossDrain t c => Sys2Proof.Machine.execLossDrain t c s
  | .flitReceive t p err => Sys2Proof.Machine.execFlitReceive t p err s
  | .creditReceive t oq => Sys2Proof.Machine.execCreditReceive t oq s
  | .epochMarkReceive t p => Sys2Proof.Machine.execEpochMarkReceive t p s
  | .hurdlePortWrite core scope hid => Sys2Proof.Machine.execHurdlePortWrite core scope hid s
  | .hurdleComplete b scope hid => Sys2Proof.Machine.execHurdleComplete b scope hid s
  | .hurdleTimeout b scope hid => Sys2Proof.Machine.execHurdleTimeout b scope hid s
  | .shuttleSlotSend l => Sys2Proof.Machine.execShuttleSlotSend l s
  | .shuttleFlitReceive l err => Sys2Proof.Machine.execShuttleFlitReceive l err s
  | .gangwaySpareTrained fromDie1 n => Sys2Proof.Machine.execGangwaySpareTrained fromDie1 n s
  | .stationCreditForward b st p => Sys2Proof.Machine.execStationCreditForward b st p s
  | .linkUnitForward b st p => Sys2Proof.Machine.execLinkUnitForward b st p s
  | .linkFreedSend b st p => Sys2Proof.Machine.execLinkFreedSend b st p s
  | .linkFreedAccept b st p => Sys2Proof.Machine.execLinkFreedAccept b st p s
  | .timetableSwitch l => Sys2Proof.Machine.execTimetableSwitch l s
  | .ledgerTick => Sys2Proof.Machine.execLedgerTick s
  | .ledgerCheck => Sys2Proof.Machine.execLedgerCheck s
  | .seta b e pt => Sys2Proof.Machine.execSeta b e pt s
  | .adda b e pt => Sys2Proof.Machine.execAdda b e pt s
  | .sets b e pt => Sys2Proof.Machine.execSets b e pt s
  | .nexts b e pt => Sys2Proof.Machine.execNexts b e pt s
  | .loop b e pt => Sys2Proof.Machine.execLoop b e pt s
  | .endl b e pt => Sys2Proof.Machine.execEndl b e pt s
  | .rd b e pt => Sys2Proof.Machine.execRd b e pt s
  | .wr b e pt => Sys2Proof.Machine.execWr b e pt s
  | .wrAcknowledge b e => Sys2Proof.Machine.execWrAcknowledge b e s
  | .pad b e pt => Sys2Proof.Machine.execPad b e pt s
  | .take b e pt => Sys2Proof.Machine.execTake b e pt s
  | .post b e pt => Sys2Proof.Machine.execPost b e pt s
  | .fence b e pt => Sys2Proof.Machine.execFence b e pt s
  | .endp b e pt => Sys2Proof.Machine.execEndp b e pt s
  | .pacerGrant b => Sys2Proof.Machine.execPacerGrant b s
  | .hbmAccessComplete b => Sys2Proof.Machine.execHbmAccessComplete b s
  | .lightRequest b r => Sys2Proof.Machine.execLightRequest b r s
  | .ethFrameReceive port f => Sys2Proof.Machine.execEthFrameReceive port f s
  | .reorderTimeout n => Sys2Proof.Machine.execReorderTimeout n s
  | .decodeComplete b slice => Sys2Proof.Machine.execDecodeComplete b slice s
  | .decodeSliceTimeout b slice => Sys2Proof.Machine.execDecodeSliceTimeout b slice s
  | .feederFrameStart b => Sys2Proof.Machine.execFeederFrameStart b s
  | .rawDescriptor n desc => Sys2Proof.Machine.execRawDescriptor n desc s
  | .rawCopyComplete n pic => Sys2Proof.Machine.execRawCopyComplete n pic s
  | .cropGather b => Sys2Proof.Machine.execCropGather b s
  | .resultFrame b => Sys2Proof.Machine.execResultFrame b s
  | .featureItem b => Sys2Proof.Machine.execFeatureItem b s
  | .rerunPost b => Sys2Proof.Machine.execRerunPost b s
  | .queuePointerMismatch q => Sys2Proof.Machine.execQueuePointerMismatch q s
  | .queueDoorbellPointer q bytes w => Sys2Proof.Machine.execQueueDoorbellPointer q bytes w s
  | .queueDoorbellArm q bytes w => Sys2Proof.Machine.execQueueDoorbellArm q bytes w s
  | .queueDoorbellFlush q bytes w => Sys2Proof.Machine.execQueueDoorbellFlush q bytes w s
  | .queueFlushCommand q => Sys2Proof.Machine.execQueueFlushCommand q s
  | .queueEnable q => Sys2Proof.Machine.execQueueEnable q s
  | .queueDisable q => Sys2Proof.Machine.execQueueDisable q s
  | .queueDataRead q len => Sys2Proof.Machine.execQueueDataRead q len s
  | .queueDataWrite q item gap => Sys2Proof.Machine.execQueueDataWrite q item gap s
  | .eventOccurrence src info => Sys2Proof.Machine.execEventOccurrence src info s
  | .eventPendingEnter h => Sys2Proof.Machine.execEventPendingEnter h s
  | .eventDoorbellCi h bytes w => Sys2Proof.Machine.execEventDoorbellCi h bytes w s
  | .eventDoorbellArm h bytes w => Sys2Proof.Machine.execEventDoorbellArm h bytes w s
  | .eventQueueEnable h => Sys2Proof.Machine.execEventQueueEnable h s
  | .mbxGo w => Sys2Proof.Machine.execMbxGo w s
  | .mbxDoneClear w => Sys2Proof.Machine.execMbxDoneClear w s
  | .mbxResponseDone => Sys2Proof.Machine.execMbxResponseDone s
  | .registerWrite off bytes v => Sys2Proof.Machine.execRegisterWrite off bytes v s
  | .read tr msg => Sys2Proof.Machine.execRead tr msg s
  | .write tr msg => Sys2Proof.Machine.execWrite tr msg s
  | .segInit tr msg => Sys2Proof.Machine.execSegInit tr msg s
  | .segData tr msg => Sys2Proof.Machine.execSegData tr msg s
  | .segEnd tr msg => Sys2Proof.Machine.execSegEnd tr msg s
  | .segAbort tr msg => Sys2Proof.Machine.execSegAbort tr msg s
  | .segTransferTimeout index sub => Sys2Proof.Machine.execSegTransferTimeout index sub s
  | .open tr msg => Sys2Proof.Machine.execOpen tr msg s
  | .close tr msg => Sys2Proof.Machine.execClose tr msg s
  | .info tr msg => Sys2Proof.Machine.execInfo tr msg s
  | .sessionIdleTimeout sid => Sys2Proof.Machine.execSessionIdleTimeout sid s
  | .mctpControl c => Sys2Proof.Machine.execMctpControl c s
  | .mgmtDatagram d => Sys2Proof.Machine.execMgmtDatagram d s
  | .journalCommit => Sys2Proof.Machine.execJournalCommit s
  | .fwBootNext => Sys2Proof.Machine.execFwBootNext s
  | .fwBootWarm => Sys2Proof.Machine.execFwBootWarm s
  | .fwCancel => Sys2Proof.Machine.execFwCancel s
  | .bootReadyTimeout => Sys2Proof.Machine.execBootReadyTimeout s
  | .restoreDefaults => Sys2Proof.Machine.execRestoreDefaults s
  | .defaultsCauseClear v => Sys2Proof.Machine.execDefaultsCauseClear v s
  | .timeWrite v => Sys2Proof.Machine.execTimeWrite v s
  | .ppsEdge samples te => Sys2Proof.Machine.execPpsEdge samples te s
  | .ppsMissed => Sys2Proof.Machine.execPpsMissed s
  | .anchorWrite n v => Sys2Proof.Machine.execAnchorWrite n v s
  | .streamEnable n => Sys2Proof.Machine.execStreamEnable n s
  | .streamDisable n => Sys2Proof.Machine.execStreamDisable n s
  | .imageLoadCheckDone b k => Sys2Proof.Machine.execImageLoadCheckDone b k s
  | .slotWriteDone b k => Sys2Proof.Machine.execSlotWriteDone b k s
  | .slotUnload b k => Sys2Proof.Machine.execSlotUnload b k s
  | .changeoverOrderly b k => Sys2Proof.Machine.execChangeoverOrderly b k s
  | .changeoverForcedRefeed b k halted => Sys2Proof.Machine.execChangeoverForcedRefeed b k halted s
  | .changeoverForcedDrop b k halted => Sys2Proof.Machine.execChangeoverForcedDrop b k halted s
  | .changeoverForcedHold b k halted => Sys2Proof.Machine.execChangeoverForcedHold b k halted s
  | .changeoverStop b mode => Sys2Proof.Machine.execChangeoverStop b mode s
  | .releaseStageOutputs b => Sys2Proof.Machine.execReleaseStageOutputs b s
  | .releaseStageWriteEnables b => Sys2Proof.Machine.execReleaseStageWriteEnables b s
  | .releaseStageResets b => Sys2Proof.Machine.execReleaseStageResets b s
  | .feederEpochMark b => Sys2Proof.Machine.execFeederEpochMark b s
  | .contextDrained t c => Sys2Proof.Machine.execContextDrained t c s
  | .changeoverTimeout b => Sys2Proof.Machine.execChangeoverTimeout b s
  | .halt b => Sys2Proof.Machine.execHalt b s
  | .haltComplete b => Sys2Proof.Machine.execHaltComplete b s
  | .resume b => Sys2Proof.Machine.execResume b s
  | .scanOut b => Sys2Proof.Machine.execScanOut b s
  | .scanIn b => Sys2Proof.Machine.execScanIn b s
  | .holdRelease b => Sys2Proof.Machine.execHoldRelease b s
  | .berthReset b => Sys2Proof.Machine.execBerthReset b s
  | .targetItemAccept b item => Sys2Proof.Machine.execTargetItemAccept b item s
  | .updateStart b => Sys2Proof.Machine.execUpdateStart b s
  | .budgetRefill t => Sys2Proof.Machine.execBudgetRefill t s
  | .epochSnapshotDone b => Sys2Proof.Machine.execEpochSnapshotDone b s
  | .entryTilesHeld b => Sys2Proof.Machine.execEntryTilesHeld b s
  | .adaptPause b => Sys2Proof.Machine.execAdaptPause b s
  | .adaptResume b => Sys2Proof.Machine.execAdaptResume b s
  | .rollbackOne b => Sys2Proof.Machine.execRollbackOne b s
  | .rollbackZero b => Sys2Proof.Machine.execRollbackZero b s
  | .rollbackTo b => Sys2Proof.Machine.execRollbackTo b s
  | .adaptAbort b => Sys2Proof.Machine.execAdaptAbort b s
  | .folsaEnable p => Sys2Proof.Machine.execFolsaEnable p s
  | .folsaTrained p => Sys2Proof.Machine.execFolsaTrained p s
  | .folsaFrameSend p => Sys2Proof.Machine.execFolsaFrameSend p s
  | .folsaFrameReceive p bytes => Sys2Proof.Machine.execFolsaFrameReceive p bytes s
  | .hello p => Sys2Proof.Machine.execHello p s
  | .sem p => Sys2Proof.Machine.execSem p s
  | .pair p => Sys2Proof.Machine.execPair p s
  | .folsaLinkDown p cause => Sys2Proof.Machine.execFolsaLinkDown p cause s
  | .linkHoldTimeout p => Sys2Proof.Machine.execLinkHoldTimeout p s
  | .faultReport => Sys2Proof.Machine.execFaultReport s
  | .stormClose => Sys2Proof.Machine.execStormClose s
  | .creditTimeout who q => Sys2Proof.Machine.execCreditTimeout who q s
  | .purserWatchdog core => Sys2Proof.Machine.execPurserWatchdog core s
  | .spareLoadDone b col => Sys2Proof.Machine.execSpareLoadDone b col s
  | .reactionWrite src v => Sys2Proof.Machine.execReactionWrite src v s
  | .clear v => Sys2Proof.Machine.execClear v s
  | .testEnter role auth v => Sys2Proof.Machine.execTestEnter role auth v s
  | .injectionArm n => Sys2Proof.Machine.execInjectionArm n s
  | .injectionDisarm n => Sys2Proof.Machine.execInjectionDisarm n s
  | .injectionFire n => Sys2Proof.Machine.execInjectionFire n s
  | .testEnFall => Sys2Proof.Machine.execTestEnFall s
  | .selfTestComplete pass => Sys2Proof.Machine.execSelfTestComplete pass s
  | .bpowerHold b => Sys2Proof.Machine.execBpowerHold b s
  | .bpowerDoze b => Sys2Proof.Machine.execBpowerDoze b s
  | .bpowerActive b => Sys2Proof.Machine.execBpowerActive b s
  | .autoHoldIdle b => Sys2Proof.Machine.execAutoHoldIdle b s
  | .holdWake b => Sys2Proof.Machine.execHoldWake b s
  | .mpowerMoor => Sys2Proof.Machine.execMpowerMoor s
  | .mpowerDock => Sys2Proof.Machine.execMpowerDock s
  | .mpowerActive => Sys2Proof.Machine.execMpowerActive s
  | .moorRestoreDone => Sys2Proof.Machine.execMoorRestoreDone s
  | .rpllStep up => Sys2Proof.Machine.execRpllStep up s
  | .limiterEval p10 tj => Sys2Proof.Machine.execLimiterEval p10 tj s
  | .voltageLoop b marginBelow marginNow => Sys2Proof.Machine.execVoltageLoop b marginBelow marginNow s
  | .droopHold b => Sys2Proof.Machine.execDroopHold b s
  | .thermalTrip => Sys2Proof.Machine.execThermalTrip s
  | .cableSenseRead mv sense0 sense1 => Sys2Proof.Machine.execCableSenseRead mv sense0 sense1 s
  | .cableLoss => Sys2Proof.Machine.execCableLoss s
  | .powerOn straps testEn => Sys2Proof.Machine.execPowerOn straps testEn s
  | .powerDown auxLost => Sys2Proof.Machine.execPowerDown auxLost s
  | .perst => Sys2Proof.Machine.execPerst s
  | .hot => Sys2Proof.Machine.execHot s
  | .flr => Sys2Proof.Machine.execFlr s
  | .warmReset => Sys2Proof.Machine.execWarmReset s
  | .busMasterEnableChange on => Sys2Proof.Machine.execBusMasterEnableChange on s
  | .railOutOfWindow rail => Sys2Proof.Machine.execRailOutOfWindow rail s
  | .sfpModuleInsert c rate => Sys2Proof.Machine.execSfpModuleInsert c rate s
  | .sfpModuleRemove c => Sys2Proof.Machine.execSfpModuleRemove c s
  | .sfpTxFault c => Sys2Proof.Machine.execSfpTxFault c s
  | .telemetrySample r => Sys2Proof.Machine.execTelemetrySample r s
  | .sramScrub t granule => Sys2Proof.Machine.execSramScrub t granule s
  | .hbmPatrolScrub b token => Sys2Proof.Machine.execHbmPatrolScrub b token s
  | .sensorCalibration sensor offset => Sys2Proof.Machine.execSensorCalibration sensor offset s
  | .ageingGuardband b below => Sys2Proof.Machine.execAgeingGuardband b below s
  | .msiXVectorUnmask v => Sys2Proof.Machine.execMsiXVectorUnmask v s
  | .perstNRise straps testEn => Sys2Proof.Machine.execPerstNRise straps testEn s
  | .slot12vValid => Sys2Proof.Machine.execSlot12vValid s
  | .sfpPortLinkChange c up => Sys2Proof.Machine.execSfpPortLinkChange c up s
  | .folsaCableInserted p => Sys2Proof.Machine.execFolsaCableInserted p s

end Sys2Proof.Machine
end

