-- ==== Sys2Proof/Machine/Tick.lean ====
section
/-! DEFINITION. What one LCLK count does when no command waits (assumption log 2): device time and its discipline (R444, R445),
the FCLK counts of every live berth (R442), the stall counters of its tiles (R262) and its credit timers (R426). -/

namespace Sys2Proof.Machine

/-! Stall counters (Table 10-9) -/

/-- The station reports a flit of the port that waits for a slot (R230). -/
def flitHeld (d : Device) (pk : Nat) : Bool :=
  (linkAt d (20 * (pk / 1280) + pk / 64 % 20)).queues.any (fun q => q.2.any (fun w => w.flit.src = keyEp pk))

/-- The pass port of a queue peers with a stride engine. -/
def peersEngine (d : Device) (pk : Nat) : Bool :=
  !(portAt d pk).link && (List.range 16).any (fun e => (portAt d pk).peer = engineEp (pk / 1280) e)

/-- A queue of an operand lacks units, and is a spill queue where asked. -/
def lacksUnits (p : Plane) (iq n : Nat) (spill : Bool) : Bool :=
  !unitsPresent p iq n && (!spill || decide ((iqAt p iq).src = 2))

/-- The operand queues of a step lack units: IQA, IQB and SCALE's SIQ. -/
def lacksInput (x : Xe) (spill : Bool) : Bool :=
  lacksUnits x.pl (wIqa x.w) (wNa x.w) spill || lacksUnits x.pl (wIqb x.w) (wNb x.w) spill
    || lacksUnits x.pl (fld x.w 51 48) (siqTokens x.w) spill

/-- The idle cause that the head step of a waiting context shows: its place in Table 10-9. -/
def waitCause (d : Device) (b key c fclk : Nat) : Option Nat :=
  let x := workOf d b key c
  let w := x.w
  let q := oqAt x.pl (wOq w)
  let noCred := decide (q.cred < reserveTokens x)
  let port := epKey q.dest
  if arrayOpcode (wOpcode w) && decide (fclk < (berthAt d b).droopUntil) then some 3
  else if lacksInput x true || (noCred && q.shut && peersEngine d port) then some 4
  else if noCred && q.shut && flitHeld d port then some 5
  else if noCred || !(Tab.get {} x.t.ports 4).queue.isEmpty then some 6
  else if lacksInput x false then some 7
  else none

/-- The first of two causes in table order. -/
def firstCause : Option Nat → Option Nat → Option Nat
  | none, y => y
  | some x, none => some x
  | some x, some y => some (min x y)

/-- The idle counter of one FCLK. -/
def idleCause (d : Device) (b key fclk : Nat) (t : Tile) : Option Nat :=
  ((planeAt t t.run).ctx.filter (fun x => x.2.state = .wait)).foldl (fun m x => firstCause m (waitCause d b key x.1 fclk)) none

/-- State conditions of a tile: re-run, replay, hurdle wait. -/
def tileConditions (d : Device) (b : Nat) (t : Tile) : List Nat :=
  let ctx := (planeAt t t.run).ctx
  (if ctx.any (fun x => x.2.wide && x.2.bandOpen) then [0] else [])
    ++ (if (berthAt d b).repair.replaying then [1] else [])
    ++ (if ctx.any (fun x => x.2.state = .hurdle) then [2] else [])

/-- Add to a counter, modulo 2^32. -/
def charge (n : Nat) (t : Tile) (i : Nat) : Tile := { t with stall := Tab.modify 0 t.stall i (fun x => x + BitVec.ofNat 32 n) }

/-- Charge `n` FCLK from a count on to the idle counters. -/
def chargeIdle (d : Device) (b key : Nat) : Nat → Nat → Tile → Tile
  | 0, _, t => t
  | n + 1, fclk, t => chargeIdle d b key n (fclk + 1) (match idleCause d b key fclk t with
      | none => t
      | some i => charge 1 t i)

/-- A tile after `n` FCLK in which no command acted: its counters, and the marks of the FCLK that is over. -/
def tickTile (d : Device) (b n key : Nat) (t : Tile) : Tile :=
  let conds := tileConditions d b t
  let busy := t.inflight.any (fun f => f.unit ≠ .none)
  let fclk := (berthAt d b).fclk
  let t1 := if conds.isEmpty && !busy then (if t.issued then chargeIdle d b key (n - 1) (fclk + 1) t else chargeIdle d b key n fclk t)
    else conds.foldl (charge n) t
  { t1 with
    portA := []
    portB := []
    issued := false }

/-- A live berth: FCLK = f_R / 4, and the pacer's MCLK is half of it. -/
def tickBerth (d : Device) (b : Nat) : Device :=
  if !berthLive d b then d
  else
    let x := berthAt d b
    let quarters := x.fclkRem + d.power.fR / 100
    let n := quarters / 4
    let runs := timersRun d b
    let tiles := List.map (fun (p : Nat × Tile) => (p.1, tickTile d b n p.1 p.2)) x.tiles
    watchEnds (setBerth d b { x with
      tiles := tiles
      fclk := x.fclk + n
      fclkRem := quarters % 4
      cto := if runs then x.cto + n else x.cto
      hbm := { x.hbm with sinceLight := min (x.hbm.sinceLight + n / 2) 15 } }) b

/-! Device time -/

/-- Counts of a slew due by a number of elapsed counts: spread evenly over 10^8 (R445). -/
def slewDue (n elapsed : Nat) : Nat := n * elapsed / 100000000

/-- One count of device time. -/
def tickTime (d : Device) : Device :=
  let p := d.pps
  let n := p.slew.natAbs
  let adj := slewDue n (p.elapsed + 1) - slewDue n p.elapsed
  let done := decide (100000000 ≤ p.elapsed + 1)
  { d with
    time := (if 0 ≤ p.slew then d.time + 1 + adj else d.time + 1 - adj) % 2 ^ 64
    pps := if p.slew = 0 then p else { p with
      slew := if done then 0 else p.slew
      elapsed := if done then 0 else p.elapsed + 1 } }

/-- An idle count of LCLK. It runs while the control domain is powered. -/
def tick (d : Device) : Device :=
  if d.power.control then (List.range 4).foldl tickBerth (tickTime d) else d

end Sys2Proof.Machine
end

