-- ==== Sys2Proof/Safety.lean ====
section
/-! DEFINITION. What a safe step is, in the terms that statements use. -/

namespace Sys2Proof

open Machine

/-- The step ends in a next state. -/
def Completes (s : State) : Prop := ∃ t, step s = .next t

/-- The step ends in no fault. -/
def NoFault (s : State) : Prop := ∀ f, step s ≠ .fault f

/-- Every byte memory that the host can write or read is in canonical form: host memory and the two mailbox buffers. -/
def HostMemoryWf (d : Device) : Prop := memWf d.hostMem = true ∧ memWf d.mbx.req = true ∧ memWf d.mbx.resp = true

/-- Every byte memory of a berth is in canonical form: its HBM and the block memory of its tiles. -/
def BerthMemoryWf (x : Berth) : Prop := memWf x.hbm.mem = true ∧ ∀ p ∈ x.tiles, memWf p.2.mem = true

/-- Every byte memory of the module is in canonical form. -/
def MemoryWf (d : Device) : Prop := HostMemoryWf d ∧ ∀ p ∈ d.berths, BerthMemoryWf p.2

/-- The range of an A48 register (R63) and of a 32-bit sum (R81). -/
def InA48 (v : Int) : Prop := -140737488355328 ≤ v ∧ v ≤ 140737488355327
def InI32 (v : Int) : Prop := -2147483648 ≤ v ∧ v ≤ 2147483647

/-! Terms for statements about tile steps. -/

/-- A step command as the statements list it: the command, its opcode and unit (Table 5-1), its submode, what it needs beyond
R31, and its work. -/
structure StepForm where
  cmd : TileId → Fin 4 → Instr
  opcode : Nat
  unit : ExecUnit
  mode : Xe → Bool
  ready : Xe → Bool
  op : Xe → Option Xe

/-- The forms of the step commands, in the table's order. -/
def plainForms : List StepForm :=
  [⟨.nop, 0x00, .none, anyMode, alwaysReady, opNop⟩, ⟨.wait, 0x01, .none, anyMode, waitReady, opNop⟩,
   ⟨.hurdle, 0x02, .none, anyMode, alwaysReady, opHurdle⟩, ⟨.band, 0x03, .none, anyMode, alwaysReady, opBand⟩,
   ⟨.bchk, 0x04, .none, anyMode, bchkReady, opBchk⟩]

def scaleForms : List StepForm :=
  [⟨.scale, 0x05, .vector, anyMode, scaleReady, opScale⟩,
   ⟨.statSend, 0x06, .vector, modeAt 51 51 0, alwaysReady, opStatSend⟩,
   ⟨.statUpdate, 0x06, .vector, modeAt 51 51 1, alwaysReady, opStatUpdate⟩,
   ⟨.semit, 0x07, .vector, anyMode, semitReady, opSemit⟩]

def moverForms : List StepForm :=
  [⟨.send, 0x08, .mover, anyMode, alwaysReady, opSend⟩, ⟨.copy, 0x09, .mover, anyMode, alwaysReady, opCopy⟩,
   ⟨.pass, 0x0A, .mover, anyMode, alwaysReady, opPass⟩, ⟨.steer, 0x30, .mover, anyMode, alwaysReady, opSteer⟩,
   ⟨.merge, 0x31, .mover, anyMode, alwaysReady, opMerge⟩, ⟨.crop, 0x33, .mover, anyMode, alwaysReady, opCrop⟩]

def arrayForms : List StepForm :=
  [⟨.conv, 0x10, .array, anyMode, alwaysReady, opConv⟩, ⟨.matw, 0x11, .array, anyMode, alwaysReady, opMatw⟩,
   ⟨.dwconv, 0x12, .array, anyMode, alwaysReady, opDwconv⟩, ⟨.mata, 0x13, .array, anyMode, alwaysReady, opMata⟩,
   ⟨.spec, 0x14, .array, anyMode, alwaysReady, opSpec⟩,
   ⟨.xformFr, 0x2C, .array, modeAt 51 50 0, alwaysReady, opXformFr⟩,
   ⟨.xformFs, 0x2C, .array, modeAt 51 50 1, alwaysReady, opXformFs⟩,
   ⟨.xformIs, 0x2C, .array, modeAt 51 50 2, alwaysReady, opXformIs⟩,
   ⟨.xformIc, 0x2C, .array, modeAt 51 50 3, alwaysReady, opXformIc⟩,
   ⟨.bwd, 0x40, .array, anyMode, alwaysReady, opBwd⟩, ⟨.wgrad, 0x41, .array, anyMode, alwaysReady, opWgrad⟩]

def vectorForms : List StepForm :=
  [⟨.zpc, 0x20, .vector, anyMode, alwaysReady, opZpc⟩, ⟨.rq, 0x21, .vector, anyMode, alwaysReady, opRq⟩,
   ⟨.accin, 0x22, .vector, anyMode, alwaysReady, opAccin⟩, ⟨.accout, 0x23, .vector, anyMode, alwaysReady, opAccout⟩,
   ⟨.rotw, 0x24, .vector, anyMode, alwaysReady, opRotw⟩, ⟨.tfn, 0x25, .vector, anyMode, alwaysReady, opTfn⟩,
   ⟨.elt, 0x26, .vector, anyMode, alwaysReady, opElt⟩,
   ⟨.poolMax, 0x27, .vector, modeAt 51 51 0, alwaysReady, opPoolMax⟩,
   ⟨.poolAverage, 0x27, .vector, modeAt 51 51 1, alwaysReady, opPoolAverage⟩,
   ⟨.gpoolMaxAccumulate, 0x28, .vector, modeAt 51 50 0, alwaysReady, opGpoolMaxAcc⟩,
   ⟨.gpoolSumAccumulate, 0x28, .vector, modeAt 51 50 1, alwaysReady, opGpoolSumAcc⟩,
   ⟨.gpoolEmitMax, 0x28, .vector, modeAt 51 50 2, alwaysReady, opGpoolEmitMax⟩,
   ⟨.gpoolEmitAverage, 0x28, .vector, modeAt 51 50 3, alwaysReady, opGpoolEmitAvg⟩,
   ⟨.resize, 0x29, .vector, anyMode, alwaysReady, opResize⟩, ⟨.softmax, 0x2A, .vector, anyMode, alwaysReady, opSoftmax⟩,
   ⟨.lnorm, 0x2B, .vector, anyMode, alwaysReady, opLnorm⟩, ⟨.select, 0x32, .vector, anyMode, alwaysReady, opSelect⟩,
   ⟨.opt, 0x42, .vector, modeAt 49 49 0, alwaysReady, opOpt⟩,
   ⟨.optFin, 0x42, .vector, modeAt 49 49 1, alwaysReady, opOptFin⟩,
   ⟨.lossCe, 0x43, .vector, modeAt 51 50 0, alwaysReady, opLossCe⟩,
   ⟨.lossBce, 0x43, .vector, modeAt 51 50 1, alwaysReady, opLossBce⟩,
   ⟨.lossSmoothL1, 0x43, .vector, modeAt 51 50 2, alwaysReady, opLossSmoothL1⟩,
   ⟨.lossDrain, 0x43, .vector, modeAt 51 50 3, alwaysReady, opLossDrain⟩]

def stepForms : List StepForm := plainForms ++ scaleForms ++ moverForms ++ arrayForms ++ vectorForms

/-- The working record of the head step of context c of the tile that serves t. -/
def headWork (s : State) (t : TileId) (c : Fin 4) : Xe := stepOf s.dev t.b.val (keyOf s.dev t) c.val

/-- The head step of the running context is of this form, and no hold keeps its context (Tables 2-7, 5-1, R285). -/
def StepForm.Heads (f : StepForm) (t : TileId) (c : Fin 4) (s : State) : Prop :=
  berthLive s.dev t.b.val = true ∧ examined (headWork s t c) = true ∧ wOpcode (headWork s t c).w = f.opcode
    ∧ wCtx (headWork s t c).w = c.val ∧ f.mode (headWork s t c) = true ∧ headHeld (headWork s t c) = false

/-- R31: inputs, credits, unit and budget are there, with what the step needs besides. -/
def StepForm.CanIssue (f : StepForm) (t : TileId) (c : Fin 4) (s : State) : Prop :=
  eligible f.unit (berthAt s.dev t.b.val).fclk (berthAt s.dev t.b.val).droopUntil (headWork s t c) = true
    ∧ f.ready (headWork s t c) = true

/-- R37: no context before c in the search order of its tile could issue. -/
def InTurn (t : TileId) (c : Fin 4) (s : State) : Prop := inTurn s.dev t.b.val (keyOf s.dev t) c.val = true

/-! What a start of the cores keeps of the flash. -/

/-- The flash is as before, or without the class P records that draw `n` of the start found damaged (R403). -/
def FlashKept (n : Nat) (before after : List (Nat × Nat)) : Prop :=
  after = before ∨ after = before.filter (fun e => !(classP e.1 && Config.flashDamaged e.1 n))

/-! A term for statements about requests of the host interface. -/

/-- A JOP request for operation `op` is the next one of its transport; it is admitted, and its access is served (R397, R399, R405,
R406). `d` is the module after the admission and `q` the request with its role. -/
def Served (s : State) (tr : Transport) (msg : List Byte) (op : Nat) (d : Device) (q : JopReq) : Prop :=
  ∃ r, headRequest s.dev tr msg = some r ∧ (tr = .mctp → frameBad .mctp (msg.drop 3) = false) ∧ r.op = op
    ∧ vetRequest (popRequest s.dev tr) r = .go d q.role ∧ q = { r with role := q.role } ∧ powerAllows d q = true ∧ roleAllows q = true

end Sys2Proof
end

