-- ==== Sys2Proof/WellFormed.lean ====
section
/-! DEFINITION. Well-formed commands: the ranges of operands that their types do not say. The machine itself gives every command
a meaning, well-formed or not. -/

namespace Sys2Proof

/-- A host access of PCIe: 1, 2, 4 or 8 bytes (R394). -/
def accessWf (bytes : Nat) : Bool := [1, 2, 4, 8].contains bytes

/-- A JOP message: at most 1,075 bytes on MCTP, and none on the mailbox and on UDP, whose frames arrive by MBX_GO and
MGMT_DATAGRAM (R397). -/
def messageWf (tr : Transport) (msg : List Byte) : Bool :=
  match tr with
  | .mctp => decide (msg.length ≤ 1075)
  | .mailbox => msg.isEmpty
  | .udp => msg.isEmpty

/-- Ports are 16 bits; an RTP packet's fields have their RFC 3550 widths. -/
def netWf (p : NetPart) : Bool :=
  match p with
  | .udp _ _ _ dport _ _ _ rtp => decide (dport < 65536) && rtp.all (fun r => decide (r.version < 4) && decide (r.pt < 128) && decide (r.nal < 64))
  | .arp _ => true
  | .neighbour _ => true
  | .groupQuery _ _ => true
  | .fragment => true
  | .unserved => true

/-- The operands of a command are in their ranges. -/
def Instr.wf (i : Instr) : Bool :=
  match i with
  | .nop _ _ => true
  | .stepComplete _ _ _ => true
  | .sequencerWatchdog _ _ _ => true
  | .wait _ _ => true
  | .hurdle _ _ => true
  | .band _ _ => true
  | .bchk _ _ => true
  | .rerunAck _ _ => true
  | .scale _ _ => true
  | .statSend _ _ => true
  | .statUpdate _ _ => true
  | .semit _ _ => true
  | .send _ _ => true
  | .copy _ _ => true
  | .pass _ _ => true
  | .conv _ _ => true
  | .matw _ _ => true
  | .dwconv _ _ => true
  | .mata _ _ => true
  | .spec _ _ => true
  | .zpc _ _ => true
  | .rq _ _ => true
  | .accin _ _ => true
  | .accout _ _ => true
  | .rotw _ _ => true
  | .tfn _ _ => true
  | .elt _ _ => true
  | .poolMax _ _ => true
  | .poolAverage _ _ => true
  | .gpoolMaxAccumulate _ _ => true
  | .gpoolSumAccumulate _ _ => true
  | .gpoolEmitMax _ _ => true
  | .gpoolEmitAverage _ _ => true
  | .resize _ _ => true
  | .softmax _ _ => true
  | .lnorm _ _ => true
  | .xformFr _ _ => true
  | .xformFs _ _ => true
  | .xformIs _ _ => true
  | .xformIc _ _ => true
  | .steer _ _ => true
  | .merge _ _ => true
  | .select _ _ => true
  | .crop _ _ => true
  | .bwd _ _ => true
  | .wgrad _ _ => true
  | .opt _ _ => true
  | .optFin _ _ => true
  | .lossCe _ _ => true
  | .lossBce _ _ => true
  | .lossSmoothL1 _ _ => true
  | .lossDrain _ _ => true
  | .flitReceive _ _ _ => true
  | .creditReceive _ _ => true
  | .epochMarkReceive _ _ => true
  | .hurdlePortWrite _ _ _ => true
  | .hurdleComplete _ _ _ => true
  | .hurdleTimeout _ _ _ => true
  | .shuttleSlotSend _ => true
  | .shuttleFlitReceive _ _ => true
  | .gangwaySpareTrained _ _ => true
  | .stationCreditForward _ _ _ => true
  | .linkUnitForward _ _ _ => true
  | .linkFreedSend _ _ _ => true
  | .linkFreedAccept _ _ _ => true
  | .timetableSwitch _ => true
  | .ledgerTick => true
  | .ledgerCheck => true
  | .seta _ _ _ => true
  | .adda _ _ _ => true
  | .sets _ _ _ => true
  | .nexts _ _ _ => true
  | .loop _ _ _ => true
  | .endl _ _ _ => true
  | .rd _ _ _ => true
  | .wr _ _ _ => true
  | .wrAcknowledge _ _ => true
  | .pad _ _ _ => true
  | .take _ _ _ => true
  | .post _ _ _ => true
  | .fence _ _ _ => true
  | .endp _ _ _ => true
  | .pacerGrant _ => true
  | .hbmAccessComplete _ => true
  | .lightRequest _ r => decide (r.src < 16384) && decide (r.len ≤ 64) && (!r.write || decide (r.data.length = r.len))
  | .ethFrameReceive _ f => decide (f.tags.all (· < 4096)) && netWf f.net
  | .reorderTimeout _ => true
  | .decodeComplete _ _ => true
  | .decodeSliceTimeout _ _ => true
  | .feederFrameStart _ => true
  | .rawDescriptor _ _ => true
  | .rawCopyComplete _ _ => true
  | .cropGather _ => true
  | .resultFrame _ => true
  | .featureItem _ => true
  | .rerunPost _ => true
  | .queuePointerMismatch _ => true
  | .queueDoorbellPointer _ bytes _ => accessWf bytes
  | .queueDoorbellArm _ bytes _ => accessWf bytes
  | .queueDoorbellFlush _ bytes _ => accessWf bytes
  | .queueFlushCommand _ => true
  | .queueEnable _ => true
  | .queueDisable _ => true
  | .queueDataRead _ _ => true
  | .queueDataWrite _ _ _ => true
  | .eventOccurrence _ _ => true
  | .eventPendingEnter _ => true
  | .eventDoorbellCi _ bytes _ => accessWf bytes
  | .eventDoorbellArm _ bytes _ => accessWf bytes
  | .eventQueueEnable _ => true
  | .mbxGo _ => true
  | .mbxDoneClear _ => true
  | .mbxResponseDone => true
  | .registerWrite _ bytes _ => accessWf bytes
  | .read tr msg => messageWf tr msg
  | .write tr msg => messageWf tr msg
  | .segInit tr msg => messageWf tr msg
  | .segData tr msg => messageWf tr msg
  | .segEnd tr msg => messageWf tr msg
  | .segAbort tr msg => messageWf tr msg
  | .segTransferTimeout index sub => decide (index < 65536) && decide (sub < 256)
  | .open tr msg => messageWf tr msg
  | .close tr msg => messageWf tr msg
  | .info tr msg => messageWf tr msg
  | .sessionIdleTimeout _ => true
  | .mctpControl _ => true
  | .mgmtDatagram d => decide (d.dport < 65536) && decide (d.sport < 65536)
  | .journalCommit => true
  | .fwBootNext => true
  | .fwBootWarm => true
  | .fwCancel => true
  | .bootReadyTimeout => true
  | .restoreDefaults => true
  | .defaultsCauseClear _ => true
  | .timeWrite _ => true
  | .ppsEdge _ _ => true
  | .ppsMissed => true
  | .anchorWrite _ _ => true
  | .streamEnable _ => true
  | .streamDisable _ => true
  | .imageLoadCheckDone _ _ => true
  | .slotWriteDone _ _ => true
  | .slotUnload _ _ => true
  | .changeoverOrderly _ _ => true
  | .changeoverForcedRefeed _ _ _ => true
  | .changeoverForcedDrop _ _ _ => true
  | .changeoverForcedHold _ _ _ => true
  | .changeoverStop _ _ => true
  | .releaseStageOutputs _ => true
  | .releaseStageWriteEnables _ => true
  | .releaseStageResets _ => true
  | .feederEpochMark _ => true
  | .contextDrained _ _ => true
  | .changeoverTimeout _ => true
  | .halt _ => true
  | .haltComplete _ => true
  | .resume _ => true
  | .scanOut _ => true
  | .scanIn _ => true
  | .holdRelease _ => true
  | .berthReset _ => true
  | .targetItemAccept _ _ => true
  | .updateStart _ => true
  | .budgetRefill _ => true
  | .epochSnapshotDone _ => true
  | .entryTilesHeld _ => true
  | .adaptPause _ => true
  | .adaptResume _ => true
  | .rollbackOne _ => true
  | .rollbackZero _ => true
  | .rollbackTo _ => true
  | .adaptAbort _ => true
  | .folsaEnable _ => true
  | .folsaTrained _ => true
  | .folsaFrameSend _ => true
  | .folsaFrameReceive _ bytes => decide (bytes.length ≤ 500)
  | .hello _ => true
  | .sem _ => true
  | .pair _ => true
  | .folsaLinkDown _ _ => true
  | .linkHoldTimeout _ => true
  | .faultReport => true
  | .stormClose => true
  | .creditTimeout _ _ => true
  | .purserWatchdog _ => true
  | .spareLoadDone _ _ => true
  | .reactionWrite _ _ => true
  | .clear _ => true
  | .testEnter role _ _ => decide (role ≤ 2)
  | .injectionArm _ => true
  | .injectionDisarm _ => true
  | .injectionFire _ => true
  | .testEnFall => true
  | .selfTestComplete _ => true
  | .bpowerHold _ => true
  | .bpowerDoze _ => true
  | .bpowerActive _ => true
  | .autoHoldIdle _ => true
  | .holdWake _ => true
  | .mpowerMoor => true
  | .mpowerDock => true
  | .mpowerActive => true
  | .moorRestoreDone => true
  | .rpllStep _ => true
  | .limiterEval _ _ => true
  | .voltageLoop _ _ _ => true
  | .droopHold _ => true
  | .thermalTrip => true
  | .cableSenseRead _ _ _ => true
  | .cableLoss => true
  | .powerOn _ _ => true
  | .powerDown _ => true
  | .perst => true
  | .hot => true
  | .flr => true
  | .warmReset => true
  | .busMasterEnableChange _ => true
  | .railOutOfWindow _ => true
  | .sfpModuleInsert _ rate => decide (rate = 1) || decide (rate = 2)
  | .sfpModuleRemove _ => true
  | .sfpTxFault _ => true
  | .telemetrySample r => decide (r.sensors.length = 9) && decide (r.inputs.length = 3)
  | .sramScrub _ _ => true
  | .hbmPatrolScrub _ token => decide (token < 402653184)
  | .sensorCalibration _ _ => true
  | .ageingGuardband _ _ => true
  | .msiXVectorUnmask _ => true
  | .perstNRise _ _ => true
  | .slot12vValid => true
  | .sfpPortLinkChange _ _ => true
  | .folsaCableInserted _ => true

end Sys2Proof
end

