-- ==== Sys2Proof/Certificates/Slice0/Obligations.lean ====
section
/-! DEFINITION. The statements about the model, one `def Obligations.<Name> : Prop` each. -/

open Sys2Proof Sys2Proof.Machine

/-! Tile steps (chapters 2 to 7 and 11) -/

/-- R31, R32, R27, R37: a head step that lacks nothing issues when its context's turn has come. Its work `z` is done: the banks and csdelta are those of the work, the
context goes to the step that `issueNext` names, output credits are taken, and a step with a unit is in flight. Frame: other tiles
keep block memory, banks and steps in flight; HBM, rings, streams, links, power, time and the objects other than the berth's
counters keep their values. -/
def Obligations.TileStepIssues : Prop :=
  ∀ f ∈ stepForms, ∀ (t : TileId) (c : Fin 4) (s : State) (z : Xe),
    f.Heads t c s → f.CanIssue t c s → f.op (headWork s t c) = some z → banksOk f.unit z = true → InTurn t c s →
    ∃ d : Device, exec (f.cmd t c) s = .next { s with dev := d } ∧
      (let key := keyOf s.dev t
       let b := t.b.val
       let T := tileAt d b key
       let P := planeAt T z.t.run
       T.run = z.t.run ∧ T.banks = z.t.banks ∧ T.csdelta = z.t.csdelta ∧ T.lastCtx = z.c ∧
       (ctxAt P z.c).ptr = (if z.rerun then z.ctx.ptr else (issueNext z.pl z.w).2) ∧
       (ctxAt P z.c).state = (if z.hurdle then .hurdle else .ready) ∧
       (oqAt P (wOq z.w)).cred = (oqAt z.pl (wOq z.w)).cred - reserveTokens (headWork s t c) ∧
       (f.unit ≠ .none → ∃ g : InFlight, T.inflight = z.t.inflight ++ [g] ∧ g.ctx = z.c ∧ g.unit = f.unit ∧
         g.na = naTokens (headWork s t c) ∧ g.nb = nbTokens (headWork s t c)) ∧
       (∀ b' k', (b', k') ≠ (b, key) →
         (tileAt d b' k').mem = (tileAt s.dev b' k').mem ∧ (tileAt d b' k').banks = (tileAt s.dev b' k').banks ∧
         (tileAt d b' k').inflight = (tileAt s.dev b' k').inflight) ∧
       (∀ b', (berthAt d b').hbm = (berthAt s.dev b').hbm) ∧
       d.queues = s.dev.queues ∧ d.streams = s.dev.streams ∧ d.links = s.dev.links ∧ d.power = s.dev.power ∧
       d.hostMem = s.dev.hostMem ∧ d.time = s.dev.time ∧
       ((∀ p ∈ z.cnts ++ z.acnts, p.1 < 256) → z.satSub < 256 → ∀ index sub, sub < 256 → index ≠ 0x3100 + b → index ≠ 0x8810 + b →
         odGet d index sub = odGet s.dev index sub))

/-- R31, Table 2-7: a head step that lacks an input, a credit, its unit, its budget or its own condition, or whose banks are not free
in the order of R21, leaves its context in WAIT, and nothing else changes. R37: where it lacks nothing but a context that comes
before it in the search order could issue, nothing changes. -/
def Obligations.TileStepWaits : Prop :=
  ∀ f ∈ stepForms, ∀ (t : TileId) (c : Fin 4) (s : State), f.Heads t c s →
    (¬ f.CanIssue t c s ∨ (∃ z, f.op (headWork s t c) = some z ∧ banksOk f.unit z = false) →
      let o := tileAt s.dev t.b.val (keyOf s.dev t)
      let p := planeAt o o.run
      let T := setPlane o o.run (setCtx p c.val { ctxAt p c.val with state := .wait })
      exec (f.cmd t c) s = .next { s with dev := setTile s.dev t.b.val (keyOf s.dev t) T }) ∧
    (∀ z, f.CanIssue t c s → f.op (headWork s t c) = some z → banksOk f.unit z = true → ¬ InTurn t c s →
      exec (f.cmd t c) s = .next s)

/-- The field values that the step tables reserve, and no others, stop a step (R5, R48, R116, Tables 5-6 to 5-13, 7-11, 11-6 to
11-9): its command is refused by name. -/
def Obligations.TileStepReservedFields : Prop :=
  (∀ x, opConv x = none ↔ fld x.w 42 41 = 3 ∨ fld x.w 50 49 = 3) ∧
  (∀ x, opMatw x = none ↔ fld x.w 42 41 = 3 ∨ fld x.w 50 49 = 3) ∧
  (∀ x, opDwconv x = none ↔ fld x.w 50 49 = 3) ∧ (∀ x, opMata x = none ↔ fld x.w 50 49 = 3) ∧
  (∀ x, opBwd x = none ↔ fld x.w 50 49 = 3) ∧ (∀ x, opWgrad x = none ↔ fld x.w 50 49 = 3) ∧
  (∀ x, opGpoolMaxAcc x = none ↔ fld x.w 48 47 = 3) ∧ (∀ x, opGpoolSumAcc x = none ↔ fld x.w 48 47 = 3) ∧
  (∀ x, opHurdle x = none ↔ fld x.w 51 50 = 3) ∧ (∀ x, opRq x = none ↔ fld x.w 26 25 = 3) ∧
  (∀ x, opRotw x = none ↔ fld x.w 51 50 < 2) ∧ (∀ x, opElt x = none ↔ 4 < fld x.w 51 49) ∧
  (∀ x, opScale x = none ↔ 4 < fld x.w 46 44) ∧
  (∀ x, opCrop x = none ↔ fld x.w 29 26 = 0 ∨ 10 < fld x.w 29 26) ∧
  (∀ x, opLossSmoothL1 x = none ↔ bit x.w 49 = true) ∧
  (∀ op ∈ [opNop, opBand, opBchk, opStatSend, opStatUpdate, opSemit, opSend, opCopy, opPass, opSteer, opMerge, opSpec, opXformFr,
      opXformFs, opXformIs, opXformIc, opZpc, opAccin, opAccout, opTfn, opPoolMax, opPoolAverage, opGpoolEmitMax, opGpoolEmitAvg,
      opResize, opSoftmax, opLnorm, opSelect, opOpt, opOptFin, opLossCe, opLossBce, opLossDrain], ∀ x, (op x).isSome = true) ∧
  (∀ f ∈ stepForms, ∀ (t : TileId) (c : Fin 4) (s : State), f.Heads t c s → f.CanIssue t c s →
    f.op (headWork s t c) = none → exec (f.cmd t c) s = .refused .reservedField)

/-- R117, R118, R67: an unmasked CONV or MATW adds to every lane (channel i = l / 16, pixel j = l mod 16) of its bank the exact sum
of activation times expanded weight over its groups, the high pass weighing 2^8. A sum in the A48 range is held exactly. Other
banks and block memory keep their contents. -/
def Obligations.ConvMatwAccumulate : Prop :=
  ∀ op ∈ [opConv, opMatw], ∀ (x z : Xe) (b : Bank), op x = some z →
    allMasked (tokensA x ++ tokensB x) = false → allMasked (tokensA x) = false →
    clearControl x (fld x.w 50 49) (fld x.w 48 45) (bankAt x.t (bankKey x (bit x.w 51))) = some b →
    (∀ l < 256,
      let xt := xtAt x.pl (fld x.w 44 43)
      let v := laneVal b l + ∑ g ∈ Finset.range (fld x.w 40 29 + 1), ∑ ch ∈ Finset.range 16,
        (convLow x.t (opA x) (fld x.w 42 41) (fld x.w 28 19) g (l % 16) ch
          + 256 * convHigh x.t x.pl (opA x) (fld x.w 42 41) (fld x.w 28 19) g (l % 16) ch)
          * expand xt (weightCode x.t (opB x) xt.w8 ((g * (if xt.w8 then 16 else 8) : Nat) : Int) ch (l / 16))
      InA48 v → laneVal (bankAt z.t (bankKey x (bit x.w 51))) l = v) ∧
    (∀ n, n ≠ bankKey x (bit x.w 51) → bankAt z.t n = bankAt x.t n) ∧ z.t.mem = x.t.mem

/-- R119, R120: the exact sums of DWCONV over its taps and of MATA over its terms, with MATA's row sums.

R276, R277: the exact sums of BWD (transposed weights, with the transposed sums) and of WGRAD (activation times gradient, with
the gradient row sums) on an A-tile. -/
def Obligations.OtherArraySums : Prop :=
  (
  (∀ (x z : Xe) (b : Bank), opDwconv x = some z → allMasked (tokensA x ++ tokensB x) = false →
    clearControl x (fld x.w 50 49) (fld x.w 48 45) (bankAt x.t (bankKey x (bit x.w 51))) = some b →
    (∀ l < 256,
      let xt := xtAt x.pl (fld x.w 44 43)
      let v := laneVal b l + ∑ tap ∈ Finset.range (fld x.w 42 38),
        (byteOf x.t (opA x) ((((l % 16) * fld x.w 33 31 + tap * fld x.w 37 34) * fld x.w 30 21 : Nat) : Int) (l / 16) : Int)
          * expand xt (weightCode x.t (opB x) xt.w8 0 tap (l / 16))
      InA48 v → laneVal (bankAt z.t (bankKey x (bit x.w 51))) l = v) ∧
    (∀ n, n ≠ bankKey x (bit x.w 51) → bankAt z.t n = bankAt x.t n) ∧ z.t.mem = x.t.mem) ∧
  (∀ (x z : Xe) (b : Bank), opMata x = some z → allMasked (tokensA x ++ tokensB x) = false →
    clearControl x (fld x.w 50 49) (fld x.w 48 45) (bankAt x.t (bankKey x (bit x.w 51))) = some b →
    (∀ l < 256,
      let v := laneVal b l + ∑ n ∈ Finset.range (16 * (fld x.w 44 33 + 1)),
        (byteOf x.t (opA x) (((l % 16) * fld x.w 32 23 + n / 16 : Nat) : Int) (n % 16) : Int)
          * ((byteOf x.t (opB x) (n : Int) (l / 16) : Int) - fld x.w 22 15)
      InA48 v → laneVal (bankAt z.t (bankKey x (bit x.w 51))) l = v) ∧
    (∀ i < 16,
      let v := rowSum b i + ∑ n ∈ Finset.range (16 * (fld x.w 44 33 + 1)),
        ((byteOf x.t (opB x) (n : Int) i : Int) - fld x.w 22 15)
      InI32 v → rowSum (bankAt z.t (bankKey x (bit x.w 51))) i = v) ∧
    (∀ n, n ≠ bankKey x (bit x.w 51) → bankAt z.t n = bankAt x.t n) ∧ z.t.mem = x.t.mem)) ∧ (
  (∀ (x z : Xe) (b : Bank), opBwd x = some z → allMasked (tokensA x ++ tokensB x) = false →
    clearControl x (fld x.w 50 49) (fld x.w 48 45) (bankAt x.t (bankKey x (bit x.w 51))) = some b →
    (let xt := xtAt x.pl (fld x.w 44 43)
     let wt := fun (n c : Nat) =>
       expand xt (weightCode x.t (opB x) xt.w8 ((n / 16 * (if xt.w8 then 16 else 8) : Nat) : Int) c (n % 16))
     (∀ l < 256,
      let v := laneVal b l + ∑ n ∈ Finset.range (16 * (fld x.w 42 31 + 1)),
        (byteOf x.t (opA x) (((l % 16) * fld x.w 30 21 + n / 16 : Nat) : Int) (n % 16) : Int) * wt n (l / 16)
      InA48 v → laneVal (bankAt z.t (bankKey x (bit x.w 51))) l = v) ∧
     (∀ c < 16,
      let v := transSum b c + ∑ n ∈ Finset.range (16 * (fld x.w 42 31 + 1)), wt n c
      InI32 v → transSum (bankAt z.t (bankKey x (bit x.w 51))) c = v)) ∧ z.t.mem = x.t.mem) ∧
  (∀ (x z : Xe) (b : Bank), opWgrad x = some z → allMasked (tokensA x ++ tokensB x) = false →
    clearControl x (fld x.w 50 49) (fld x.w 48 45) (bankAt x.t (8 + b2n (bit x.w 51))) = some b →
    (∀ l < 256,
      let v := laneVal b l + ∑ n ∈ Finset.range (16 * (fld x.w 44 33 + 1)),
        (byteOf x.t (opA x) ((n * fld x.w 32 23 : Nat) : Int) (l % 16) : Int)
          * ((byteOf x.t (opB x) ((n * fld x.w 22 13 : Nat) : Int) (l / 16) : Int) - 128)
      InA48 v → laneVal (bankAt z.t (8 + b2n (bit x.w 51))) l = v) ∧
    (∀ i < 16,
      let v := rowSum b i + ∑ n ∈ Finset.range (16 * (fld x.w 44 33 + 1)),
        ((byteOf x.t (opB x) ((n * fld x.w 22 13 : Nat) : Int) i : Int) - 128)
      InI32 v → rowSum (bankAt z.t (8 + b2n (bit x.w 51))) i = v) ∧ z.t.mem = x.t.mem))

/-- R121, R122: ZPC puts v − z · cs[i] + b[i] (or the row sums in place of cs) into each lane, ACCIN adds the image at DA; in the A48
range both are exact. -/
def Obligations.ZpcAccinLanes : Prop :=
  (∀ (x z : Xe), opZpc x = some z → allMasked (tokensA x ++ tokensB x) = false → ∀ l < 256,
    let bank := bankAt x.t (bankKey x (bit x.w 51))
    let v := laneVal bank l
      - sfld x.w 49 34 * (if bit x.w 50 then rowSum bank (l / 16) else colSum x.t (opB x) (l / 16))
      + biasOf x.t (opB x) (l / 16)
    InA48 v →
      laneVal (bankAt z.t (bankKey x (bit x.w 51))) l = v ∧ laneRes (bankAt z.t (bankKey x (bit x.w 51))) l = res3 v) ∧
  (∀ (x z : Xe), opAccin x = some z → allMasked (tokensA x ++ tokensB x) = false → ∀ l < 256,
    let v := laneVal (bankAt x.t (bankKey x (bit x.w 51))) l + imageLane x.t (opA x) 0 (l / 16) (l % 16)
    InA48 v → laneVal (bankAt z.t (bankKey x (bit x.w 51))) l = v)

/-- R123, R69, R84: RQ of one bank without rotation into UINT8 codes sends 8 tokens; channel i of pixel j is byte
16 (j mod 2) + i of token j / 2: the rounded scaled value plus the zero point, narrowed and clamped to 0 to 255. -/
def Obligations.RqUint8Codes : Prop :=
  ∀ (x z : Xe), opRq x = some z → allMasked (tokensA x ++ tokensB x) = false →
    bit x.w 50 = false → bit x.w 44 = false → fld x.w 26 25 = 0 → fld x.w 22 21 ≠ 1 → bit x.w 43 = false →
    badFactor (paramsOf x).ma = false →
    z.out.length = 8 ∧ z.t.mem = x.t.mem ∧ z.t.banks = x.t.banks ∧
    ∀ i < 16, ∀ j < 16,
      let p := paramsOf x
      let bank := bankAt x.t (bankKey x (bit x.w 51))
      let v := laneVal bank (16 * i + j)
      let cv := if bit x.w 46 then
          v - sfld x.w 42 27 * (if bit x.w 45 then rowSum bank i else colSum x.t (opB x) i) + biasOf x.t (opB x) i
        else v
      let n := scaledRounded cv p.ma (if bit x.w 47 then 0 else (xtAt x.pl (fld x.w 49 48)).xoff - 10) + p.zp
      let n := if bit x.w 24 then max n p.lo else n
      let n := if bit x.w 23 then min n p.hi else n
      (payByte ((z.out.map (·.data)).getD (j / 2) 0) (16 * (j % 2) + i) : Int) = max 0 (min 255 n)

/-- R137: PASS sends its NA units, SEND the tokens at DA, with payload unchanged and no store; without an error in what they
read, PASS keeps each sideband and SEND keeps V, S and P of each token (before R35 marks all its outputs for another
poisoned token, log 100).

R137: COPY puts every word that it reads at DA into the same place at DC, where its destination does not wrap onto itself;
every other byte of block memory keeps its value. -/
def Obligations.MoverSteps : Prop :=
  (
  (∀ (x z : Xe), opPass x = some z →
    z.out.map (·.data) = (tokensA x).map (·.data) ∧ z.t.mem = x.t.mem ∧ z.t.banks = x.t.banks ∧
    (x.t.ecc = [] → x.pl.sideBad = [] → z.out.map (·.keep) = (tokensA x).map (fun t => some t.sb))) ∧
  (∀ (x z : Xe), opSend x = some z →
    z.out.length = fld x.w 51 40 + 1 ∧ z.t.mem = x.t.mem ∧ z.t.banks = x.t.banks ∧
    ∀ k < fld x.w 51 40 + 1,
      let o := z.out.getD k {}
      o.data = tokenData x.t (opA x) ((2 * k : Nat) : Int) ∧ o.v = tokenV x.pl (opA x) ((2 * k : Nat) : Int) ∧
      o.s = tokenS x.pl (opA x) ((2 * k : Nat) : Int) ∧
      (x.t.ecc = [] → x.pl.sideBad = [] → o.p = tokenP x.pl (opA x) ((2 * k : Nat) : Int)))) ∧ (
  ∀ (x z : Xe), opCopy x = some z → memWf x.t.mem = true → 2 * (fld x.w 51 40 + 1) ≤ (opC x).span → (opC x).span ≤ 2048 →
    (∀ i < 2 * (fld x.w 51 40 + 1), word z.t (opC x) (i : Int) = word x.t (opA x) (i : Int)) ∧
    (∀ a, (∀ i < 2 * (fld x.w 51 40 + 1), a / 16 ≠ opWord (opC x) (i : Int)) → memRead z.t.mem a = memRead x.t.mem a) ∧
    z.t.banks = x.t.banks ∧ z.out = [])

/-- R137 to R139, R117 to R121, R123, R125 to R136, R185, R278: the step forms that store nothing leave block memory as it was. -/
def Obligations.TileStepsWithoutStore : Prop :=
  ∀ op ∈ [opNop, opHurdle, opBand, opBchk, opScale, opStatSend, opSemit, opSend, opPass, opSteer, opMerge, opCrop, opConv, opMatw,
      opDwconv, opMata, opBwd, opWgrad, opZpc, opAccin, opTfn, opElt, opPoolMax, opPoolAverage, opGpoolMaxAcc, opGpoolSumAcc,
      opGpoolEmitMax, opGpoolEmitAvg, opResize, opSoftmax, opLnorm, opLossCe, opLossBce, opLossSmoothL1, opLossDrain],
    ∀ (x z : Xe), op x = some z → z.t.mem = x.t.mem

/-- R122 to R124, R133, R134, R171 to R175, R182, R271, R280, R281: the step forms that store change only bytes of the words that
their destination operand names. -/
def Obligations.TileStoresStayInOperand : Prop :=
  (∀ (x z : Xe), opAccout x = some z → memWf x.t.mem = true → ∀ a, (∀ i : Nat, i < 128 → a / 16 ≠ opWord (opC x) (i : Int)) →
    memRead z.t.mem a = memRead x.t.mem a) ∧
  (∀ (x z : Xe), opRq x = some z → memWf x.t.mem = true → ∀ a, (∀ i : Nat, i < 64 → a / 16 ≠ opWord (opC x) (i : Int)) →
    memRead z.t.mem a = memRead x.t.mem a) ∧
  (∀ (x z : Xe), opRotw x = some z → memWf x.t.mem = true → ∀ a, (∀ i : Nat, i < (if fld x.w 51 50 = 2 then 512 else 2048) → a / 16 ≠ opWord (opA x) (i : Int)) →
    memRead z.t.mem a = memRead x.t.mem a) ∧
  (∀ (x z : Xe), opXformFr x = some z → memWf x.t.mem = true → ∀ a, (∀ i : Nat, i < 18 → a / 16 ≠ opWord (opC x) (i : Int)) →
    memRead z.t.mem a = memRead x.t.mem a) ∧
  (∀ op ∈ [opXformFs, opXformIs], ∀ (x z : Xe), op x = some z → memWf x.t.mem = true → ∀ a, (∀ i : Nat, i < 1152 → a / 16 ≠ opWord (opC x) (i : Int)) →
    memRead z.t.mem a = memRead x.t.mem a) ∧
  (∀ (x z : Xe), opSpec x = some z → memWf x.t.mem = true → ∀ a, (∀ i : Nat, i < 18 → a / 16 ≠ opWord (opC x) (i : Int)) →
    memRead z.t.mem a = memRead x.t.mem a) ∧
  (∀ (x z : Xe), opSelect x = some z → memWf x.t.mem = true → ∀ a, (∀ i < npOf (fld x.w 19 8 + 1) / 4, a / 16 ≠ opWord (opC x) (i : Int)) →
    memRead z.t.mem a = memRead x.t.mem a) ∧
  (∀ (x z : Xe), opOpt x = some z → memWf x.t.mem = true → ∀ a, (∀ i : Nat, i < 16 → a / 16 ≠ opWord (partnerOp x (opA x)) (i : Int)) →
    (∀ i : Nat, i < 64 → a / 16 ≠ opWord (partnerOp x (opB x)) (i : Int)) → memRead z.t.mem a = memRead x.t.mem a) ∧
  (∀ (x z : Xe), opOptFin x = some z → memWf x.t.mem = true → ∀ a, (∀ i : Nat, i < 16 → a / 16 ≠ opWord (partnerOp x (opC x)) (i : Int)) →
    memRead z.t.mem a = memRead x.t.mem a) ∧
  (∀ (x z : Xe), opStatUpdate x = some z → memWf x.t.mem = true → ∀ a,
    (∀ i : Nat, i < 512 → a / 16 ≠ opWord (opA x) (i : Int)) → (∀ i : Nat, i < 256 → a / 16 ≠ opWord (opA x) ((512 + i : Nat) : Int)) →
    memRead z.t.mem a = memRead x.t.mem a)

/-- R179: the candidates are ranked by score, highest first, and among equal scores by index, lowest first. R180: the walk over the ranked candidates keeps at most `slots` of them, in rank order, each one a candidate that no
earlier kept one suppresses; a candidate that is not kept was suppressed by a kept one, or every slot was full. -/
def Obligations.SelectKeepsBest : Prop :=
  ∀ (caw : Bool) (t slots : Nat) (cs : List Cand),
    let kept := (selectWalk caw t slots (rankSort cs) [] 0).1
    (rankSort cs).Perm cs ∧ (rankSort cs).Pairwise (fun a b => cScore b < cScore a ∨ (cScore a = cScore b ∧ a.idx ≤ b.idx)) ∧
    kept.length ≤ slots ∧ kept.Pairwise (fun a b => ranksBefore a b = true) ∧
    kept.Pairwise (fun a b => suppresses caw t b a = false) ∧ (∀ a ∈ kept, a ∈ cs) ∧
    ∀ a ∈ cs, a ∉ kept → kept.length = slots ∨ ∃ k ∈ kept, suppresses caw t a k = true

/-- R102, R103, Table 4-5: after BAND has set its mark, a BCHK over its threshold with re-runs left goes back to the mark with the
counters of that moment, and otherwise releases the band. -/
def Obligations.BandCheckOutcomes : Prop :=
  (∀ (x z : Xe), opBand x = some z →
    z.ctx.bandOpen = true ∧ z.ctx.bandPtr = x.ctx.ptr ∧ z.ctx.bandK = counterValues x.pl x.c ∧ z.ctx.hmask = fld x.w 51 36 ∧
    z.ctx.holdCount = 0) ∧
  (∀ (x z : Xe), opBchk x = some z → x.ctx.wide = false → fld x.w 51 36 < x.ctx.satcnt → x.ctx.runs < fld x.w 35 28 →
    x.ctx.bandK.length = 4 →
    z.rerun = true ∧ z.ctx.ptr = x.ctx.bandPtr ∧ z.ctx.wide = true ∧ z.ctx.runs = x.ctx.runs + 1 ∧ z.ctx.satcnt = 0 ∧
    z.ctx.ackWait = true ∧ z.release = x.release ∧
    (∀ n < 4, (counterAt z.pl (4 * x.c + n)).value = x.ctx.bandK.getD n 0) ∧
    (∀ n, n / 4 ≠ x.c → counterAt z.pl n = counterAt x.pl n)) ∧
  (∀ (x z : Xe), opBchk x = some z → x.ctx.wide = true ∨ x.ctx.satcnt ≤ fld x.w 51 36 ∨ fld x.w 35 28 ≤ x.ctx.runs →
    z.rerun = x.rerun ∧ z.ctx.bandOpen = false ∧ z.ctx.wide = false ∧ z.ctx.satcnt = 0 ∧ z.ctx.holdCount = 0 ∧
    z.release.length = x.ctx.holdCount ∧ z.pl = x.pl)

/-- R27: `issue_next`. Without LOOPEN the context goes to NEXT and no counter moves. With it the loop's counter rises and the
context goes to NEXT until the counter is at its limit; then the counter returns to 0, the context goes to EXIT, and where it is
linked a cascade bumps the counter that LINK names, and so on along the LINK chain (which R28 keeps free of cycles) up to the first
counter that is not at its limit or has no link. The work of a step sees the counters as they stood before it issued. -/
def Obligations.IssueNextCounters : Prop :=
  (∀ (t : TileId) (c : Fin 4) (s : State) (n : Nat), let T := tileAt s.dev t.b.val (keyOf s.dev t)
    counterAt (headWork s t c).pl n = counterAt (planeAt T T.run) n) ∧
  ∀ (p : Plane) (w : BitVec 128),
    (wLoopen w = false → issueNext p w = (p, wNext w)) ∧
    (wLoopen w = true → (counterAt p (wLoopk w)).value ≠ (counterAt p (wLoopk w)).limit →
      (issueNext p w).2 = wNext w ∧
      (counterAt (issueNext p w).1 (wLoopk w)).value = (counterAt p (wLoopk w)).value + 1 ∧
      ∀ n, n ≠ wLoopk w → counterAt (issueNext p w).1 n = counterAt p n) ∧
    (wLoopen w = true → (counterAt p (wLoopk w)).value = (counterAt p (wLoopk w)).limit → (counterAt p (wLoopk w)).linken = false →
      (issueNext p w).2 = wExit w ∧ (counterAt (issueNext p w).1 (wLoopk w)).value = 0 ∧
      ∀ n, n ≠ wLoopk w → counterAt (issueNext p w).1 n = counterAt p n) ∧
    (wLoopen w = true → (counterAt p (wLoopk w)).value = (counterAt p (wLoopk w)).limit → (counterAt p (wLoopk w)).linken = true →
      ∀ (mid : List Nat) (last : Nat), mid.length < 16 → (wLoopk w :: mid ++ [last]).Nodup →
        (wLoopk w :: mid ++ [last]).IsChain (fun a b =>
          (counterAt p a).value = (counterAt p a).limit ∧ (counterAt p a).linken = true ∧ (counterAt p a).link = b) →
        ((counterAt p last).value = (counterAt p last).limit → (counterAt p last).linken = false) →
        (issueNext p w).2 = wExit w ∧ (∀ n ∈ wLoopk w :: mid, (counterAt (issueNext p w).1 n).value = 0) ∧
        (counterAt (issueNext p w).1 last).value
          = (if (counterAt p last).value = (counterAt p last).limit then 0 else (counterAt p last).value + 1) ∧
        ∀ n ∉ wLoopk w :: mid ++ [last], counterAt (issueNext p w).1 n = counterAt p n) ∧
    (issueNext p w).1.iq = p.iq ∧ (issueNext p w).1.oq = p.oq ∧ (issueNext p w).1.g = p.g

/-- R132, R82, R83: SCALE sets the frame registers of its context from the token at the front of IQA, clears its statistic, count
and re-run state, and writes the factors of its kind; pass-through sends the token on unchanged. -/
def Obligations.ScaleSetsFrame : Prop :=
  ∀ (x z : Xe), opScale x = some z →
    let ta := headToken x.t x.pl (wIqa x.w)
    z.ctx.f = ta.sb.f ∧ z.ctx.e = ta.sb.e ∧ z.ctx.stream = stStream ta.data ∧ z.ctx.outTid = qTid (qrecBits x.t (opC x)) ∧
    z.ctx.stat = 0 ∧ z.ctx.any = false ∧ z.ctx.satcnt = 0 ∧ z.ctx.runs = 0 ∧ z.ctx.wide = false ∧
    (fld x.w 46 44 = 3 → z.out.map (·.data) = [ta.data] ∧ z.out.map (·.keep) = [some ta.sb] ∧ z.pl.g = x.pl.g) ∧
    (fld x.w 43 41 = 0 → bit x.w 47 = false →
      let sa := usedScale (qrecBits x.t (opA x)) ta.data
      let sb := usedScale (qrecBits x.t (opB x)) (headToken x.t x.pl (wIqb x.w)).data
      let so := qSdefault (qrecBits x.t (opC x))
      (fld x.w 46 44 = 0 → regRead z.pl (wPr x.w) = f32Div sa so) ∧
      (fld x.w 46 44 = 1 → regRead z.pl (wPr x.w) = f32Div (f32Mul sa sb) so) ∧
      (fld x.w 46 44 = 2 → regRead z.pl (wPr x.w) = f32Div sa so ∧ regRead z.pl (wPr x.w + 1) = f32Div sb so) ∧
      (fld x.w 46 44 = 4 → regRead z.pl (wPr x.w) = f32Div 0x3F800000 so)) ∧
    (∀ n, n ≠ wPr x.w → n ≠ wPr x.w + 1 → regRead z.pl n = regRead x.pl n)

/-! Completion, the router mesh and hurdles (chapters 2, 8 and 11) -/

/-- R32, R36, R104, R283: STEP_COMPLETE takes the oldest step of the context on the unit out of flight and pops its units, once
exactly NO units have been sent;
SEQUENCER_WATCHDOG reports a step that has run for 2^20 FCLK, once; RERUN_ACK ends the wait for an acknowledgement;
BUDGET_REFILL adds ADQ up to ADQ. Block memory and banks keep their contents. -/
def Obligations.SequencerEvents : Prop :=
  (∀ (t : TileId) (c : Fin 4) (u : ExecUnit) (s : State) (f : InFlight),
    let key := keyOf s.dev t
    let o := tileAt s.dev t.b.val key
    berthLive s.dev t.b.val = true → oldestFlight o c.val u = some f → f.sent = f.no → f.nb = 0 → f.ns = 0 → f.band = false →
    ∃ d : Device, exec (.stepComplete t c u) s = .next { s with dev := d } ∧
      (let T := tileAt d t.b.val key
       let q := iqAt (planeAt o o.run) f.iqa
       let q' := iqAt (planeAt T o.run) f.iqa
       T.inflight = o.inflight.erase f ∧ T.bud = (if f.budget then o.bud - f.cycles else o.bud) ∧
       T.mem = o.mem ∧ T.banks = o.banks ∧ q'.occ = q.occ - f.na ∧ q'.consumed = inc32 q.consumed f.na ∧
       (0 < f.na → q'.head = (q.head + f.na) % ringSize q))) ∧
  (∀ (t : TileId) (c : Fin 4) (u : ExecUnit) (s : State) (f : InFlight),
    oldestFlight (tileAt s.dev t.b.val (keyOf s.dev t)) c.val u = some f → f.sent ≠ f.no → exec (.stepComplete t c u) s = .next s) ∧
  (∀ (t : TileId) (c : Fin 4) (u : ExecUnit) (s : State) (f : InFlight),
    let key := keyOf s.dev t
    let o := tileAt s.dev t.b.val key
    watchdogFlight o c.val u (berthAt s.dev t.b.val).fclk = some f →
    ∃ (d : Device) (r : Report), exec (.sequencerWatchdog t c u) s = .next { s with dev := d } ∧
      d.hub.reports = s.dev.hub.reports ++ [r] ∧ r.source = 32 * t.b.val + 4 ∧ r.blame = physTag s.dev t.b.val key ∧
      r.time = s.dev.time ∧ r.info = BitVec.ofNat 32 c.val ∧
      (tileAt d t.b.val key).inflight = o.inflight.map (fun g => if g = f then { g with watched := true } else g)) ∧
  (∀ (t : TileId) (c : Fin 4) (s : State),
    let key := keyOf s.dev t
    let o := tileAt s.dev t.b.val key
    (key, c.val) ∈ (berthAt s.dev t.b.val).rerunAcks →
    ∃ d : Device, exec (.rerunAck t c) s = .next { s with dev := d } ∧
      (berthAt d t.b.val).rerunAcks = (berthAt s.dev t.b.val).rerunAcks.erase (key, c.val) ∧
      (ctxAt (planeAt (tileAt d t.b.val key) o.run) c.val).ackWait = false ∧ (tileAt d t.b.val key).mem = o.mem) ∧
  (∀ (t : TileId) (s : State),
    let key := keyOf s.dev t
    let o := tileAt s.dev t.b.val key
    berthLive s.dev t.b.val = true →
    ∃ d : Device, exec (.budgetRefill t) s = .next { s with dev := d } ∧
      (tileAt d t.b.val key).bud = min (o.bud + ((planeAt o o.run).adapt.adq : Int)) ((planeAt o o.run).adapt.adq : Int) ∧
      (tileAt d t.b.val key).mem = o.mem ∧ (tileAt d t.b.val key).planes = o.planes)

/-- R43 to R46, R49: a good flit at a router that is not its destination, in the turn of its input, leaves its sending end and joins
the output that routing gives, along the row first and then along the column; out of turn it stays. A flit with a wrong CRC stays
where it is and a retry is counted; one from the tile's own core crosses no link, unless the core is a spare behind the relay lane.

R29, R42, R308: a data flit that has reached its tile enters the ring of the plane whose epoch it carries: the payload goes into
the slot behind the newest token, the sideband into the store, OCC and RECEIVED rise by one. -/
def Obligations.FlitReceived : Prop :=
  (
  (∀ (t : TileId) (p : Port) (s : State) (f : Flit) (rest : List Flit) (o : Nat),
    berthLive s.dev t.b.val = true → sourceFlits s.dev t.b.val (flitSource s.dev t p) = f :: rest → flitGood f = true →
    portTurn s.dev t p = true →
    (if t.col.val < flitCol f then o = 1 else if flitCol f < t.col.val then o = 3
      else if t.row.val < flitRow f then o = 2 else o = 0 ∧ flitRow f < t.row.val) →
    ∃ d : Device, exec (.flitReceive t p 0) s = .next { s with dev := d } ∧
      (Tab.get {} (tileAt d t.b.val (tileKey t.col.val t.row.val)).ports o).queue
        = (Tab.get {} (tileAt s.dev t.b.val (tileKey t.col.val t.row.val)).ports o).queue ++ [f] ∧
      sourceFlits d t.b.val (flitSource s.dev t p) = rest ∧ d.od = s.dev.od ∧
      (∀ b k, (tileAt d b k).mem = (tileAt s.dev b k).mem ∧ (tileAt d b k).planes = (tileAt s.dev b k).planes)) ∧
  (∀ (t : TileId) (p : Port) (s : State) (f : Flit) (rest : List Flit) (err : BitVec 296),
    berthLive s.dev t.b.val = true → sourceFlits s.dev t.b.val (flitSource s.dev t p) = f :: rest →
    (p = .core → relayed s.dev t = true) → flitGood (flitErr f err) = false →
    ∃ d : Device, exec (.flitReceive t p err) s = .next { s with dev := d } ∧
      sourceFlits d t.b.val (flitSource s.dev t p) = f :: rest ∧
      (tileAt d t.b.val (tileKey t.col.val t.row.val)).retries
        = (tileAt s.dev t.b.val (tileKey t.col.val t.row.val)).retries + 1 ∧
      (∀ b k, (tileAt d b k).mem = (tileAt s.dev b k).mem ∧ (tileAt d b k).planes = (tileAt s.dev b k).planes)) ∧
  (∀ (t : TileId) (p : Port) (s : State) (f : Flit) (rest : List Flit),
    sourceFlits s.dev t.b.val (flitSource s.dev t p) = f :: rest → flitGood f = true → portTurn s.dev t p = false →
    exec (.flitReceive t p 0) s = .next s)) ∧ (
  ∀ (t : TileId) (p : Port) (s : State) (f : Flit) (rest : List Flit) (k : Nat),
    let b := t.b.val
    let key := keyOf s.dev t
    let o := tileAt s.dev b key
    let iq := f.dest.toNat % 16
    let q := iqAt (planeAt o k) iq
    let slot := (q.head + q.occ) % ringSize q
    berthLive s.dev b = true → sourceFlits s.dev b (flitSource s.dev t p) = f :: rest → flitGood f = true →
    atTile s.dev t p f = true → isMark f.tok = false → portTurn s.dev t p = true →
    epochPlane o f.tok.sb.e = some k → o.portA = [] → memWf o.mem = true →
    ∃ d : Device, exec (.flitReceive t p 0) s = .next { s with dev := d } ∧
      (let T := tileAt d b key
       (iqAt (planeAt T k) iq).occ = q.occ + 1 ∧ (iqAt (planeAt T k) iq).received = q.received + 1 ∧
       (iqAt (planeAt T k) iq).head = q.head ∧ sideAt (planeAt T k) iq slot = f.tok.sb ∧
       memReadNat T.mem (slotAddr q slot) 32 = f.tok.data.toNat ∧
       (∀ a, a < slotAddr q slot ∨ slotAddr q slot + 32 ≤ a → memRead T.mem a = memRead o.mem a) ∧
       (∀ n, n ≠ iq → iqAt (planeAt T k) n = iqAt (planeAt o k) n) ∧ T.banks = o.banks ∧
       sourceFlits d b (flitSource s.dev t p) = rest))

/-- R309: an epoch mark that has reached its tile marks the input queue of the plane of its epoch with the new epoch; R43, R200: a
credit message raises CRED and ACCEPTED of its output queue.

R212, R214, R215, R140: a purser's arrival at a berth or module hurdle, once the work that a berth ties to it is done or, with
none tied, a context has arrived; completion, which takes every context that waits at the
hurdle back to READY and clears the arrivals; and the timeout, which reports source 8 of the berth with the HID. -/
def Obligations.MarksCreditsHurdles : Prop :=
  (
  (∀ (t : TileId) (p : Port) (s : State) (f : Flit) (rest : List Flit) (k : Nat),
    let key := keyOf s.dev t
    let o := tileAt s.dev t.b.val key
    let iq := f.dest.toNat % 16
    berthLive s.dev t.b.val = true → sourceFlits s.dev t.b.val (flitSource s.dev t p) = f :: rest → localMark s.dev t p f = true →
    flitGood f = true → epochPlane o f.tok.sb.e = some k →
    ∃ d : Device, exec (.epochMarkReceive t p) s = .next { s with dev := d } ∧
      (let T := tileAt d t.b.val key
       (iqAt (planeAt T k) iq).mark = true ∧ (iqAt (planeAt T k) iq).markEpoch = markNew f.tok ∧
       (iqAt (planeAt T k) iq).occ = (iqAt (planeAt o k) iq).occ ∧ T.mem = o.mem ∧
       sourceFlits d t.b.val (flitSource s.dev t p) = rest)) ∧
  (∀ (t : TileId) (oq : Fin 16) (s : State) (k n : Nat) (rest : List Nat),
    let key := keyOf s.dev t
    let o := tileAt s.dev t.b.val key
    let q := oqAt (planeAt o k) oq.val
    berthLive s.dev t.b.val = true → creditPlane o oq.val = some k → q.creditIn = n :: rest →
    ∃ d : Device, exec (.creditReceive t oq) s = .next { s with dev := d } ∧
      (let q' := oqAt (planeAt (tileAt d t.b.val key) k) oq.val
       q'.cred = q.cred + n ∧ q'.accepted = inc32 q.accepted n ∧ q'.creditIn = rest ∧ q'.produced = q.produced ∧
       (tileAt d t.b.val key).mem = o.mem))) ∧ (
  (∀ (b : Fin 4) (core : Core) (hid : Fin 256) (s : State), core.val = b.val →
    (hurdleAt s.dev b.val .berth hid.val).withPurser = true → workDone s.dev b.val (hurdleAt s.dev b.val .berth hid.val) = true →
    ∃ d : Device, exec (.hurdlePortWrite core .berth hid) s = .next { s with dev := d } ∧
      (hurdleAt d b.val .berth hid.val).purserArrived = true ∧ (hurdleAt d b.val .berth hid.val).started = true ∧
      d.od = s.dev.od ∧ (∀ b' k, tileAt d b' k = tileAt s.dev b' k)) ∧
  (∀ (hid : Fin 256) (s : State),
    (if moduleTied s.dev hid.val = [] then (hurdleAt s.dev 0 .module hid.val).started = true
      else ∀ b ∈ moduleTied s.dev hid.val, workDone s.dev b (Tab.get {} (berthAt s.dev b).hurdles (512 + hid.val)) = true) →
    ∃ d : Device, exec (.hurdlePortWrite 4 .module hid) s = .next { s with dev := d } ∧
      (hurdleAt d 0 .module hid.val).purserArrived = true ∧ d.berths = s.dev.berths) ∧
  (∀ (b : Fin 4) (hid : Fin 256) (s : State), hurdleFull s.dev b.val .berth hid.val = true → headOf s.dev b.val = none →
    ∃ d : Device, exec (.hurdleComplete b .berth hid) s = .next { s with dev := d } ∧
      (hurdleAt d b.val .berth hid.val).started = false ∧ (hurdleAt d b.val .berth hid.val).purserArrived = false ∧
      ∀ p ∈ positions s.dev b.val, ∀ c,
        let o := tileAt s.dev b.val p.2.2
        let x := ctxAt (planeAt o o.run) c
        isSwapTile o .berth hid.val = false → x.state = .hurdle → x.scope = .berth → x.hid = hid.val →
        (∃ f ∈ o.inflight, f.hurdle = true ∧ f.ctx = c) →
        (ctxAt (planeAt (tileAt d b.val p.2.2) o.run) c).state = .ready ∧
        (ctxAt (planeAt (tileAt d b.val p.2.2) o.run) c).ptr = x.ptr) ∧
  (∀ (b : Fin 4) (scope : Scope) (hid : Fin 256) (s : State), headOf s.dev b.val = none →
    (hurdleAt s.dev b.val scope hid.val).started = true →
    (hurdleAt s.dev b.val scope hid.val).since + 100000 * odGet s.dev 0x8010 8 ≤ s.dev.time →
    ∃ (d : Device) (r : Report), exec (.hurdleTimeout b scope hid) s = .next { s with dev := d } ∧
      d.hub.reports = s.dev.hub.reports ++ [r] ∧ r.source = 32 * b.val + 8 ∧ r.info = BitVec.ofNat 32 hid.val ∧
      r.time = s.dev.time ∧ (hurdleAt d b.val scope hid.val).started = false))

/-! The shuttle and the ledger (chapters 8 and 9) -/

/-- R221, R224: one slot of a link direction. The lap counter advances; a quiesced link sends nothing; a flit to be sent again goes
first; else, with a place in the retry buffer, the oldest flit of the slot's owner, then light traffic, then in an unowned slot
background traffic. -/
def Obligations.ShuttleSlotOrder : Prop :=
  ∀ (l : LinkDir) (s : State), linkLive s.dev l = true →
    let x := linkAt s.dev (linkKey l)
    let owner := slotOwner (linkKey l) x
    let idle := x.quiesced = false ∧ x.retry = [] ∧ retryFull (linkKey l) x = false
    ∃ d : Device, exec (.shuttleSlotSend l) s = .next { s with dev := d } ∧
      (let y := linkAt d (linkKey l)
       y.lap = x.lap + 1 ∧ y.tt = x.tt ∧ y.flows = x.flows ∧ d.berths = s.dev.berths ∧ d.od = s.dev.od ∧
       (x.quiesced = true → y.wire = x.wire ∧ y.queues = x.queues ∧ y.light = x.light ∧ y.bg = x.bg ∧ y.retry = x.retry) ∧
       (x.quiesced = false → ∀ f rest, x.retry = f :: rest →
         y.wire = x.wire ++ [f] ∧ y.retry = rest ∧ y.retries = x.retries + 1 ∧ y.queues = x.queues) ∧
       (x.retry = [] → retryFull (linkKey l) x = true → y.wire = x.wire ∧ y.queues = x.queues ∧ y.light = x.light ∧ y.bg = x.bg) ∧
       (idle → owner ≠ 0 → ∀ w ws, flowQueue x owner = w :: ws → hasRoom x owner = true →
         y.wire = x.wire ++ [(w.flit, owner)] ∧ flowQueue y owner = ws ∧ (∀ n, n ≠ owner → flowQueue y n = flowQueue x n) ∧
         y.light = x.light ∧ y.bg = x.bg) ∧
       (idle → (owner = 0 ∨ flowReady x owner = false) → hasRoom x 256 = true →
         ∀ w ws, x.light = w :: ws → y.wire = x.wire ++ [(w.flit, 256)] ∧ y.light = ws ∧ y.queues = x.queues ∧ y.bg = x.bg) ∧
       (idle → owner = 0 → (x.light = [] ∨ hasRoom x 256 = false) → hasRoom x 257 = true →
         ∀ w ws, x.bg = w :: ws → y.wire = x.wire ++ [(w.flit, 257)] ∧ y.bg = ws ∧ y.queues = x.queues ∧ y.light = x.light))

/-- R220, R222, R229, R46: a good flit leaves the wire for the next link of its path, or at a pass port goes on to its tile; a flit
with a wrong CRC is sent again with every later one. When the spare lane has been trained, the lane runs again. -/
def Obligations.ShuttleFlitArrives : Prop :=
  (∀ (l : LinkDir) (s : State) (f : ShFlit) (cls : Nat) (rest : List (ShFlit × Nat)) (die : Nat),
    let x := linkAt s.dev (linkKey l)
    let next := landingLink die f.src f.dest
    let w : Waiting := { flit := f, via := linkKey l + 1, cls := cls }
    let n := flitClass next (linkAt s.dev next) f
    linkLive s.dev l = true → x.wire = (f, cls) :: rest → shGood f = true → linkLanding (linkKey l) = some die → next ≠ linkKey l →
    ∃ d : Device, exec (.shuttleFlitReceive l 0) s = .next { s with dev := d } ∧
      (linkAt d (linkKey l)).wire = rest ∧ (linkAt d (linkKey l)).fails = 0 ∧
      (f.typ = 0 → flowQueue (linkAt d next) n = flowQueue (linkAt s.dev next) n ++ [w]) ∧
      (f.typ = 1 → (linkAt d next).light = (linkAt s.dev next).light ++ [w]) ∧
      (f.typ = 2 → (linkAt d next).bg = (linkAt s.dev next).bg ++ [w]) ∧
      d.berths = s.dev.berths ∧ d.hub = s.dev.hub) ∧
  (∀ (b : Fin 4) (st : Fin 20) (s : State) (f : ShFlit) (cls : Nat) (rest : List (ShFlit × Nat)),
    let key := linkKey (.stationDown b st)
    let sp := portAt s.dev (epKey f.dest)
    linkLive s.dev (.stationDown b st) = true → (linkAt s.dev key).wire = (f, cls) :: rest → shGood f = true →
    epIsStation f.dest = true → f.typ = 0 → sp.valid = true → sp.link = false → (berthAt s.dev (epDomain f.dest)).incoming = none →
    ∃ d : Device, exec (.shuttleFlitReceive (.stationDown b st) 0) s = .next { s with dev := d } ∧
      (linkAt d key).wire = rest ∧ classUsed (linkAt d key) cls = classUsed (linkAt s.dev key) cls - 1 ∧
      (let n := 20 * (epKey f.dest / 1280) + epKey f.dest / 64 % 20
       Tab.get [] d.toTile n = Tab.get [] s.dev.toTile n
         ++ [makeFlit { data := f.data, sb := f.sb } false (tileDest sp.dcol sp.drow sp.diq)]) ∧ d.berths = s.dev.berths) ∧
  (∀ (l : LinkDir) (s : State) (f : ShFlit) (cls : Nat) (rest : List (ShFlit × Nat)) (err : BitVec 336),
    let x := linkAt s.dev (linkKey l)
    linkLive s.dev l = true → x.wire = (f, cls) :: rest → shGood (shErr f err) = false →
    ∃ d : Device, exec (.shuttleFlitReceive l err) s = .next { s with dev := d } ∧
      (linkAt d (linkKey l)).wire = [] ∧ (linkAt d (linkKey l)).retry = (f, cls) :: rest ++ x.retry ∧
      (linkAt d (linkKey l)).fails = x.fails + 1 ∧ d.berths = s.dev.berths ∧ d.toTile = s.dev.toTile) ∧
  (∀ (from1 : Bool) (n : Fin 20) (s : State), s.dev.laneSwitch = some (32 * b2n from1 + n.val) →
    ∃ d : Device, exec (.gangwaySpareTrained from1 n) s = .next { s with dev := d } ∧ d.laneSwitch = none ∧
      ∀ k ∈ [200 + n.val, 220 + n.val],
        (linkAt d k).quiesced = false ∧ (linkAt d k).fails = 0 ∧ (linkAt d k).wire = [] ∧
        (linkAt d k).retry = (linkAt s.dev k).wire ++ (linkAt s.dev k).retry ∧ (linkAt d k).queues = (linkAt s.dev k).queues)

/-- R219: a station forwards the credits of an inbound pass port to its unit as one light flit; R210: a sender forwards one whole
unit under the stamp FILLED[15:0], a receiver sends its FREED value, and the sender takes a value in its window and counts one
outside it. -/
def Obligations.StationLinkCommands : Prop :=
  (∀ (b : Fin 4) (st : Fin 20) (p : Fin 64) (s : State),
    let pk := portKey b.val st.val p.val
    let sp := portAt s.dev pk
    let link := 20 * b.val + st.val
    sp.valid = true → sp.link = false → sp.inbound = true → 0 < sp.credits → berthLive s.dev b.val = true →
    (berthAt s.dev b.val).incoming = none →
    ∃ (d : Device) (w : Waiting), exec (.stationCreditForward b st p) s = .next { s with dev := d } ∧
      (portAt d pk).credits = 0 ∧ (linkAt d link).light = (linkAt s.dev link).light ++ [w] ∧
      w.flit.data = BitVec.ofNat 256 sp.credits ∧ w.flit.dest = sp.peer ∧ w.flit.typ = 1 ∧ shGood w.flit = true ∧
      d.berths = s.dev.berths ∧ d.od = s.dev.od) ∧
  (∀ (b : Fin 4) (st : Fin 20) (p : Fin 64) (s : State),
    let pk := portKey b.val st.val p.val
    let sp := portAt s.dev pk
    let link := linkAt s.dev (20 * b.val + st.val)
    let tg := flitClass (20 * b.val + st.val) link { src := keyEp pk, dest := linkPeer s.dev pk }
    sp.valid = true → sp.link = true → sp.fin.receiver = false → berthLive s.dev b.val = true → sp.fin.mark = none →
    (berthAt s.dev b.val).incoming = none →
    2 ^ sp.fin.grain ≤ sp.fin.buf.length → (sp.fin.filled - sp.fin.freed).toNat < sp.fin.cap + 1 →
    ∃ d : Device, exec (.linkUnitForward b st p) s = .next { s with dev := d } ∧
      (portAt d pk).fin.filled = sp.fin.filled + 1 ∧ (portAt d pk).fin.buf = sp.fin.buf.drop (2 ^ sp.fin.grain) ∧
      (flowQueue (linkAt d (20 * b.val + st.val)) tg).map (fun w => (w.flit.data, w.flit.sb, w.flit.stamp, w.flit.dest))
        = (flowQueue link tg).map (fun w => (w.flit.data, w.flit.sb, w.flit.stamp, w.flit.dest))
          ++ (sp.fin.buf.take (2 ^ sp.fin.grain)).map (fun t =>
            (t.data, t.sb, BitVec.ofNat 16 sp.fin.filled.toNat, linkPeer s.dev pk)) ∧
      d.berths = s.dev.berths) ∧
  (∀ (b : Fin 4) (st : Fin 20) (p : Fin 64) (s : State),
    let pk := portKey b.val st.val p.val
    let sp := portAt s.dev pk
    let link := 20 * b.val + st.val
    sp.valid = true → sp.link = true → sp.fin.receiver = true → sp.fin.freed ≠ sp.fin.sentFreed → berthLive s.dev b.val = true →
    (berthAt s.dev b.val).incoming = none →
    ∃ (d : Device) (w : Waiting), exec (.linkFreedSend b st p) s = .next { s with dev := d } ∧
      (portAt d pk).fin.sentFreed = sp.fin.freed ∧ (portAt d pk).fin.freed = sp.fin.freed ∧
      (linkAt d link).light = (linkAt s.dev link).light ++ [w] ∧ w.flit.data = BitVec.ofNat 256 sp.fin.freed.toNat ∧
      w.flit.dest = linkPeer s.dev pk ∧ w.flit.typ = 1) ∧
  (∀ (b : Fin 4) (st : Fin 20) (p : Fin 64) (s : State) (v : U32) (vs : List U32),
    let pk := portKey b.val st.val p.val
    let sp := portAt s.dev pk
    sp.valid = true → sp.link = true → sp.fin.receiver = false → berthLive s.dev b.val = true → sp.fin.freedIn = v :: vs →
    (berthAt s.dev b.val).incoming = none →
    ∃ d : Device, exec (.linkFreedAccept b st p) s = .next { s with dev := d } ∧ (portAt d pk).fin.freedIn = vs ∧
      (portAt d pk).fin.filled = sp.fin.filled ∧
      ((v - sp.fin.freed).toNat ≤ sp.fin.cap + 1 → (portAt d pk).fin.freed = v ∧ (portAt d pk).fin.ignored = sp.fin.ignored) ∧
      (sp.fin.cap + 1 < (v - sp.fin.freed).toNat →
        (portAt d pk).fin.freed = sp.fin.freed ∧ (portAt d pk).fin.ignored = sp.fin.ignored + 1))

/-- R226, R227: at a lap start a waiting timetable comes into force with its flow entries; on a link that the berths share it fills
the 64 slots s with s mod 4 = b and leaves the others, and the other berths' flow entries, as they were. -/
def Obligations.TimetableSwitches : Prop :=
  ∀ (l : LinkDir) (s : State) (n : Nat × Tab Nat × Tab FlowEntry) (rest : List (Nat × Tab Nat × Tab FlowEntry)),
    let x := linkAt s.dev (linkKey l)
    x.nextTt = n :: rest → x.lap = 0 → linkClear s.dev x n.1 = true → linkLive s.dev l = true → n.1 < 4 →
    ∃ d : Device, exec (.timetableSwitch l) s = .next { s with dev := d } ∧
      (let y := linkAt d (linkKey l)
       y.nextTt = rest ∧ y.queues = x.queues ∧ y.wire = x.wire ∧ y.lap = x.lap ∧
       (linkShared (linkKey l) = false → y.tt = n.2.1 ∧ y.flows = n.2.2) ∧
       (linkShared (linkKey l) = true → ∀ slot < 256,
         Tab.get 0 y.tt slot = if slot % 4 = n.1 then Tab.get 0 n.2.1 (slot / 4) else Tab.get 0 x.tt slot) ∧
       (linkShared (linkKey l) = true → ∀ k, k / 64 ≠ n.1 → Tab.find y.flows k = Tab.find x.flows k)) ∧
      (∀ k, k ≠ linkKey l → linkAt d k = linkAt s.dev k) ∧ d.berths = s.dev.berths

/-- R232 to R234: a tick latches every loop and ring of the loaded berths; a check of loops and rings that all balance reports
nothing; one that fails for the first time is reported as of the tick under source 18 of its berth with its
latched counters; the counters stay.

R231, R233 (A): the equation INIT + RECEIVED = CONSUMED + DISCC + OCC of a ring holds after a token has arrived and after units
within its occupancy have been popped, if it held before; R233 (C) likewise. -/
def Obligations.LedgerBalances : Prop :=
  (
  (∀ s : State, s.dev.power.fabric = true → mstate s.dev = 0 → s.dev.hub.latch = none →
    ∃ (d : Device) (x : Latch), exec .ledgerTick s = .next { s with dev := d } ∧ d.hub.latch = some x ∧ x.time = s.dev.time ∧
      x.loops = (loadedBerths s.dev).flatMap (fun b => tileLoops s.dev b ++ portLoops s.dev b ++ semLatch s.dev b) ∧
      x.rings = ringLatches s.dev ∧ d.hub.reports = s.dev.hub.reports ∧ d.berths = s.dev.berths ∧ d.od = s.dev.od) ∧
  (∀ (s : State) (x : Latch), s.dev.hub.latch = some x →
    (∀ l ∈ x.loops, (l.linked = false → loopHolds l = true) ∧ (l.linked = true → semHolds l = true)) →
    (∀ r ∈ x.rings, ringHolds r = true) →
    exec .ledgerCheck s = .next { s with dev := { s.dev with hub := { s.dev.hub with latch := none } } }) ∧
  (∀ (s : State) (x : Latch) (l : LoopLatch), s.dev.hub.latch = some x → x.loops = [l] → x.rings = [] → l.linked = false →
    loopHolds l = false → (32 * l.berth + 18, l.qid) ∉ s.dev.hub.imbalanced →
    ∃ (d : Device) (r : Report), exec .ledgerCheck s = .next { s with dev := d } ∧ d.hub.latch = none ∧
      d.hub.reports = s.dev.hub.reports ++ [r] ∧ r.source = 32 * l.berth + 18 ∧ r.time = x.time ∧ r.blame = l.blame ∧
      r.info = BitVec.ofNat 32 l.qid ∧ r.counters = some (.loop l) ∧ d.berths = s.dev.berths ∧ d.ports = s.dev.ports ∧ d.ends = s.dev.ends)) ∧ (
  ∀ (d : Device) (b key k iq : Nat),
    let bal := fun (q : InQueue) => BitVec.ofNat 32 q.init + q.received = q.consumed + q.discc + BitVec.ofNat 32 q.occ ∧
      q.returned = q.consumed + q.discc
    bal (iqAt (planeAt (tileAt d b key) k) iq) →
    (∀ tok, bal (iqAt (planeAt (tileAt (arriveToken d b key k iq tok) b key) k) iq)) ∧
    (∀ n, n ≤ (iqAt (planeAt (tileAt d b key) k) iq).occ → bal (iqAt (planeAt (tileAt (popRing d b key k iq n) b key) k) iq)))

/-- Tables 2-10, 9-4: a router flit's 296 bits and a shuttle flit's 336 bits hold every field of it: read back without an error they
give the flit itself, and a flit made from a token passes its CRC. -/
def Obligations.FlitBitsReadBack : Prop :=
  (∀ f : Flit, flitErr f 0 = f) ∧ (∀ f : ShFlit, shErr f 0 = f) ∧
  (∀ (t : Token) (shut : Bool) (dest : BitVec 14),
    flitGood (makeFlit t shut dest) = true ∧ (makeFlit t shut dest).tok = t ∧ (makeFlit t shut dest).dest = dest) ∧
  (∀ f : ShFlit, shGood (shSeal f) = true ∧ (shSeal f).data = f.data ∧ (shSeal f).sb = f.sb ∧ (shSeal f).stamp = f.stamp) ∧
  (∀ sb : Sideband, sideOf (sideNat sb) = sb)

/-! Stride engines, the pacer and HBM (chapter 10) -/

/-- R246, R247, R250: the register and loop instructions of a stride engine, in their thread's turn. Each takes its thread to the next word, or to the loop's
start or the entry, and changes the one register that it names; tiles, HBM and objects keep their values.

R246, R251, Table 10-7: TAKE waits for its semaphore and takes one from it; POST raises it once the thread's writes are
acknowledged; FENCE passes then; out of its thread's turn no instruction issues. WR_ACKNOWLEDGE ends the engine's oldest write that HBM has performed. -/
def Obligations.StrideControl : Prop :=
  (
  ∀ (b : Fin 4) (e : Fin 16) (pt : Fin 4) (s : State), engineSwitched s.dev b.val e.val = false →
    let x := seOf s.dev b.val e.val pt.val
    let th := x.th
    let turn := threadTurn s.dev b.val e.val pt.val = true
    let done := fun (i : Instr) (p : Thread → Prop) =>
      ∃ d : Device, exec i s = .next { s with dev := d } ∧ p (seOf d b.val e.val pt.val).th ∧ d.od = s.dev.od ∧
        (∀ b' k, tileAt d b' k = tileAt s.dev b' k) ∧ (∀ b', (berthAt d b').hbm = (berthAt s.dev b').hbm) ∧
        (seOf d b.val e.val pt.val).g.prog = x.g.prog ∧ (seOf d b.val e.val pt.val).g.eqs = x.g.eqs ∧
        (∀ pt', pt' ≠ pt.val → Tab.get {} (seOf d b.val e.val pt.val).g.threads pt' = Tab.get {} x.g.threads pt')
    (strideHead 0x01 s.dev x = true → turn → done (.seta b e pt) (fun t => t.pc = nextPc x ∧ Tab.get 0 t.a (sAr x.w) = sImm x.w ∧
      (∀ n, n ≠ sAr x.w → Tab.get 0 t.a n = Tab.get 0 th.a n) ∧ t.l = th.l ∧ t.sc = th.sc)) ∧
    (strideHead 0x02 s.dev x = true → turn → done (.adda b e pt) (fun t => t.pc = nextPc x ∧
      Tab.get 0 t.a (sAr x.w) = Tab.get 0 th.a (sAr x.w) + sImm x.w ∧
      (∀ n, n ≠ sAr x.w → Tab.get 0 t.a n = Tab.get 0 th.a n) ∧ t.l = th.l ∧ t.sc = th.sc)) ∧
    (strideHead 0x03 s.dev x = true → turn → done (.sets b e pt) (fun t => t.pc = nextPc x ∧
      Tab.get 0 t.a (sAr x.w) = th.sc * sImm x.w ∧
      (∀ n, n ≠ sAr x.w → Tab.get 0 t.a n = Tab.get 0 th.a n) ∧ t.l = th.l ∧ t.sc = th.sc)) ∧
    (strideHead 0x04 s.dev x = true → turn → done (.nexts b e pt) (fun t => t.pc = nextPc x ∧ t.a = th.a ∧ t.l = th.l ∧
      (sImm x.w ≠ 0 → t.sc = BitVec.ofNat 32 ((th.sc.toNat + 1) % (sImm x.w).toNat)))) ∧
    (strideHead 0x08 s.dev x = true → turn → done (.loop b e pt) (fun t => t.pc = nextPc x ∧ t.a = th.a ∧ t.sc = th.sc ∧
      Tab.get 0 t.l (sLc x.w) = sImm x.w ∧ Tab.get 0 t.lstart (sLc x.w) = nextPc x ∧
      (∀ n, n ≠ sLc x.w → Tab.get 0 t.l n = Tab.get 0 th.l n))) ∧
    (strideHead 0x09 s.dev x = true → turn → done (.endl b e pt) (fun t => t.a = th.a ∧ t.sc = th.sc ∧
      Tab.get 0 t.l (sLc x.w) = Tab.get 0 th.l (sLc x.w) - 1 ∧
      t.pc = (if Tab.get 0 th.l (sLc x.w) = 1 then nextPc x else Tab.get 0 th.lstart (sLc x.w)))) ∧
    (strideHead 0x3F s.dev x = true → turn → (berthAt s.dev b.val).co.active = false →
      done (.endp b e pt) (fun t => t.pc = th.entry ∧ t.a = th.a ∧ t.l = th.l ∧ t.sc = th.sc))) ∧ (
  (∀ (b : Fin 4) (e : Fin 16) (pt : Fin 4) (s : State), engineSwitched s.dev b.val e.val = false →
    let x := seOf s.dev b.val e.val pt.val
    let n := (sImm x.w).toNat % 4
    let turn := threadTurn s.dev b.val e.val pt.val = true
    (strideHead 0x18 s.dev x = true → 0 < Tab.get 0 x.g.sems n → turn →
      ∃ d : Device, exec (.take b e pt) s = .next { s with dev := d } ∧
        (let y := seOf d b.val e.val pt.val
         Tab.get 0 y.g.sems n = Tab.get 0 x.g.sems n - 1 ∧ y.th = { x.th with pc := nextPc x } ∧ d.od = s.dev.od)) ∧
    (strideHead 0x18 s.dev x = true → Tab.get 0 x.g.sems n = 0 → exec (.take b e pt) s = .next s) ∧
    (strideHead 0x19 s.dev x = true → writesAcked s.dev x = true → Tab.get 0 x.g.sems n < 255 → turn →
      ∃ d : Device, exec (.post b e pt) s = .next { s with dev := d } ∧
        (let y := seOf d b.val e.val pt.val
         Tab.get 0 y.g.sems n = Tab.get 0 x.g.sems n + 1 ∧ y.th = { x.th with pc := nextPc x } ∧ d.od = s.dev.od)) ∧
    (strideHead 0x1A s.dev x = true → writesAcked s.dev x = true → turn →
      ∃ d : Device, exec (.fence b e pt) s = .next { s with dev := d } ∧
        (let y := seOf d b.val e.val pt.val
         y.g.sems = x.g.sems ∧ y.th = { x.th with pc := nextPc x } ∧ d.od = s.dev.od)) ∧
    (strideHead 0x1A s.dev x = true → writesAcked s.dev x = false → exec (.fence b e pt) s = .next s) ∧
    (∀ i ∈ [Instr.seta, .adda, .sets, .nexts, .loop, .endl, .rd, .wr, .pad, .take, .post, .fence, .endp],
      threadTurn s.dev b.val e.val pt.val = false → exec (i b e pt) s = .next s)) ∧
  (∀ (b : Fin 4) (e : Fin 16) (s : State), berthLive s.dev b.val = true →
    ∃ d : Device, exec (.wrAcknowledge b e) s = .next { s with dev := d } ∧
      (berthAt d b.val).hbm.transfers = (berthAt s.dev b.val).hbm.transfers.eraseP
        (fun t => decide (t.engine = e.val) && t.write && t.done) ∧
      (berthAt d b.val).hbm.mem = (berthAt s.dev b.val).hbm.mem ∧ (berthAt d b.val).engines = (berthAt s.dev b.val).engines))

/-- R249 to R252: RD inside its region takes credits and opens a read, outside it reports source 13 and opens none; WR inside it claims
the oldest unclaimed tokens of the buffer, which keep their space until they leave for the controller, and opens a write, outside it
discards them; PAD sends its tokens. FR is no longer an earlier read's to set. AR moves on under INC. -/
def Obligations.StrideTransfers : Prop :=
  ∀ (b : Fin 4) (e : Fin 16) (pt : Fin 4) (s : State), engineSwitched s.dev b.val e.val = false →
    let x := seOf s.dev b.val e.val pt.val
    let u := endAt s.dev (eqKey x)
    let old := (berthAt s.dev b.val).hbm.transfers
    let ar := if sInc x.w then arOf x + BitVec.ofNat 32 (sLen x.w) else arOf x
    let past := old.map (fun t => if t.engine = e.val ∧ t.thread = pt.val then { t with fr := false } else t)
    let turn := threadTurn s.dev b.val e.val pt.val = true
    (strideHead 0x10 s.dev x = true → rdReady s.dev x = true → turn → sLctl x.w ≠ 3 → (arOf x).toNat + sLen x.w ≤ x.th.size →
      ∃ (d : Device) (t : Transfer), exec (.rd b e pt) s = .next { s with dev := d } ∧
        (berthAt d b.val).hbm.transfers = past ++ [t] ∧ t.engine = e.val ∧ t.thread = pt.val ∧ t.eq = sEq x.w ∧ t.write = false ∧
        t.fr = true ∧ t.addr = x.th.base / 32 + (arOf x).toNat ∧ t.len = sLen x.w ∧ t.lctl = sLctl x.w ∧
        (endAt d (eqKey x)).cred = u.cred - sLen x.w ∧ arOf { x with th := (seOf d b.val e.val pt.val).th } = ar ∧
        (seOf d b.val e.val pt.val).th.pc = nextPc x ∧ d.hub = s.dev.hub) ∧
    (strideHead 0x10 s.dev x = true → rdReady s.dev x = true → turn → sLctl x.w ≠ 3 → x.th.size < (arOf x).toNat + sLen x.w →
      ∃ (d : Device) (r : Report), exec (.rd b e pt) s = .next { s with dev := d } ∧
        (berthAt d b.val).hbm.transfers = old ∧ d.hub.reports = s.dev.hub.reports ++ [r] ∧ r.source = 32 * b.val + 13 ∧
        (endAt d (eqKey x)).cred = u.cred - sLen x.w ∧ (seOf d b.val e.val pt.val).th.pc = nextPc x) ∧
    (strideHead 0x11 s.dev x = true → wrReady s.dev x = true → turn → (arOf x).toNat + sLen x.w ≤ x.th.size →
      ∃ (d : Device) (t : Transfer), exec (.wr b e pt) s = .next { s with dev := d } ∧
        (berthAt d b.val).hbm.transfers = past ++ [t] ∧ t.write = true ∧ t.tokens = (u.tokens.drop u.claimed).take (sLen x.w) ∧
        t.addr = x.th.base / 32 + (arOf x).toNat ∧ t.len = sLen x.w ∧ t.engine = e.val ∧ t.done = false ∧
        endAt d (eqKey x) = { u with claimed := u.claimed + sLen x.w } ∧
        (seOf d b.val e.val pt.val).th.pc = nextPc x ∧ d.hub = s.dev.hub) ∧
    (strideHead 0x11 s.dev x = true → wrReady s.dev x = true → turn → x.th.size < (arOf x).toNat + sLen x.w →
      ∃ (d : Device) (r : Report), exec (.wr b e pt) s = .next { s with dev := d } ∧
        (berthAt d b.val).hbm.transfers = past ∧ d.hub.reports = s.dev.hub.reports ++ [r] ∧ r.source = 32 * b.val + 13 ∧
        (endAt d (eqKey x)).tokens = u.tokens.take u.claimed ++ u.tokens.drop (u.claimed + sLen x.w) ∧
        (endAt d (eqKey x)).consumed = inc32 u.consumed (sLen x.w) ∧ (seOf d b.val e.val pt.val).th.pc = nextPc x) ∧
    (strideHead 0x12 s.dev x = true → padReady s.dev x = true → turn → sLctl x.w ≠ 3 → (arOf x).toNat + sLen x.w ≤ x.th.size →
      ∃ d : Device, exec (.pad b e pt) s = .next { s with dev := d } ∧
        (endAt d (eqKey x)).cred = u.cred - sLen x.w ∧ (endAt d (eqKey x)).reserved = u.reserved ∧
        (endAt d (eqKey x)).produced = u.produced + BitVec.ofNat 32 (sLen x.w) ∧
        (berthAt d b.val).hbm = (berthAt s.dev b.val).hbm ∧ (seOf d b.val e.val pt.val).th.pc = nextPc x ∧ d.hub = s.dev.hub) ∧
    (strideHead 0x12 s.dev x = true → padReady s.dev x = true → turn → sLctl x.w ≠ 3 → x.th.size < (arOf x).toNat + sLen x.w →
      ∃ (d : Device) (r : Report), exec (.pad b e pt) s = .next { s with dev := d } ∧
        d.hub.reports = s.dev.hub.reports ++ [r] ∧ r.source = 32 * b.val + 13 ∧ (endAt d (eqKey x)).cred = u.cred - sLen x.w ∧
        (endAt d (eqKey x)).produced = u.produced + BitVec.ofNat 32 (sLen x.w) ∧ (seOf d b.val e.val pt.val).th.pc = nextPc x) ∧
    (strideHead 0x10 s.dev x = true → rdReady s.dev x = true → turn → sLctl x.w = 3 → exec (.rd b e pt) s = .refused .reservedField) ∧
    (strideHead 0x12 s.dev x = true → padReady s.dev x = true → turn → sLctl x.w = 3 → exec (.pad b e pt) s = .refused .reservedField)

/-- R255: the pacer grants the pending rated request with the smallest τ, ties to the lower unit port and then the lower queue; a
light request goes first after 15 grants without one. The grant admits the oldest transfer of that queue; the tokens of a write leave
the engine's buffer for the controller (R250). -/
def Obligations.PacerGrantsLeast : Prop :=
  (∀ (b : Fin 4) (s : State) (r : PaceReq),
    let h := (berthAt s.dev b.val).hbm
    hbmLive s.dev b.val = true → h.admission.length < 32 → (h.lightQ = [] ∨ h.sinceLight < 15) →
    paceBest (paceReqs s.dev b.val) = some r →
    ∃ d : Device, exec (.pacerGrant b) s = .next { s with dev := d } ∧
      (berthAt d b.val).hbm.admission = h.admission ++ [.transfer (r.unit - 16 * (b.val % 2)) r.eq] ∧
      (berthAt d b.val).hbm.transfers = admitFirst (r.unit - 16 * (b.val % 2)) r.eq h.transfers ∧
      (berthAt d b.val).hbm.lightQ = h.lightQ ∧ (berthAt d b.val).hbm.mem = h.mem ∧ d.od = s.dev.od ∧
      (∀ t, engineSwitched s.dev b.val (r.unit - 16 * (b.val % 2)) = false → nextTransfer h (r.unit - 16 * (b.val % 2)) r.eq = some t →
        let pk := epKey (Tab.get {} (engineAt (berthAt s.dev b.val) (r.unit - 16 * (b.val % 2))).eqs r.eq).peer
        let u := endAt s.dev pk
        (t.write = false → endAt d pk = u) ∧
        (t.write = true → t.len ≤ u.tokens.length → (endAt d pk).tokens = u.tokens.drop t.len ∧
          (endAt d pk).claimed = u.claimed - t.len ∧ (endAt d pk).consumed = inc32 u.consumed t.len))) ∧
  (∀ (b : Fin 4) (s : State) (l : LightReq) (rest : List LightReq),
    let h := (berthAt s.dev b.val).hbm
    hbmLive s.dev b.val = true → h.admission.length < 32 → h.lightQ = l :: rest →
    (15 ≤ h.sinceLight ∨ paceReqs s.dev b.val = []) →
    ∃ d : Device, exec (.pacerGrant b) s = .next { s with dev := d } ∧
      (berthAt d b.val).hbm.admission = h.admission ++ [.light l] ∧ (berthAt d b.val).hbm.lightQ = rest ∧
      (berthAt d b.val).hbm.sinceLight = 0 ∧ (berthAt d b.val).hbm.transfers = h.transfers) ∧
  (∀ (rs : List PaceReq) (r : PaceReq), paceBest rs = some r → r ∈ rs ∧ ∀ q ∈ rs, paceBefore q r = false)

/-- R240, R241, R251, R257: the oldest admitted access completes: a write puts its tokens at rising addresses and waits to be
acknowledged, a read ends and its tokens leave, a light read answers the bytes, a light write stores them; a byte that the spec gives
no layout reads as a free value. A light request beyond the 12 GiB is no address: it faults; one from an endpoint that does not reach
the berth's HBM has no effect (R242). -/
def Obligations.HbmAccesses : Prop :=
  (∀ (b : Fin 4) (s : State) (e q : Nat) (rest : List Access) (t : Transfer),
    let h := (berthAt s.dev b.val).hbm
    hbmLive s.dev b.val = true → memWf h.mem = true → h.admission = .transfer e q :: rest →
    h.transfers.find? (fun t => decide (t.engine = e) && decide (t.eq = q) && t.admitted && !t.done) = some t → t.write = true →
    ∃ d : Device, exec (.hbmAccessComplete b) s = .next { s with dev := d } ∧
      (let g := (berthAt d b.val).hbm
       g.admission = rest ∧ (∀ i (hi : i < t.tokens.length), (hbmToken g (t.addr + i)).data = t.tokens[i].data) ∧
       (∀ a, a < 32 * t.addr ∨ 32 * (t.addr + t.tokens.length) ≤ a → memRead g.mem a = memRead h.mem a) ∧
       g.transfers = h.transfers.replace t { t with done := true, tokens := [] } ∧
       (berthAt d b.val).tiles = (berthAt s.dev b.val).tiles)) ∧
  (∀ (b : Fin 4) (s : State) (e q : Nat) (rest : List Access) (t : Transfer),
    let h := (berthAt s.dev b.val).hbm
    let pk := epKey (Tab.get {} (engineAt (berthAt s.dev b.val) t.engine).eqs t.eq).peer
    hbmLive s.dev b.val = true → h.admission = .transfer e q :: rest →
    h.transfers.find? (fun t => decide (t.engine = e) && decide (t.eq = q) && t.admitted && !t.done) = some t → t.write = false →
    ∃ d : Device, exec (.hbmAccessComplete b) s = .next { s with dev := d } ∧
      (berthAt d b.val).hbm.admission = rest ∧ (berthAt d b.val).hbm.transfers = h.transfers.erase t ∧
      (berthAt d b.val).hbm.mem = h.mem ∧
      (engineSwitched s.dev b.val t.engine = false → (endAt d pk).produced = (endAt s.dev pk).produced + BitVec.ofNat 32 t.len)) ∧
  (∀ (b : Fin 4) (s : State) (r : LightReq) (rest : List Access),
    let h := (berthAt s.dev b.val).hbm
    hbmLive s.dev b.val = true → memWf h.mem = true → h.admission = .light r :: rest →
    ∃ d : Device, exec (.hbmAccessComplete b) s = .next { s with dev := d } ∧
      (let g := (berthAt d b.val).hbm
       g.admission = rest ∧ g.transfers = h.transfers ∧
       (r.write = false → g.mem = h.mem ∧ ∃ bs, g.lightOut = h.lightOut ++ [(r.src, bs)] ∧ bs.length = r.len ∧
         ∀ i < r.len, unlaidByte s.dev b.val (r.addr + i) = false → bs.getD i 0 = memRead h.mem (r.addr + i)) ∧
       (r.write = true → r.data.length = r.len → g.lightOut = h.lightOut ++ [(r.src, [])] ∧
         memReadBytes g.mem r.addr r.len = r.data ∧
         ∀ a, a < r.addr ∨ r.addr + r.len ≤ a → memRead g.mem a = memRead h.mem a))) ∧
  (∀ (b : Fin 4) (r : LightReq) (s : State), r.addr < 12884901888 → 1 ≤ r.len → r.len ≤ 64 → r.addr % 64 + r.len ≤ 64 →
    s.dev.power.fabric = true → reachesHbm b.val (BitVec.ofNat 14 r.src) = true →
    ∃ d : Device, exec (.lightRequest b r) s = .next { s with dev := d } ∧
      (berthAt d b.val).hbm.lightQ = (berthAt s.dev b.val).hbm.lightQ ++ [r] ∧
      (berthAt d b.val).hbm.mem = (berthAt s.dev b.val).hbm.mem ∧ d.od = s.dev.od) ∧
  (∀ (b : Fin 4) (r : LightReq) (s : State), r.addr < 12884901888 → reachesHbm b.val (BitVec.ofNat 14 r.src) = false →
    exec (.lightRequest b r) s = .next s) ∧
  (∀ (b : Fin 4) (r : LightReq) (s : State), 12884901888 ≤ r.addr → exec (.lightRequest b r) s = .fault .hbmAddress)

/-! Ingest, decode, the feeder and the queue manager's frames (chapters 10, 14 and 15) -/

/-- R342 to R345, Table 14-8: a port that is up counts every frame. A frame that is too long, damaged or framed otherwise is counted as
discarded; a fragment is counted apart; an ARP request for the port's address is answered, one for another is counted as another
protocol (DEDUCED, assumption log 105); a datagram that matches one enabled stream
goes to its depacketiser, and one that matches none is counted. -/
def Obligations.EthernetFrames : Prop :=
  ∀ (c : Fin 2) (f : EthFrame) (s : State), portUp s.dev c.val = true →
    let d := odAdd s.dev (0x2000 + c.val) 6 1
    (9216 < f.len ∨ f.fcsOk = false ∨ 1 < f.tags.length ∨ f.ethernetII = false →
      exec (.ethFrameReceive c f) s = .next { s with dev := odAdd d (0x2000 + c.val) 8 1 }) ∧
    (f.len ≤ 9216 → f.fcsOk = true → f.tags.length ≤ 1 → f.ethernetII = true →
      (f.net = .fragment → exec (.ethFrameReceive c f) s = .next { s with dev := odAdd d (0x2000 + c.val) 9 1 }) ∧
      (∀ t : U32, f.net = .arp t → odGet s.dev (0x2000 + c.val) 4 = t.toNat → t ≠ 0 →
        exec (.ethFrameReceive c f) s = .next { s with dev := setSfp d c.val { sfpAt d c.val with
          out := (sfpAt d c.val).out ++ [.arpReply t] } }) ∧
      (∀ t : U32, f.net = .arp t → odGet s.dev (0x2000 + c.val) 4 ≠ t.toNat →
        exec (.ethFrameReceive c f) s = .next { s with dev := odAdd d (0x2000 + c.val) 8 1 }) ∧
      (∀ v6 src dst dport body r p, f.net = .udp v6 src dst dport false true body (some r) → addressed d c.val dst.toNat = true →
        (d.streams.filter (fun p => p.2.active && decide (strm d p.1 3 ≠ 2)
          && streamMatches d c.val p.1 f.tags src.toNat dst.toNat)).find? (fun p => decide (strm d p.1 0x0A = dport) &&
            (decide (strm d p.1 0x0D / 2 % 2 = 0) || decide (strm d p.1 0x0C = r.ssrc.toNat))) = some p →
        exec (.ethFrameReceive c f) s = .next { s with dev := depacketise d c.val p.1 r }) ∧
      (∀ v6 src dst dport body rtp, f.net = .udp v6 src dst dport false true body rtp →
        (addressed d c.val dst.toNat = false ∨ d.streams = []) →
        exec (.ethFrameReceive c f) s = .next { s with dev := odAdd d (0x2000 + c.val) 7 1 }))

/-- R346, R347, R359: the depacketiser counts every packet of its stream; one of another version or payload type goes no further, a
packet that is late or held already is counted as such, and one behind a gap waits in the window with its arrival time. An anchor
applies from its write. -/
def Obligations.ReorderWindow : Prop :=
  (∀ (d : Device) (c n : Nat) (p : Rtp), p.version ≠ 2 ∨ p.pt ≠ odGet d (0x2400 + n) 0x0E →
    depacketise d c n p = odAdd d (0x2400 + n) 0x20 1) ∧
  (∀ (d : Device) (c n : Nat) (p : Rtp) (next : BitVec 16), n < 1024 → p.version = 2 → p.pt = odGet d (0x2400 + n) 0x0E →
    payloadOk (odGet d (0x2400 + n) 3) p = true → (streamAt d n).ssrc = some p.ssrc → (streamAt d n).nextSeq = some next →
    (seqDist p.seq next < 0 ∨ ∃ q ∈ (streamAt d n).window, q.2.seq = p.seq) →
    depacketise d c n p = odAdd (odAdd d (0x2400 + n) 0x20 1) (0x2400 + n) 0x22 1) ∧
  (∀ (d : Device) (c n : Nat) (p : Rtp) (next : BitVec 16), n < 1024 → p.version = 2 → p.pt = odGet d (0x2400 + n) 0x0E →
    payloadOk (odGet d (0x2400 + n) 3) p = true → (streamAt d n).ssrc = some p.ssrc → (streamAt d n).nextSeq = some next →
    (streamAt d n).window = [] → 0 < seqDist p.seq next →
    (streamAt (depacketise d c n p) n).window = [(d.time, p)] ∧ (streamAt (depacketise d c n p) n).nextSeq = some next ∧
    (streamAt (depacketise d c n p) n).au = (streamAt d n).au ∧ (streamAt (depacketise d c n p) n).aus = (streamAt d n).aus) ∧
  (∀ (n : Fin 1024) (s : State) (at_ : Nat) (p : Rtp) (rest : List (Nat × Rtp)) (next : BitVec 16),
    (streamAt s.dev n.val).active = true → (streamAt s.dev n.val).window = (at_, p) :: rest →
    (streamAt s.dev n.val).nextSeq = some next → at_ + 200000 ≤ s.dev.time →
    let d := odAdd s.dev (0x2400 + n.val) 0x21 (seqDist p.seq next).toNat
    let d := modStream d n.val (fun st => { st with nextSeq := some p.seq, lost := true })
    exec (.reorderTimeout n) s = .next { s with dev := drainWindow (rest.length + 1) d n.val }) ∧
  (∀ (n : Fin 1024) (v : BitVec 96) (s : State),
    ∃ d : Device, exec (.anchorWrite n v) s = .next { s with dev := d } ∧
      (streamAt d n.val).anchor = (fld v 63 0, BitVec.ofNat 32 (fld v 95 64)) ∧ odGet d (0x2400 + n.val) 0x19 = v.toNat ∧
      (streamAt d n.val).aus = (streamAt s.dev n.val).aus ∧ d.berths = s.dev.berths)

/-- R350, R351, R362, R436, Table 17-1: a decode slice finishes its access unit, which leaves the packet queue, and the slices of its
berth, and of the berth that the stream is on by now, take their next units; a unit of a stream disabled meanwhile is dropped; a slice that runs for 4 times its time and 1 ms longer is reported under source 17 of its berth.

R358: a raw descriptor that does not fit its stream is consumed and counted, one that fits starts its copy; a finished copy enters
the picture queue and its item is consumed. -/
def Obligations.PicturesArrive : Prop :=
  (
  (∀ (b : Fin 4) (slice : Fin 18) (s : State) (n : Nat) (st : Stream) (a : AccessUnit),
    s.dev.streams.find? (fun p => onSlice b.val slice.val p.2) = some (n, st) →
    st.inDecode = some a → st.active = true → st.stale = false →
    let d := modStream s.dev n (fun st => { st with slice := 0, inDecode := none, stale := false })
    let e := startDecodes (decodeUnit (popUnit d n) n a) b.val
    exec (.decodeComplete b slice) s
      = .next { s with dev := if strmBerth e n = b.val then e else startDecodes e (strmBerth e n) }) ∧
  (∀ (b : Fin 4) (slice : Fin 18) (s : State) (n : Nat) (st : Stream),
    s.dev.streams.find? (fun p => onSlice b.val slice.val p.2) = some (n, st) → st.active = false ∨ st.stale = true →
    let d := modStream s.dev n (fun st => { st with slice := 0, inDecode := none, stale := false })
    let e := startDecodes d b.val
    exec (.decodeComplete b slice) s
      = .next { s with dev := if strmBerth e n = b.val then e else startDecodes e (strmBerth e n) }) ∧
  (∀ (b : Fin 4) (slice : Fin 18) (s : State) (n : Nat) (st : Stream) (a : AccessUnit),
    s.dev.streams.find? (fun p => onSlice b.val slice.val p.2) = some (n, st) →
    st.inDecode = some a → st.decodeFrom + 4 * decodeCounts s.dev n a + 100000 ≤ s.dev.time →
    ∃ (d : Device) (r : Report), exec (.decodeSliceTimeout b slice) s = .next { s with dev := d } ∧
      d.hub.reports = s.dev.hub.reports ++ [r] ∧ r.source = 32 * b.val + 17 ∧ r.info = BitVec.ofNat 32 n ∧
      d.streams = s.dev.streams ∧ d.od = s.dev.od) ∧
  (∀ (d : Device) (n : Nat) (a : AccessUnit), (odGet d (0x2400 + n) 0x1B = 1 ∨ odGet d (0x2400 + n) 0x1B = 3) → a.rap = false →
    decodeUnit d n a = skipUnit d n)) ∧ (
  (∀ (n : Fin 1024) (v : BitVec 512) (s : State), rawReady s.dev n.val = true → (streamAt s.dev n.val).raw = none →
    (fld v 7 0 = 0xFE →
      exec (.rawDescriptor n v) s = .next { s with dev := consumeItem s.dev (odGet s.dev (0x2400 + n.val) 0x11) 1 true }) ∧
    (fld v 7 0 ≠ 0xFE → rawBad s.dev n.val v = true →
      let d := consumeItem s.dev (odGet s.dev (0x2400 + n.val) 0x11) 1 false
      exec (.rawDescriptor n v) s = .next { s with dev := odAdd d (0x2400 + n.val) 0x28 1 }) ∧
    (fld v 7 0 ≠ 0xFE → rawBad s.dev n.val v = false → ∃ d : Device, exec (.rawDescriptor n v) s = .next { s with dev := d } ∧
      (streamAt d n.val).raw = some (v, s.dev.time) ∧ d.queues = s.dev.queues ∧ d.od = s.dev.od)) ∧
  (∀ (n : Fin 1024) (pic : List Byte) (s : State) (v : BitVec 512) (at_ : Nat), (streamAt s.dev n.val).raw = some (v, at_) →
    let d := setStreamState (modStream s.dev n.val (fun st => { st with raw := none })) n.val 2
    let p := { rawPicture v pic with cap := if rawCap v = 0 then at_ else rawCap v }
    exec (.rawCopyComplete n pic) s
      = .next { s with dev := consumeItem (pushPicture d n.val p) (strm d n.val 0x11) 1 false }) ∧
  (∀ (d : Device) (n : Nat) (p : Picture), odGet d (0x2400 + n) 0x14 ≤ (streamAt d n).pics.length →
    (streamAt (pushPicture d n p) n).pics = (streamAt d n).pics ∧
    (streamAt (pushPicture d n p) n).inq.iseq = (streamAt d n).inq.iseq + 1))

/-- R355 to R357, R96, R258 to R260, R428: the feeder first feeds a frame that waits to be fed again, else the head picture with the
earliest capture time, which takes a frame-store entry and its frame counts. The entry's header and rows are stored, the frame-header
tokens and the scale and data tokens of every stripe are queued at their ends, in order, and a stream's first frame is marked on
every berth of the pipeline. The token clauses look at ends with no credit and nothing waiting, where all that is queued stays. -/
def Obligations.FeederFrames : Prop :=
  (∀ (b : Fin 4) (s : State) (n : Nat) (e : FsEntry), feederReady s.dev b.val = true →
    (coOf s.dev b.val).marksSent = false → nextReplay s.dev b.val = some (n, e) →
    exec (.feederFrameStart b) s
      = .next { s with dev := repairProgress (feedReplay s.dev b.val n (runBind s.dev b.val) e) b.val }) ∧
  (∀ (b : Fin 4) (s : State) (n : Nat) (p : Picture), feederReady s.dev b.val = true →
    (coOf s.dev b.val).marksSent = false → nextReplay s.dev b.val = none →
    nextPicture s.dev b.val = some (n, p) →
    exec (.feederFrameStart b) s
      = .next { s with dev := repairProgress (feedNew s.dev b.val n (runBind s.dev b.val) p) b.val }) ∧
  (∀ (d : Device) (b n : Nat) (u : UnitBind) (p : Picture),
    let st := streamAt d n
    let st' := streamAt (feedNew d b n u p) n
    st'.pics = st.pics.drop 1 ∧ st'.fcount = st.fcount + BitVec.ofNat 32 (bindStripes u) ∧ st'.firstDone = true ∧
    st'.entries.length = st.entries.length + 1) ∧
  (∀ (b : Fin 4) (s : State) (n : Nat), feederReady s.dev b.val = true →
    (berthAt s.dev b.val).repair.replaying = false → (berthAt s.dev b.val).repair.catching = false →
    (coOf s.dev b.val).marksSent = false →
    let u := runBind s.dev b.val
    let st := streamAt s.dev n
    let ep := unitEpoch s.dev b.val
    let empty := fun (k : Nat) => (endAt s.dev k).tokens = [] ∧ (endAt s.dev k).cred = 0
    let fed := fun (d : Device) (e : FsEntry) (replay : Bool) =>
      let fc := fun (i : Nat) => e.fcount + BitVec.ofNat 32 i
      let sb := fun (i : Nat) => ({ v := true, e := ep, f := BitVec.ofNat 12 (fc i).toNat } : Sideband)
      let rows := fun (i : Nat) => stripeTokens (berthAt d b.val).hbm e u (i / max (bindCols u) 1) (i % max (bindCols u) 1)
      (empty u.headerEnd → u.headerEnd ≠ u.codeEnd → u.sideEnd ≠ some u.headerEnd →
        (endAt d u.headerEnd).tokens = (List.range e.stripes).map (fun i =>
          { data := headerPayload e.cap e.rtpts (fc i) i e.stripes n (e.first && decide (i = 0)) e.concealed replay
            sb := { sb i with l := true } })) ∧
      (empty u.codeEnd → u.headerEnd ≠ u.codeEnd → u.sideEnd ≠ some u.codeEnd →
        (endAt d u.codeEnd).tokens = (List.range e.stripes).flatMap (fun i =>
          { data := inputScale u n (fc i), sb := { sb i with s := true, l := (rows i).isEmpty } } ::
            (rows i).zipIdx.map (fun p =>
              { data := p.1.1, sb := { sb i with p := p.1.2, l := decide (p.2 + 1 = (rows i).length) } }))) ∧
      (e.first = true → ∀ j ∈ pipelineBerths s.dev b.val ((berthAt s.dev b.val).unitSlot.getD (runSlot s.dev b.val)), Tab.find (berthAt d j).first n = some (e.fcount.toNat % 4096)) ∧
      (∀ n', n' ≠ n → streamAt d n' = streamAt s.dev n') ∧ (∀ b' k, tileAt d b' k = tileAt s.dev b' k) ∧
      d.queues = s.dev.queues ∧ d.hostMem = s.dev.hostMem
    (∀ e, nextReplay s.dev b.val = some (n, e) →
      ∃ d : Device, exec (.feederFrameStart b) s = .next { s with dev := d } ∧ fed d e true ∧
        (streamAt d n).entries = st.entries.map (fun x => if x.fcount = e.fcount then
          { e with fed := e.stripes, replay := false, replaying := true, epoch := ep } else x) ∧
        (streamAt d n).pics = st.pics ∧ (streamAt d n).fcount = st.fcount ∧
        (berthAt d b.val).hbm = (berthAt s.dev b.val).hbm) ∧
    (∀ p, nextReplay s.dev b.val = none → nextPicture s.dev b.val = some (n, p) →
      let e : FsEntry :=
        { addr := st.fsBase + st.fsNext % max (strm s.dev n 0x15) 1 * st.fsBytes
          size := st.fsBytes
          fcount := st.fcount
          stripes := bindStripes u
          cap := p.cap
          rtpts := p.rtpts
          first := !st.firstDone
          concealed := p.concealed
          width := u.wd
          height := u.hd }
      ∃ d : Device, exec (.feederFrameStart b) s = .next { s with dev := d } ∧ fed d e false ∧
        (streamAt d n).entries = (st.entries ++ [e]).map (fun x => if x.fcount = e.fcount then { e with fed := e.stripes, epoch := ep } else x) ∧
        (streamAt d n).pics = st.pics.drop 1 ∧ (streamAt d n).fcount = st.fcount + BitVec.ofNat 32 (bindStripes u) ∧
        (memWf (berthAt s.dev b.val).hbm.mem = true →
          let m := (berthAt d b.val).hbm.mem
          let k := colourOf (strm s.dev n 0x16) (strm s.dev n 0x17) p.vuiMatrix p.vuiRange
          memReadBytes m e.addr 64 = fsHeader n u.wd u.hd e.stripes e.cap e.fcount e.first ∧
          (∀ y < u.hd, memReadBytes m (e.addr + 64 + y * fsPitch u.wd) (3 * u.wd) = rowBytes p k u.wd u.hd u.bgr y) ∧
          ∀ a, a < e.addr ∨ e.addr + 64 + u.hd * fsPitch u.wd ≤ a → memRead m a = memRead (berthAt s.dev b.val).hbm.mem a)))

/-- R104, R183, R184, R260, R266, R378 to R380: a re-run post marks its frame and is acknowledged. A box slot at the crop gather unit
goes on to the crop tile with its gather tokens, zeros for a masked slot or a frame that is gone. A whole frame at the result queues
is taken: one record for each live slot and one for the frame is offered to the stream's result queue, the frame's quality bit clears,
and the last stripe releases the frame-store entry. A unit at a tap is taken and, unless masked, offered as the next feature item. -/
def Obligations.QueueManagerFrames : Prop :=
  (∀ (b : Fin 4) (s : State) (key ctx stream f : Nat) (rest : List (Nat × Nat × Nat × Nat)),
    (berthAt s.dev b.val).reruns = (key, ctx, stream, f) :: rest →
    ∃ d : Device, exec (.rerunPost b) s = .next { s with dev := d } ∧
      Tab.get false d.quality (4096 * stream + f % 4096) = true ∧ (berthAt d b.val).reruns = rest ∧
      (berthAt d b.val).rerunAcks = (berthAt s.dev b.val).rerunAcks ++ [(key, ctx)] ∧ d.od = s.dev.od) ∧
  (∀ (b : Fin 4) (s : State) (k : Nat) (t : Token) (ts : List Token), (coOf s.dev b.val).marksSent = false →
    (runBind s.dev b.val).cropIn = some k →
    (endAt s.dev k).tokens = t :: ts → t.sb.v = false → (runBind s.dev b.val).cropA ≠ k → (runBind s.dev b.val).cropB ≠ k →
    ∃ d : Device, exec (.cropGather b) s = .next { s with dev := d } ∧ (endAt d k).tokens = ts ∧
      (endAt d k).consumed = inc32 (endAt s.dev k).consumed 1 ∧ d.streams = s.dev.streams ∧ d.od = s.dev.od) ∧
  (∀ (b : Fin 4) (s : State), (coOf s.dev b.val).marksSent = false →
    let u := runBind s.dev b.val
    (endAt s.dev u.resHeader).tokens ≠ [] → u.resSlots + 1 ≤ (endAt s.dev u.resBody).tokens.length →
    exec (.resultFrame b) s = .next { s with dev := resultFrame s.dev b.val }) ∧
  (∀ (b : Fin 4) (s : State) (t : Nat × Nat × Nat), (coOf s.dev b.val).marksSent = false → readyTap s.dev (runBind s.dev b.val) = some t →
    exec (.featureItem b) s = .next { s with dev := featureItem s.dev b.val t }) ∧
  (∀ (b : Fin 4) (s : State) (k : Nat) (t : Token) (ts : List Token), (coOf s.dev b.val).marksSent = false →
    let u := runBind s.dev b.val
    let n := u.cropW * u.cropH / 2
    let empty := fun (k : Nat) => (endAt s.dev k).tokens = [] ∧ (endAt s.dev k).cred = 0
    u.cropIn = some k → (endAt s.dev k).tokens = t :: ts → u.cropA ≠ k → u.cropB ≠ k →
    ∃ d : Device, exec (.cropGather b) s = .next { s with dev := d } ∧ (endAt d k).tokens = ts ∧
      (endAt d k).consumed = inc32 (endAt s.dev k).consumed 1 ∧ d.streams = s.dev.streams ∧ d.od = s.dev.od ∧
      (∀ b' k', tileAt d b' k' = tileAt s.dev b' k') ∧ (∀ b', (berthAt d b').hbm = (berthAt s.dev b').hbm) ∧
      ((endAt s.dev k).mark = false → t.sb.s = false → u.cropA ≠ u.cropB →
        (empty u.cropA → (endAt d u.cropA).tokens = [t]) ∧
        (empty u.cropB →
          let toks := (endAt d u.cropB).tokens
          (∀ x ∈ toks, x.sb.v = t.sb.v ∧ x.sb.f = t.sb.f ∧ x.sb.e = t.sb.e) ∧
          (t.sb.v = false ∨ entryOf s.dev (slotStream t.data) t.sb.f = none → toks.map (·.data) = List.replicate n 0) ∧
          (∀ e, t.sb.v = true → entryOf s.dev (slotStream t.data) t.sb.f = some e →
            toks.map (fun x => (x.data, x.sb.p)) = gatherTokens (berthAt s.dev b.val).hbm e t.data u.cropW u.cropH)))) ∧
  (∀ (b : Fin 4) (s : State) (h : Token) (hs : List Token), (coOf s.dev b.val).marksSent = false →
    let u := runBind s.dev b.val
    let bodies := (endAt s.dev u.resBody).tokens
    let n := hStream h.data
    let base : U32 := BitVec.ofNat 32 (hFcount h.data) - BitVec.ofNat 32 (hStripe h.data)
    let live := ((bodies.take u.resSlots).filter (fun t => t.sb.v)).length
    let q := strm s.dev n 0x10
    (endAt s.dev u.resHeader).tokens = h :: hs → u.resSlots + 1 ≤ bodies.length → u.resHeader ≠ u.resBody →
    (berthAt s.dev b.val).repair.replaying = false → (berthAt s.dev b.val).repair.catching = false →
    ∃ d : Device, exec (.resultFrame b) s = .next { s with dev := d } ∧
      (endAt d u.resHeader).tokens = hs ∧ (endAt d u.resBody).tokens = bodies.drop (u.resSlots + 1) ∧
      Tab.get false d.quality (4096 * n + hFcount h.data % 4096) = false ∧ (∀ b' k, tileAt d b' k = tileAt s.dev b' k) ∧
      (hStripe h.data + 1 = hStripes h.data → ∀ e ∈ (streamAt d n).entries, e.fcount ≠ base) ∧
      (∀ e, hStripe h.data + 1 ≠ hStripes h.data → (streamAt s.dev n).entries.find? (fun e => e.fcount = base) = some e →
        (streamAt d n).entries = (streamAt s.dev n).entries.map (fun x => if x.fcount = base then
          { e with recorded := hStripe h.data + 1 } else x)) ∧
      (q < 16384 → qDir s.dev q = 0 → (ringOf d q).iseq = (ringOf s.dev q).iseq + BitVec.ofNat 32 (live + 1)) ∧
      (16384 ≤ q → d.queues = s.dev.queues)) ∧
  (∀ (b : Fin 4) (s : State) (k tid ts : Nat) (t : Token) (rest : List Token), (coOf s.dev b.val).marksSent = false →
    readyTap s.dev (runBind s.dev b.val) = some (k, tid, ts) → (endAt s.dev k).tokens = t :: rest →
    let unit := if t.sb.s then rest else t :: rest
    let a := adaptOf s.dev b.val
    let q := odGet s.dev (0x8800 + b.val) 3
    let live := ((unit.take ts).headD {}).sb.v
    ∃ d : Device, exec (.featureItem b) s = .next { s with dev := d } ∧ (endAt d k).tokens = unit.drop ts ∧
      (∀ b' k', tileAt d b' k' = tileAt s.dev b' k') ∧ d.streams = s.dev.streams ∧
      Tab.get 0 (adaptOf d b.val).tapIndex k = (if t.sb.s then 1 else Tab.get 0 a.tapIndex k + 1) ∧
      (t.sb.s = true → Tab.get 0 (adaptOf d b.val).tapScale k = t.data) ∧
      (adaptOf d b.val).featureSeq = (if live = true ∧ q < 16384 then a.featureSeq + 1 else a.featureSeq) ∧
      (live = true → q < 16384 → qDir s.dev q = 0 → (ringOf d q).iseq = (ringOf s.dev q).iseq + 1) ∧
      (live = false → d.queues = s.dev.queues))

/-- R344, R361, R362, Table 14-9: an enable that nothing refuses opens the stream in STATE 1 with STATUS 0; a refused one leaves it off
with its cause; a disable empties its queues and leaves STATE 5, or STATE 0 with its granules given back where no frame-store entry is
held. An enabled stream has asked for its group on the ports that it listens on. -/
def Obligations.StreamEnableDisable : Prop :=
  (∀ (n : Fin 1024) (s : State) (gs : List Nat) (h : Hbm),
    let b := strmBerth s.dev n.val
    mstate s.dev = 0 → bpstate s.dev b ≠ 2 → (streamAt s.dev n.val).active = false → streamRefusal s.dev n.val = 0 →
    poolAllocAll (berthAt s.dev b).hbm (0x10000 + n.val) (streamSizes s.dev n.val) = some (gs, h) →
    ∃ d : Device, exec (.streamEnable n) s = .next { s with dev := d } ∧ (streamAt d n.val).active = true ∧
      (streamAt d n.val).granules = gs ∧ (berthAt d b).hbm.pool = h.pool ∧ odGet d (0x2400 + n.val) 1 = 1 ∧
      odGet d (0x2400 + n.val) 0x1B = 1 ∧ odGet d (0x2400 + n.val) 0x1C = 0 ∧
      (streamAt d n.val).home = some (strm s.dev n.val 2) ∧ (streamAt d n.val).pics = [] ∧ (streamAt d n.val).aus = [] ∧
      (streamAt d n.val).entries = [] ∧ (∀ n', n' ≠ n.val → streamAt d n' = streamAt s.dev n') ∧
      (∀ c ∈ joinPorts s.dev n.val, (sfpAt d c).out = (sfpAt s.dev c).out ++ [groupReport s.dev n.val]) ∧
      ∀ c ∉ joinPorts s.dev n.val, sfpAt d c = sfpAt s.dev c) ∧
  (∀ (n : Fin 1024) (s : State), mstate s.dev = 0 → bpstate s.dev (strmBerth s.dev n.val) ≠ 2 →
    (streamAt s.dev n.val).active = false → streamRefusal s.dev n.val ≠ 0 → odGet s.dev (0x2400 + n.val) 1 = 0 →
    ∃ d : Device, exec (.streamEnable n) s = .next { s with dev := d } ∧ (streamAt d n.val).active = false ∧
      odGet d (0x2400 + n.val) 1 = 0 ∧ odGet d (0x2400 + n.val) 0x1C = streamRefusal s.dev n.val ∧ d.berths = s.dev.berths) ∧
  (∀ (n : Fin 1024) (s : State), (streamAt s.dev n.val).active = true →
    ∃ d : Device, exec (.streamDisable n) s = .next { s with dev := d } ∧ (streamAt d n.val).active = false ∧
      (streamAt d n.val).pics = [] ∧ (streamAt d n.val).aus = [] ∧ (streamAt d n.val).window = [] ∧
      odGet d (0x2400 + n.val) 1 = 0 ∧
      odGet d (0x2400 + n.val) 0x1B = (if (streamAt s.dev n.val).entries.isEmpty then 0 else 5) ∧
      (∀ b k, (tileAt d b k) = tileAt s.dev b k) ∧ (streamAt d n.val).pktq.enabled = false ∧ (streamAt d n.val).inq.enabled = false ∧
      ((streamAt s.dev n.val).entries = [] → (berthAt d (strmBerth s.dev n.val)).hbm.pool
        = (poolFree (berthAt s.dev (strmBerth s.dev n.val)).hbm (streamAt s.dev n.val).granules).pool) ∧
      ∀ n', n' ≠ n.val → streamAt d n' = streamAt s.dev n')

/-! Hardware queues and events (chapter 15) -/

/-- R366, R369, R372, Table 15-3: a good doorbell moves the consumer pointer of a DIR 0 queue or the producer pointer of a DIR 1 queue, or
flushes the queue; a narrow, stale or impossible one is counted and moves nothing. -/
def Obligations.QueueDoorbells : Prop :=
  ∀ (cmd : Fin 16384 → Nat → U64 → Instr), (cmd = .queueDoorbellPointer ∨ cmd = .queueDoorbellArm ∨ cmd = .queueDoorbellFlush) →
  ∀ (q : Fin 16384) (bytes : Nat) (w : U64) (s : State), firmwareReady s.dev = true →
    let r := ringOf s.dev q.val
    let ptr : U32 := BitVec.ofNat 32 (fld w 31 0)
    let good := bytes = 8 ∧ r.enabled = true ∧ fld w 47 40 = r.fepoch.toNat
    (good → bit w 32 = true → bit w 63 = false → qDir s.dev q.val = 0 → (ptr - r.ci).toNat ≤ (r.pi - r.ci).toNat →
      ∃ d : Device, exec (cmd q bytes w) s = .next { s with dev := d } ∧
        (let r' := ringOf d q.val
         r'.ci = ptr ∧ r'.ciCopy = ptr ∧ r'.pi = r.pi ∧ r'.conse = r.conse + (ptr - r.ci) ∧ r'.fepoch = r.fepoch ∧
         r'.badDoorbells = r.badDoorbells) ∧ (∀ n, n ≠ q.val → ringOf d n = ringOf s.dev n) ∧ d.berths = s.dev.berths) ∧
    (good → bit w 32 = true → bit w 63 = false → qDir s.dev q.val = 1 →
      (ptr - r.pi).toNat ≤ qEntries s.dev q.val - 1 - (r.pi - r.ci).toNat →
      ∃ d : Device, exec (cmd q bytes w) s = .next { s with dev := d } ∧
        (let r' := ringOf d q.val
         r'.pi = ptr ∧ r'.piCopy = ptr ∧ r'.ci = r.ci ∧ r'.pube = r.pube + (ptr - r.pi) ∧ r'.badDoorbells = r.badDoorbells) ∧
        (∀ n, n ≠ q.val → ringOf d n = ringOf s.dev n) ∧ d.berths = s.dev.berths) ∧
    (good → bit w 63 = true →
      ∃ d : Device, exec (cmd q bytes w) s = .next { s with dev := d } ∧
        (let r' := ringOf d q.val
         r'.ci = r.pi ∧ r'.pi = r.pi ∧ r'.fepoch = r.fepoch + 1 ∧
         r'.flushed = min (r.flushed + (r.pi - r.ci).toNat) 18446744073709551615) ∧ d.berths = s.dev.berths) ∧
    (good → bit w 32 = false → bit w 63 = false → bit w 62 = true →
      (if qDir s.dev q.val = 0 then r.pi = r.ci else qEntries s.dev q.val - 1 - (r.pi - r.ci).toNat < qEntries s.dev q.val / 2) →
      ∃ d : Device, exec (cmd q bytes w) s = .next { s with dev := d } ∧
        ringOf d q.val = { r with arm := true } ∧ d.berths = s.dev.berths ∧ d.od = s.dev.od) ∧
    (bytes ≠ 8 ∨ r.enabled = false ∨ fld w 47 40 ≠ r.fepoch.toNat →
      exec (cmd q bytes w) s = .next { s with dev := setRing s.dev q.val { r with badDoorbells := min (r.badDoorbells + 1) 4294967295 } })

/-- R365, R372, R373, R376, R377: a flush command empties a queue; a pointer mismatch resets it and reports source 0x086; an enable that
passes its checks clears pointers and counters; a disable flushes and closes it; DATA reads take whole items, DATA writes append
one.

R366, R370, R374: whatever item of one or more bytes is offered to a ring, accepted or dropped, its ledger tests still hold after its entries and the gap
markers before them have been published. -/
def Obligations.QueueCommandsAndRings : Prop :=
  (
  ∀ (q : Fin 16384) (s : State),
    let r := ringOf s.dev q.val
    (∃ d : Device, exec (.queueFlushCommand q) s = .next { s with dev := d } ∧
      (ringOf d q.val).ci = r.pi ∧ (ringOf d q.val).pi = r.pi ∧ (ringOf d q.val).fepoch = r.fepoch + 1 ∧ d.berths = s.dev.berths) ∧
    ((r.pi ≠ r.piCopy ∨ r.ci ≠ r.ciCopy) →
      ∃ (d : Device) (x : Report), exec (.queuePointerMismatch q) s = .next { s with dev := d } ∧
        (ringOf d q.val).pi = 0 ∧ (ringOf d q.val).ci = 0 ∧ (ringOf d q.val).piCopy = 0 ∧ (ringOf d q.val).ciCopy = 0 ∧
        (ringOf d q.val).fepoch = r.fepoch + 1 ∧ (ringOf d q.val).resets = r.resets + 1 ∧
        d.hub.reports = s.dev.hub.reports ++ [x] ∧ x.source = 0x086 ∧ x.blame = tag 8 0 q.val) ∧
    (r.enabled = false → queueCheck s.dev q.val = 0 →
      ∃ d : Device, exec (.queueEnable q) s = .next { s with dev := d } ∧
        ringOf d q.val = { enabled := true, fepoch := r.fepoch + 1, gaps := r.gaps } ∧
        odGet d (0x4000 + q.val) 1 = 1 ∧ odGet d (0x4000 + q.val) 0x0D = 0) ∧
    (r.enabled = false → queueCheck s.dev q.val ≠ 0 →
      ∃ d : Device, exec (.queueEnable q) s = .next { s with dev := d } ∧
        odGet d (0x4000 + q.val) 0x0D = queueCheck s.dev q.val ∧ d.queues = s.dev.queues ∧ d.berths = s.dev.berths) ∧
    (r.enabled = true →
      ∃ d : Device, exec (.queueDisable q) s = .next { s with dev := d } ∧
        (ringOf d q.val).enabled = false ∧ (ringOf d q.val).ci = r.pi ∧ (ringOf d q.val).pi = r.pi ∧
        (ringOf d q.val).fepoch = r.fepoch + 1 ∧ odGet d (0x4000 + q.val) 1 = 0) ∧
    (∀ len, qLoc s.dev q.val = 1 → qDir s.dev q.val = 0 → 0 < ringHeld r →
      let es := firstItem r (qEntries s.dev q.val) (ringHeld r) 0
      es.length ≤ ringHeld r → len = (readEntries s.dev q.val es).length →
      ∃ d : Device, exec (.queueDataRead q len) s = .next { s with dev := d } ∧
        (ringOf d q.val).ci = r.ci + BitVec.ofNat 32 es.length ∧ (ringOf d q.val).pi = r.pi ∧
        (ringOf d q.val).conse = r.conse + BitVec.ofNat 32 es.length ∧ d.berths = s.dev.berths ∧ d.hostMem = s.dev.hostMem) ∧
    (∀ item gap, r.enabled = true → qLoc s.dev q.val = 1 → qDir s.dev q.val = 1 →
      (itemEntries (qBytes s.dev q.val) item).length ≤ qEntries s.dev q.val - 1 - ringHeld r →
      ∃ d : Device, exec (.queueDataWrite q item gap) s = .next { s with dev := d } ∧
        (ringOf d q.val).pi = r.pi + BitVec.ofNat 32 (itemEntries (qBytes s.dev q.val) item).length ∧
        (ringOf d q.val).ci = r.ci ∧ (ringOf d q.val).items = r.items ∧ d.od = s.dev.od)) ∧ (
  ∀ (l : RingLatch) (ebytes : Nat) (up room keep : Bool) (item : List Byte) (key : U64),
    let o := ringOffer l.ring l.entries ebytes up room item key
    let r' := ringPublish o.1 l.entries keep key.toNat o.2
    0 < ebytes → item ≠ [] → ringHolds l = true → l.entries ≤ 65536 → l.ring.items < top64 → l.ring.dropped < top64 →
    ringHolds { l with ring := r' } = true ∧ r'.ci = l.ring.ci ∧ r'.iseq = l.ring.iseq + 1 ∧
    (o.2 = [] → r'.pi = l.ring.pi ∧ r'.dropped = l.ring.dropped + 1) ∧
    (o.2 ≠ [] → r'.gaps = [] ∧ r'.items = l.ring.items + 1))

/-- R381 to R385, R458: an occurrence of a routed source becomes a record in its host event queue where there is room, else joins the
source's pending record; a pending record enters when there is room; the doorbell moves CI or sets ARM; an enable empties the queue;
an unmasked vector that was held pending is signalled. -/
def Obligations.EventCommands : Prop :=
  (∀ (n : Fin 1024) (info : U32) (s : State),
    odGet s.dev (0x8100 + n.val / 128) (n.val % 128 + 1) / 32768 % 2 = 0 →
    exec (.eventOccurrence (.shared n) info) s
      = .next { s with dev := odAdd s.dev (0x8110 + n.val / 128) (n.val % 128 + 1) 1 }) ∧
  (∀ (n : Fin 1024) (h : Fin 32) (info : U32) (s : State),
    odGet s.dev (0x8100 + n.val / 128) (n.val % 128 + 1) = 0x8010 + h.val → evqFull s.dev h.val = false →
    ∃ d : Device, exec (.eventOccurrence (.shared n) info) s = .next { s with dev := d } ∧
      (evqAt d h.val).pi = (evqAt s.dev h.val).pi + 1 ∧ (evqAt d h.val).ci = (evqAt s.dev h.val).ci ∧
      Tab.get 0 (evqAt d h.val).slots ((evqAt s.dev h.val).pi.toNat % evqEntries s.dev h.val)
        = eventRecord 0 n.val info.toNat 1 s.dev.time ∧ d.pendingEv = s.dev.pendingEv ∧ d.berths = s.dev.berths) ∧
  (∀ (n : Fin 1024) (h : Fin 32) (info : U32) (s : State),
    odGet s.dev (0x8100 + n.val / 128) (n.val % 128 + 1) = 0x8010 + h.val → evqFull s.dev h.val = true →
    Tab.find s.dev.pendingEv n.val = none →
    ∃ d : Device, exec (.eventOccurrence (.shared n) info) s = .next { s with dev := d } ∧
      Tab.find d.pendingEv n.val = some { time := s.dev.time, info := info, count := 1, target := 0x10 + h.val } ∧
      d.evqs = s.dev.evqs ∧ d.berths = s.dev.berths) ∧
  (∀ (h : Fin 32) (s : State) (key : Nat) (p : PendingEvent), firstPending s.dev h.val = some (key, p) → evqFull s.dev h.val = false →
    ∃ d : Device, exec (.eventPendingEnter h) s = .next { s with dev := d } ∧
      d.pendingEv = Tab.erase s.dev.pendingEv key ∧ (evqAt d h.val).pi = (evqAt s.dev h.val).pi + 1 ∧
      Tab.get 0 (evqAt d h.val).slots ((evqAt s.dev h.val).pi.toNat % evqEntries s.dev h.val)
        = eventRecord (eventClass key) (eventNumber key) p.info.toNat p.count p.time) ∧
  (∀ (cmd : Fin 32 → Nat → U64 → Instr), (cmd = .eventDoorbellCi ∨ cmd = .eventDoorbellArm) →
    ∀ (h : Fin 32) (w : U64) (s : State), firmwareReady s.dev = true → evqEnabled s.dev h.val = true →
    let q := evqAt s.dev h.val
    let ci : U32 := BitVec.ofNat 32 (fld w 31 0)
    (bit w 32 = true → (q.pi - ci).toNat ≤ (q.pi - q.ci).toNat →
      ∃ d : Device, exec (cmd h 8 w) s = .next { s with dev := d } ∧ (evqAt d h.val).ci = ci ∧ (evqAt d h.val).pi = q.pi ∧
        d.od = s.dev.od ∧ d.berths = s.dev.berths) ∧
    (bit w 32 = false → bit w 62 = true → q.pi = q.ci →
      ∃ d : Device, exec (cmd h 8 w) s = .next { s with dev := d } ∧ evqAt d h.val = { q with arm := true } ∧
        d.pcie = s.dev.pcie)) ∧
  (∀ (h : Fin 32) (s : State), evqEnabled s.dev h.val = false → isPow2 (evqEntries s.dev h.val) = true →
    odGet s.dev (0x8180 + h.val) 2 % min (16 * evqEntries s.dev h.val) 4096 = 0 → s.dev.pendingEv = [] →
    ∃ d : Device, exec (.eventQueueEnable h) s = .next { s with dev := d } ∧ evqEnabled d h.val = true ∧
      evqAt d h.val = { evqAt s.dev h.val with pi := 0, ci := 0, arm := false, slots := [] }) ∧
  (∀ (v : Fin 33) (s : State), v.val ∈ s.dev.pcie.pending → s.dev.pcie.busMaster = true →
    ∃ d : Device, exec (.msiXVectorUnmask v) s = .next { s with dev := d } ∧
      d.pcie.signalled = s.dev.pcie.signalled ++ [v.val] ∧ v.val ∉ d.pcie.pending ∧ v.val ∈ d.pcie.unmasked ∧ d.od = s.dev.od)

/-! The block as a whole -/

/-- A step of the block runs the command at the front of its queue on the state with the queue's rest; with no command waiting one
count of LCLK passes (the model's choice, assumption log 2). -/
def Obligations.StepRunsFrontCommand : Prop :=
  (∀ (c : Instr) (s : State), step { s with pending := c :: s.pending } = exec c s) ∧
  (∀ s : State, s.pending = [] → step s = .next { s with dev := tick s.dev })

/-- R478, R7, R421, Tables 12-13, 19-8, 19-9: right after 3.3VAUX has risen the aux domain alone is powered and PERST_N is low; FAULT_N
is low and the three LEDs are amber; device time is 0, no berth has a running slot, every slot is EMPTY, no queue is enabled; the
byte memories are in canonical form and no command waits. -/
def Obligations.ResetState : Prop :=
  State.reset.pending = [] ∧
  (let d := State.reset.dev
   MemoryWf d ∧ d.time = 0 ∧ d.power.aux = true ∧ d.power.control = false ∧ d.power.fabric = false ∧ d.power.perstLow = true ∧
   faultLow d = true ∧ led0 d = .amber ∧ led1 d = .amber ∧ led2 d = .amber ∧
   (∀ b < 4, runSlot d b = 0xFF ∧ bstate d b = 0 ∧ berthEpoch d b = 0 ∧ ∀ k < 4, slotState d b k = 0) ∧
   (∀ q, (ringOf d q).enabled = false) ∧ (∀ n, (streamAt d n).active = false) ∧ d.hub.log = [] ∧ d.hub.uncleared = [])

/-- No command changes the queue of waiting commands, so that a queue of well-formed commands stays one. -/
def Obligations.CommandsStayWellFormed : Prop :=
  (∀ (c : Instr) (s t : State), exec c s = .next t → t.pending = s.pending) ∧
  (∀ s t : State, (∀ c ∈ s.pending, c.wf = true) → step s = .next t → ∀ c ∈ t.pending, c.wf = true)

/-- R368, R395, R444: every step keeps host memory and the two mailbox buffers in canonical form, and device time below 2^64. -/
def Obligations.HostMemoryAndTimeKept : Prop :=
  ∀ s t : State, HostMemoryWf s.dev → s.dev.time < 2 ^ 64 → step s = .next t → HostMemoryWf t.dev ∧ t.dev.time < 2 ^ 64

/-- R38, R240: every step keeps the HBM of every berth and the block memory of every tile in canonical form. -/
def Obligations.BerthMemoryKept : Prop :=
  ∀ s t : State, (∀ p ∈ s.dev.berths, BerthMemoryWf p.2) → step s = .next t → ∀ p ∈ t.dev.berths, BerthMemoryWf p.2

/-! The host interface (chapter 16) -/

/-- R399 to R403, Tables 16-6 to 16-9: an admitted READ answers the object's value, least significant byte first; a WRITE whose access,
length and range are good has the object's effect and its status, an INFO answers type, access, class and size; an object or a
subindex that does not exist, a write to a read-only row and a value of wrong length or range have their status and no effect. A stored
value reads back, no other object changes, and a class P value that a write may change enters the journal. The fields of a
response header read back. -/
def Obligations.JopObjects : Prop :=
  (∀ (tr : Transport) (msg : List Byte) (s : State) (d : Device) (q : JopReq) (row : OdRow), Served s tr msg 0x01 d q →
    odInfo q.index q.sub = some row → row.acc ≠ 2 → row.acc ≠ 4 → row.typ ≠ 12 → q.payload = [] →
    let bs := leBytes row.size (odValue d q.index q.sub)
    exec (.read tr msg) s = .next { s with dev := deliverReply d q (responseFrame (replyKey d d q 0) q 0 bs) }) ∧
  (∀ (tr : Transport) (msg : List Byte) (s : State) (d : Device) (q : JopReq) (row : OdRow), Served s tr msg 0x02 d q →
    odInfo q.index q.sub = some row → row.acc ≠ 0 → row.typ ≠ 12 → valueStatus row q.payload = 0 →
    (0xF000 ≤ q.index → q.index ≤ 0xF0FF → d.power.testEn = true) →
    (mstate d = 2 → moorRefuses d q.index q.sub (leNat q.payload) = false) →
    let w := writeObject d q.auth q.role q.index q.sub (leNat q.payload)
    exec (.write tr msg) s = .next { s with dev := conclude d w.1 q w.2 [] }) ∧
  (∀ (tr : Transport) (msg : List Byte) (s : State) (d : Device) (q : JopReq) (row : OdRow), Served s tr msg 0x20 d q →
    odInfo q.index q.sub = some row → q.payload = [] →
    let size := if row.typ = 12 then domainSize d q.index q.sub else row.size
    let bs := [BitVec.ofNat 8 row.typ, BitVec.ofNat 8 row.acc, BitVec.ofNat 8 row.cls, 0] ++ leBytes 4 size
    exec (.info tr msg) s = .next { s with dev := deliverReply d q (responseFrame (replyKey d d q 0) q 0 bs) }) ∧
  (∀ p ∈ [(Instr.read, 0x01), (Instr.write, 0x02), (Instr.info, 0x20)],
    ∀ (tr : Transport) (msg : List Byte) (s : State) (d : Device) (q : JopReq), Served s tr msg p.2 d q →
    (odKind q.index = none →
      exec (p.1 tr msg) s = .next { s with dev := deliverReply d q (responseFrame (replyKey d d q 0x01) q 0x01 []) }) ∧
    (∀ k, odKind q.index = some k → odRow k q.sub = none →
      exec (p.1 tr msg) s = .next { s with dev := deliverReply d q (responseFrame (replyKey d d q 0x02) q 0x02 []) })) ∧
  (∀ (tr : Transport) (msg : List Byte) (s : State) (d : Device) (q : JopReq) (row : OdRow), Served s tr msg 0x02 d q →
    odInfo q.index q.sub = some row →
    (row.acc = 0 ∨ row.typ = 12 →
      exec (.write tr msg) s = .next { s with dev := deliverReply d q (responseFrame (replyKey d d q 0x03) q 0x03 []) }) ∧
    (row.acc ≠ 0 → row.typ ≠ 12 → row.typ ≠ 8 → row.typ ≠ 9 → q.payload.length ≠ row.size →
      exec (.write tr msg) s = .next { s with dev := deliverReply d q (responseFrame (replyKey d d q 0x04) q 0x04 []) }) ∧
    (row.acc ≠ 0 → row.typ ≤ 5 → q.payload.length = row.size → leNat q.payload < row.lo ∨ row.hi < leNat q.payload →
      exec (.write tr msg) s = .next { s with dev := deliverReply d q (responseFrame (replyKey d d q 0x05) q 0x05 []) })) ∧
  (∀ (d : Device) (i sub v : Nat) (row : OdRow), odInfo i sub = some row → sub < 256 → v < 256 ^ row.size →
    odGet (odStore d i sub v) i sub = v ∧
    (∀ i' sub', sub' < 256 → (i', sub') ≠ (i, sub) → odGet (odStore d i sub v) i' sub' = odGet d i' sub') ∧
    (odStore d i sub v).journal
      = (if row.cls = 0 ∧ 2 ≤ row.acc then d.journal ++ [{ key := 256 * i + sub, value := v }] else d.journal)) ∧
  (∀ (r : JopReq) (status len : Nat) (a : Bool), status < 256 → len < 65536 → r.sub < 256 → r.index < 65536 → r.op < 256 →
    r.offset < 2 ^ 32 →
    let h := leNat (responseHeader r status len a)
    nbits h 255 224 = r.seq.toNat ∧ nbits h 223 192 = r.sid.toNat ∧ nbits h 191 176 = len ∧ nbits h 167 160 = status ∧
    nbits h 159 152 = r.sub ∧ nbits h 151 136 = r.index ∧ nbits h 135 128 = r.op ∧ nbits h 127 96 = r.tag.toNat ∧
    nbits h 95 64 = r.offset ∧ nbits h 9 9 = b2n a ∧ nbits h 8 8 = 1 ∧ nbits h 7 0 = 1)

/-- R405 to R408, Table 16-12: OPEN makes a session on an enabled key slot, with the key that R406 derives; CLOSE and 60 s without a
request end a session and its transfers. SEG_INIT opens the one transfer of an object, SEG_DATA moves its next bytes, SEG_END closes
a complete one with its action, SEG_ABORT and 10 s without a segment end it. -/
def Obligations.JopSessions : Prop :=
  (∀ (tr : Transport) (msg : List Byte) (s : State) (d : Device) (q : JopReq), Served s tr msg 0x10 d q → q.sid = 0 →
    q.payload.length = 32 → leAt q.payload 1 15 = 0 →
    let k := leAt q.payload 0 1
    k ≤ 3 →
    (odFlag d (0x1110 + k) 3 = true → (d.sessions.filter (fun x => x.tr = q.tr)).length < sessionLimit q.tr →
      ∃ (e : Device) (x : Session) (nonce : Nat), exec (.open tr msg) s = .next { s with dev := e } ∧
        e.sessions = d.sessions ++ [x] ∧ x.tr = q.tr ∧ x.slot = k ∧ x.lastSeq = 0 ∧ x.fails = 0 ∧ x.usedAt = d.time ∧
        x.key = hmac (leBytes 32 (odGet d (0x1110 + k) 1))
          (([0x4A, 0x4F, 0x50, 0x53] : List Byte) ++ sliceBytes q.payload 16 16 ++ leBytes 16 nonce ++ leBytes 4 x.sid.toNat) ∧
        e.od = d.od ∧ e.berths = d.berths) ∧
    (odFlag d (0x1110 + k) 3 = false →
      exec (.open tr msg) s = .next { s with dev := deliverReply d q (responseFrame none q 0x08 []) }) ∧
    (odFlag d (0x1110 + k) 3 = true → sessionLimit q.tr ≤ (d.sessions.filter (fun x => x.tr = q.tr)).length →
      exec (.open tr msg) s = .next { s with dev := deliverReply d q (responseFrame none q 0x0A []) })) ∧
  (∀ (tr : Transport) (msg : List Byte) (s : State) (d : Device) (q : JopReq), Served s tr msg 0x11 d q →
    (sessionOf d q.tr q.sid).isSome = true → q.payload = [] →
    ∃ e : Device, exec (.close tr msg) s = .next { s with dev := e } ∧ (∀ x ∈ e.sessions, x.sid ≠ q.sid) ∧
      (∀ x ∈ d.sessions, x.sid ≠ q.sid → x ∈ e.sessions) ∧ (∀ t ∈ e.transfers, t.sid ≠ q.sid)) ∧
  (∀ (sid : U32) (s : State) (x : Session), x ∈ s.dev.sessions → x.sid = sid → x.usedAt + 6000000000 ≤ s.dev.time →
    ∃ e : Device, exec (.sessionIdleTimeout sid) s = .next { s with dev := e } ∧ (∀ y ∈ e.sessions, y.sid ≠ sid) ∧
      (∀ y ∈ s.dev.sessions, y.sid ≠ sid → y ∈ e.sessions) ∧ (∀ t ∈ e.transfers, t.sid ≠ sid)) ∧
  (∀ (tr : Transport) (msg : List Byte) (s : State) (d : Device) (q : JopReq) (row : OdRow), Served s tr msg 0x03 d q →
    odInfo q.index q.sub = some row → row.typ = 12 → q.payload.length = 4 → transferOf d q.index q.sub = none →
    let x : SegTransfer := { index := q.index, sub := q.sub, sid := q.sid, tr := q.tr, lastAt := d.time }
    let total := leAt q.payload 0 4
    let size := domainSize d q.index q.sub
    (total = 0 →
      let e := { d with transfers := d.transfers ++ [{ x with total := size }] }
      exec (.segInit tr msg) s = .next { s with dev := conclude d e q 0 (leBytes 4 size) }) ∧
    (0 < total → row.acc ≠ 0 → total ≤ domainLimit d q.index → (mstate d = 2 → moorRefuses d q.index q.sub 1 = false) →
      (writeStart d q.index).2 = 0 →
      let d1 := (writeStart d q.index).1
      let e := { d1 with transfers := d1.transfers ++ [{ x with write := true, total := total }] }
      exec (.segInit tr msg) s = .next { s with dev := conclude d e q 0 [] })) ∧
  (∀ (tr : Transport) (msg : List Byte) (s : State) (d : Device) (q : JopReq) (row : OdRow) (t : SegTransfer), Served s tr msg 0x04 d q →
    odInfo q.index q.sub = some row → row.typ = 12 → myTransfer d q = some t →
    (q.offset ≠ t.moved →
      exec (.segData tr msg) s = .next { s with dev := deliverReply d q (responseFrame (replyKey d d q 0x0D) q 0x0D []) }) ∧
    (q.offset = t.moved → t.write = false → q.payload.length = 4 → odKind t.index ≠ some .queue →
      let want := min (min (leAt q.payload 0 4) (t.total - t.moved)) (maxPayload q.tr)
      want = t.total - t.moved ∨ want % 4 = 0 →
      let e := setTransfer d { t with moved := t.moved + want, lastAt := d.time }
      exec (.segData tr msg) s = .next { s with dev := conclude d e q 0 (domainSlice d t.index t.moved want) }) ∧
    (q.offset = t.moved → t.write = true → 0 < q.payload.length →
      t.moved + q.payload.length = t.total ∨ (t.moved + q.payload.length < t.total ∧ q.payload.length % 4 = 0) →
      ∀ (d1 : Device) (rest : List Byte), segmentEffect d t q.payload = some (d1, rest) →
        let e := setTransfer d1 { t with moved := t.moved + q.payload.length, data := rest, lastAt := d1.time }
        exec (.segData tr msg) s = .next { s with dev := conclude d e q 0 [] })) ∧
  (∀ (tr : Transport) (msg : List Byte) (s : State) (d : Device) (q : JopReq) (row : OdRow) (t : SegTransfer), Served s tr msg 0x05 d q →
    odInfo q.index q.sub = some row → row.typ = 12 → myTransfer d q = some t → q.payload.length = 4 → leAt q.payload 0 4 = t.total →
    (t.write = false →
      exec (.segEnd tr msg) s = .next { s with dev := conclude d (dropTransfer d t.index t.sub) q 0 [] }) ∧
    (t.write = true → t.moved = t.total → (writeEnd d t).2 = 0 →
      exec (.segEnd tr msg) s = .next { s with dev := conclude d (dropTransfer (writeEnd d t).1 t.index t.sub) q 0 [] })) ∧
  (∀ (tr : Transport) (msg : List Byte) (s : State) (d : Device) (q : JopReq) (row : OdRow) (t : SegTransfer), Served s tr msg 0x06 d q →
    odInfo q.index q.sub = some row → row.typ = 12 → myTransfer d q = some t → q.payload = [] →
    exec (.segAbort tr msg) s = .next { s with dev := conclude d (abortTransfer d t) q 0 [] } ∧
    ∀ x ∈ (abortTransfer d t).transfers, ¬(x.index = t.index ∧ x.sub = t.sub)) ∧
  (∀ (index sub : Nat) (s : State) (t : SegTransfer), transferOf s.dev index sub = some t → t.lastAt + 1000000000 ≤ s.dev.time →
    exec (.segTransferTimeout index sub) s = .next { s with dev := abortTransfer s.dev t })

/-- R395 to R397, R403, R413, Tables 16-3, 16-5: a GO that finds the mailbox free submits the request of LEN bytes, or answers FRAME; one
that finds it BUSY or DONE is counted; the response is written with its length, BUSY ends and DONE sets. BAR0 writes reach the request
buffer, the mailbox register and the doorbells. The management port answers ARP for its own address, takes datagrams for its port and
counts the others; MCTP control commands are answered; a journal record goes to flash and releases its answer. -/
def Obligations.MailboxAndManagement : Prop :=
  (∀ cmd ∈ [Instr.mbxGo, Instr.mbxDoneClear], ∀ (w : U32) (s : State), s.dev.pcie.up = true →
    let m : Mailbox := { s.dev.mbx with done := s.dev.mbx.done && !bit w 29, irqen := bit w 28, len := fld w 12 0 }
    let frame := memReadBytes s.dev.mbx.req 0 (fld w 12 0)
    (bit w 31 = false ∨ firmwareReady s.dev = false → exec (cmd w) s = .next { s with dev := { s.dev with mbx := m } }) ∧
    (bit w 31 = true → firmwareReady s.dev = true → (m.busy || m.done) = true →
      exec (cmd w) s = .next { s with dev := odAdd { s.dev with mbx := m } 0x1100 0x0C 1 }) ∧
    (bit w 31 = true → firmwareReady s.dev = true → (m.busy || m.done) = false →
      ∃ e : Device, exec (cmd w) s = .next { s with dev := e } ∧ e.mbx = { m with busy := true } ∧ e.od = s.dev.od ∧
        (32 ≤ frame.length → frame.length ≤ 4096 → frameBad .mailbox frame = false →
          Tab.get [] e.requests 0 = Tab.get [] s.dev.requests 0 ++ [parseFrame .mailbox frame] ∧ e.responses = s.dev.responses) ∧
        (frame.length < 32 ∨ 4096 < frame.length ∨ frameBad .mailbox frame = true →
          let r := parseFrame .mailbox (memReadBytes s.dev.mbx.req 0 32)
          Tab.find e.responses 0 = some (r, responseFrame none r 0x0E []) ∧ e.requests = s.dev.requests))) ∧
  (∀ (s : State) (r : JopReq) (bs : List Byte), Tab.find s.dev.responses 0 = some (r, bs) → s.dev.mbx.busy = true →
    ∃ e : Device, exec .mbxResponseDone s = .next { s with dev := e } ∧ e.mbx.busy = false ∧ e.mbx.done = true ∧
      e.mbx.rlen = bs.length ∧ memReadBytes e.mbx.resp 0 bs.length = bs ∧ e.mbx.req = s.dev.mbx.req ∧ e.od = s.dev.od ∧
      (s.dev.mbx.irqen = false → e.pcie = s.dev.pcie) ∧
      (s.dev.mbx.irqen = true → s.dev.pcie.busMaster = true → 32 ∈ s.dev.pcie.unmasked →
        e.pcie.signalled = s.dev.pcie.signalled ++ [32])) ∧
  (∀ (off : BitVec 20) (bytes : Nat) (v : U64) (s : State), s.dev.pcie.up = true →
    (off = 0x10 → bytes = 4 → exec (.registerWrite off bytes v) s = exec (.mbxGo (BitVec.ofNat 32 v.toNat)) s) ∧
    (0x1000 ≤ off.toNat → off.toNat < 0x2000 → bytes ∈ [1, 2, 4, 8] → off.toNat % bytes = 0 →
      let m : Mailbox := { s.dev.mbx with req := memWriteBytes s.dev.mbx.req (off.toNat - 0x1000) (leBytes bytes v.toNat) }
      exec (.registerWrite off bytes v) s = .next { s with dev := { s.dev with mbx := m } }) ∧
    (∀ q : Fin 16384, off.toNat = 0x20000 + 8 * q.val →
      exec (.registerWrite off bytes v) s = exec (.queueDoorbellPointer q bytes v) s) ∧
    (∀ h : Fin 32, off.toNat = 0x40000 + 8 * h.val →
      exec (.registerWrite off bytes v) s = exec (.eventDoorbellCi h bytes v) s)) ∧
  (∀ (c : MctpCmd) (s : State), s.dev.power.aux = true →
    let eid := match c with
      | .setEid e => e
      | _ => s.dev.mctpEid
    let d := { s.dev with mctpEid := eid, mctpControlOut := s.dev.mctpControlOut ++ [(c, eid)] }
    exec (.mctpControl c) s = .next { s with dev := d }) ∧
  (∀ (g : Datagram) (s : State), mgmtUp s.dev = true →
    (∀ a, g.arp = some a → a.toNat = odGet s.dev 0x1100 2 →
      exec (.mgmtDatagram g) s = .next { s with dev := { s.dev with arpOut := s.dev.arpOut ++ [a] } }) ∧
    (g.arp = none → g.udp = true → g.dst.toNat = odGet s.dev 0x1100 2 → g.dport = odGet s.dev 0x1100 5 →
      frameBad .udp g.body = false →
      ∃ e : Device, exec (.mgmtDatagram g) s = .next { s with dev := e } ∧
        Tab.get [] e.requests 1
          = Tab.get [] s.dev.requests 1 ++ [{ parseFrame .udp g.body with peer := g.src, pport := g.sport }]) ∧
    (g.arp = none → g.udp = false ∨ g.dst.toNat ≠ odGet s.dev 0x1100 2 ∨ g.dport ≠ odGet s.dev 0x1100 5 →
      exec (.mgmtDatagram g) s = .next { s with dev := { s.dev with mgmtDiscards := s.dev.mgmtDiscards + 1 } })) ∧
  (∀ (s : State) (e : JournalRec) (es : List JournalRec), s.dev.journal = e :: es →
    (e.key < 0x110001 ∨ 0x110006 < e.key) →
    let d := { s.dev with journal := es, flash := Tab.set s.dev.flash e.key e.value }
    (e.reply = none → exec .journalCommit s = .next { s with dev := d }) ∧
    (∀ r bs, e.reply = some (r, bs) → exec .journalCommit s = .next { s with dev := deliverReply d r bs }))

/-! Firmware, defaults and device time (chapters 16, 18 and 19) -/

/-- R391, R403, R421, R474: FW_BOOT_NEXT marks the inactive bank and FW_CANCEL unmarks it; FW_BOOT_WARM marks and resets, so that the other
bank boots as its first try; a marked bank that is not READY after 10 s is started again, and after three tries the other bank takes
over with FW_STATE 5. Self-test that passes makes the firmware READY and releases FAULT_N when no source is uncleared; one that fails
reports source 0x08B. RESTORE_DEFAULTS returns every class P object but the keys to its default, with cause 10. -/
def Obligations.FirmwareBoot : Prop :=
  (∀ s : State, fwAllowed s.dev 1 = true →
    let d := { s.dev with fw := { s.dev.fw with marked := true, tries := 0 } }
    exec .fwBootNext s = .next { s with dev := d }) ∧
  (∀ s : State, fwAllowed s.dev 3 = true →
    let d := { s.dev with fw := { s.dev.fw with marked := false, tries := 0 } }
    exec .fwCancel s = .next { s with dev := d }) ∧
  (∀ s : State, fwAllowed s.dev 2 = true →
    ∃ e : Device, exec .fwBootWarm s = .next { s with dev := e } ∧ e.fw.active = 1 - s.dev.fw.active ∧ e.fw.tries = 1 ∧
      e.fw.marked = true ∧ FlashKept s.dev.drawn s.dev.flash e.flash ∧ e.time = s.dev.time ∧ e.sessions = [] ∧ e.berths = []) ∧
  (∀ s : State, s.dev.fw.running = true → s.dev.fw.marked = true → s.dev.fw.fwstate ≠ 2 → s.dev.fw.bootAt + 1000000000 ≤ s.dev.time →
    ∃ e : Device, exec .bootReadyTimeout s = .next { s with dev := e } ∧
      (s.dev.fw.tries < 3 → e.fw.tries = s.dev.fw.tries + 1 ∧ e.fw.marked = true ∧
        e.fw.active = (if s.dev.fw.tries = 0 then 1 - s.dev.fw.active else s.dev.fw.active)) ∧
      (3 ≤ s.dev.fw.tries → e.fw.active = 1 - s.dev.fw.active ∧ e.fw.marked = false ∧ e.fw.tries = 0 ∧ odGet e 0x1020 2 = 5) ∧
      FlashKept s.dev.drawn s.dev.flash e.flash ∧ e.berths = s.dev.berths) ∧
  (∀ s : State, s.dev.fw.running = true → s.dev.fw.fwstate = 1 →
    (∃ e : Device, exec (.selfTestComplete true) s = .next { s with dev := e } ∧ e.fw.fwstate = 2 ∧ e.fw.selfTested = true ∧
      e.fw.marked = false ∧ e.fw.tries = 0 ∧ e.fw.active = s.dev.fw.active ∧ e.hub.uncleared = s.dev.hub.uncleared ∧
      (s.dev.hub.uncleared = [] → faultLow e = false) ∧
      (∀ b < 4, ∀ c < 20, spareEntry e b c = 0 ∨ spareEntry e b c = 64) ∧ e.flash = s.dev.flash) ∧
    (∃ (e : Device) (r : Report), exec (.selfTestComplete false) s = .next { s with dev := e } ∧ e.fw.fwstate = 3 ∧
      e.fw.selfTested = s.dev.fw.selfTested ∧ e.hub.reports = s.dev.hub.reports ++ [r] ∧ r.source = 0x08B ∧ e.od = s.dev.od)) ∧
  (∀ s : State, ∃ e : Device, exec .restoreDefaults s = .next { s with dev := e } ∧ (odGet e 0x1010 1).testBit 10 = true ∧
    (∀ (i sub : Nat) (row : OdRow), sub < 256 → odInfo i sub = some row → row.cls = 0 → odKind i ≠ some .key →
      odGet e i sub = odDefault i sub)) ∧
  (∀ (v : U32) (s : State), odGet s.dev 0x1010 1 < 2 ^ 32 →
    ∃ e : Device, exec (.defaultsCauseClear v) s = .next { s with dev := e } ∧
      odGet e 0x1010 1 = odGet s.dev 0x1010 1 - Nat.land (odGet s.dev 0x1010 1) v.toNat ∧ e.flash = s.dev.flash)

/-- R444, R445, R485: a write sets device time, unsynchronised. An accepted edge loads the waiting time, steps a time that is off by more
than 10 µs, or slews it over the next second, and after 4 good edges the clock is synchronised; a shorter pulse, or one within 0.5 s
of the last, is ignored. Missed edges are counted; the third ends the synchronised state. -/
def Obligations.DeviceTime : Prop :=
  (∀ (v : U64) (s : State), exec (.timeWrite v) s = .next { s with dev := odPut { s.dev with
      time := v.toNat
      pps := { s.dev.pps with lastEdge := s.dev.pps.lastEdge.map (fun t => t + (v.toNat : Int) - (s.dev.time : Int)) } } 0x1200 4 1 }) ∧
  (∀ (samples : Nat) (te : U64) (s : State), odFlag s.dev 0x1200 2 = true → 4 ≤ samples → te.toNat ≤ s.dev.time →
    (∀ t, s.dev.pps.lastEdge = some t → t + 50000000 ≤ (te.toNat : Int)) →
    let x := secondError te.toNat
    ∃ e : Device, exec (.ppsEdge samples te) s = .next { s with dev := e } ∧ e.pps.missed = 0 ∧ e.berths = s.dev.berths ∧
      (odGet s.dev 0x1200 3 ≠ 0 → e.time = (odGet s.dev 0x1200 3 + (s.dev.time - te.toNat)) % 2 ^ 64 ∧ odGet e 0x1200 3 = 0 ∧
        odGet e 0x1200 4 = 1 ∧ e.pps.good = 0) ∧
      (odGet s.dev 0x1200 3 = 0 → -1000 ≤ x → x ≤ 1000 → e.time = s.dev.time ∧ e.pps.slew = -x ∧ e.pps.elapsed = 0 ∧
        e.pps.lastEdge = some (te.toNat : Int) ∧ e.pps.good = (if -10 ≤ x ∧ x ≤ 10 then s.dev.pps.good + 1 else 0)) ∧
      (odGet s.dev 0x1200 3 = 0 → x < -1000 ∨ 1000 < x → e.time = ((s.dev.time : Int) - x).toNat % 2 ^ 64 ∧ e.pps.good = 0 ∧
        e.pps.slew = s.dev.pps.slew) ∧
      (odGet s.dev 0x1200 3 = 0 → -10 ≤ x → x ≤ 10 → 3 ≤ s.dev.pps.good → odGet e 0x1200 4 = 2)) ∧
  (∀ (samples : Nat) (te : U64) (s : State),
    odFlag s.dev 0x1200 2 = false ∨ samples < 4 ∨ (∃ t, s.dev.pps.lastEdge = some t ∧ (te.toNat : Int) < t + 50000000) →
    exec (.ppsEdge samples te) s = .next s) ∧
  (∀ (s : State) (t : Int), odFlag s.dev 0x1200 2 = true → s.dev.pps.lastEdge = some t →
    t + 100000000 * (s.dev.pps.missed + 1) + 100000 < (s.dev.time : Int) →
    ∃ e : Device, exec .ppsMissed s = .next { s with dev := e } ∧ e.pps.missed = s.dev.pps.missed + 1 ∧ e.time = s.dev.time ∧
      odGet e 0x1200 5 = min (odGet s.dev 0x1200 5 + 1) 4294967295 ∧
      odGet e 0x1200 4 = (if 3 ≤ s.dev.pps.missed + 1 ∧ odGet s.dev 0x1200 4 = 2 then 1 else odGet s.dev 0x1200 4))

/-! Slots, changeover, halt and scan (chapter 12) -/

/-- R302, R303, R323, Table 12-7: a load check that fails leaves the slot REFUSED with STATUS and DETAIL; one that passes takes the pool
regions and the slot to WRITING, whatever the sections without a byte layout hold (assumption log 7); when all is written every used tile holds the plane and the slot is LOADED. An unload empties a
LOADED or REFUSED slot and gives its regions back; HBM keeps its bytes. -/
def Obligations.SlotLoading : Prop :=
  (∀ (b k : Fin 4) (s : State), firmwareReady s.dev = true → slotState s.dev b.val k.val = 2 →
    let d := checkDone (readImage (slotBytes s.dev b.val k.val)) s.dev b.val k.val
    exec (.imageLoadCheckDone b k) s = .next { s with dev := d }) ∧
  (∀ (img : Image) (b k : Fin 4) (d : Device) (f : Nat × Nat), slotState d b.val k.val = 2 →
    let bs := slotBytes d b.val k.val
    let e := checkDone img d b.val k.val
    loadVerdict img d b.val k.val bs.length bs = some f →
    slotState e b.val k.val = 7 ∧ odGet e (0x3000 + 4 * b.val + k.val) 4 = f.1 % 65536 ∧
      odGet e (0x3000 + 4 * b.val + k.val) 5 = f.2 % 2 ^ 64 ∧ e.berths = d.berths) ∧
  (∀ (img : Image) (b k : Fin 4) (d : Device), slotState d b.val k.val = 2 →
    let bs := slotBytes d b.val k.val
    let e := checkDone img d b.val k.val
    loadVerdict img d b.val k.val bs.length bs = none →
    (poolAllocAll (berthAt d b.val).hbm (0x10000 + k.val) (spillSizes img)).isSome = true →
    slotState e b.val k.val = 3 ∧ (slotAt e b.val k.val).image.isSome = true ∧
      (slotAt e b.val k.val).received = (slotAt d b.val k.val).received ∧
      odGet e (0x3000 + 4 * b.val + k.val) 4 = 0 ∧ (odGet e 0x1010 1).testBit 6 = true) ∧
  (∀ (b k : Fin 4) (s : State) (img : Image), firmwareReady s.dev = true → slotState s.dev b.val k.val = 3 →
    (slotAt s.dev b.val k.val).image = some img →
    ∃ e : Device, exec (.slotWriteDone b k) s = .next { s with dev := e } ∧ slotState e b.val k.val = 4 ∧
      (∀ p ∈ img.planes, (planeAt (tileAt e b.val (physKey e b.val (p.1 / 32) (p.1 % 32))) k.val).loaded = true) ∧
      (berthAt e b.val).hbm = (berthAt s.dev b.val).hbm ∧ runSlot e b.val = runSlot s.dev b.val) ∧
  (∀ (b k : Fin 4) (s : State),
    (slotState s.dev b.val k.val = 4 ∨ slotState s.dev b.val k.val = 7 →
      ∃ e : Device, exec (.slotUnload b k) s = .next { s with dev := e } ∧ slotState e b.val k.val = 0 ∧ slotAt e b.val k.val = {} ∧
        (berthAt e b.val).hbm.mem = (berthAt s.dev b.val).hbm.mem ∧
        (berthAt e b.val).hbm.pool = (poolFree (berthAt s.dev b.val).hbm (slotAt s.dev b.val k.val).granules).pool) ∧
    (slotState s.dev b.val k.val ≠ 4 → slotState s.dev b.val k.val ≠ 7 →
      exec (.slotUnload b k) s = .next { s with dev := wakeBerth s.dev b.val }))

/-- R308, R311 to R313, R315, R316, R318, R319, R468: an orderly changeover that nothing hinders makes the slot RELEASING on every berth
of its pipeline under the next epoch; one that finds the berth busy or the slot not LOADED has CO_STATUS 0x0901 or 0x0902 and no
other effect; with less than 120 W available it has none at all. A forced one cuts first; a forced stop ends IDLE at once. -/
def Obligations.ChangeoverCommands : Prop :=
  (∀ (b k : Fin 4) (s : State),
    let ps := pipelineBerths s.dev b.val k.val
    (availW s.dev < 120 → exec (.changeoverOrderly b k) s = .next s) ∧
    (120 ≤ availW s.dev →
      (berthAt s.dev b.val).co.active = true ∨ repairBusy s.dev b.val = true ∨ bstate s.dev b.val = 4 ∨ bstate s.dev b.val = 5 →
      exec (.changeoverOrderly b k) s = .next { s with dev := coStatus (wakeBerth s.dev b.val) b.val 0x0901 }) ∧
    (120 ≤ availW s.dev → (berthAt s.dev b.val).co.active = false → repairBusy s.dev b.val = false →
      bstate s.dev b.val ≠ 4 → bstate s.dev b.val ≠ 5 →
      (slotState s.dev b.val k.val ≠ 4 →
        exec (.changeoverOrderly b k) s = .next { s with dev := coStatus (wakeBerth s.dev b.val) b.val 0x0902 }) ∧
      (slotState s.dev b.val k.val = 4 → ps.Nodup → (∀ x ∈ ps, x < 4) →
        ∃ e : Device, exec (.changeoverOrderly b k) s = .next { s with dev := e } ∧
          ∀ x ∈ ps, (coOf e x).active = true ∧ (coOf e x).mode = 0 ∧ (coOf e x).target = k.val ∧
            (coOf e x).epoch = nextEpoch s.dev b.val ∧ (coOf e x).since = s.dev.time ∧ slotState e x k.val = 5 ∧
            bstate e x = (if bstate s.dev x = 0 then 1 else 3) ∧ runSlot e x = runSlot s.dev x ∧ odGet e (0x3010 + x) 7 = 0))) ∧
  (∀ p ∈ [(Instr.changeoverForcedRefeed, 1), (Instr.changeoverForcedDrop, 2), (Instr.changeoverForcedHold, 3)],
    ∀ (b k : Fin 4) (halted : Bool) (s : State), 120 ≤ availW s.dev → repairBusy s.dev b.val = false → bstate s.dev b.val ≠ 5 →
    let ps := pipelineBerths s.dev b.val k.val
    (p.2 = 3 → (bstate s.dev b.val ≠ 4 ∨ scanMatches s.dev b.val = false) →
      exec (p.1 b k halted) s = .next { s with dev := coStatus (wakeBerth s.dev b.val) b.val 0x0905 }) ∧
    ((p.2 = 3 → bstate s.dev b.val = 4 ∧ scanMatches s.dev b.val = true) →
      slotState s.dev b.val k.val = 4 ∨ runSlot s.dev b.val = k.val → ps.Nodup → (∀ x ∈ ps, x < 4) →
      ∃ e : Device, exec (p.1 b k halted) s = .next { s with dev := e } ∧
        ∀ x ∈ ps, (coOf e x).active = true ∧ (coOf e x).mode = p.2 ∧ (coOf e x).target = k.val ∧ (coOf e x).stage = 0 ∧
          (coOf e x).arriveHalted = halted ∧ (coOf e x).epoch = nextEpoch s.dev b.val ∧ slotState e x k.val = 5 ∧
          (runSlot s.dev x < 4 → runSlot s.dev x ≠ k.val → slotState e x (runSlot s.dev x) = 4))) ∧
  (∀ (b : Fin 4) (s : State), (berthAt s.dev b.val).co.active = false → repairBusy s.dev b.val = false →
    bstate s.dev b.val ≠ 4 → bstate s.dev b.val ≠ 5 →
    let ps := pipelineBerths s.dev b.val (runSlot s.dev b.val)
    (bstate s.dev b.val = 0 → exec (.changeoverStop b 0) s = .next { s with dev := coStatus (wakeBerth s.dev b.val) b.val 0 }) ∧
    (bstate s.dev b.val ≠ 0 → ps.Nodup → (∀ x ∈ ps, x < 4) →
      ∃ e : Device, exec (.changeoverStop b 0) s = .next { s with dev := e } ∧
        ∀ x ∈ ps, (coOf e x).active = true ∧ (coOf e x).mode = 0 ∧ (coOf e x).target = 15 ∧ runSlot e x = runSlot s.dev x)) ∧
  (∀ (b mode : Fin 4) (s : State), mode ≠ 0 → repairBusy s.dev b.val = false → bstate s.dev b.val ≠ 5 →
    (mode = 3 → bstate s.dev b.val = 4 ∧ scanMatches s.dev b.val = true) →
    let ps := pipelineBerths s.dev b.val (runSlot s.dev b.val)
    ps.Nodup → (∀ x ∈ ps, x < 4) →
    ∃ e : Device, exec (.changeoverStop b mode) s = .next { s with dev := e } ∧
      ∀ x ∈ ps, bstate e x = 0 ∧ runSlot e x = 0xFF ∧ berthEpoch e x = (nextEpoch s.dev b.val).toNat ∧ (coOf e x).active = false) ∧
  (∀ p : Plane, (cutPlane p).live = false ∧ (cutPlane p).cut = true ∧ (∀ n, (iqAt (cutPlane p) n).occ = 0) ∧
    (∀ c, (ctxAt (cutPlane p) c).state = (if (ctxAt p c).state = .idle then .idle else .halt)) ∧ (cutPlane p).steps = p.steps)

/-- R305, R306, R308, R311, R317: stage 1 enables the outputs of the incoming tiles, stage 2 makes their planes live under the new
epoch, stage 3 starts them and makes the slot RUNNING. During an orderly changeover the memory-side units hold the incoming slot's
configuration beside the outgoing one's, and an engine or unit that has switched acts on it alone. The feeder marks its queues, a
drained context halts, and an orderly changeover that takes too long becomes a forced one with CO_STATUS 0x0903. -/
def Obligations.ReleaseAndDrain : Prop :=
  (∀ (b : Fin 4) (s : State),
    let c := coOf s.dev b.val
    c.active = true → c.target < 4 →
    (c.stage = 0 →
      ∃ e : Device, exec (.releaseStageOutputs b) s = .next { s with dev := e } ∧ coOf e b.val = { c with stage := 1 } ∧
        (∀ key ∈ slotTiles s.dev b.val c.target, (tileAt e b.val key).outEnabled = true ∧
          (planeAt (tileAt e b.val key) c.target).released = 1) ∧ e.od = s.dev.od) ∧
    (∀ img, c.stage = 1 → (slotAt s.dev b.val c.target).image = some img →
      ∃ e : Device, exec (.releaseStageWriteEnables b) s = .next { s with dev := e } ∧ coOf e b.val = { c with stage := 2 } ∧
        (∀ p ∈ img.planes, let P := planeAt (tileAt e b.val (physKey e b.val (p.1 / 32) (p.1 % 32))) c.target
          P.live = true ∧ P.released = 2 ∧ P.epoch = c.epoch) ∧
        (c.arriveHalted = true → bstate e b.val = 4 ∧ runSlot e b.val = c.target ∧ slotState e b.val c.target = 6) ∧
        (c.arriveHalted = false → e.od = s.dev.od)) ∧
    (c.stage = 2 → c.arriveHalted = false → slotPaired s.dev b.val c.target = true → c.mode ≠ 0 ∨ runSlot s.dev b.val = 0xFF →
      ∃ e : Device, exec (.releaseStageResets b) s = .next { s with dev := e } ∧ runSlot e b.val = c.target ∧ bstate e b.val = 2 ∧
        slotState e b.val c.target = 6 ∧ berthEpoch e b.val = c.epoch.toNat ∧ (coOf e b.val).active = false ∧
        (berthAt e b.val).feederOpen = true ∧
        (runSlot s.dev b.val < 4 → runSlot s.dev b.val ≠ c.target → slotState e b.val (runSlot s.dev b.val) = 4))) ∧
  (∀ (b : Fin 4) (s : State) (img : Image),
    let c := coOf s.dev b.val
    c.active = true → c.target < 4 → c.stage = 1 → c.mode = 0 → runSlot s.dev b.val < 4 → (slotAt s.dev b.val c.target).image = some img →
    ∃ e : Device, exec (.releaseStageWriteEnables b) s = .next { s with dev := e } ∧
      (berthAt e b.val).incoming = some (slotTables c.target img) ∧ (berthAt e b.val).unitSlot = (berthAt s.dev b.val).unitSlot ∧
      (berthAt e b.val).engines = (berthAt s.dev b.val).engines ∧ e.ports = s.dev.ports ∧ e.ends = s.dev.ends) ∧
  (∀ (b : Fin 4) (e : Fin 16) (pt : Fin 4) (s : State) (u : UnitTables),
    let c := coOf s.dev b.val
    (berthAt s.dev b.val).incoming = some u → u.slot = some c.target → c.active = true → (berthAt s.dev b.val).unitSlot ≠ some c.target →
    let v : State := { s with dev := swapUnits s.dev b.val }
    (c.enginesSwitched.contains e.val = true →
      ∀ i ∈ [Instr.seta, .adda, .sets, .nexts, .loop, .endl, .rd, .wr, .pad, .take, .post, .fence, .endp],
        ∀ t, exec (i b e pt) v = .next t → exec (i b e pt) s = .next { t with dev := swapUnits t.dev b.val }) ∧
    (c.marksSent = true → feederReady s.dev b.val = true →
      exec (.feederFrameStart b) s = .next { s with dev := swapUnits (feederFrame v.dev b.val) b.val }) ∧
    (c.marksSent = true → endsDrained s.dev (managerEnds (runBind s.dev b.val)) = true →
      ∀ i ∈ [Instr.resultFrame, .featureItem], ∀ t, exec (i b) v = .next t → exec (i b) s = .next { t with dev := swapUnits t.dev b.val }) ∧
    (c.cropSwitched = true → c.marksSent = true →
      ∀ t, exec (.cropGather b) v = .next t → exec (.cropGather b) s = .next { t with dev := swapUnits t.dev b.val })) ∧
  (∀ (b : Fin 4) (s : State),
    let c := coOf s.dev b.val
    c.active = true → c.mode = 0 → c.marksSent = false → runSlot s.dev b.val < 4 → (c.stage = 2 ∨ c.target = 15) →
    slotPaired s.dev b.val c.target = true →
    exec (.feederEpochMark b) s = .next { s with dev := feederMark s.dev b.val } ∧
    ((coOf (feederMark s.dev b.val) b.val).marksSent = true ∨ (coOf (feederMark s.dev b.val) b.val).active = false)) ∧
  (∀ (t : TileId) (c : Fin 4) (s : State),
    let co := coOf s.dev t.b.val
    let T := tileAt s.dev t.b.val (keyOf s.dev t)
    co.active = true → co.mode = 0 → T.run = runSlot s.dev t.b.val → co.target ≠ T.run → (ctxAt (planeAt T T.run) c.val).drained = false →
    contextDrained (planeAt T T.run) c.val = true → (∀ f ∈ T.inflight, f.ctx ≠ c.val) →
    ∃ e : Device, exec (.contextDrained t c) s = .next { s with dev := e } ∧
      (let x := ctxAt (planeAt (tileAt e t.b.val (keyOf s.dev t)) T.run) c.val
       x.state = .halt ∧ x.drained = true) ∧ (tileAt e t.b.val (keyOf s.dev t)).mem = T.mem) ∧
  (∀ (b : Fin 4) (s : State),
    let c := coOf s.dev b.val
    c.active = true → c.mode = 0 → runSlot s.dev b.val < 4 → c.since + 100000 * odGet s.dev (0x3010 + b.val) 6 ≤ s.dev.time →
    ∃ e : Device, exec (.changeoverTimeout b) s = .next { s with dev := e } ∧ odGet e (0x3010 + b.val) 7 = 0x0903 ∧
      slotState e b.val (runSlot s.dev b.val) = 4 ∧
      (c.target ≠ 15 → (coOf e b.val).mode = 1 ∧ (coOf e b.val).active = true ∧ (coOf e b.val).target = c.target) ∧
      (c.target = 15 → bstate e b.val = 0 ∧ runSlot e b.val = 0xFF))

/-- R316, R320 to R322, R433, R459: HALT stops the running contexts, and the berth is HALTED once nothing moves; RESUME lets them go on.
SCAN-OUT saves the berth under a header that SCAN-IN accepts; SCAN-IN gives each tile that serves a saved position its block memory,
banks and plane, or has CO_STATUS 0x0904. A hold release frees the held frames. BERTH reset keeps HBM and slots, sets its cause, and
restarts the slot that ran. -/
def Obligations.HaltScanReset : Prop :=
  (∀ (b : Fin 4) (s : State),
    ((coOf s.dev b.val).active = false → bstate s.dev b.val = 2 →
      ∃ e : Device, exec (.halt b) s = .next { s with dev := e } ∧ odGet e (0x3010 + b.val) 7 = 0 ∧ bstate e b.val = 2 ∧
        (berthAt e b.val).feederOpen = false ∧ (berthAt e b.val).haltDone = true ∧ (berthAt e b.val).haltTime = s.dev.time ∧
        ∀ key ∈ slotTiles s.dev b.val (runSlot s.dev b.val), ∀ n,
          let x := ctxAt (planeAt (tileAt s.dev b.val key) (runSlot s.dev b.val)) n
          ctxAt (planeAt (tileAt e b.val key) (runSlot s.dev b.val)) n
            = (if x.state = .ready ∨ x.state = .wait then { x with state := .halt, halted := true } else x)) ∧
    ((coOf s.dev b.val).active = true ∨ bstate s.dev b.val ≠ 2 →
      exec (.halt b) s = .next { s with dev := coStatus (wakeBerth s.dev b.val) b.val 0x0901 })) ∧
  (∀ (b : Fin 4) (s : State), (berthAt s.dev b.val).haltDone = true → bstate s.dev b.val = 2 → berthQuiet s.dev b.val = true →
    exec (.haltComplete b) s = .next { s with dev := odPut (haltContexts s.dev b.val) (0x3010 + b.val) 3 4 }) ∧
  (∀ (b : Fin 4) (s : State),
    (bstate s.dev b.val = 4 → (coOf s.dev b.val).active = false → odGet s.dev (0x8020 + b.val) 1 ≠ 6 →
      ∃ e : Device, exec (.resume b) s = .next { s with dev := e } ∧ odGet e (0x3010 + b.val) 7 = 0 ∧ bstate e b.val = 2 ∧
        (berthAt e b.val).feederOpen = true ∧ (berthAt e b.val).haltDone = false ∧
        ∀ key ∈ slotTiles s.dev b.val (runSlot s.dev b.val), ∀ n,
          let x := ctxAt (planeAt (tileAt s.dev b.val key) (runSlot s.dev b.val)) n
          ctxAt (planeAt (tileAt e b.val key) (runSlot s.dev b.val)) n = (if x.halted then { x with state := .ready, halted := false } else x)) ∧
    (bstate s.dev b.val ≠ 4 → exec (.resume b) s = .next { s with dev := coStatus (wakeBerth s.dev b.val) b.val 0x0901 })) ∧
  (∀ (b : Fin 4) (s : State), bstate s.dev b.val = 4 → (coOf s.dev b.val).active = false →
    ((berthAt s.dev b.val).scan.allocated = true ∨ ((berthAt s.dev b.val).holdFrames = false ∧
      (poolAlloc (berthAt s.dev b.val).hbm scanBytes (0x30000 + b.val)).isSome = true)) →
    ∃ e : Device, exec (.scanOut b) s = .next { s with dev := e } ∧ odGet e (0x3010 + b.val) 7 = 0 ∧
      (berthAt e b.val).scan.header = scanHeader s.dev b.val ∧ (berthAt e b.val).hbm.mem = (berthAt s.dev b.val).hbm.mem ∧
      (∀ k, (tileAt e b.val k).mem = (tileAt s.dev b.val k).mem) ∧
      (runSlot s.dev b.val < 4 → (∀ c < 20, spareEntry s.dev b.val c < 256) → scanMatches e b.val = true)) ∧
  (∀ (b : Fin 4) (s : State), bstate s.dev b.val = 4 →
    let sc := (berthAt s.dev b.val).scan
    let place := fun (p : Nat × Tile) => physKey s.dev b.val (p.1 / 32) (p.1 % 32)
    (scanInOk s.dev b.val = true → (List.map place sc.tiles).Nodup →
      ∃ e : Device, exec (.scanIn b) s = .next { s with dev := e } ∧ odGet e (0x3010 + b.val) 7 = 0 ∧
        (berthAt e b.val).engines = sc.engines ∧
        ∀ p ∈ sc.tiles, let T := tileAt e b.val (place p)
          T.banks = p.2.banks ∧ planeAt T (runSlot s.dev b.val) = planeAt p.2 (runSlot s.dev b.val) ∧
          (memWf p.2.mem = true → T.mem = p.2.mem)) ∧
    (scanInOk s.dev b.val = false → exec (.scanIn b) s = .next { s with dev := coStatus (wakeBerth s.dev b.val) b.val 0x0904 })) ∧
  (∀ (b : Fin 4) (s : State), ∃ e : Device, exec (.holdRelease b) s = .next { s with dev := e } ∧
    (berthAt e b.val).holdFrames = false ∧ odGet e (0x3010 + b.val) 7 = 0 ∧ (berthAt e b.val).tiles = (berthAt s.dev b.val).tiles) ∧
  (∀ (b : Fin 4) (s : State), mstate s.dev = 0 →
    ∃ e : Device, exec (.berthReset b) s = .next { s with dev := e } ∧
      (berthAt e b.val).hbm.mem = (berthAt s.dev b.val).hbm.mem ∧ (berthAt e b.val).slots = (berthAt s.dev b.val).slots ∧
      runSlot e b.val = (if runSlot s.dev b.val < 4 then 0xFF else runSlot s.dev b.val) ∧ (odGet e 0x1010 1).testBit 5 = true ∧
      bpstate e b.val = 0 ∧ (berthAt e b.val).repair.active = false ∧
      (4 ≤ runSlot s.dev b.val → bstate e b.val = 0 ∧ (coOf e b.val).active = false) ∧
      (runSlot s.dev b.val < 4 → bstate e b.val = 1 ∧ (coOf e b.val).active = true ∧ (coOf e b.val).mode = 1 ∧
        (coOf e b.val).target = runSlot s.dev b.val))

/-! Adaptation as firmware runs it (chapter 11) -/

/-- R267 to R269, R274, R284 to R288, R290, Tables 11-10 to 11-12: a target item that passes R268 is accepted and another one counted; an
update that is due takes its items under the next number; a snapshot makes the next epoch wait; once every entry tile is held the
head tiles are armed with the greatest FPC; pause and resume set their flag; an abort ends the update and is counted; a rollback makes
a new epoch wait that holds the content of an earlier one. -/
def Obligations.AdaptationCommands : Prop :=
  (∀ (b : Fin 4) (item : List Byte) (s : State) (h : HeadDecl), headOf s.dev b.val = some h → firmwareReady s.dev = true →
    let q := odGet s.dev (0x8800 + b.val) 2
    q < 16384 → (ringOf s.dev q).enabled = true → qDir s.dev q = 1 → item ≠ [] →
    let d := dropHostGaps s.dev q
    targetEntries d q item ≤ ringHeld (ringOf d q) →
    (leAt item 0 1 = 0xFE →
      exec (.targetItemAccept b item) s = .next { s with dev := consumeItem d q (targetEntries d q item) true }) ∧
    let imgid := (slotAt s.dev b.val (runSlot s.dev b.val)).imgid
    (leAt item 0 1 ≠ 0xFE → targetGood h imgid item = true →
      ∃ e : Device, exec (.targetItemAccept b item) s = .next { s with dev := e } ∧
        adaptOf e b.val = { adaptOf s.dev b.val with accepted := (adaptOf s.dev b.val).accepted ++ [(s.dev.time, item)] }) ∧
    (leAt item 0 1 ≠ 0xFE → targetGood h imgid item = false →
      ∃ e : Device, exec (.targetItemAccept b item) s = .next { s with dev := e } ∧ adaptOf e b.val = adaptOf s.dev b.val ∧
        odGet e (0x8810 + b.val) 9 = min (odGet s.dev (0x8810 + b.val) 9 + 1) 4294967295)) ∧
  (∀ (b : Fin 4) (s : State) (h : HeadDecl), headOf s.dev b.val = some h →
    (updateDue s.dev b.val h = true →
      ∃ e : Device, exec (.updateStart b) s = .next { s with dev := e } ∧ odGet e (0x8810 + b.val) 1 = 3 ∧
        (let a := adaptOf s.dev b.val
         let a' := adaptOf e b.val
         a'.updating = true ∧ a'.updateNo = a.updateNo + 1 ∧ a'.accepted = a.accepted.drop h.batch ∧
         a'.n = min h.batch a.accepted.length ∧ a'.bad = false ∧ a'.lastStart = s.dev.time ∧ a'.ring = a.ring ∧
         a'.pendingEpoch = a.pendingEpoch)) ∧
    (updateDue s.dev b.val h = false → exec (.updateStart b) s = .next s)) ∧
  (∀ (b : Fin 4) (s : State) (h : HeadDecl), headOf s.dev b.val = some h → (adaptOf s.dev b.val).committing = true →
    (adaptOf s.dev b.val).snapshotTaken = false →
    ∃ (e : Device) (x : Epoch), exec (.epochSnapshotDone b) s = .next { s with dev := e } ∧
      (adaptOf e b.val).pendingEpoch = some x ∧ (adaptOf e b.val).snapshotTaken = true ∧
      x.number = slotEpoch s.dev b.val (runSlot s.dev b.val) + 1 ∧ x.slot = runSlot s.dev b.val ∧ x.imgid = (slotAt s.dev b.val (runSlot s.dev b.val)).imgid ∧
      x.copies = snapshotPlanes s.dev b.val h ∧ (adaptOf e b.val).ring = (adaptOf s.dev b.val).ring ∧
      ∀ k ∈ headKeys s.dev b.val h.entryTiles, let T := tileAt e b.val k
        (planeAt T T.run).adapt.hold = true ∧ (planeAt T T.run).swap.g = 0) ∧
  (∀ (b : Fin 4) (s : State) (h : HeadDecl), headOf s.dev b.val = some h →
    (adaptOf s.dev b.val).pendingEpoch.isSome = true → h.entryTiles ≠ [] →
    (∀ k ∈ headKeys s.dev b.val h.entryTiles, tileHeld (tileAt s.dev b.val k) = true) →
    ∃ e : Device, exec (.entryTilesHeld b) s = .next { s with dev := e } ∧
      (∀ k ∈ headKeys s.dev b.val h.entryTiles, let T := tileAt s.dev b.val k
        (planeAt T T.run).swap.fpc.toNat ≤ (adaptOf e b.val).gm) ∧
      ∀ k ∈ headKeys s.dev b.val h.tiles, let T := tileAt e b.val k
        (planeAt T T.run).adapt.hold = true ∧ (planeAt T T.run).swap.g = BitVec.ofNat 32 (adaptOf e b.val).gm) ∧
  (∀ p ∈ [(Instr.adaptPause, true), (Instr.adaptResume, false)], ∀ (b : Fin 4) (s : State),
    ∃ e : Device, exec (p.1 b) s = .next { s with dev := e } ∧ adaptOf e b.val = { adaptOf s.dev b.val with paused := p.2 } ∧
      odGet e (0x8810 + b.val) 1 = adaptState e b.val ∧ e.hub = s.dev.hub ∧ e.queues = s.dev.queues) ∧
  (∀ (b : Fin 4) (s : State),
    let a := adaptOf s.dev b.val
    (a.updating || a.committing || a.rollback.isSome) = true →
    ∃ e : Device, exec (.adaptAbort b) s = .next { s with dev := e } ∧
      (let a' := adaptOf e b.val
       a'.updating = false ∧ a'.committing = false ∧ a'.rollback = none ∧ a'.pendingEpoch = none ∧ a'.n = 0 ∧
       a'.ring = a.ring ∧ a'.accepted = a.accepted) ∧
      odGet e (0x8810 + b.val) 7 = (if a.updating || a.committing then min (odGet s.dev (0x8810 + b.val) 7 + 1) 4294967295
        else odGet s.dev (0x8810 + b.val) 7) ∧
      odGet e (0x8810 + b.val) 2 = odGet s.dev (0x8810 + b.val) 2) ∧
  (∀ p ∈ [(Instr.rollbackOne, 3), (Instr.rollbackZero, 4), (Instr.rollbackTo, 5)], ∀ (b : Fin 4) (s : State) (h : HeadDecl) (k : Nat),
    headOf s.dev b.val = some h →
    (rollbackEpoch s.dev b.val p.2 = some k → rollbackBusy s.dev b.val = false →
      ∃ (e : Device) (x : Epoch), exec (p.1 b) s = .next { s with dev := e } ∧ (adaptOf e b.val).rollback = some k ∧
        (adaptOf e b.val).pendingEpoch = some x ∧ x.number = slotEpoch s.dev b.val (runSlot s.dev b.val) + 1 ∧ x.slot = runSlot s.dev b.val ∧
        x.copies = epochCopies s.dev b.val k h ∧ (adaptOf e b.val).updating = false ∧
        odGet e (0x8810 + b.val) 2 = odGet s.dev (0x8810 + b.val) 2) ∧
    (rollbackEpoch s.dev b.val p.2 = none ∨ rollbackBusy s.dev b.val = true → exec (p.1 b) s = .next s))

/-! Folsa ports (chapter 13) -/

/-- R325, R329 to R331, R336, R337, R470: enable starts training, a trained port sends HELLO, a HELLO of a known peer brings the port UP or
to NOVERSION; the port's frames are sealed, a bad frame asks for a resend and a good one in sequence is taken; a PAIR record claims its
channels; a DOWN is counted and reported, and past the hold time stops the port's pipelines in drop mode. -/
def Obligations.FolsaCommands : Prop :=
  (∀ (p : Fin 2) (s : State),
    let f := folsaAt s.dev p.val
    (odFlag s.dev (0x8900 + p.val) 1 = false →
      ∃ e : Device, exec (.folsaEnable p) s = .next { s with dev := e } ∧ odFlag e (0x8900 + p.val) 1 = true ∧ fState e p.val = 1 ∧
        folsaAt e p.val = { channels := f.channels, tt := f.tt, flows := f.flows, cable := f.cable } ∧
        ∀ n, n ≠ p.val → folsaAt e n = folsaAt s.dev n) ∧
    (odFlag s.dev (0x8900 + p.val) 1 = true → exec (.folsaEnable p) s = .next s) ∧
    (exec (.folsaCableInserted p) s = .next { s with dev := setFolsa s.dev p.val { f with cable := true } }) ∧
    (folsaLive s.dev = true → f.cable = true → fState s.dev p.val = 1 ∨ fState s.dev p.val = 4 →
      ∃ e : Device, exec (.folsaTrained p) s = .next { s with dev := e } ∧ fState e p.val = 2 ∧
        (folsaAt e p.val).control = helloRecord s.dev p.val :: f.control)) ∧
  (∀ (p : Fin 2) (s : State), folsaLive s.dev = true → (fState s.dev p.val = 2 ∨ fState s.dev p.val = 3 ∨ fState s.dev p.val = 5) →
    let f := folsaAt s.dev p.val
    let g := sendFrame f (decide (fState s.dev p.val = 3))
    (exec (.folsaFrameSend p) s = .next { s with dev := setFolsa s.dev p.val g } ∧ g.rxNext = f.rxNext ∧ g.retryReq = false ∧
      (f.resend = [] → frameGood g.line = true ∧
        (g.sent = f.sent ∨ ((unacked f).length < 256 ∧ g.seq = f.seq + 1 ∧
          ∃ x, g.sent = keepSent (f.sent ++ [x]) ∧ x.seq = f.seq + 1 ∧ x.bytes = g.line ∧ x.acked = false)))) ∧
    (∀ bytes, frameGood bytes = false →
      let d := setFolsa s.dev p.val { f with rxFailing := true, retryReq := true }
      exec (.folsaFrameReceive p bytes) s = .next { s with dev := odAdd d (0x8900 + p.val) 9 1 }) ∧
    (∀ bytes, frameGood bytes = true →
      (nbits (leAt bytes 0 8) 55 52 = 0 → BitVec.ofNat 16 (nbits (leAt bytes 0 8) 15 0) = f.rxNext - 1 →
        exec (.folsaFrameReceive p bytes) s = .next { s with dev := setFolsa s.dev p.val (takeAck f bytes) }) ∧
      (nbits (leAt bytes 0 8) 55 52 ≠ 0 → BitVec.ofNat 16 (nbits (leAt bytes 0 8) 15 0) = f.rxNext →
        ∃ e : Device, exec (.folsaFrameReceive p bytes) s = .next { s with dev := e } ∧
          (folsaAt e p.val).rxNext = f.rxNext + 1 ∧ (folsaAt e p.val).rxFailing = false ∧
          (folsaAt e p.val).sent = (takeAck f bytes).sent ∧ (folsaAt e p.val).resend = (takeAck f bytes).resend))) ∧
  (∀ (f : Folsa) (bytes : List Byte),
    unacked (takeAck f bytes) = f.sent.filter (fun x =>
      !x.acked && decide (32768 ≤ (BitVec.ofNat 16 (nbits (leAt bytes 0 8) 31 16) - x.seq).toNat)) ∧
    (takeAck f bytes).sent.map (fun x => (x.seq, x.bytes)) = f.sent.map (fun x => (x.seq, x.bytes))) ∧
  (∀ (p : Fin 2) (s : State) (r : List Byte) (rs : List (List Byte)), (folsaAt s.dev p.val).hello = r :: rs →
    (fState s.dev p.val = 2 ∨ fState s.dev p.val = 3) → peerChanged (folsaAt s.dev p.val) r = false →
    ∃ e : Device, exec (.hello p) s = .next { s with dev := e } ∧ (folsaAt e p.val).hello = rs ∧
      odGet e (0x8900 + p.val) 3 = helloVersion r ∧
      (helloVersion r = 0 → fState e p.val = 5) ∧
      (helloVersion r ≠ 0 → fState e p.val = 3 ∧ odGet e (0x8900 + p.val) 5 = (helloModule r).toNat ∧
        (folsaAt e p.val).downSince = none ∧ (folsaAt e p.val).firstPeer.isSome = true)) ∧
  (∀ (p : Fin 2) (s : State) (r : List Byte) (rs : List (List Byte)), (folsaAt s.dev p.val).sems = r :: rs →
    let d := setFolsa s.dev p.val { folsaAt s.dev p.val with sems := rs }
    let c := Tab.get {} (folsaAt s.dev p.val).channels (leAt r 1 1)
    let freed := BitVec.ofNat 32 (leAt r 4 4)
    (c.used = false ∨ (portAt s.dev c.port).fin.receiver = true → exec (.sem p) s = .next { s with dev := d }) ∧
    (c.used = true → (portAt s.dev c.port).fin.receiver = false → c.restore = false →
      semFits (portAt s.dev c.port).fin freed (BitVec.ofNat 32 (leAt r 8 4)) = true →
      exec (.sem p) s = .next { s with dev := sendLight d (unitEpoch d c.berth) (folsaEp p.val) (keyEp c.port) freed.toNat })) ∧
  (∀ (p : Fin 2) (s : State) (r : List Byte) (rs : List (List Byte)), (folsaAt s.dev p.val).pairs = r :: rs →
    let f := { folsaAt s.dev p.val with pairs := rs }
    exec (.pair p) s = .next { s with dev := setFolsa s.dev p.val (takePair f r) } ∧
    (∀ h, 128 ≤ leAt r 1 1 →
      f.halfPairs.find? (fun h => decide (leAt h 1 1 = leAt r 1 1 % 128) && decide (leAt h 2 2 = leAt r 2 2)) = some h →
      ∀ ch < 63, leAt r 1 1 % 128 ≤ ch → ch ≤ leAt r 2 1 →
        (BitVec.ofNat 128 (leAt h 4 16), BitVec.ofNat 128 (leAt r 4 16)) ∈ Tab.get [] (takePair f r).peerClaims ch)) ∧
  (∀ (p : Fin 2) (cause : DownCause) (s : State), folsaLive s.dev = true → (fState s.dev p.val = 2 ∨ fState s.dev p.val = 3 ∨ fState s.dev p.val = 5) →
    downCause (folsaAt s.dev p.val) cause = true →
    ∃ (e : Device) (r : Report), exec (.folsaLinkDown p cause) s = .next { s with dev := e } ∧ fState e p.val = 4 ∧
      odGet e (0x8900 + p.val) 0x0A = min (odGet s.dev (0x8900 + p.val) 0x0A + 1) 4294967295 ∧
      e.hub.reports = s.dev.hub.reports ++ [r] ∧ r.source = 0x083 + p.val ∧ r.blame = tag 4 0 p.val ∧
      (folsaAt e p.val).sent = [] ∧ (folsaAt e p.val).downSince = some ((folsaAt s.dev p.val).downSince.getD s.dev.time) ∧
      (∀ x ∈ (folsaAt e p.val).channels, x.2.restore = true) ∧ e.berths = s.dev.berths) ∧
  (∀ (p : Fin 2) (s : State) (t : Nat), fState s.dev p.val ≠ 3 → (folsaAt s.dev p.val).downSince = some t →
    t + 100000 * odGet s.dev (0x8900 + p.val) 4 ≤ s.dev.time →
    (∀ b ∈ portBerths s.dev p.val, ∀ x ∈ pipelineBerths s.dev b (runSlot s.dev b), x < 4) →
    ∃ e : Device, exec (.linkHoldTimeout p) s = .next { s with dev := e } ∧ (folsaAt e p.val).downSince = none ∧
      ∀ b ∈ portBerths s.dev p.val, bstate e b = 0 ∧ runSlot e b = 0xFF)

/-- R326, R327, Tables 13-1 and 13-2: a frame of up to 14 slots reads back whole: its CRC holds, and its header fields, and the channel,
sideband and payload of each slot, are those it was made of. -/
def Obligations.FolsaFrameReadsBack : Prop :=
  ∀ (seq ack : BitVec 16) (retry : Bool) (stamp : Option (Nat × BitVec 16)) (ss : List SlotOut),
    ss.length ≤ 14 → (∀ x ∈ ss, x.1 < 64) → (∀ x, stamp = some x → x.1 < 14) →
    let bs := frameBytes seq ack retry stamp ss
    let h := leAt bs 0 8
    bs.length = 500 ∧ frameGood bs = true ∧ frameSlots bs = ss.map (fun x => (x.1, x.2.1)) ∧
    nbits h 15 0 = seq.toNat ∧ nbits h 31 16 = ack.toNat ∧ nbits h 55 52 = ss.length ∧ nbits h 57 57 = b2n retry ∧
    (∀ k v, stamp = some (k, v) → nbits h 56 56 = 1 ∧ nbits h 51 48 = k ∧ nbits h 47 32 = v.toNat) ∧
    (stamp = none → nbits h 56 56 = 0)

/-! Faults, test mode and timeouts (chapter 17) -/

/-- R422 to R425, R415, R419, R421, R424: the oldest report on its way opens a storm, joins it as a new record or raises the count of its
own; the root of a storm is its earliest record that is no timeout, lower source and blame first; closing numbers the records in
order, keeps the last 256 and says which is the root. A watchdog report names its core. A reaction word that is not refused reads
back; CLEAR removes a source unless its level condition holds. -/
def Obligations.FaultHub : Prop :=
  (∀ (r : Report) (x : FaultRec), (sameFault r x = true ↔ x.source = r.source ∧ x.blame = r.blame) ∧
    (raiseCount x).count = min (x.count + 1) 0xFFFF ∧ (firstRecord r).count = 1 ∧ (firstRecord r).source = r.source ∧
    (firstRecord r).blame = r.blame ∧ (firstRecord r).time = r.time ∧ (firstRecord r).reporter = r.reporter ∧
    (firstRecord r).info = r.info ∧ odGet State.reset.dev 0x8010 6 = 2000) ∧
  (∀ (s : State) (r : Report) (rs : List Report), s.dev.hub.reports = r :: rs →
    let x := firstRecord { r with inj := r.inj || s.dev.hub.injected.contains r.source }
    ∃ e : Device, exec .faultReport s = .next { s with dev := e } ∧ e.hub.reports = rs ∧ e.od = s.dev.od ∧ e.berths = s.dev.berths ∧
      (s.dev.hub.stormOpen = false → lateMatch s.dev r = none →
        e.hub.stormOpen = true ∧ e.hub.stormAt = r.time ∧ e.hub.storm = [x] ∧ e.hub.log = s.dev.hub.log) ∧
      (∀ n, s.dev.hub.stormOpen = false → lateMatch s.dev r = some n →
        e.hub.stormOpen = false ∧ e.hub.log = s.dev.hub.log.map (fun y => if y.seq = n then raiseCount y else y)) ∧
      (s.dev.hub.stormOpen = true → s.dev.hub.storm.any (sameFault r) = false →
        e.hub.storm = s.dev.hub.storm ++ [x] ∧ e.hub.stormAt = s.dev.hub.stormAt) ∧
      (s.dev.hub.stormOpen = true → s.dev.hub.storm.any (sameFault r) = true →
        e.hub.storm = s.dev.hub.storm.map (fun y => if sameFault r y then raiseCount y else y))) ∧
  (∀ s : State, s.dev.hub.stormOpen = true → s.dev.hub.stormAt + odGet s.dev 0x8010 6 / 10 ≤ s.dev.time →
    exec .stormClose s = .next { s with dev := closeStorm s.dev }) ∧
  (∀ (storm : List FaultRec) (r : FaultRec), r ∈ storm → isTimeout r.source = false →
    ∃ q ∈ storm, rootOf storm = some q ∧ isTimeout q.source = false ∧ recBefore q r = true) ∧
  (∀ (d : Device) (root : FaultRec), root ∈ d.hub.storm →
    let rs := stormRecords d root
    rs.length = d.hub.storm.length ∧ (rs.filter (·.root)).length = 1 ∧
    (∀ i (h : i < d.hub.storm.length) (h' : i < rs.length), rs[i].seq = d.hub.nextSeq + BitVec.ofNat 32 i ∧
      rs[i].source = d.hub.storm[i].source ∧ rs[i].blame = d.hub.storm[i].blame ∧ rs[i].count = d.hub.storm[i].count) ∧
    (let e := writeRecords d rs
     e.hub.log = (d.hub.log ++ rs).drop (d.hub.log.length + rs.length - 256) ∧ e.hub.log.length ≤ 256 ∧ e.hub.stormOpen = false ∧
     e.hub.nextSeq = d.hub.nextSeq + BitVec.ofNat 32 rs.length)) ∧
  (∀ (core : Core) (s : State), ∃ (e : Device) (r : Report), exec (.purserWatchdog core) s = .next { s with dev := e } ∧
    e.hub.reports = s.dev.hub.reports ++ [r] ∧ r.source = 0x087 ∧ r.info = BitVec.ofNat 32 core.val ∧ r.blame = tag 9 0 core.val ∧
    e.od = s.dev.od ∧ e.berths = s.dev.berths) ∧
  (∀ (src : Fin 512) (v : BitVec 16) (s : State),
    (reactionRefused src.val v.toNat = false →
      ∃ e : Device, exec (.reactionWrite src v) s = .next { s with dev := e } ∧ reactionOf e src.val = v.toNat ∧
        ∀ n < 512, n ≠ src.val → reactionOf e n = reactionOf s.dev n) ∧
    (reactionRefused src.val v.toNat = true → exec (.reactionWrite src v) s = .next s)) ∧
  (∀ (v : BitVec 16) (s : State), ∃ e : Device, exec (.clear v) s = .next { s with dev := e } ∧ e.hub.log = s.dev.hub.log ∧
    e.od = s.dev.od ∧
    ∀ x, x ∈ e.hub.uncleared ↔ x ∈ s.dev.hub.uncleared ∧ ((v.toNat ≠ 0xFFFF ∧ v.toNat ≠ x) ∨ levelHolds s.dev x = true))

/-- R426, R429, R439, R440: a producer end that has waited for credits alone through the credit timeout reports its consumer under source
7 and starts its timer again. A spare that has been loaded holds its position. Test mode needs the strap and an authenticated
role 2; an armed point injects its source and is counted; the fall of TEST_EN disarms every point. -/
def Obligations.TimeoutsAndTestMode : Prop :=
  (∀ (t : TileId) (c : Fin 4) (q : Fin 16) (s : State), timersRun s.dev t.b.val = true →
    contextStarved s.dev t.b.val (keyOf s.dev t) c.val = true →
    let x := headWork s t c
    let now := (berthAt s.dev t.b.val).cto
    wOq x.w = q.val → x.ctx.waitFrom + ctoFclk s.dev ≤ now →
    ∃ (e : Device) (r : Report), exec (.creditTimeout (.context t c) q) s = .next { s with dev := e } ∧
      e.hub.reports = s.dev.hub.reports ++ [r] ∧ r.source = 32 * t.b.val + 7 ∧
      r.blame = oqConsumer s.dev t.b.val (oqAt x.pl q.val) ∧ r.reporter = tileTag t.b.val t.col.val t.row.val ∧
      r.info = BitVec.ofNat 32 (oqAt x.pl q.val).qid ∧
      (let T := tileAt e t.b.val (keyOf s.dev t)
       (ctxAt (planeAt T T.run) c.val).waitFrom = now ∧ T.mem = x.t.mem)) ∧
  (∀ (b : Fin 4) (st : Fin 20) (p : Fin 64) (q : Fin 16) (s : State), timersRun s.dev b.val = true →
    (berthAt s.dev b.val).incoming = none →
    let pk := portKey b.val st.val p.val
    (unitStarved (endAt s.dev pk) = true → endLate s.dev b.val (endAt s.dev pk) = true →
      ∃ (e : Device) (r : Report), exec (.creditTimeout (.unit b st p) q) s = .next { s with dev := e } ∧
        e.hub.reports = s.dev.hub.reports ++ [r] ∧ r.source = 32 * b.val + 7 ∧
        r.blame = tileTag b.val (portAt s.dev pk).dcol (portAt s.dev pk).drow ∧
        endAt e pk = { endAt s.dev pk with waitFrom := (berthAt s.dev b.val).cto }) ∧
    (senderStarved s.dev pk (portAt s.dev pk) = true → endLate s.dev b.val (portAt s.dev pk).uend = true →
      ∃ (e : Device) (r : Report), exec (.creditTimeout (.endpoint b st p) q) s = .next { s with dev := e } ∧
        e.hub.reports = s.dev.hub.reports ++ [r] ∧ r.source = 32 * b.val + 7 ∧ r.blame = portConsumer s.dev pk ∧
        (portAt e pk).uend = { (portAt s.dev pk).uend with waitFrom := (berthAt s.dev b.val).cto })) ∧
  (∀ (b : Fin 4) (g : Fin 16) (pt : Fin 4) (q : Fin 16) (s : State), timersRun s.dev b.val = true → engineSwitched s.dev b.val g.val = false →
    threadStarved s.dev b.val g.val pt.val q.val = true →
    let pk := eqKey (seOf s.dev b.val g.val pt.val)
    endLate s.dev (pk / 1280) (endAt s.dev pk) = true →
    ∃ (e : Device) (r : Report), exec (.creditTimeout (.engine b g pt) q) s = .next { s with dev := e } ∧
      e.hub.reports = s.dev.hub.reports ++ [r] ∧ r.source = 32 * (pk / 1280) + 7 ∧
      endAt e pk = { endAt s.dev pk with waitFrom := (berthAt s.dev (pk / 1280)).cto }) ∧
  (∀ (b : Fin 4) (col : Fin 20) (s : State), (berthAt s.dev b.val).repair.active = true →
    (berthAt s.dev b.val).repair.spare = some col.val →
    let row := spareRow s.dev b.val col.val
    ∃ e : Device, exec (.spareLoadDone b col) s = .next { s with dev := e } ∧ (berthAt e b.val).repair.spare = none ∧
      ∀ k < 4, ∀ img, (slotAt s.dev b.val k).image = some img → (Tab.find img.planes (tileKey col.val row)).isSome = true →
        (planeAt (tileAt e b.val (physKey s.dev b.val col.val row)) k).loaded = true) ∧
  (∀ (role : Nat) (auth : Bool) (v : U32) (s : State),
    let ok := s.dev.power.testEn = true ∧ auth = true ∧ role = 2 ∧ v.toNat = 0x54455354 ∧ odGet s.dev 0xF000 1 = 0
    (ok → ∃ (e : Device) (r : Report), exec (.testEnter role auth v) s = .next { s with dev := e } ∧ odGet e 0xF000 1 = 1 ∧
      e.hub.reports = s.dev.hub.reports ++ [r] ∧ r.source = 0x08C ∧ e.berths = s.dev.berths) ∧
    (¬ ok → exec (.testEnter role auth v) s = .next s)) ∧
  (∀ (i : Fin 16) (s : State),
    let mode := odGet s.dev (0xF010 + i.val) 4
    let n := if mode = 0 then 1 else if mode = 1 then odGet s.dev (0xF010 + i.val) 5 else 2 ^ 32
    (testMode s.dev = true → 0 < n →
      exec (.injectionArm i) s = .next { s with dev := { s.dev with armed := Tab.set s.dev.armed i.val n } }) ∧
    (testMode s.dev = false ∨ n = 0 → exec (.injectionArm i) s = .next s) ∧
    (exec (.injectionDisarm i) s = .next { s with dev := { s.dev with armed := Tab.erase s.dev.armed i.val } }) ∧
    (Tab.find s.dev.armed i.val = none → exec (.injectionFire i) s = .next s) ∧
    (∀ m, Tab.find s.dev.armed i.val = some m → injectable (odGet s.dev (0xF010 + i.val) 1) = true →
      ∃ e : Device, exec (.injectionFire i) s = .next { s with dev := e } ∧
        odGet e (0xF010 + i.val) 7 = min (odGet s.dev (0xF010 + i.val) 7 + 1) 4294967295 ∧
        ((∃ r, e.hub.reports = s.dev.hub.reports ++ [r] ∧ r.inj = true ∧ r.source = odGet s.dev (0xF010 + i.val) 1 ∧
            e.hub.injected = s.dev.hub.injected)
          ∨ (e.hub.reports = s.dev.hub.reports ∧ e.hub.injected = s.dev.hub.injected ++ [odGet s.dev (0xF010 + i.val) 1])))) ∧
  (∀ s : State, ∃ e : Device, exec .testEnFall s = .next { s with dev := e } ∧ e.armed = [] ∧ e.power.testEn = false ∧
    e.od = s.dev.od ∧ e.hub = s.dev.hub)

/-! Power, clocks and background work (chapter 18) -/

/-- R447 to R450, R462, R477: a hold stops a berth's clocks, a doze keeps its block memory in retention, a wake starts the clocks again;
each happens where it is allowed and nothing happens elsewhere. MOOR and DOCK entries switch the fabric off; MOOR keeps HBM and
slots, and its exit brings the old f_R back and writes the LOADED slots again; DOCK keeps flash alone and its exit starts at 2,400 MHz. -/
def Obligations.PowerStates : Prop :=
  (∀ (b : Fin 4) (s : State),
    (holdAllowed s.dev b.val = true →
      ∃ e : Device, exec (.bpowerHold b) s = .next { s with dev := e } ∧ bpstate e b.val = 1 ∧ berthLive e b.val = false ∧
        berthAt e b.val = { berthAt s.dev b.val with clocksOff := true } ∧ bstate e b.val = bstate s.dev b.val) ∧
    (holdAllowed s.dev b.val = false → exec (.bpowerHold b) s = .next s) ∧
    (dozeAllowed s.dev b.val = true →
      ∃ e : Device, exec (.bpowerDoze b) s = .next { s with dev := e } ∧ bpstate e b.val = 2 ∧ berthLive e b.val = false ∧
        (berthAt e b.val).hbm.selfRefresh = true ∧ (berthAt e b.val).hbm.mem = (berthAt s.dev b.val).hbm.mem ∧
        (berthAt e b.val).slots = (berthAt s.dev b.val).slots ∧
        ∀ k, (tileAt e b.val k).mem = (tileAt s.dev b.val k).mem ∧ (tileAt e b.val k).banks = []) ∧
    (dozeAllowed s.dev b.val = false → exec (.bpowerDoze b) s = .next s) ∧
    (mstate s.dev = 0 → bpstate s.dev b.val ≠ 0 →
      ∃ e : Device, exec (.bpowerActive b) s = .next { s with dev := e } ∧ bpstate e b.val = 0 ∧
        (berthAt e b.val).clocksOff = false ∧ (berthAt e b.val).hbm.selfRefresh = false ∧
        ∀ k, (tileAt e b.val k).mem = (tileAt s.dev b.val k).mem) ∧
    (mstate s.dev ≠ 0 ∨ bpstate s.dev b.val = 0 → exec (.bpowerActive b) s = .next s) ∧
    (odFlag s.dev (0x8410 + b.val) 3 = true → bpstate s.dev b.val = 0 → bstate s.dev b.val = 2 → quiescent s.dev b.val = true →
      (berthAt s.dev b.val).idleSince + 100 * odGet s.dev (0x8410 + b.val) 4 ≤ s.dev.time →
      ∃ e : Device, exec (.autoHoldIdle b) s = .next { s with dev := e } ∧ bpstate e b.val = 1 ∧
        berthAt e b.val = { berthAt s.dev b.val with clocksOff := true }) ∧
    (quiescent s.dev b.val = false → exec (.autoHoldIdle b) s = .next s) ∧
    (bpstate s.dev b.val = 1 → wakeDue s.dev b.val = true →
      exec (.holdWake b) s = .next { s with dev := wakeBerth s.dev b.val })) ∧
  (∀ s : State, moorAllowed s.dev = true →
    (∃ e : Device, exec .mpowerMoor s = .next { s with dev := e } ∧ mstate e = 2 ∧ e.power.fabric = false ∧
      e.power.savedRate = s.dev.power.fR ∧ e.links = [] ∧ e.ports = [] ∧ e.flash = s.dev.flash ∧ e.time = s.dev.time ∧
      ∀ b < 4, bpstate e b = 2 ∧ (berthAt e b).tiles = [] ∧ (berthAt e b).hbm.mem = (berthAt s.dev b).hbm.mem ∧
        (berthAt e b).slots = (berthAt s.dev b).slots ∧ (berthAt e b).adapt = (berthAt s.dev b).adapt ∧
        (berthAt e b).mirror = (berthAt s.dev b).mirror) ∧
    (∃ e : Device, exec .mpowerDock s = .next { s with dev := e } ∧ mstate e = 5 ∧ e.power.control = false ∧ e.power.fabric = false ∧
      e.berths = [] ∧ e.streams = [] ∧ e.sessions = [] ∧ e.flash = s.dev.flash ∧ e.hostMem = s.dev.hostMem ∧ e.time = 0)) ∧
  (∀ s : State, moorAllowed s.dev = false → exec .mpowerMoor s = .next s ∧ exec .mpowerDock s = .next s) ∧
  (∀ s : State, mstate s.dev = 2 →
    ∃ e : Device, exec .mpowerActive s = .next { s with dev := e } ∧ mstate e = 0 ∧ e.power.fR = s.dev.power.savedRate ∧
      e.power.leavingMoor = true ∧ (odGet e 0x1010 1).testBit 7 = true ∧
      (∀ b < 4, bpstate e b = 0 ∧ (berthAt e b).clocksOff = false ∧ (berthAt e b).hbm.mem = (berthAt s.dev b).hbm.mem ∧
        ∀ k < 4, slotState e b k = (if slotState s.dev b k = 4 then 3 else slotState s.dev b k))) ∧
  (∀ s : State, mstate s.dev = 5 → s.dev.power.tripped = false → s.dev.power.slot12 = true → s.dev.power.aux = true →
    ∃ e : Device, exec .mpowerActive s = .next { s with dev := e } ∧ mstate e = 0 ∧ e.power.fR = 2400 ∧ e.power.control = true ∧
      e.time = 0 ∧ (odGet e 0x1010 1).testBit 7 = true ∧ FlashKept s.dev.drawn s.dev.flash e.flash ∧
      (s.dev.power.perstLow = false → e.fw.running = true ∧ e.fw.fwstate = 1)) ∧
  (∀ s : State, mstate s.dev ≠ 2 → mstate s.dev ≠ 5 ∨ s.dev.power.tripped = true ∨ s.dev.power.slot12 = false ∨ s.dev.power.aux = false →
    exec .mpowerActive s = .next s) ∧
  (∀ s : State, s.dev.power.leavingMoor = true → mstate s.dev = 0 →
    ∃ e : Device, exec .moorRestoreDone s = .next { s with dev := e } ∧ e.power.leavingMoor = false ∧
      ∀ b < 4, ∀ k < 4, slotState s.dev b k = 3 → (slotAt s.dev b k).image.isSome = true → slotState e b k = 4)

/-- R441 to R443, R452 to R454, Table 18-8: the reference PLL moves by one step of 100 MHz toward what the limiter asks for, within 2,400 to 6,400
MHz; the limiter asks for less while power or heat is over its limit, for 2,400 MHz from 105 °C on, and for one step more where there is
room; the voltage setpoint stays within 550 to 800 mV; a droop holds array issue for 32 FCLK; a thermal trip is DOCK. -/
def Obligations.ClockAndVoltage : Prop :=
  (∀ (up : Bool) (s : State), s.dev.power.control = true → mstate s.dev = 0 →
    ∃ e : Device, exec (.rpllStep up) s = .next { s with dev := e } ∧
      e.power.fR = (if up = true ∧ s.dev.power.fR < s.dev.power.want ∧ s.dev.power.fR + 100 ≤ 6400 then s.dev.power.fR + 100
        else if up = false ∧ s.dev.power.want < s.dev.power.fR ∧ 2500 ≤ s.dev.power.fR then s.dev.power.fR - 100
        else s.dev.power.fR) ∧ e.power.want = s.dev.power.want ∧ e.berths = s.dev.berths ∧
      (e.power.fR ≠ s.dev.power.fR → ∀ b < 4, odGet e (0x8410 + b) 5 = setpointMv s.dev b e.power.fR)) ∧
  (∀ (p10 : Nat) (tj : List Int) (s : State), s.dev.power.control = true → mstate s.dev = 0 →
    let fR := s.dev.power.fR
    let fmax := odGet s.dev 0x8400 2
    let limit := 1000 * effectiveW s.dev
    ∃ e : Device, exec (.limiterEval p10 tj) s = .next { s with dev := e } ∧ e.power.fR = fR ∧ e.berths = s.dev.berths ∧
      odGet e 0x8400 5 = p10 % 2 ^ 32 ∧
      ((∃ t ∈ tj, 105000 ≤ t) → e.power.want = 2400 ∧ e.power.overTemp = true ∧ 0x089 ∈ e.hub.level) ∧
      ((∀ t ∈ tj, t ≤ 92000) → e.power.overTemp = false ∧
        ((limit < p10 ∨ s.dev.power.voltReq = true ∨ fmax < fR) →
          e.power.want = (if 2400 < fR then fR - 100 else fR)) ∧
        (p10 + 5000 ≤ limit → s.dev.power.voltReq = false → fR + 100 ≤ fmax → e.power.want = fR + 100)) ∧
      ((∃ t ∈ tj, 95000 ≤ t) → (∀ t ∈ tj, t < 105000) → s.dev.power.overTemp = false →
        e.power.want = (if 2400 < fR then fR - 100 else fR) ∧ 0x088 ∈ e.hub.level) ∧
      (limit < p10 → fR = 2400 → odGet e 0x8400 7 = min (odGet s.dev 0x8400 7 + 1) 4294967295)) ∧
  (∀ (b : Fin 4) (below now : Bool) (s : State), s.dev.power.fabric = true → mstate s.dev = 0 →
    let c := Tab.get 0 s.dev.power.corr b.val
    ∃ e : Device, exec (.voltageLoop b below now) s = .next { s with dev := e } ∧
      550 ≤ odGet e (0x8410 + b.val) 5 ∧ odGet e (0x8410 + b.val) 5 ≤ 800 ∧ e.power.fR = s.dev.power.fR ∧ e.berths = s.dev.berths ∧
      (now = true → below = true → Tab.get 0 e.power.corr b.val = c - 5) ∧
      (now = true → below = false → Tab.get 0 e.power.corr b.val = c) ∧
      (now = false → wantedMv s.dev b.val s.dev.power.fR < 800 → Tab.get 0 e.power.corr b.val = c + 5) ∧
      (now = false → 800 ≤ wantedMv s.dev b.val s.dev.power.fR → Tab.get 0 s.dev.power.above b.val = 99 →
        e.power.voltReq = true ∧ (32 * b.val + 21) ∈ e.hub.level)) ∧
  (∀ (b : Fin 4) (s : State), s.dev.power.fabric = true →
    ∃ e : Device, exec (.droopHold b) s = .next { s with dev := e } ∧
      berthAt e b.val = { berthAt s.dev b.val with droopUntil := (berthAt s.dev b.val).fclk + 32 } ∧
      odGet e (0x8410 + b.val) 7 = min (odGet s.dev (0x8410 + b.val) 7 + 1) 18446744073709551615) ∧
  (∀ s : State, s.dev.power.aux = true →
    ∃ e : Device, exec .thermalTrip s = .next { s with dev := e } ∧ mstate e = 5 ∧ e.power.tripped = true ∧ e.power.control = false ∧
      e.power.fabric = false ∧ e.berths = [] ∧ faultLow e = true ∧ e.time = 0)

/-- R41, R51, R241, R263, R456, Table 18-5: a telemetry sample shows the sensors and inputs and adds the energy; a scrub, of a spare
too but not of a disabled tile behind its relay, corrects and counts a single
error and reports every one; a sensor that has drifted by more than 3 °C is reported; an ageing berth gets 5 mV more, up to 50 mV. -/
def Obligations.BackgroundWork : Prop :=
  (∀ (r : Readings) (s : State), s.dev.fw.running = true → mstate s.dev = 0 → r.sensors.length = 9 → r.inputs.length = 3 →
    ∃ e : Device, exec (.telemetrySample r) s = .next { s with dev := e } ∧ e.berths = s.dev.berths ∧
      (∀ i < 9, odGet e 0x8420 (i + 1) = unsigned 32 (r.sensors.getD i 0)) ∧
      (∀ i < 3, odGet e 0x8421 (i + 1) = r.inputs.getD i 0 % 2 ^ 32) ∧
      odGet e 0x8400 6 = min (odGet s.dev 0x8400 6 + r.energyMj) 18446744073709551615) ∧
  (∀ (x : SiteId) (g : Fin 49152) (s : State), s.dev.power.fabric = true → mstate s.dev = 0 → bpstate s.dev x.b.val ≠ 2 →
    let key := tileKey x.col.val x.row.val
    let T := tileAt s.dev x.b.val key
    ∃ e : Device, exec (.sramScrub x g) s = .next { s with dev := e } ∧
      (∀ k, (tileAt e x.b.val k).mem = (tileAt s.dev x.b.val k).mem) ∧
      (T.relay = true ∨ Tab.find T.ecc g.val = none → e.berths = s.dev.berths ∧ e.hub = s.dev.hub) ∧
      (T.relay = false → Tab.find T.ecc g.val = some .single →
        tileAt e x.b.val key = { T with ecc := Tab.erase T.ecc g.val, correctable := T.correctable + 1 } ∧
        ∃ r, e.hub.reports = s.dev.hub.reports ++ [r] ∧ r.source = 32 * x.b.val + 2 ∧ r.info = BitVec.ofNat 32 (8 * g.val)) ∧
      (T.relay = false → Tab.find T.ecc g.val = some .double → e.berths = s.dev.berths ∧
        ∃ r, e.hub.reports = s.dev.hub.reports ++ [r] ∧ r.source = 32 * x.b.val + 1 ∧ r.info = BitVec.ofNat 32 (8 * g.val))) ∧
  (∀ (b : Fin 4) (a : Nat) (s : State), s.dev.power.control = true → mstate s.dev = 0 → (berthAt s.dev b.val).hbm.selfRefresh = false →
    a < 402653184 →
    let x := Tab.get {} (berthAt s.dev b.val).hbm.err a
    ∃ e : Device, exec (.hbmPatrolScrub b a) s = .next { s with dev := e } ∧ (berthAt e b.val).hbm.mem = (berthAt s.dev b.val).hbm.mem ∧
      (berthAt e b.val).hbm.side = (berthAt s.dev b.val).hbm.side ∧
      (x.payload = 1 ∨ x.side = 1 → ∃ r ∈ e.hub.reports, r.source = 32 * b.val + 15 ∧ r.info = BitVec.ofNat 32 a) ∧
      (x.payload = 2 ∨ x.side = 2 → Tab.get {} (berthAt e b.val).hbm.err a
          = { payload := if x.payload = 1 then 0 else x.payload, side := if x.side = 1 then 0 else x.side } ∧
        ∃ r ∈ e.hub.reports, r.source = 32 * b.val + 14 ∧ r.info = BitVec.ofNat 32 a)) ∧
  (∀ (n : Fin 10) (v : Int) (s : State),
    (-3000 ≤ v → v ≤ 3000 → exec (.sensorCalibration n v) s = .next s) ∧
    (v < -3000 ∨ 3000 < v → ∃ (e : Device) (r : Report), exec (.sensorCalibration n v) s = .next { s with dev := e } ∧
      e.hub.reports = s.dev.hub.reports ++ [r] ∧ r.source = 0x088 ∧ r.blame = tag 10 0 n.val ∧ e.od = s.dev.od)) ∧
  (∀ (b : Fin 4) (s : State),
    (exec (.ageingGuardband b false) s = .next s) ∧
    (50 < odGet s.dev (0x8410 + b.val) 6 + 5 → exec (.ageingGuardband b true) s = .next s) ∧
    (odGet s.dev (0x8410 + b.val) 6 + 5 ≤ 50 →
      ∃ e : Device, exec (.ageingGuardband b true) s = .next { s with dev := e } ∧
        odGet e (0x8410 + b.val) 6 = odGet s.dev (0x8410 + b.val) 6 + 5 ∧
        Tab.get 0 e.flash (256 * (0x8410 + b.val) + 6) = odGet s.dev (0x8410 + b.val) 6 + 5 ∧ e.berths = s.dev.berths))

/-! The card and its resets (chapters 18 and 19) -/

/-- R467 to R469, R472, R475, R477, R480, Table 19-9: the cable's sense pins say how much power is there, and its loss stops the running
berths and switches the fabric off; a rail out of its window is reported; a cage follows its module, its fault and its link. -/
def Obligations.CardEvents : Prop :=
  (∀ (mv : Nat) (s0 s1 : Bool) (s : State), s.dev.power.aux = true → (cablePresent s.dev = false ∨ 10800 < mv) →
    ∃ e : Device, exec (.cableSenseRead mv s0 s1) s = .next { s with dev := e } ∧ e.power.cableMv = mv ∧ e.power.sense0 = s0 ∧
      e.power.sense1 = s1 ∧
      availW e = (if 10800 < mv then (if s0 = true ∧ s1 = true then 216 else 300) else 66) ∧
      e.power.control = (s.dev.power.slot12 && decide (mstate s.dev = 0)) ∧
      e.power.fabric = (e.power.control && decide (120 ≤ availW e)) ∧ e.od = s.dev.od ∧ e.berths = s.dev.berths) ∧
  (∀ s : State,
    (cablePresent s.dev = false → exec .cableLoss s = .next s) ∧
    (cablePresent s.dev = true →
      ∃ e : Device, exec .cableLoss s = .next { s with dev := e } ∧ e.power.cableMv = 0 ∧ availW e = 66 ∧ e.power.fabric = false ∧
        (∀ b < 4, runSlot s.dev b < 4 → bstate e b = 0 ∧ runSlot e b = 0xFF) ∧
        ((∃ b < 4, runSlot s.dev b < 4) → e.power.fR = 2400 ∧ ∃ r ∈ e.hub.reports, r.source = 0x08A ∧ r.info = 0x100) ∧
        ((∀ b < 4, 4 ≤ runSlot s.dev b) → e.power.fR = s.dev.power.fR ∧ e.hub = s.dev.hub))) ∧
  (∀ (rail : Fin 11) (s : State), s.dev.power.control = true → rail ≠ 0 →
    ∃ (e : Device) (r : Report), exec (.railOutOfWindow rail) s = .next { s with dev := e } ∧
      e.hub.reports = s.dev.hub.reports ++ [r] ∧ r.source = 0x08A ∧ r.info = BitVec.ofNat 32 rail.val ∧ e.od = s.dev.od ∧
      e.power = s.dev.power) ∧
  (∀ (c : Fin 2) (s : State),
    let p := sfpAt s.dev c.val
    (∀ rate, ∃ e : Device, exec (.sfpModuleInsert c rate) s = .next { s with dev := e } ∧
      (let q := sfpAt e c.val
       q.present = true ∧ q.rate = rate ∧ q.link = false ∧ q.held = false ∧ q.out = p.out ∧
       q.txDisable = !(odFlag s.dev (0x2000 + c.val) 1 && s.dev.fw.running && decide (odGet s.dev (0x2000 + c.val) 2 ≤ rate))) ∧
      (∀ n, n ≠ c.val → sfpAt e n = sfpAt s.dev n) ∧ e.berths = s.dev.berths) ∧
    (exec (.sfpModuleRemove c) s = .next { s with dev := setSfp s.dev c.val { p with present := false, link := false } }) ∧
    (exec (.sfpTxFault c) s = .next { s with dev := setSfp s.dev c.val { p with held := true, link := false } }) ∧
    (odFlag s.dev (0x2000 + c.val) 1 = true →
      (p.present = true → p.txDisable = false →
        exec (.sfpPortLinkChange c true) s = .next { s with dev := setSfp s.dev c.val { p with link := true, held := false } }) ∧
      (exec (.sfpPortLinkChange c false) s = .next { s with dev := setSfp s.dev c.val { p with link := false } }))) ∧
  (∀ (straps : BitVec 3) (testEn : Bool) (s : State), s.dev.power.aux = true → s.dev.power.perstLow = true →
    ∃ e : Device, exec (.perstNRise straps testEn) s = .next { s with dev := e } ∧ e.power.perstLow = false ∧
      e.power.bid = straps.toNat ∧ e.power.testEn = testEn ∧ e.od = s.dev.od ∧ e.berths = s.dev.berths ∧ e.time = s.dev.time ∧
      (s.dev.power.control = true → mstate s.dev = 0 → e.fw.running = true ∧ e.fw.fwstate = 1 ∧ e.pcie.up = true) ∧
      (s.dev.power.control = false → e.fw = s.dev.fw ∧ e.pcie = s.dev.pcie)) ∧
  (∀ s : State, ∃ e : Device, exec .slot12vValid s = .next { s with dev := e } ∧ e.power.slot12 = true ∧
    e.power.control = (s.dev.power.aux && decide (mstate s.dev = 0)) ∧
    (s.dev.power.control = false → e.power.control = true → e.power.fR = 2400 ∧ e.power.want = 2400) ∧ e.od = s.dev.od) ∧
  (∀ s : State,
    (∃ e : Device, exec (.busMasterEnableChange false) s = .next { s with dev := e } ∧ e.pcie.busMaster = false ∧
      e.pcie.pending = s.dev.pcie.pending ∧ (∀ n, (streamAt e n).raw = none) ∧ e.queues = s.dev.queues ∧ e.hostMem = s.dev.hostMem) ∧
    (∃ e : Device, exec (.busMasterEnableChange true) s = .next { s with dev := e } ∧ e.pcie.busMaster = true ∧
      (∀ v ∈ s.dev.pcie.pending, v ∈ s.dev.pcie.unmasked → v ∈ e.pcie.signalled) ∧ e.streams = s.dev.streams))

/-- R403, R404, R450, R457, R458, R460 to R462, R478, R479, Tables 18-6 and 18-7: what each reset takes and keeps. Each sets its cause; flash stays
through every one, but for records that a start of the cores finds damaged, which set cause 8 (R403); device time stays through PERST, WARM, HOT and FLR; HOT and FLR reset the PCIe function and the mailbox alone;
PERST and WARM take the berths; power on starts anew at 2,400 MHz; a loss of slot 12 V is DOCK entry. -/
def Obligations.ModuleResets : Prop :=
  (∀ (straps : BitVec 3) (testEn : Bool) (s : State),
    ∃ e : Device, exec (.powerOn straps testEn) s = .next { s with dev := e } ∧ (odGet e 0x1010 1).testBit 0 = true ∧ e.time = 0 ∧
      FlashKept s.dev.drawn s.dev.flash e.flash ∧
      (∀ x ∈ s.dev.flash, x ∉ e.flash → (odGet e 0x1010 1).testBit 8 = true) ∧
      e.berths = [] ∧ e.streams = [] ∧ e.queues = [] ∧ e.sessions = [] ∧ e.hub = {} ∧ e.power.fR = 2400 ∧
      e.power.aux = true ∧ e.power.bid = straps.toNat ∧ e.power.testEn = testEn ∧ e.power.tripped = false) ∧
  (∀ s : State,
    (∃ e : Device, exec (.powerDown true) s = .next { s with dev := e } ∧ e.power.aux = false ∧ e.power.control = false ∧
      e.power.fabric = false ∧ e.power.tripped = false ∧ e.flash = s.dev.flash ∧ e.berths = [] ∧ e.time = 0) ∧
    (mstate s.dev ≠ 5 → ∃ e : Device, exec (.powerDown false) s = .next { s with dev := e } ∧ mstate e = 5 ∧
      e.power.slot12 = false ∧ e.power.control = false ∧ e.flash = s.dev.flash ∧ e.berths = []) ∧
    (mstate s.dev = 5 →
      exec (.powerDown false) s = .next { s with dev := { s.dev with power := { s.dev.power with slot12 := false } } })) ∧
  (∀ s : State,
    (s.dev.power.aux = true →
      ∃ e : Device, exec .perst s = .next { s with dev := e } ∧ (odGet e 0x1010 1).testBit 1 = true ∧ e.pcie = {} ∧
        e.power.perstLow = true ∧ e.power.tripped = false ∧ e.time = s.dev.time ∧ e.flash = s.dev.flash ∧ e.berths = [] ∧
        e.sessions = [] ∧ e.hub = {} ∧ e.fw.running = false) ∧
    (s.dev.power.aux = false → exec .perst s = .next s) ∧
    (s.dev.power.aux = true → mstate s.dev ≠ 5 →
      ∃ e : Device, exec .warmReset s = .next { s with dev := e } ∧ (odGet e 0x1010 1).testBit 3 = true ∧ e.time = s.dev.time ∧
        FlashKept s.dev.drawn s.dev.flash e.flash ∧ (∀ x ∈ s.dev.flash, x ∉ e.flash → (odGet e 0x1010 1).testBit 8 = true) ∧
        e.berths = [] ∧ e.streams = [] ∧ e.queues = [] ∧ e.sessions = [] ∧ e.hub = {} ∧
        e.hostMem = s.dev.hostMem ∧ e.pcie.busMaster = s.dev.pcie.busMaster) ∧
    (mstate s.dev = 5 → exec .warmReset s = .next s)) ∧
  (∀ p ∈ [(Instr.hot, 2), (Instr.flr, 4)], ∀ s : State,
    ∃ e : Device, exec p.1 s = .next { s with dev := e } ∧ (odGet e 0x1010 1).testBit p.2 = true ∧ e.mbx = {} ∧
      e.pcie = { up := s.dev.pcie.up } ∧ (∀ x ∈ e.sessions, x.tr ≠ .mailbox) ∧ (∀ x ∈ e.transfers, x.tr ≠ .mailbox) ∧
      (∀ x ∈ s.dev.sessions, x.tr ≠ .mailbox → x ∈ e.sessions) ∧ (∀ n, (streamAt e n).raw = none) ∧ e.time = s.dev.time ∧
      e.flash = s.dev.flash ∧ e.queues = s.dev.queues ∧ ∀ b, (berthAt e b).tiles = (berthAt s.dev b).tiles)
end

