-- ==== Sys2Proof/Laws/Memory.lean ====
section
/-! SUPPORT. Sparse tables, byte memory and byte order: reading after writing, and that every memory operation keeps the
canonical form. -/

namespace Sys2Proof

variable {α β : Type}

@[simp] theorem Tab.get_nil (d : α) (k : Nat) : Tab.get d [] k = d := rfl
@[simp] theorem Tab.find_nil (k : Nat) : Tab.find ([] : Tab α) k = none := rfl

@[simp] theorem Tab.get_set_same (d : α) (m : Tab α) (k : Nat) (v : α) : Tab.get d (Tab.set m k v) k = v := by
  induction m with
  | nil => simp [Tab.set, Tab.get]
  | cons p m ih =>
    obtain ⟨j, w⟩ := p
    simp only [Tab.set]
    split_ifs with h1 h2
    · simp [Tab.get]
    · simp [Tab.get]
    · simp only [Tab.get, if_neg (Ne.symm h2), if_neg h1, ih]

theorem Tab.get_set_other (d : α) (m : Tab α) {k n : Nat} (v : α) (h : n ≠ k) : Tab.get d (Tab.set m k v) n = Tab.get d m n := by
  induction m with
  | nil => simp [Tab.set, Tab.get, Ne.symm h]
  | cons p m ih =>
    obtain ⟨j, w⟩ := p
    simp only [Tab.set]
    split_ifs with h1 h2
    · simp only [Tab.get, if_neg (Ne.symm h)]
      by_cases hn : n < k
      · rw [if_pos hn, if_neg (by omega), if_pos (by omega)]
      · rw [if_neg hn]
    · subst h2; simp [Tab.get, Ne.symm h]
    · simp only [Tab.get, ih]

@[simp] theorem Tab.find_set_same (m : Tab α) (k : Nat) (v : α) : Tab.find (Tab.set m k v) k = some v := by
  induction m with
  | nil => simp [Tab.set, Tab.find]
  | cons p m ih =>
    obtain ⟨j, w⟩ := p
    simp only [Tab.set]
    split_ifs with h1 h2
    · simp [Tab.find]
    · simp [Tab.find]
    · simp only [Tab.find, if_neg (Ne.symm h2), if_neg h1, ih]

theorem Tab.find_set_other (m : Tab α) {k n : Nat} (v : α) (h : n ≠ k) : Tab.find (Tab.set m k v) n = Tab.find m n := by
  induction m with
  | nil => simp [Tab.set, Tab.find, Ne.symm h]
  | cons p m ih =>
    obtain ⟨j, w⟩ := p
    simp only [Tab.set]
    split_ifs with h1 h2
    · simp only [Tab.find, if_neg (Ne.symm h)]
      by_cases hn : n < k
      · rw [if_pos hn, if_neg (by omega), if_pos (by omega)]
      · rw [if_neg hn]
    · subst h2; simp [Tab.find, Ne.symm h]
    · simp only [Tab.find, ih]

theorem Tab.get_eq_find (d : α) (m : Tab α) (k : Nat) : Tab.get d m k = (Tab.find m k).getD d := by
  induction m with
  | nil => rfl
  | cons p m ih => simp only [Tab.get, Tab.find]; split_ifs <;> simp [ih]

@[simp] theorem Tab.get_map (f : α → β) (d : α) (m : Tab α) (k : Nat) : Tab.get (f d) (Tab.map f m) k = f (Tab.get d m k) := by
  induction m with
  | nil => rfl
  | cons p m ih => simp only [Tab.map, List.map_cons, Tab.get] at ih ⊢; split_ifs <;> simp_all

@[simp] theorem Tab.get_modify_same (d : α) (m : Tab α) (k : Nat) (f : α → α) : Tab.get d (Tab.modify d m k f) k = f (Tab.get d m k) :=
  Tab.get_set_same d m k _

theorem Tab.get_modify_other (d : α) (m : Tab α) {k n : Nat} (f : α → α) (h : n ≠ k) : Tab.get d (Tab.modify d m k f) n = Tab.get d m n :=
  Tab.get_set_other d m _ h

/-- What a table lists is among its pairs. -/
theorem Tab.mem_of_find {m : Tab α} {k : Nat} {v : α} (h : Tab.find m k = some v) : (k, v) ∈ m := by
  induction m with
  | nil => simp at h
  | cons p m ih =>
    obtain ⟨j, w⟩ := p
    simp only [Tab.find] at h
    split_ifs at h with h1 h2
    · simp_all
    · exact List.mem_cons_of_mem _ (ih h)

/-- A pair of a table after a write is the written one or one of before. -/
theorem Tab.mem_set {m : Tab α} {k : Nat} {v : α} {p : Nat × α} (h : p ∈ Tab.set m k v) : p = (k, v) ∨ p ∈ m := by
  induction m with
  | nil => simpa [Tab.set] using h
  | cons q m ih =>
    simp only [Tab.set] at h
    split_ifs at h <;> simp only [List.mem_cons] at h ⊢ <;> tauto

theorem Tab.mem_erase {m : Tab α} {k : Nat} {p : Nat × α} (h : p ∈ Tab.erase m k) : p ∈ m := by
  induction m with
  | nil => exact h
  | cons q m ih =>
    simp only [Tab.erase] at h
    split_ifs at h <;> simp only [List.mem_cons] at h ⊢ <;> tauto

namespace Machine

/-! Canonical form -/

@[simp] theorem memWf_nil : memWf [] = true := rfl
@[simp] theorem memRead_nil (a : Nat) : memRead [] a = memDefault := rfl

theorem memWf_cons {j : Nat} {b : Byte} {m : Mem} : memWf ((j, b) :: m) = true ↔ b ≠ memDefault ∧ memAbove j m = true ∧ memWf m = true := by
  simp [memWf, and_assoc]

theorem memAbove_trans {a j : Nat} {m : Mem} (h : a < j) (hm : memAbove j m = true) : memAbove a m = true := by
  cases m with
  | nil => rfl
  | cons c m => simp only [memAbove, decide_eq_true_eq] at hm ⊢; omega

/-- Below the first address that is listed, every address reads as the default. -/
theorem memRead_of_above {m : Mem} {j a : Nat} (hm : memAbove j m = true) (h : a ≤ j) : memRead m a = memDefault := by
  cases m with
  | nil => rfl
  | cons c m =>
    simp only [memAbove, decide_eq_true_eq] at hm
    simp only [memRead]
    rw [if_neg (by omega), if_pos (by omega)]

theorem memWf_memCons {a : Nat} {b : Byte} {m : Mem} (h : memWf m = true) (ha : memAbove a m = true) : memWf (memCons a b m) = true := by
  rw [memCons]
  split_ifs with hb
  · exact h
  · exact memWf_cons.mpr ⟨hb, ha, h⟩

theorem memAbove_memCons {j a : Nat} {b : Byte} {m : Mem} (h : j < a) (hm : memAbove j m = true) : memAbove j (memCons a b m) = true := by
  rw [memCons]
  split_ifs
  · exact hm
  · simpa [memAbove] using h

theorem memAbove_memWrite {j a : Nat} {b : Byte} {m : Mem} (h : j < a) (hm : memAbove j m = true) (hw : memWf m = true) :
    memAbove j (memWrite m a b) = true := by
  cases m with
  | nil => exact memAbove_memCons h rfl
  | cons c m =>
    obtain ⟨i, x⟩ := c
    simp only [memWrite]
    split_ifs
    · exact memAbove_memCons h hm
    · refine memAbove_memCons h (memAbove_trans ?_ (memWf_cons.mp hw).2.1)
      simpa [memAbove] using hm
    · simpa [memAbove] using hm

/-- A write keeps the canonical form. -/
@[simp] theorem memWf_memWrite {m : Mem} (a : Nat) (b : Byte) (h : memWf m = true) : memWf (memWrite m a b) = true := by
  induction m with
  | nil => exact memWf_memCons h rfl
  | cons c m ih =>
    obtain ⟨j, x⟩ := c
    obtain ⟨hx, hj, hm⟩ := memWf_cons.mp h
    simp only [memWrite]
    split_ifs with h1 h2
    · exact memWf_memCons h (by simpa [memAbove] using h1)
    · exact memWf_memCons hm (h2 ▸ hj)
    · exact memWf_cons.mpr ⟨hx, memAbove_memWrite (by omega) hj hm, ih hm⟩

@[simp] theorem memWf_memWriteBytes {m : Mem} (a : Nat) (bs : List Byte) (h : memWf m = true) : memWf (memWriteBytes m a bs) = true := by
  induction bs generalizing m a with
  | nil => exact h
  | cons b bs ih => exact ih (a + 1) (memWf_memWrite a b h)

@[simp] theorem memWf_memWriteNat {m : Mem} (a n v : Nat) (h : memWf m = true) : memWf (memWriteNat m a n v) = true :=
  memWf_memWriteBytes a _ h

theorem memWf_memOfCells_aux (cs : List Host.Cell) {m : Mem} (h : memWf m = true) :
    memWf (cs.foldl (fun n c => memWrite n c.1 c.2) m) = true := by
  induction cs generalizing m with
  | nil => exact h
  | cons c cs ih => exact ih (memWf_memWrite _ _ h)

@[simp] theorem memWf_memOfCells (cs : List Host.Cell) : memWf (memOfCells cs) = true := memWf_memOfCells_aux cs rfl

theorem memAbove_filter {j : Nat} {m : Mem} (p : Host.Cell → Bool) (hm : memAbove j m = true) (hw : memWf m = true) :
    memAbove j (m.filter p) = true := by
  induction m generalizing j with
  | nil => rfl
  | cons c m ih =>
    rw [List.filter_cons]
    split_ifs
    · simpa [memAbove] using hm
    · exact ih (memAbove_trans (by simpa [memAbove] using hm) (memWf_cons.mp hw).2.1) (memWf_cons.mp hw).2.2

theorem memWf_filter {m : Mem} (p : Host.Cell → Bool) (h : memWf m = true) : memWf (m.filter p) = true := by
  induction m with
  | nil => rfl
  | cons c m ih =>
    obtain ⟨hx, hj, hm⟩ := memWf_cons.mp h
    rw [List.filter_cons]
    split_ifs
    · exact memWf_cons.mpr ⟨hx, memAbove_filter p hj hm, ih hm⟩
    · exact ih hm

@[simp] theorem memWf_memClear {m : Mem} (lo hi : Nat) (h : memWf m = true) : memWf (memClear lo hi m) = true := memWf_filter _ h

/-! Reading after writing -/

theorem memRead_memCons_same (a : Nat) (b : Byte) {m : Mem} (h : memAbove a m = true) : memRead (memCons a b m) a = b := by
  rw [memCons]
  split_ifs with hb
  · rw [memRead_of_above h le_rfl, hb]
  · simp [memRead]

theorem memRead_memCons_other {a x : Nat} (b : Byte) {m : Mem} (h : memAbove a m = true) (hx : x ≠ a) : memRead (memCons a b m) x = memRead m x := by
  rw [memCons]
  split_ifs with hb
  · rfl
  · simp only [memRead, if_neg hx]
    split_ifs with hlt
    · exact (memRead_of_above h hlt.le).symm
    · rfl

@[simp] theorem memRead_memWrite_same {m : Mem} (a : Nat) (b : Byte) (h : memWf m = true) : memRead (memWrite m a b) a = b := by
  induction m with
  | nil => exact memRead_memCons_same a b rfl
  | cons c m ih =>
    obtain ⟨j, x⟩ := c
    obtain ⟨-, hj, hm⟩ := memWf_cons.mp h
    simp only [memWrite]
    split_ifs with h1 h2
    · exact memRead_memCons_same a b (by simpa [memAbove] using h1)
    · exact memRead_memCons_same a b (h2 ▸ hj)
    · simp only [memRead, if_neg h2, if_neg h1, ih hm]

theorem memRead_memWrite_other {m : Mem} {a x : Nat} (b : Byte) (h : memWf m = true) (hx : x ≠ a) : memRead (memWrite m a b) x = memRead m x := by
  induction m with
  | nil => exact memRead_memCons_other b rfl hx
  | cons c m ih =>
    obtain ⟨j, y⟩ := c
    obtain ⟨-, hj, hm⟩ := memWf_cons.mp h
    simp only [memWrite]
    split_ifs with h1 h2
    · exact memRead_memCons_other b (by simpa [memAbove] using h1) hx
    · subst h2
      rw [memRead_memCons_other b hj hx]
      simp only [memRead, if_neg hx]
      split_ifs with hlt
      · exact memRead_of_above hj hlt.le
      · rfl
    · simp only [memRead, ih hm]

/-- A byte after a run of bytes was written. -/
theorem memRead_memWriteBytes {m : Mem} (a x : Nat) (bs : List Byte) (h : memWf m = true) :
    memRead (memWriteBytes m a bs) x = if a ≤ x ∧ x < a + bs.length then bs.getD (x - a) 0 else memRead m x := by
  induction bs generalizing m a with
  | nil => simp [memWriteBytes]
  | cons b bs ih =>
    rw [memWriteBytes, ih (a + 1) (memWf_memWrite a b h)]
    by_cases hx : x = a
    · subst hx; simp [memRead_memWrite_same, h]
    · rw [memRead_memWrite_other b h hx]
      by_cases hin : a + 1 ≤ x ∧ x < a + 1 + bs.length
      · rw [if_pos hin, if_pos (by simp only [List.length_cons]; omega)]
        obtain ⟨k, rfl⟩ : ∃ k, x = a + 1 + k := ⟨x - (a + 1), by omega⟩
        rw [show a + 1 + k - (a + 1) = k by omega, show a + 1 + k - a = k + 1 by omega, List.getD_cons_succ]
      · rw [if_neg hin, if_neg (by simp only [List.length_cons]; omega)]

/-- The canonical form makes equal contents equal data. -/
theorem mem_ext {m n : Mem} (hm : memWf m = true) (hn : memWf n = true) (h : ∀ a, memRead m a = memRead n a) : m = n := by
  induction m generalizing n with
  | nil =>
    cases n with
    | nil => rfl
    | cons c n => exact absurd (by simpa [memRead] using (h c.1).symm) (memWf_cons.mp hn).1
  | cons c m ih =>
    obtain ⟨j, b⟩ := c
    obtain ⟨hb, hj, hm'⟩ := memWf_cons.mp hm
    cases n with
    | nil => exact absurd (by simpa [memRead] using h j) hb
    | cons e n =>
      obtain ⟨i, x⟩ := e
      obtain ⟨hx, hi, hn'⟩ := memWf_cons.mp hn
      have hij : j = i := by
        rcases Nat.lt_trichotomy j i with hlt | heq | hgt
        · have := h j; simp only [memRead, if_neg (show j ≠ i by omega), if_pos hlt] at this; exact absurd (by simpa using this) hb
        · exact heq
        · have := h i; simp only [memRead, if_neg (show i ≠ j by omega), if_pos hgt] at this; exact absurd (by simpa using this.symm) hx
      subst hij
      have hbx : b = x := by simpa [memRead] using h j
      subst hbx
      rw [ih hm' hn' fun a => ?_]
      by_cases ha : a ≤ j
      · rw [memRead_of_above hj ha, memRead_of_above hi ha]
      · have := h a; simpa only [memRead, if_neg (show a ≠ j by omega), if_neg (show ¬ a < j by omega)] using this

/-! Byte order -/

@[simp] theorem leBytes_length (n v : Nat) : (leBytes n v).length = n := by
  induction n generalizing v with
  | zero => rfl
  | succ n ih => simp [leBytes, ih]

/-- n bytes of a number spell it modulo 256ⁿ. -/
theorem leNat_leBytes (n v : Nat) : leNat (leBytes n v) = v % 256 ^ n := by
  induction n generalizing v with
  | zero => simp [leBytes, leNat, Nat.mod_one]
  | succ n ih =>
    simp only [leBytes, leNat, ih, BitVec.toNat_ofNat, Nat.reducePow]
    rw [Nat.pow_succ, Nat.mul_comm (256 ^ n) 256, Nat.mod_mul, Nat.mul_comm]

@[simp] theorem memReadBytes_length (m : Mem) (a n : Nat) : (memReadBytes m a n).length = n := by
  induction n generalizing a with
  | zero => rfl
  | succ n ih => simp [memReadBytes, ih]

/-- The bytes that a run of writes put there. -/
theorem memReadBytes_memWriteBytes {m : Mem} (a : Nat) (bs : List Byte) (h : memWf m = true) :
    memReadBytes (memWriteBytes m a bs) a bs.length = bs := by
  induction bs generalizing m a with
  | nil => rfl
  | cons b bs ih =>
    simp only [List.length_cons, memReadBytes, memWriteBytes]
    rw [ih (a + 1) (memWf_memWrite a b h), memRead_memWriteBytes _ _ _ (memWf_memWrite a b h), if_neg (by omega),
      memRead_memWrite_same a b h]

/-- A number written and read again. -/
theorem memReadNat_memWriteNat {m : Mem} (a n v : Nat) (h : memWf m = true) : memReadNat (memWriteNat m a n v) a n = v % 256 ^ n := by
  have := memReadBytes_memWriteBytes a (leBytes n v) h
  rw [leBytes_length] at this
  rw [memReadNat, memWriteNat, this, leNat_leBytes]

end Machine

end Sys2Proof
end

