-- ==== Sys2Proof/Laws/State.lean ====
section
/-! SUPPORT. What the named updates leave as it is: one lemma for each field and update, so that no proof unfolds a record
update. -/

namespace Sys2Proof.Machine

/-! setBerth -/

@[simp] theorem setBerth_links (d : Device) (b : Nat) (x : Berth) : (setBerth d b x).links = d.links := rfl
@[simp] theorem setBerth_ports (d : Device) (b : Nat) (x : Berth) : (setBerth d b x).ports = d.ports := rfl
@[simp] theorem setBerth_ends (d : Device) (b : Nat) (x : Berth) : (setBerth d b x).ends = d.ends := rfl
@[simp] theorem setBerth_toTile (d : Device) (b : Nat) (x : Berth) : (setBerth d b x).toTile = d.toTile := rfl
@[simp] theorem setBerth_spareUsed (d : Device) (b : Nat) (x : Berth) : (setBerth d b x).spareUsed = d.spareUsed := rfl
@[simp] theorem setBerth_laneSwitch (d : Device) (b : Nat) (x : Berth) : (setBerth d b x).laneSwitch = d.laneSwitch := rfl
@[simp] theorem setBerth_streams (d : Device) (b : Nat) (x : Berth) : (setBerth d b x).streams = d.streams := rfl
@[simp] theorem setBerth_queues (d : Device) (b : Nat) (x : Berth) : (setBerth d b x).queues = d.queues := rfl
@[simp] theorem setBerth_evqs (d : Device) (b : Nat) (x : Berth) : (setBerth d b x).evqs = d.evqs := rfl
@[simp] theorem setBerth_purserEvq (d : Device) (b : Nat) (x : Berth) : (setBerth d b x).purserEvq = d.purserEvq := rfl
@[simp] theorem setBerth_pendingEv (d : Device) (b : Nat) (x : Berth) : (setBerth d b x).pendingEv = d.pendingEv := rfl
@[simp] theorem setBerth_quality (d : Device) (b : Nat) (x : Berth) : (setBerth d b x).quality = d.quality := rfl
@[simp] theorem setBerth_folsa (d : Device) (b : Nat) (x : Berth) : (setBerth d b x).folsa = d.folsa := rfl
@[simp] theorem setBerth_hub (d : Device) (b : Nat) (x : Berth) : (setBerth d b x).hub = d.hub := rfl
@[simp] theorem setBerth_od (d : Device) (b : Nat) (x : Berth) : (setBerth d b x).od = d.od := rfl
@[simp] theorem setBerth_flash (d : Device) (b : Nat) (x : Berth) : (setBerth d b x).flash = d.flash := rfl
@[simp] theorem setBerth_journal (d : Device) (b : Nat) (x : Berth) : (setBerth d b x).journal = d.journal := rfl
@[simp] theorem setBerth_sessions (d : Device) (b : Nat) (x : Berth) : (setBerth d b x).sessions = d.sessions := rfl
@[simp] theorem setBerth_transfers (d : Device) (b : Nat) (x : Berth) : (setBerth d b x).transfers = d.transfers := rfl
@[simp] theorem setBerth_requests (d : Device) (b : Nat) (x : Berth) : (setBerth d b x).requests = d.requests := rfl
@[simp] theorem setBerth_responses (d : Device) (b : Nat) (x : Berth) : (setBerth d b x).responses = d.responses := rfl
@[simp] theorem setBerth_mbx (d : Device) (b : Nat) (x : Berth) : (setBerth d b x).mbx = d.mbx := rfl
@[simp] theorem setBerth_udpOut (d : Device) (b : Nat) (x : Berth) : (setBerth d b x).udpOut = d.udpOut := rfl
@[simp] theorem setBerth_arpOut (d : Device) (b : Nat) (x : Berth) : (setBerth d b x).arpOut = d.arpOut := rfl
@[simp] theorem setBerth_mgmtDiscards (d : Device) (b : Nat) (x : Berth) : (setBerth d b x).mgmtDiscards = d.mgmtDiscards := rfl
@[simp] theorem setBerth_mctpOut (d : Device) (b : Nat) (x : Berth) : (setBerth d b x).mctpOut = d.mctpOut := rfl
@[simp] theorem setBerth_mctpControlOut (d : Device) (b : Nat) (x : Berth) : (setBerth d b x).mctpControlOut = d.mctpControlOut := rfl
@[simp] theorem setBerth_mctpEid (d : Device) (b : Nat) (x : Berth) : (setBerth d b x).mctpEid = d.mctpEid := rfl
@[simp] theorem setBerth_sfp (d : Device) (b : Nat) (x : Berth) : (setBerth d b x).sfp = d.sfp := rfl
@[simp] theorem setBerth_pcie (d : Device) (b : Nat) (x : Berth) : (setBerth d b x).pcie = d.pcie := rfl
@[simp] theorem setBerth_fw (d : Device) (b : Nat) (x : Berth) : (setBerth d b x).fw = d.fw := rfl
@[simp] theorem setBerth_pps (d : Device) (b : Nat) (x : Berth) : (setBerth d b x).pps = d.pps := rfl
@[simp] theorem setBerth_power (d : Device) (b : Nat) (x : Berth) : (setBerth d b x).power = d.power := rfl
@[simp] theorem setBerth_time (d : Device) (b : Nat) (x : Berth) : (setBerth d b x).time = d.time := rfl
@[simp] theorem setBerth_hostMem (d : Device) (b : Nat) (x : Berth) : (setBerth d b x).hostMem = d.hostMem := rfl
@[simp] theorem setBerth_moduleHurdles (d : Device) (b : Nat) (x : Berth) : (setBerth d b x).moduleHurdles = d.moduleHurdles := rfl
@[simp] theorem setBerth_nmi (d : Device) (b : Nat) (x : Berth) : (setBerth d b x).nmi = d.nmi := rfl
@[simp] theorem setBerth_stallTotals (d : Device) (b : Nat) (x : Berth) : (setBerth d b x).stallTotals = d.stallTotals := rfl
@[simp] theorem setBerth_sramScrubbed (d : Device) (b : Nat) (x : Berth) : (setBerth d b x).sramScrubbed = d.sramScrubbed := rfl
@[simp] theorem setBerth_hbmScrubbed (d : Device) (b : Nat) (x : Berth) : (setBerth d b x).hbmScrubbed = d.hbmScrubbed := rfl
@[simp] theorem setBerth_armed (d : Device) (b : Nat) (x : Berth) : (setBerth d b x).armed = d.armed := rfl
@[simp] theorem setBerth_drawn (d : Device) (b : Nat) (x : Berth) : (setBerth d b x).drawn = d.drawn := rfl
@[simp] theorem setBerth_berths (d : Device) (b : Nat) (x : Berth) : (setBerth d b x).berths = Tab.set d.berths b x := rfl

/-! modBerth -/

@[simp] theorem modBerth_links (d : Device) (b : Nat) (f : Berth → Berth) : (modBerth d b f).links = d.links := rfl
@[simp] theorem modBerth_ports (d : Device) (b : Nat) (f : Berth → Berth) : (modBerth d b f).ports = d.ports := rfl
@[simp] theorem modBerth_ends (d : Device) (b : Nat) (f : Berth → Berth) : (modBerth d b f).ends = d.ends := rfl
@[simp] theorem modBerth_toTile (d : Device) (b : Nat) (f : Berth → Berth) : (modBerth d b f).toTile = d.toTile := rfl
@[simp] theorem modBerth_spareUsed (d : Device) (b : Nat) (f : Berth → Berth) : (modBerth d b f).spareUsed = d.spareUsed := rfl
@[simp] theorem modBerth_laneSwitch (d : Device) (b : Nat) (f : Berth → Berth) : (modBerth d b f).laneSwitch = d.laneSwitch := rfl
@[simp] theorem modBerth_streams (d : Device) (b : Nat) (f : Berth → Berth) : (modBerth d b f).streams = d.streams := rfl
@[simp] theorem modBerth_queues (d : Device) (b : Nat) (f : Berth → Berth) : (modBerth d b f).queues = d.queues := rfl
@[simp] theorem modBerth_evqs (d : Device) (b : Nat) (f : Berth → Berth) : (modBerth d b f).evqs = d.evqs := rfl
@[simp] theorem modBerth_purserEvq (d : Device) (b : Nat) (f : Berth → Berth) : (modBerth d b f).purserEvq = d.purserEvq := rfl
@[simp] theorem modBerth_pendingEv (d : Device) (b : Nat) (f : Berth → Berth) : (modBerth d b f).pendingEv = d.pendingEv := rfl
@[simp] theorem modBerth_quality (d : Device) (b : Nat) (f : Berth → Berth) : (modBerth d b f).quality = d.quality := rfl
@[simp] theorem modBerth_folsa (d : Device) (b : Nat) (f : Berth → Berth) : (modBerth d b f).folsa = d.folsa := rfl
@[simp] theorem modBerth_hub (d : Device) (b : Nat) (f : Berth → Berth) : (modBerth d b f).hub = d.hub := rfl
@[simp] theorem modBerth_od (d : Device) (b : Nat) (f : Berth → Berth) : (modBerth d b f).od = d.od := rfl
@[simp] theorem modBerth_flash (d : Device) (b : Nat) (f : Berth → Berth) : (modBerth d b f).flash = d.flash := rfl
@[simp] theorem modBerth_journal (d : Device) (b : Nat) (f : Berth → Berth) : (modBerth d b f).journal = d.journal := rfl
@[simp] theorem modBerth_sessions (d : Device) (b : Nat) (f : Berth → Berth) : (modBerth d b f).sessions = d.sessions := rfl
@[simp] theorem modBerth_transfers (d : Device) (b : Nat) (f : Berth → Berth) : (modBerth d b f).transfers = d.transfers := rfl
@[simp] theorem modBerth_requests (d : Device) (b : Nat) (f : Berth → Berth) : (modBerth d b f).requests = d.requests := rfl
@[simp] theorem modBerth_responses (d : Device) (b : Nat) (f : Berth → Berth) : (modBerth d b f).responses = d.responses := rfl
@[simp] theorem modBerth_mbx (d : Device) (b : Nat) (f : Berth → Berth) : (modBerth d b f).mbx = d.mbx := rfl
@[simp] theorem modBerth_udpOut (d : Device) (b : Nat) (f : Berth → Berth) : (modBerth d b f).udpOut = d.udpOut := rfl
@[simp] theorem modBerth_arpOut (d : Device) (b : Nat) (f : Berth → Berth) : (modBerth d b f).arpOut = d.arpOut := rfl
@[simp] theorem modBerth_mgmtDiscards (d : Device) (b : Nat) (f : Berth → Berth) : (modBerth d b f).mgmtDiscards = d.mgmtDiscards := rfl
@[simp] theorem modBerth_mctpOut (d : Device) (b : Nat) (f : Berth → Berth) : (modBerth d b f).mctpOut = d.mctpOut := rfl
@[simp] theorem modBerth_mctpControlOut (d : Device) (b : Nat) (f : Berth → Berth) : (modBerth d b f).mctpControlOut = d.mctpControlOut := rfl
@[simp] theorem modBerth_mctpEid (d : Device) (b : Nat) (f : Berth → Berth) : (modBerth d b f).mctpEid = d.mctpEid := rfl
@[simp] theorem modBerth_sfp (d : Device) (b : Nat) (f : Berth → Berth) : (modBerth d b f).sfp = d.sfp := rfl
@[simp] theorem modBerth_pcie (d : Device) (b : Nat) (f : Berth → Berth) : (modBerth d b f).pcie = d.pcie := rfl
@[simp] theorem modBerth_fw (d : Device) (b : Nat) (f : Berth → Berth) : (modBerth d b f).fw = d.fw := rfl
@[simp] theorem modBerth_pps (d : Device) (b : Nat) (f : Berth → Berth) : (modBerth d b f).pps = d.pps := rfl
@[simp] theorem modBerth_power (d : Device) (b : Nat) (f : Berth → Berth) : (modBerth d b f).power = d.power := rfl
@[simp] theorem modBerth_time (d : Device) (b : Nat) (f : Berth → Berth) : (modBerth d b f).time = d.time := rfl
@[simp] theorem modBerth_hostMem (d : Device) (b : Nat) (f : Berth → Berth) : (modBerth d b f).hostMem = d.hostMem := rfl
@[simp] theorem modBerth_moduleHurdles (d : Device) (b : Nat) (f : Berth → Berth) : (modBerth d b f).moduleHurdles = d.moduleHurdles := rfl
@[simp] theorem modBerth_nmi (d : Device) (b : Nat) (f : Berth → Berth) : (modBerth d b f).nmi = d.nmi := rfl
@[simp] theorem modBerth_stallTotals (d : Device) (b : Nat) (f : Berth → Berth) : (modBerth d b f).stallTotals = d.stallTotals := rfl
@[simp] theorem modBerth_sramScrubbed (d : Device) (b : Nat) (f : Berth → Berth) : (modBerth d b f).sramScrubbed = d.sramScrubbed := rfl
@[simp] theorem modBerth_hbmScrubbed (d : Device) (b : Nat) (f : Berth → Berth) : (modBerth d b f).hbmScrubbed = d.hbmScrubbed := rfl
@[simp] theorem modBerth_armed (d : Device) (b : Nat) (f : Berth → Berth) : (modBerth d b f).armed = d.armed := rfl
@[simp] theorem modBerth_drawn (d : Device) (b : Nat) (f : Berth → Berth) : (modBerth d b f).drawn = d.drawn := rfl
@[simp] theorem modBerth_berths (d : Device) (b : Nat) (f : Berth → Berth) : (modBerth d b f).berths = Tab.set d.berths b (f (berthAt d b)) := rfl

/-! setTile -/

@[simp] theorem setTile_links (d : Device) (b k : Nat) (t : Tile) : (setTile d b k t).links = d.links := rfl
@[simp] theorem setTile_ports (d : Device) (b k : Nat) (t : Tile) : (setTile d b k t).ports = d.ports := rfl
@[simp] theorem setTile_ends (d : Device) (b k : Nat) (t : Tile) : (setTile d b k t).ends = d.ends := rfl
@[simp] theorem setTile_toTile (d : Device) (b k : Nat) (t : Tile) : (setTile d b k t).toTile = d.toTile := rfl
@[simp] theorem setTile_spareUsed (d : Device) (b k : Nat) (t : Tile) : (setTile d b k t).spareUsed = d.spareUsed := rfl
@[simp] theorem setTile_laneSwitch (d : Device) (b k : Nat) (t : Tile) : (setTile d b k t).laneSwitch = d.laneSwitch := rfl
@[simp] theorem setTile_streams (d : Device) (b k : Nat) (t : Tile) : (setTile d b k t).streams = d.streams := rfl
@[simp] theorem setTile_queues (d : Device) (b k : Nat) (t : Tile) : (setTile d b k t).queues = d.queues := rfl
@[simp] theorem setTile_evqs (d : Device) (b k : Nat) (t : Tile) : (setTile d b k t).evqs = d.evqs := rfl
@[simp] theorem setTile_purserEvq (d : Device) (b k : Nat) (t : Tile) : (setTile d b k t).purserEvq = d.purserEvq := rfl
@[simp] theorem setTile_pendingEv (d : Device) (b k : Nat) (t : Tile) : (setTile d b k t).pendingEv = d.pendingEv := rfl
@[simp] theorem setTile_quality (d : Device) (b k : Nat) (t : Tile) : (setTile d b k t).quality = d.quality := rfl
@[simp] theorem setTile_folsa (d : Device) (b k : Nat) (t : Tile) : (setTile d b k t).folsa = d.folsa := rfl
@[simp] theorem setTile_hub (d : Device) (b k : Nat) (t : Tile) : (setTile d b k t).hub = d.hub := rfl
@[simp] theorem setTile_od (d : Device) (b k : Nat) (t : Tile) : (setTile d b k t).od = d.od := rfl
@[simp] theorem setTile_flash (d : Device) (b k : Nat) (t : Tile) : (setTile d b k t).flash = d.flash := rfl
@[simp] theorem setTile_journal (d : Device) (b k : Nat) (t : Tile) : (setTile d b k t).journal = d.journal := rfl
@[simp] theorem setTile_sessions (d : Device) (b k : Nat) (t : Tile) : (setTile d b k t).sessions = d.sessions := rfl
@[simp] theorem setTile_transfers (d : Device) (b k : Nat) (t : Tile) : (setTile d b k t).transfers = d.transfers := rfl
@[simp] theorem setTile_requests (d : Device) (b k : Nat) (t : Tile) : (setTile d b k t).requests = d.requests := rfl
@[simp] theorem setTile_responses (d : Device) (b k : Nat) (t : Tile) : (setTile d b k t).responses = d.responses := rfl
@[simp] theorem setTile_mbx (d : Device) (b k : Nat) (t : Tile) : (setTile d b k t).mbx = d.mbx := rfl
@[simp] theorem setTile_udpOut (d : Device) (b k : Nat) (t : Tile) : (setTile d b k t).udpOut = d.udpOut := rfl
@[simp] theorem setTile_arpOut (d : Device) (b k : Nat) (t : Tile) : (setTile d b k t).arpOut = d.arpOut := rfl
@[simp] theorem setTile_mgmtDiscards (d : Device) (b k : Nat) (t : Tile) : (setTile d b k t).mgmtDiscards = d.mgmtDiscards := rfl
@[simp] theorem setTile_mctpOut (d : Device) (b k : Nat) (t : Tile) : (setTile d b k t).mctpOut = d.mctpOut := rfl
@[simp] theorem setTile_mctpControlOut (d : Device) (b k : Nat) (t : Tile) : (setTile d b k t).mctpControlOut = d.mctpControlOut := rfl
@[simp] theorem setTile_mctpEid (d : Device) (b k : Nat) (t : Tile) : (setTile d b k t).mctpEid = d.mctpEid := rfl
@[simp] theorem setTile_sfp (d : Device) (b k : Nat) (t : Tile) : (setTile d b k t).sfp = d.sfp := rfl
@[simp] theorem setTile_pcie (d : Device) (b k : Nat) (t : Tile) : (setTile d b k t).pcie = d.pcie := rfl
@[simp] theorem setTile_fw (d : Device) (b k : Nat) (t : Tile) : (setTile d b k t).fw = d.fw := rfl
@[simp] theorem setTile_pps (d : Device) (b k : Nat) (t : Tile) : (setTile d b k t).pps = d.pps := rfl
@[simp] theorem setTile_power (d : Device) (b k : Nat) (t : Tile) : (setTile d b k t).power = d.power := rfl
@[simp] theorem setTile_time (d : Device) (b k : Nat) (t : Tile) : (setTile d b k t).time = d.time := rfl
@[simp] theorem setTile_hostMem (d : Device) (b k : Nat) (t : Tile) : (setTile d b k t).hostMem = d.hostMem := rfl
@[simp] theorem setTile_moduleHurdles (d : Device) (b k : Nat) (t : Tile) : (setTile d b k t).moduleHurdles = d.moduleHurdles := rfl
@[simp] theorem setTile_nmi (d : Device) (b k : Nat) (t : Tile) : (setTile d b k t).nmi = d.nmi := rfl
@[simp] theorem setTile_stallTotals (d : Device) (b k : Nat) (t : Tile) : (setTile d b k t).stallTotals = d.stallTotals := rfl
@[simp] theorem setTile_sramScrubbed (d : Device) (b k : Nat) (t : Tile) : (setTile d b k t).sramScrubbed = d.sramScrubbed := rfl
@[simp] theorem setTile_hbmScrubbed (d : Device) (b k : Nat) (t : Tile) : (setTile d b k t).hbmScrubbed = d.hbmScrubbed := rfl
@[simp] theorem setTile_armed (d : Device) (b k : Nat) (t : Tile) : (setTile d b k t).armed = d.armed := rfl
@[simp] theorem setTile_drawn (d : Device) (b k : Nat) (t : Tile) : (setTile d b k t).drawn = d.drawn := rfl
@[simp] theorem setTile_berths (d : Device) (b k : Nat) (t : Tile) : (setTile d b k t).berths = Tab.set d.berths b { berthAt d b with tiles := Tab.set (berthAt d b).tiles k t } := rfl

/-! setSlot -/

@[simp] theorem setSlot_links (d : Device) (b k : Nat) (x : Slot) : (setSlot d b k x).links = d.links := rfl
@[simp] theorem setSlot_ports (d : Device) (b k : Nat) (x : Slot) : (setSlot d b k x).ports = d.ports := rfl
@[simp] theorem setSlot_ends (d : Device) (b k : Nat) (x : Slot) : (setSlot d b k x).ends = d.ends := rfl
@[simp] theorem setSlot_toTile (d : Device) (b k : Nat) (x : Slot) : (setSlot d b k x).toTile = d.toTile := rfl
@[simp] theorem setSlot_spareUsed (d : Device) (b k : Nat) (x : Slot) : (setSlot d b k x).spareUsed = d.spareUsed := rfl
@[simp] theorem setSlot_laneSwitch (d : Device) (b k : Nat) (x : Slot) : (setSlot d b k x).laneSwitch = d.laneSwitch := rfl
@[simp] theorem setSlot_streams (d : Device) (b k : Nat) (x : Slot) : (setSlot d b k x).streams = d.streams := rfl
@[simp] theorem setSlot_queues (d : Device) (b k : Nat) (x : Slot) : (setSlot d b k x).queues = d.queues := rfl
@[simp] theorem setSlot_evqs (d : Device) (b k : Nat) (x : Slot) : (setSlot d b k x).evqs = d.evqs := rfl
@[simp] theorem setSlot_purserEvq (d : Device) (b k : Nat) (x : Slot) : (setSlot d b k x).purserEvq = d.purserEvq := rfl
@[simp] theorem setSlot_pendingEv (d : Device) (b k : Nat) (x : Slot) : (setSlot d b k x).pendingEv = d.pendingEv := rfl
@[simp] theorem setSlot_quality (d : Device) (b k : Nat) (x : Slot) : (setSlot d b k x).quality = d.quality := rfl
@[simp] theorem setSlot_folsa (d : Device) (b k : Nat) (x : Slot) : (setSlot d b k x).folsa = d.folsa := rfl
@[simp] theorem setSlot_hub (d : Device) (b k : Nat) (x : Slot) : (setSlot d b k x).hub = d.hub := rfl
@[simp] theorem setSlot_od (d : Device) (b k : Nat) (x : Slot) : (setSlot d b k x).od = d.od := rfl
@[simp] theorem setSlot_flash (d : Device) (b k : Nat) (x : Slot) : (setSlot d b k x).flash = d.flash := rfl
@[simp] theorem setSlot_journal (d : Device) (b k : Nat) (x : Slot) : (setSlot d b k x).journal = d.journal := rfl
@[simp] theorem setSlot_sessions (d : Device) (b k : Nat) (x : Slot) : (setSlot d b k x).sessions = d.sessions := rfl
@[simp] theorem setSlot_transfers (d : Device) (b k : Nat) (x : Slot) : (setSlot d b k x).transfers = d.transfers := rfl
@[simp] theorem setSlot_requests (d : Device) (b k : Nat) (x : Slot) : (setSlot d b k x).requests = d.requests := rfl
@[simp] theorem setSlot_responses (d : Device) (b k : Nat) (x : Slot) : (setSlot d b k x).responses = d.responses := rfl
@[simp] theorem setSlot_mbx (d : Device) (b k : Nat) (x : Slot) : (setSlot d b k x).mbx = d.mbx := rfl
@[simp] theorem setSlot_udpOut (d : Device) (b k : Nat) (x : Slot) : (setSlot d b k x).udpOut = d.udpOut := rfl
@[simp] theorem setSlot_arpOut (d : Device) (b k : Nat) (x : Slot) : (setSlot d b k x).arpOut = d.arpOut := rfl
@[simp] theorem setSlot_mgmtDiscards (d : Device) (b k : Nat) (x : Slot) : (setSlot d b k x).mgmtDiscards = d.mgmtDiscards := rfl
@[simp] theorem setSlot_mctpOut (d : Device) (b k : Nat) (x : Slot) : (setSlot d b k x).mctpOut = d.mctpOut := rfl
@[simp] theorem setSlot_mctpControlOut (d : Device) (b k : Nat) (x : Slot) : (setSlot d b k x).mctpControlOut = d.mctpControlOut := rfl
@[simp] theorem setSlot_mctpEid (d : Device) (b k : Nat) (x : Slot) : (setSlot d b k x).mctpEid = d.mctpEid := rfl
@[simp] theorem setSlot_sfp (d : Device) (b k : Nat) (x : Slot) : (setSlot d b k x).sfp = d.sfp := rfl
@[simp] theorem setSlot_pcie (d : Device) (b k : Nat) (x : Slot) : (setSlot d b k x).pcie = d.pcie := rfl
@[simp] theorem setSlot_fw (d : Device) (b k : Nat) (x : Slot) : (setSlot d b k x).fw = d.fw := rfl
@[simp] theorem setSlot_pps (d : Device) (b k : Nat) (x : Slot) : (setSlot d b k x).pps = d.pps := rfl
@[simp] theorem setSlot_power (d : Device) (b k : Nat) (x : Slot) : (setSlot d b k x).power = d.power := rfl
@[simp] theorem setSlot_time (d : Device) (b k : Nat) (x : Slot) : (setSlot d b k x).time = d.time := rfl
@[simp] theorem setSlot_hostMem (d : Device) (b k : Nat) (x : Slot) : (setSlot d b k x).hostMem = d.hostMem := rfl
@[simp] theorem setSlot_moduleHurdles (d : Device) (b k : Nat) (x : Slot) : (setSlot d b k x).moduleHurdles = d.moduleHurdles := rfl
@[simp] theorem setSlot_nmi (d : Device) (b k : Nat) (x : Slot) : (setSlot d b k x).nmi = d.nmi := rfl
@[simp] theorem setSlot_stallTotals (d : Device) (b k : Nat) (x : Slot) : (setSlot d b k x).stallTotals = d.stallTotals := rfl
@[simp] theorem setSlot_sramScrubbed (d : Device) (b k : Nat) (x : Slot) : (setSlot d b k x).sramScrubbed = d.sramScrubbed := rfl
@[simp] theorem setSlot_hbmScrubbed (d : Device) (b k : Nat) (x : Slot) : (setSlot d b k x).hbmScrubbed = d.hbmScrubbed := rfl
@[simp] theorem setSlot_armed (d : Device) (b k : Nat) (x : Slot) : (setSlot d b k x).armed = d.armed := rfl
@[simp] theorem setSlot_drawn (d : Device) (b k : Nat) (x : Slot) : (setSlot d b k x).drawn = d.drawn := rfl
@[simp] theorem setSlot_berths (d : Device) (b k : Nat) (x : Slot) : (setSlot d b k x).berths = Tab.set d.berths b { berthAt d b with slots := Tab.set (berthAt d b).slots k x } := rfl

/-! setLink -/

@[simp] theorem setLink_berths (d : Device) (k : Nat) (x : Link) : (setLink d k x).berths = d.berths := rfl
@[simp] theorem setLink_ports (d : Device) (k : Nat) (x : Link) : (setLink d k x).ports = d.ports := rfl
@[simp] theorem setLink_ends (d : Device) (k : Nat) (x : Link) : (setLink d k x).ends = d.ends := rfl
@[simp] theorem setLink_toTile (d : Device) (k : Nat) (x : Link) : (setLink d k x).toTile = d.toTile := rfl
@[simp] theorem setLink_spareUsed (d : Device) (k : Nat) (x : Link) : (setLink d k x).spareUsed = d.spareUsed := rfl
@[simp] theorem setLink_laneSwitch (d : Device) (k : Nat) (x : Link) : (setLink d k x).laneSwitch = d.laneSwitch := rfl
@[simp] theorem setLink_streams (d : Device) (k : Nat) (x : Link) : (setLink d k x).streams = d.streams := rfl
@[simp] theorem setLink_queues (d : Device) (k : Nat) (x : Link) : (setLink d k x).queues = d.queues := rfl
@[simp] theorem setLink_evqs (d : Device) (k : Nat) (x : Link) : (setLink d k x).evqs = d.evqs := rfl
@[simp] theorem setLink_purserEvq (d : Device) (k : Nat) (x : Link) : (setLink d k x).purserEvq = d.purserEvq := rfl
@[simp] theorem setLink_pendingEv (d : Device) (k : Nat) (x : Link) : (setLink d k x).pendingEv = d.pendingEv := rfl
@[simp] theorem setLink_quality (d : Device) (k : Nat) (x : Link) : (setLink d k x).quality = d.quality := rfl
@[simp] theorem setLink_folsa (d : Device) (k : Nat) (x : Link) : (setLink d k x).folsa = d.folsa := rfl
@[simp] theorem setLink_hub (d : Device) (k : Nat) (x : Link) : (setLink d k x).hub = d.hub := rfl
@[simp] theorem setLink_od (d : Device) (k : Nat) (x : Link) : (setLink d k x).od = d.od := rfl
@[simp] theorem setLink_flash (d : Device) (k : Nat) (x : Link) : (setLink d k x).flash = d.flash := rfl
@[simp] theorem setLink_journal (d : Device) (k : Nat) (x : Link) : (setLink d k x).journal = d.journal := rfl
@[simp] theorem setLink_sessions (d : Device) (k : Nat) (x : Link) : (setLink d k x).sessions = d.sessions := rfl
@[simp] theorem setLink_transfers (d : Device) (k : Nat) (x : Link) : (setLink d k x).transfers = d.transfers := rfl
@[simp] theorem setLink_requests (d : Device) (k : Nat) (x : Link) : (setLink d k x).requests = d.requests := rfl
@[simp] theorem setLink_responses (d : Device) (k : Nat) (x : Link) : (setLink d k x).responses = d.responses := rfl
@[simp] theorem setLink_mbx (d : Device) (k : Nat) (x : Link) : (setLink d k x).mbx = d.mbx := rfl
@[simp] theorem setLink_udpOut (d : Device) (k : Nat) (x : Link) : (setLink d k x).udpOut = d.udpOut := rfl
@[simp] theorem setLink_arpOut (d : Device) (k : Nat) (x : Link) : (setLink d k x).arpOut = d.arpOut := rfl
@[simp] theorem setLink_mgmtDiscards (d : Device) (k : Nat) (x : Link) : (setLink d k x).mgmtDiscards = d.mgmtDiscards := rfl
@[simp] theorem setLink_mctpOut (d : Device) (k : Nat) (x : Link) : (setLink d k x).mctpOut = d.mctpOut := rfl
@[simp] theorem setLink_mctpControlOut (d : Device) (k : Nat) (x : Link) : (setLink d k x).mctpControlOut = d.mctpControlOut := rfl
@[simp] theorem setLink_mctpEid (d : Device) (k : Nat) (x : Link) : (setLink d k x).mctpEid = d.mctpEid := rfl
@[simp] theorem setLink_sfp (d : Device) (k : Nat) (x : Link) : (setLink d k x).sfp = d.sfp := rfl
@[simp] theorem setLink_pcie (d : Device) (k : Nat) (x : Link) : (setLink d k x).pcie = d.pcie := rfl
@[simp] theorem setLink_fw (d : Device) (k : Nat) (x : Link) : (setLink d k x).fw = d.fw := rfl
@[simp] theorem setLink_pps (d : Device) (k : Nat) (x : Link) : (setLink d k x).pps = d.pps := rfl
@[simp] theorem setLink_power (d : Device) (k : Nat) (x : Link) : (setLink d k x).power = d.power := rfl
@[simp] theorem setLink_time (d : Device) (k : Nat) (x : Link) : (setLink d k x).time = d.time := rfl
@[simp] theorem setLink_hostMem (d : Device) (k : Nat) (x : Link) : (setLink d k x).hostMem = d.hostMem := rfl
@[simp] theorem setLink_moduleHurdles (d : Device) (k : Nat) (x : Link) : (setLink d k x).moduleHurdles = d.moduleHurdles := rfl
@[simp] theorem setLink_nmi (d : Device) (k : Nat) (x : Link) : (setLink d k x).nmi = d.nmi := rfl
@[simp] theorem setLink_stallTotals (d : Device) (k : Nat) (x : Link) : (setLink d k x).stallTotals = d.stallTotals := rfl
@[simp] theorem setLink_sramScrubbed (d : Device) (k : Nat) (x : Link) : (setLink d k x).sramScrubbed = d.sramScrubbed := rfl
@[simp] theorem setLink_hbmScrubbed (d : Device) (k : Nat) (x : Link) : (setLink d k x).hbmScrubbed = d.hbmScrubbed := rfl
@[simp] theorem setLink_armed (d : Device) (k : Nat) (x : Link) : (setLink d k x).armed = d.armed := rfl
@[simp] theorem setLink_drawn (d : Device) (k : Nat) (x : Link) : (setLink d k x).drawn = d.drawn := rfl
@[simp] theorem setLink_links (d : Device) (k : Nat) (x : Link) : (setLink d k x).links = Tab.set d.links k x := rfl

/-! setPort -/

@[simp] theorem setPort_berths (d : Device) (k : Nat) (x : StationPort) : (setPort d k x).berths = d.berths := rfl
@[simp] theorem setPort_links (d : Device) (k : Nat) (x : StationPort) : (setPort d k x).links = d.links := rfl
@[simp] theorem setPort_ends (d : Device) (k : Nat) (x : StationPort) : (setPort d k x).ends = d.ends := rfl
@[simp] theorem setPort_toTile (d : Device) (k : Nat) (x : StationPort) : (setPort d k x).toTile = d.toTile := rfl
@[simp] theorem setPort_spareUsed (d : Device) (k : Nat) (x : StationPort) : (setPort d k x).spareUsed = d.spareUsed := rfl
@[simp] theorem setPort_laneSwitch (d : Device) (k : Nat) (x : StationPort) : (setPort d k x).laneSwitch = d.laneSwitch := rfl
@[simp] theorem setPort_streams (d : Device) (k : Nat) (x : StationPort) : (setPort d k x).streams = d.streams := rfl
@[simp] theorem setPort_queues (d : Device) (k : Nat) (x : StationPort) : (setPort d k x).queues = d.queues := rfl
@[simp] theorem setPort_evqs (d : Device) (k : Nat) (x : StationPort) : (setPort d k x).evqs = d.evqs := rfl
@[simp] theorem setPort_purserEvq (d : Device) (k : Nat) (x : StationPort) : (setPort d k x).purserEvq = d.purserEvq := rfl
@[simp] theorem setPort_pendingEv (d : Device) (k : Nat) (x : StationPort) : (setPort d k x).pendingEv = d.pendingEv := rfl
@[simp] theorem setPort_quality (d : Device) (k : Nat) (x : StationPort) : (setPort d k x).quality = d.quality := rfl
@[simp] theorem setPort_folsa (d : Device) (k : Nat) (x : StationPort) : (setPort d k x).folsa = d.folsa := rfl
@[simp] theorem setPort_hub (d : Device) (k : Nat) (x : StationPort) : (setPort d k x).hub = d.hub := rfl
@[simp] theorem setPort_od (d : Device) (k : Nat) (x : StationPort) : (setPort d k x).od = d.od := rfl
@[simp] theorem setPort_flash (d : Device) (k : Nat) (x : StationPort) : (setPort d k x).flash = d.flash := rfl
@[simp] theorem setPort_journal (d : Device) (k : Nat) (x : StationPort) : (setPort d k x).journal = d.journal := rfl
@[simp] theorem setPort_sessions (d : Device) (k : Nat) (x : StationPort) : (setPort d k x).sessions = d.sessions := rfl
@[simp] theorem setPort_transfers (d : Device) (k : Nat) (x : StationPort) : (setPort d k x).transfers = d.transfers := rfl
@[simp] theorem setPort_requests (d : Device) (k : Nat) (x : StationPort) : (setPort d k x).requests = d.requests := rfl
@[simp] theorem setPort_responses (d : Device) (k : Nat) (x : StationPort) : (setPort d k x).responses = d.responses := rfl
@[simp] theorem setPort_mbx (d : Device) (k : Nat) (x : StationPort) : (setPort d k x).mbx = d.mbx := rfl
@[simp] theorem setPort_udpOut (d : Device) (k : Nat) (x : StationPort) : (setPort d k x).udpOut = d.udpOut := rfl
@[simp] theorem setPort_arpOut (d : Device) (k : Nat) (x : StationPort) : (setPort d k x).arpOut = d.arpOut := rfl
@[simp] theorem setPort_mgmtDiscards (d : Device) (k : Nat) (x : StationPort) : (setPort d k x).mgmtDiscards = d.mgmtDiscards := rfl
@[simp] theorem setPort_mctpOut (d : Device) (k : Nat) (x : StationPort) : (setPort d k x).mctpOut = d.mctpOut := rfl
@[simp] theorem setPort_mctpControlOut (d : Device) (k : Nat) (x : StationPort) : (setPort d k x).mctpControlOut = d.mctpControlOut := rfl
@[simp] theorem setPort_mctpEid (d : Device) (k : Nat) (x : StationPort) : (setPort d k x).mctpEid = d.mctpEid := rfl
@[simp] theorem setPort_sfp (d : Device) (k : Nat) (x : StationPort) : (setPort d k x).sfp = d.sfp := rfl
@[simp] theorem setPort_pcie (d : Device) (k : Nat) (x : StationPort) : (setPort d k x).pcie = d.pcie := rfl
@[simp] theorem setPort_fw (d : Device) (k : Nat) (x : StationPort) : (setPort d k x).fw = d.fw := rfl
@[simp] theorem setPort_pps (d : Device) (k : Nat) (x : StationPort) : (setPort d k x).pps = d.pps := rfl
@[simp] theorem setPort_power (d : Device) (k : Nat) (x : StationPort) : (setPort d k x).power = d.power := rfl
@[simp] theorem setPort_time (d : Device) (k : Nat) (x : StationPort) : (setPort d k x).time = d.time := rfl
@[simp] theorem setPort_hostMem (d : Device) (k : Nat) (x : StationPort) : (setPort d k x).hostMem = d.hostMem := rfl
@[simp] theorem setPort_moduleHurdles (d : Device) (k : Nat) (x : StationPort) : (setPort d k x).moduleHurdles = d.moduleHurdles := rfl
@[simp] theorem setPort_nmi (d : Device) (k : Nat) (x : StationPort) : (setPort d k x).nmi = d.nmi := rfl
@[simp] theorem setPort_stallTotals (d : Device) (k : Nat) (x : StationPort) : (setPort d k x).stallTotals = d.stallTotals := rfl
@[simp] theorem setPort_sramScrubbed (d : Device) (k : Nat) (x : StationPort) : (setPort d k x).sramScrubbed = d.sramScrubbed := rfl
@[simp] theorem setPort_hbmScrubbed (d : Device) (k : Nat) (x : StationPort) : (setPort d k x).hbmScrubbed = d.hbmScrubbed := rfl
@[simp] theorem setPort_armed (d : Device) (k : Nat) (x : StationPort) : (setPort d k x).armed = d.armed := rfl
@[simp] theorem setPort_drawn (d : Device) (k : Nat) (x : StationPort) : (setPort d k x).drawn = d.drawn := rfl
@[simp] theorem setPort_ports (d : Device) (k : Nat) (x : StationPort) : (setPort d k x).ports = Tab.set d.ports k x := rfl

/-! setEnd -/

@[simp] theorem setEnd_berths (d : Device) (k : Nat) (x : UEnd) : (setEnd d k x).berths = d.berths := rfl
@[simp] theorem setEnd_links (d : Device) (k : Nat) (x : UEnd) : (setEnd d k x).links = d.links := rfl
@[simp] theorem setEnd_ports (d : Device) (k : Nat) (x : UEnd) : (setEnd d k x).ports = d.ports := rfl
@[simp] theorem setEnd_toTile (d : Device) (k : Nat) (x : UEnd) : (setEnd d k x).toTile = d.toTile := rfl
@[simp] theorem setEnd_spareUsed (d : Device) (k : Nat) (x : UEnd) : (setEnd d k x).spareUsed = d.spareUsed := rfl
@[simp] theorem setEnd_laneSwitch (d : Device) (k : Nat) (x : UEnd) : (setEnd d k x).laneSwitch = d.laneSwitch := rfl
@[simp] theorem setEnd_streams (d : Device) (k : Nat) (x : UEnd) : (setEnd d k x).streams = d.streams := rfl
@[simp] theorem setEnd_queues (d : Device) (k : Nat) (x : UEnd) : (setEnd d k x).queues = d.queues := rfl
@[simp] theorem setEnd_evqs (d : Device) (k : Nat) (x : UEnd) : (setEnd d k x).evqs = d.evqs := rfl
@[simp] theorem setEnd_purserEvq (d : Device) (k : Nat) (x : UEnd) : (setEnd d k x).purserEvq = d.purserEvq := rfl
@[simp] theorem setEnd_pendingEv (d : Device) (k : Nat) (x : UEnd) : (setEnd d k x).pendingEv = d.pendingEv := rfl
@[simp] theorem setEnd_quality (d : Device) (k : Nat) (x : UEnd) : (setEnd d k x).quality = d.quality := rfl
@[simp] theorem setEnd_folsa (d : Device) (k : Nat) (x : UEnd) : (setEnd d k x).folsa = d.folsa := rfl
@[simp] theorem setEnd_hub (d : Device) (k : Nat) (x : UEnd) : (setEnd d k x).hub = d.hub := rfl
@[simp] theorem setEnd_od (d : Device) (k : Nat) (x : UEnd) : (setEnd d k x).od = d.od := rfl
@[simp] theorem setEnd_flash (d : Device) (k : Nat) (x : UEnd) : (setEnd d k x).flash = d.flash := rfl
@[simp] theorem setEnd_journal (d : Device) (k : Nat) (x : UEnd) : (setEnd d k x).journal = d.journal := rfl
@[simp] theorem setEnd_sessions (d : Device) (k : Nat) (x : UEnd) : (setEnd d k x).sessions = d.sessions := rfl
@[simp] theorem setEnd_transfers (d : Device) (k : Nat) (x : UEnd) : (setEnd d k x).transfers = d.transfers := rfl
@[simp] theorem setEnd_requests (d : Device) (k : Nat) (x : UEnd) : (setEnd d k x).requests = d.requests := rfl
@[simp] theorem setEnd_responses (d : Device) (k : Nat) (x : UEnd) : (setEnd d k x).responses = d.responses := rfl
@[simp] theorem setEnd_mbx (d : Device) (k : Nat) (x : UEnd) : (setEnd d k x).mbx = d.mbx := rfl
@[simp] theorem setEnd_udpOut (d : Device) (k : Nat) (x : UEnd) : (setEnd d k x).udpOut = d.udpOut := rfl
@[simp] theorem setEnd_arpOut (d : Device) (k : Nat) (x : UEnd) : (setEnd d k x).arpOut = d.arpOut := rfl
@[simp] theorem setEnd_mgmtDiscards (d : Device) (k : Nat) (x : UEnd) : (setEnd d k x).mgmtDiscards = d.mgmtDiscards := rfl
@[simp] theorem setEnd_mctpOut (d : Device) (k : Nat) (x : UEnd) : (setEnd d k x).mctpOut = d.mctpOut := rfl
@[simp] theorem setEnd_mctpControlOut (d : Device) (k : Nat) (x : UEnd) : (setEnd d k x).mctpControlOut = d.mctpControlOut := rfl
@[simp] theorem setEnd_mctpEid (d : Device) (k : Nat) (x : UEnd) : (setEnd d k x).mctpEid = d.mctpEid := rfl
@[simp] theorem setEnd_sfp (d : Device) (k : Nat) (x : UEnd) : (setEnd d k x).sfp = d.sfp := rfl
@[simp] theorem setEnd_pcie (d : Device) (k : Nat) (x : UEnd) : (setEnd d k x).pcie = d.pcie := rfl
@[simp] theorem setEnd_fw (d : Device) (k : Nat) (x : UEnd) : (setEnd d k x).fw = d.fw := rfl
@[simp] theorem setEnd_pps (d : Device) (k : Nat) (x : UEnd) : (setEnd d k x).pps = d.pps := rfl
@[simp] theorem setEnd_power (d : Device) (k : Nat) (x : UEnd) : (setEnd d k x).power = d.power := rfl
@[simp] theorem setEnd_time (d : Device) (k : Nat) (x : UEnd) : (setEnd d k x).time = d.time := rfl
@[simp] theorem setEnd_hostMem (d : Device) (k : Nat) (x : UEnd) : (setEnd d k x).hostMem = d.hostMem := rfl
@[simp] theorem setEnd_moduleHurdles (d : Device) (k : Nat) (x : UEnd) : (setEnd d k x).moduleHurdles = d.moduleHurdles := rfl
@[simp] theorem setEnd_nmi (d : Device) (k : Nat) (x : UEnd) : (setEnd d k x).nmi = d.nmi := rfl
@[simp] theorem setEnd_stallTotals (d : Device) (k : Nat) (x : UEnd) : (setEnd d k x).stallTotals = d.stallTotals := rfl
@[simp] theorem setEnd_sramScrubbed (d : Device) (k : Nat) (x : UEnd) : (setEnd d k x).sramScrubbed = d.sramScrubbed := rfl
@[simp] theorem setEnd_hbmScrubbed (d : Device) (k : Nat) (x : UEnd) : (setEnd d k x).hbmScrubbed = d.hbmScrubbed := rfl
@[simp] theorem setEnd_armed (d : Device) (k : Nat) (x : UEnd) : (setEnd d k x).armed = d.armed := rfl
@[simp] theorem setEnd_drawn (d : Device) (k : Nat) (x : UEnd) : (setEnd d k x).drawn = d.drawn := rfl
@[simp] theorem setEnd_ends (d : Device) (k : Nat) (x : UEnd) : (setEnd d k x).ends = Tab.set d.ends k x := rfl

/-! setStream -/

@[simp] theorem setStream_berths (d : Device) (k : Nat) (x : Stream) : (setStream d k x).berths = d.berths := rfl
@[simp] theorem setStream_links (d : Device) (k : Nat) (x : Stream) : (setStream d k x).links = d.links := rfl
@[simp] theorem setStream_ports (d : Device) (k : Nat) (x : Stream) : (setStream d k x).ports = d.ports := rfl
@[simp] theorem setStream_ends (d : Device) (k : Nat) (x : Stream) : (setStream d k x).ends = d.ends := rfl
@[simp] theorem setStream_toTile (d : Device) (k : Nat) (x : Stream) : (setStream d k x).toTile = d.toTile := rfl
@[simp] theorem setStream_spareUsed (d : Device) (k : Nat) (x : Stream) : (setStream d k x).spareUsed = d.spareUsed := rfl
@[simp] theorem setStream_laneSwitch (d : Device) (k : Nat) (x : Stream) : (setStream d k x).laneSwitch = d.laneSwitch := rfl
@[simp] theorem setStream_queues (d : Device) (k : Nat) (x : Stream) : (setStream d k x).queues = d.queues := rfl
@[simp] theorem setStream_evqs (d : Device) (k : Nat) (x : Stream) : (setStream d k x).evqs = d.evqs := rfl
@[simp] theorem setStream_purserEvq (d : Device) (k : Nat) (x : Stream) : (setStream d k x).purserEvq = d.purserEvq := rfl
@[simp] theorem setStream_pendingEv (d : Device) (k : Nat) (x : Stream) : (setStream d k x).pendingEv = d.pendingEv := rfl
@[simp] theorem setStream_quality (d : Device) (k : Nat) (x : Stream) : (setStream d k x).quality = d.quality := rfl
@[simp] theorem setStream_folsa (d : Device) (k : Nat) (x : Stream) : (setStream d k x).folsa = d.folsa := rfl
@[simp] theorem setStream_hub (d : Device) (k : Nat) (x : Stream) : (setStream d k x).hub = d.hub := rfl
@[simp] theorem setStream_od (d : Device) (k : Nat) (x : Stream) : (setStream d k x).od = d.od := rfl
@[simp] theorem setStream_flash (d : Device) (k : Nat) (x : Stream) : (setStream d k x).flash = d.flash := rfl
@[simp] theorem setStream_journal (d : Device) (k : Nat) (x : Stream) : (setStream d k x).journal = d.journal := rfl
@[simp] theorem setStream_sessions (d : Device) (k : Nat) (x : Stream) : (setStream d k x).sessions = d.sessions := rfl
@[simp] theorem setStream_transfers (d : Device) (k : Nat) (x : Stream) : (setStream d k x).transfers = d.transfers := rfl
@[simp] theorem setStream_requests (d : Device) (k : Nat) (x : Stream) : (setStream d k x).requests = d.requests := rfl
@[simp] theorem setStream_responses (d : Device) (k : Nat) (x : Stream) : (setStream d k x).responses = d.responses := rfl
@[simp] theorem setStream_mbx (d : Device) (k : Nat) (x : Stream) : (setStream d k x).mbx = d.mbx := rfl
@[simp] theorem setStream_udpOut (d : Device) (k : Nat) (x : Stream) : (setStream d k x).udpOut = d.udpOut := rfl
@[simp] theorem setStream_arpOut (d : Device) (k : Nat) (x : Stream) : (setStream d k x).arpOut = d.arpOut := rfl
@[simp] theorem setStream_mgmtDiscards (d : Device) (k : Nat) (x : Stream) : (setStream d k x).mgmtDiscards = d.mgmtDiscards := rfl
@[simp] theorem setStream_mctpOut (d : Device) (k : Nat) (x : Stream) : (setStream d k x).mctpOut = d.mctpOut := rfl
@[simp] theorem setStream_mctpControlOut (d : Device) (k : Nat) (x : Stream) : (setStream d k x).mctpControlOut = d.mctpControlOut := rfl
@[simp] theorem setStream_mctpEid (d : Device) (k : Nat) (x : Stream) : (setStream d k x).mctpEid = d.mctpEid := rfl
@[simp] theorem setStream_sfp (d : Device) (k : Nat) (x : Stream) : (setStream d k x).sfp = d.sfp := rfl
@[simp] theorem setStream_pcie (d : Device) (k : Nat) (x : Stream) : (setStream d k x).pcie = d.pcie := rfl
@[simp] theorem setStream_fw (d : Device) (k : Nat) (x : Stream) : (setStream d k x).fw = d.fw := rfl
@[simp] theorem setStream_pps (d : Device) (k : Nat) (x : Stream) : (setStream d k x).pps = d.pps := rfl
@[simp] theorem setStream_power (d : Device) (k : Nat) (x : Stream) : (setStream d k x).power = d.power := rfl
@[simp] theorem setStream_time (d : Device) (k : Nat) (x : Stream) : (setStream d k x).time = d.time := rfl
@[simp] theorem setStream_hostMem (d : Device) (k : Nat) (x : Stream) : (setStream d k x).hostMem = d.hostMem := rfl
@[simp] theorem setStream_moduleHurdles (d : Device) (k : Nat) (x : Stream) : (setStream d k x).moduleHurdles = d.moduleHurdles := rfl
@[simp] theorem setStream_nmi (d : Device) (k : Nat) (x : Stream) : (setStream d k x).nmi = d.nmi := rfl
@[simp] theorem setStream_stallTotals (d : Device) (k : Nat) (x : Stream) : (setStream d k x).stallTotals = d.stallTotals := rfl
@[simp] theorem setStream_sramScrubbed (d : Device) (k : Nat) (x : Stream) : (setStream d k x).sramScrubbed = d.sramScrubbed := rfl
@[simp] theorem setStream_hbmScrubbed (d : Device) (k : Nat) (x : Stream) : (setStream d k x).hbmScrubbed = d.hbmScrubbed := rfl
@[simp] theorem setStream_armed (d : Device) (k : Nat) (x : Stream) : (setStream d k x).armed = d.armed := rfl
@[simp] theorem setStream_drawn (d : Device) (k : Nat) (x : Stream) : (setStream d k x).drawn = d.drawn := rfl
@[simp] theorem setStream_streams (d : Device) (k : Nat) (x : Stream) : (setStream d k x).streams = Tab.set d.streams k x := rfl

/-! setRing -/

@[simp] theorem setRing_berths (d : Device) (k : Nat) (x : Ring) : (setRing d k x).berths = d.berths := rfl
@[simp] theorem setRing_links (d : Device) (k : Nat) (x : Ring) : (setRing d k x).links = d.links := rfl
@[simp] theorem setRing_ports (d : Device) (k : Nat) (x : Ring) : (setRing d k x).ports = d.ports := rfl
@[simp] theorem setRing_ends (d : Device) (k : Nat) (x : Ring) : (setRing d k x).ends = d.ends := rfl
@[simp] theorem setRing_toTile (d : Device) (k : Nat) (x : Ring) : (setRing d k x).toTile = d.toTile := rfl
@[simp] theorem setRing_spareUsed (d : Device) (k : Nat) (x : Ring) : (setRing d k x).spareUsed = d.spareUsed := rfl
@[simp] theorem setRing_laneSwitch (d : Device) (k : Nat) (x : Ring) : (setRing d k x).laneSwitch = d.laneSwitch := rfl
@[simp] theorem setRing_streams (d : Device) (k : Nat) (x : Ring) : (setRing d k x).streams = d.streams := rfl
@[simp] theorem setRing_evqs (d : Device) (k : Nat) (x : Ring) : (setRing d k x).evqs = d.evqs := rfl
@[simp] theorem setRing_purserEvq (d : Device) (k : Nat) (x : Ring) : (setRing d k x).purserEvq = d.purserEvq := rfl
@[simp] theorem setRing_pendingEv (d : Device) (k : Nat) (x : Ring) : (setRing d k x).pendingEv = d.pendingEv := rfl
@[simp] theorem setRing_quality (d : Device) (k : Nat) (x : Ring) : (setRing d k x).quality = d.quality := rfl
@[simp] theorem setRing_folsa (d : Device) (k : Nat) (x : Ring) : (setRing d k x).folsa = d.folsa := rfl
@[simp] theorem setRing_hub (d : Device) (k : Nat) (x : Ring) : (setRing d k x).hub = d.hub := rfl
@[simp] theorem setRing_od (d : Device) (k : Nat) (x : Ring) : (setRing d k x).od = d.od := rfl
@[simp] theorem setRing_flash (d : Device) (k : Nat) (x : Ring) : (setRing d k x).flash = d.flash := rfl
@[simp] theorem setRing_journal (d : Device) (k : Nat) (x : Ring) : (setRing d k x).journal = d.journal := rfl
@[simp] theorem setRing_sessions (d : Device) (k : Nat) (x : Ring) : (setRing d k x).sessions = d.sessions := rfl
@[simp] theorem setRing_transfers (d : Device) (k : Nat) (x : Ring) : (setRing d k x).transfers = d.transfers := rfl
@[simp] theorem setRing_requests (d : Device) (k : Nat) (x : Ring) : (setRing d k x).requests = d.requests := rfl
@[simp] theorem setRing_responses (d : Device) (k : Nat) (x : Ring) : (setRing d k x).responses = d.responses := rfl
@[simp] theorem setRing_mbx (d : Device) (k : Nat) (x : Ring) : (setRing d k x).mbx = d.mbx := rfl
@[simp] theorem setRing_udpOut (d : Device) (k : Nat) (x : Ring) : (setRing d k x).udpOut = d.udpOut := rfl
@[simp] theorem setRing_arpOut (d : Device) (k : Nat) (x : Ring) : (setRing d k x).arpOut = d.arpOut := rfl
@[simp] theorem setRing_mgmtDiscards (d : Device) (k : Nat) (x : Ring) : (setRing d k x).mgmtDiscards = d.mgmtDiscards := rfl
@[simp] theorem setRing_mctpOut (d : Device) (k : Nat) (x : Ring) : (setRing d k x).mctpOut = d.mctpOut := rfl
@[simp] theorem setRing_mctpControlOut (d : Device) (k : Nat) (x : Ring) : (setRing d k x).mctpControlOut = d.mctpControlOut := rfl
@[simp] theorem setRing_mctpEid (d : Device) (k : Nat) (x : Ring) : (setRing d k x).mctpEid = d.mctpEid := rfl
@[simp] theorem setRing_sfp (d : Device) (k : Nat) (x : Ring) : (setRing d k x).sfp = d.sfp := rfl
@[simp] theorem setRing_pcie (d : Device) (k : Nat) (x : Ring) : (setRing d k x).pcie = d.pcie := rfl
@[simp] theorem setRing_fw (d : Device) (k : Nat) (x : Ring) : (setRing d k x).fw = d.fw := rfl
@[simp] theorem setRing_pps (d : Device) (k : Nat) (x : Ring) : (setRing d k x).pps = d.pps := rfl
@[simp] theorem setRing_power (d : Device) (k : Nat) (x : Ring) : (setRing d k x).power = d.power := rfl
@[simp] theorem setRing_time (d : Device) (k : Nat) (x : Ring) : (setRing d k x).time = d.time := rfl
@[simp] theorem setRing_hostMem (d : Device) (k : Nat) (x : Ring) : (setRing d k x).hostMem = d.hostMem := rfl
@[simp] theorem setRing_moduleHurdles (d : Device) (k : Nat) (x : Ring) : (setRing d k x).moduleHurdles = d.moduleHurdles := rfl
@[simp] theorem setRing_nmi (d : Device) (k : Nat) (x : Ring) : (setRing d k x).nmi = d.nmi := rfl
@[simp] theorem setRing_stallTotals (d : Device) (k : Nat) (x : Ring) : (setRing d k x).stallTotals = d.stallTotals := rfl
@[simp] theorem setRing_sramScrubbed (d : Device) (k : Nat) (x : Ring) : (setRing d k x).sramScrubbed = d.sramScrubbed := rfl
@[simp] theorem setRing_hbmScrubbed (d : Device) (k : Nat) (x : Ring) : (setRing d k x).hbmScrubbed = d.hbmScrubbed := rfl
@[simp] theorem setRing_armed (d : Device) (k : Nat) (x : Ring) : (setRing d k x).armed = d.armed := rfl
@[simp] theorem setRing_drawn (d : Device) (k : Nat) (x : Ring) : (setRing d k x).drawn = d.drawn := rfl
@[simp] theorem setRing_queues (d : Device) (k : Nat) (x : Ring) : (setRing d k x).queues = Tab.set d.queues k x := rfl

/-! setEvq -/

@[simp] theorem setEvq_berths (d : Device) (k : Nat) (x : EventQueue) : (setEvq d k x).berths = d.berths := rfl
@[simp] theorem setEvq_links (d : Device) (k : Nat) (x : EventQueue) : (setEvq d k x).links = d.links := rfl
@[simp] theorem setEvq_ports (d : Device) (k : Nat) (x : EventQueue) : (setEvq d k x).ports = d.ports := rfl
@[simp] theorem setEvq_ends (d : Device) (k : Nat) (x : EventQueue) : (setEvq d k x).ends = d.ends := rfl
@[simp] theorem setEvq_toTile (d : Device) (k : Nat) (x : EventQueue) : (setEvq d k x).toTile = d.toTile := rfl
@[simp] theorem setEvq_spareUsed (d : Device) (k : Nat) (x : EventQueue) : (setEvq d k x).spareUsed = d.spareUsed := rfl
@[simp] theorem setEvq_laneSwitch (d : Device) (k : Nat) (x : EventQueue) : (setEvq d k x).laneSwitch = d.laneSwitch := rfl
@[simp] theorem setEvq_streams (d : Device) (k : Nat) (x : EventQueue) : (setEvq d k x).streams = d.streams := rfl
@[simp] theorem setEvq_queues (d : Device) (k : Nat) (x : EventQueue) : (setEvq d k x).queues = d.queues := rfl
@[simp] theorem setEvq_purserEvq (d : Device) (k : Nat) (x : EventQueue) : (setEvq d k x).purserEvq = d.purserEvq := rfl
@[simp] theorem setEvq_pendingEv (d : Device) (k : Nat) (x : EventQueue) : (setEvq d k x).pendingEv = d.pendingEv := rfl
@[simp] theorem setEvq_quality (d : Device) (k : Nat) (x : EventQueue) : (setEvq d k x).quality = d.quality := rfl
@[simp] theorem setEvq_folsa (d : Device) (k : Nat) (x : EventQueue) : (setEvq d k x).folsa = d.folsa := rfl
@[simp] theorem setEvq_hub (d : Device) (k : Nat) (x : EventQueue) : (setEvq d k x).hub = d.hub := rfl
@[simp] theorem setEvq_od (d : Device) (k : Nat) (x : EventQueue) : (setEvq d k x).od = d.od := rfl
@[simp] theorem setEvq_flash (d : Device) (k : Nat) (x : EventQueue) : (setEvq d k x).flash = d.flash := rfl
@[simp] theorem setEvq_journal (d : Device) (k : Nat) (x : EventQueue) : (setEvq d k x).journal = d.journal := rfl
@[simp] theorem setEvq_sessions (d : Device) (k : Nat) (x : EventQueue) : (setEvq d k x).sessions = d.sessions := rfl
@[simp] theorem setEvq_transfers (d : Device) (k : Nat) (x : EventQueue) : (setEvq d k x).transfers = d.transfers := rfl
@[simp] theorem setEvq_requests (d : Device) (k : Nat) (x : EventQueue) : (setEvq d k x).requests = d.requests := rfl
@[simp] theorem setEvq_responses (d : Device) (k : Nat) (x : EventQueue) : (setEvq d k x).responses = d.responses := rfl
@[simp] theorem setEvq_mbx (d : Device) (k : Nat) (x : EventQueue) : (setEvq d k x).mbx = d.mbx := rfl
@[simp] theorem setEvq_udpOut (d : Device) (k : Nat) (x : EventQueue) : (setEvq d k x).udpOut = d.udpOut := rfl
@[simp] theorem setEvq_arpOut (d : Device) (k : Nat) (x : EventQueue) : (setEvq d k x).arpOut = d.arpOut := rfl
@[simp] theorem setEvq_mgmtDiscards (d : Device) (k : Nat) (x : EventQueue) : (setEvq d k x).mgmtDiscards = d.mgmtDiscards := rfl
@[simp] theorem setEvq_mctpOut (d : Device) (k : Nat) (x : EventQueue) : (setEvq d k x).mctpOut = d.mctpOut := rfl
@[simp] theorem setEvq_mctpControlOut (d : Device) (k : Nat) (x : EventQueue) : (setEvq d k x).mctpControlOut = d.mctpControlOut := rfl
@[simp] theorem setEvq_mctpEid (d : Device) (k : Nat) (x : EventQueue) : (setEvq d k x).mctpEid = d.mctpEid := rfl
@[simp] theorem setEvq_sfp (d : Device) (k : Nat) (x : EventQueue) : (setEvq d k x).sfp = d.sfp := rfl
@[simp] theorem setEvq_pcie (d : Device) (k : Nat) (x : EventQueue) : (setEvq d k x).pcie = d.pcie := rfl
@[simp] theorem setEvq_fw (d : Device) (k : Nat) (x : EventQueue) : (setEvq d k x).fw = d.fw := rfl
@[simp] theorem setEvq_pps (d : Device) (k : Nat) (x : EventQueue) : (setEvq d k x).pps = d.pps := rfl
@[simp] theorem setEvq_power (d : Device) (k : Nat) (x : EventQueue) : (setEvq d k x).power = d.power := rfl
@[simp] theorem setEvq_time (d : Device) (k : Nat) (x : EventQueue) : (setEvq d k x).time = d.time := rfl
@[simp] theorem setEvq_hostMem (d : Device) (k : Nat) (x : EventQueue) : (setEvq d k x).hostMem = d.hostMem := rfl
@[simp] theorem setEvq_moduleHurdles (d : Device) (k : Nat) (x : EventQueue) : (setEvq d k x).moduleHurdles = d.moduleHurdles := rfl
@[simp] theorem setEvq_nmi (d : Device) (k : Nat) (x : EventQueue) : (setEvq d k x).nmi = d.nmi := rfl
@[simp] theorem setEvq_stallTotals (d : Device) (k : Nat) (x : EventQueue) : (setEvq d k x).stallTotals = d.stallTotals := rfl
@[simp] theorem setEvq_sramScrubbed (d : Device) (k : Nat) (x : EventQueue) : (setEvq d k x).sramScrubbed = d.sramScrubbed := rfl
@[simp] theorem setEvq_hbmScrubbed (d : Device) (k : Nat) (x : EventQueue) : (setEvq d k x).hbmScrubbed = d.hbmScrubbed := rfl
@[simp] theorem setEvq_armed (d : Device) (k : Nat) (x : EventQueue) : (setEvq d k x).armed = d.armed := rfl
@[simp] theorem setEvq_drawn (d : Device) (k : Nat) (x : EventQueue) : (setEvq d k x).drawn = d.drawn := rfl
@[simp] theorem setEvq_evqs (d : Device) (k : Nat) (x : EventQueue) : (setEvq d k x).evqs = Tab.set d.evqs k x := rfl

/-! setFolsa -/

@[simp] theorem setFolsa_berths (d : Device) (k : Nat) (x : Folsa) : (setFolsa d k x).berths = d.berths := rfl
@[simp] theorem setFolsa_links (d : Device) (k : Nat) (x : Folsa) : (setFolsa d k x).links = d.links := rfl
@[simp] theorem setFolsa_ports (d : Device) (k : Nat) (x : Folsa) : (setFolsa d k x).ports = d.ports := rfl
@[simp] theorem setFolsa_ends (d : Device) (k : Nat) (x : Folsa) : (setFolsa d k x).ends = d.ends := rfl
@[simp] theorem setFolsa_toTile (d : Device) (k : Nat) (x : Folsa) : (setFolsa d k x).toTile = d.toTile := rfl
@[simp] theorem setFolsa_spareUsed (d : Device) (k : Nat) (x : Folsa) : (setFolsa d k x).spareUsed = d.spareUsed := rfl
@[simp] theorem setFolsa_laneSwitch (d : Device) (k : Nat) (x : Folsa) : (setFolsa d k x).laneSwitch = d.laneSwitch := rfl
@[simp] theorem setFolsa_streams (d : Device) (k : Nat) (x : Folsa) : (setFolsa d k x).streams = d.streams := rfl
@[simp] theorem setFolsa_queues (d : Device) (k : Nat) (x : Folsa) : (setFolsa d k x).queues = d.queues := rfl
@[simp] theorem setFolsa_evqs (d : Device) (k : Nat) (x : Folsa) : (setFolsa d k x).evqs = d.evqs := rfl
@[simp] theorem setFolsa_purserEvq (d : Device) (k : Nat) (x : Folsa) : (setFolsa d k x).purserEvq = d.purserEvq := rfl
@[simp] theorem setFolsa_pendingEv (d : Device) (k : Nat) (x : Folsa) : (setFolsa d k x).pendingEv = d.pendingEv := rfl
@[simp] theorem setFolsa_quality (d : Device) (k : Nat) (x : Folsa) : (setFolsa d k x).quality = d.quality := rfl
@[simp] theorem setFolsa_hub (d : Device) (k : Nat) (x : Folsa) : (setFolsa d k x).hub = d.hub := rfl
@[simp] theorem setFolsa_od (d : Device) (k : Nat) (x : Folsa) : (setFolsa d k x).od = d.od := rfl
@[simp] theorem setFolsa_flash (d : Device) (k : Nat) (x : Folsa) : (setFolsa d k x).flash = d.flash := rfl
@[simp] theorem setFolsa_journal (d : Device) (k : Nat) (x : Folsa) : (setFolsa d k x).journal = d.journal := rfl
@[simp] theorem setFolsa_sessions (d : Device) (k : Nat) (x : Folsa) : (setFolsa d k x).sessions = d.sessions := rfl
@[simp] theorem setFolsa_transfers (d : Device) (k : Nat) (x : Folsa) : (setFolsa d k x).transfers = d.transfers := rfl
@[simp] theorem setFolsa_requests (d : Device) (k : Nat) (x : Folsa) : (setFolsa d k x).requests = d.requests := rfl
@[simp] theorem setFolsa_responses (d : Device) (k : Nat) (x : Folsa) : (setFolsa d k x).responses = d.responses := rfl
@[simp] theorem setFolsa_mbx (d : Device) (k : Nat) (x : Folsa) : (setFolsa d k x).mbx = d.mbx := rfl
@[simp] theorem setFolsa_udpOut (d : Device) (k : Nat) (x : Folsa) : (setFolsa d k x).udpOut = d.udpOut := rfl
@[simp] theorem setFolsa_arpOut (d : Device) (k : Nat) (x : Folsa) : (setFolsa d k x).arpOut = d.arpOut := rfl
@[simp] theorem setFolsa_mgmtDiscards (d : Device) (k : Nat) (x : Folsa) : (setFolsa d k x).mgmtDiscards = d.mgmtDiscards := rfl
@[simp] theorem setFolsa_mctpOut (d : Device) (k : Nat) (x : Folsa) : (setFolsa d k x).mctpOut = d.mctpOut := rfl
@[simp] theorem setFolsa_mctpControlOut (d : Device) (k : Nat) (x : Folsa) : (setFolsa d k x).mctpControlOut = d.mctpControlOut := rfl
@[simp] theorem setFolsa_mctpEid (d : Device) (k : Nat) (x : Folsa) : (setFolsa d k x).mctpEid = d.mctpEid := rfl
@[simp] theorem setFolsa_sfp (d : Device) (k : Nat) (x : Folsa) : (setFolsa d k x).sfp = d.sfp := rfl
@[simp] theorem setFolsa_pcie (d : Device) (k : Nat) (x : Folsa) : (setFolsa d k x).pcie = d.pcie := rfl
@[simp] theorem setFolsa_fw (d : Device) (k : Nat) (x : Folsa) : (setFolsa d k x).fw = d.fw := rfl
@[simp] theorem setFolsa_pps (d : Device) (k : Nat) (x : Folsa) : (setFolsa d k x).pps = d.pps := rfl
@[simp] theorem setFolsa_power (d : Device) (k : Nat) (x : Folsa) : (setFolsa d k x).power = d.power := rfl
@[simp] theorem setFolsa_time (d : Device) (k : Nat) (x : Folsa) : (setFolsa d k x).time = d.time := rfl
@[simp] theorem setFolsa_hostMem (d : Device) (k : Nat) (x : Folsa) : (setFolsa d k x).hostMem = d.hostMem := rfl
@[simp] theorem setFolsa_moduleHurdles (d : Device) (k : Nat) (x : Folsa) : (setFolsa d k x).moduleHurdles = d.moduleHurdles := rfl
@[simp] theorem setFolsa_nmi (d : Device) (k : Nat) (x : Folsa) : (setFolsa d k x).nmi = d.nmi := rfl
@[simp] theorem setFolsa_stallTotals (d : Device) (k : Nat) (x : Folsa) : (setFolsa d k x).stallTotals = d.stallTotals := rfl
@[simp] theorem setFolsa_sramScrubbed (d : Device) (k : Nat) (x : Folsa) : (setFolsa d k x).sramScrubbed = d.sramScrubbed := rfl
@[simp] theorem setFolsa_hbmScrubbed (d : Device) (k : Nat) (x : Folsa) : (setFolsa d k x).hbmScrubbed = d.hbmScrubbed := rfl
@[simp] theorem setFolsa_armed (d : Device) (k : Nat) (x : Folsa) : (setFolsa d k x).armed = d.armed := rfl
@[simp] theorem setFolsa_drawn (d : Device) (k : Nat) (x : Folsa) : (setFolsa d k x).drawn = d.drawn := rfl
@[simp] theorem setFolsa_folsa (d : Device) (k : Nat) (x : Folsa) : (setFolsa d k x).folsa = Tab.set d.folsa k x := rfl

/-! setSfp -/

@[simp] theorem setSfp_berths (d : Device) (k : Nat) (x : SfpPort) : (setSfp d k x).berths = d.berths := rfl
@[simp] theorem setSfp_links (d : Device) (k : Nat) (x : SfpPort) : (setSfp d k x).links = d.links := rfl
@[simp] theorem setSfp_ports (d : Device) (k : Nat) (x : SfpPort) : (setSfp d k x).ports = d.ports := rfl
@[simp] theorem setSfp_ends (d : Device) (k : Nat) (x : SfpPort) : (setSfp d k x).ends = d.ends := rfl
@[simp] theorem setSfp_toTile (d : Device) (k : Nat) (x : SfpPort) : (setSfp d k x).toTile = d.toTile := rfl
@[simp] theorem setSfp_spareUsed (d : Device) (k : Nat) (x : SfpPort) : (setSfp d k x).spareUsed = d.spareUsed := rfl
@[simp] theorem setSfp_laneSwitch (d : Device) (k : Nat) (x : SfpPort) : (setSfp d k x).laneSwitch = d.laneSwitch := rfl
@[simp] theorem setSfp_streams (d : Device) (k : Nat) (x : SfpPort) : (setSfp d k x).streams = d.streams := rfl
@[simp] theorem setSfp_queues (d : Device) (k : Nat) (x : SfpPort) : (setSfp d k x).queues = d.queues := rfl
@[simp] theorem setSfp_evqs (d : Device) (k : Nat) (x : SfpPort) : (setSfp d k x).evqs = d.evqs := rfl
@[simp] theorem setSfp_purserEvq (d : Device) (k : Nat) (x : SfpPort) : (setSfp d k x).purserEvq = d.purserEvq := rfl
@[simp] theorem setSfp_pendingEv (d : Device) (k : Nat) (x : SfpPort) : (setSfp d k x).pendingEv = d.pendingEv := rfl
@[simp] theorem setSfp_quality (d : Device) (k : Nat) (x : SfpPort) : (setSfp d k x).quality = d.quality := rfl
@[simp] theorem setSfp_folsa (d : Device) (k : Nat) (x : SfpPort) : (setSfp d k x).folsa = d.folsa := rfl
@[simp] theorem setSfp_hub (d : Device) (k : Nat) (x : SfpPort) : (setSfp d k x).hub = d.hub := rfl
@[simp] theorem setSfp_od (d : Device) (k : Nat) (x : SfpPort) : (setSfp d k x).od = d.od := rfl
@[simp] theorem setSfp_flash (d : Device) (k : Nat) (x : SfpPort) : (setSfp d k x).flash = d.flash := rfl
@[simp] theorem setSfp_journal (d : Device) (k : Nat) (x : SfpPort) : (setSfp d k x).journal = d.journal := rfl
@[simp] theorem setSfp_sessions (d : Device) (k : Nat) (x : SfpPort) : (setSfp d k x).sessions = d.sessions := rfl
@[simp] theorem setSfp_transfers (d : Device) (k : Nat) (x : SfpPort) : (setSfp d k x).transfers = d.transfers := rfl
@[simp] theorem setSfp_requests (d : Device) (k : Nat) (x : SfpPort) : (setSfp d k x).requests = d.requests := rfl
@[simp] theorem setSfp_responses (d : Device) (k : Nat) (x : SfpPort) : (setSfp d k x).responses = d.responses := rfl
@[simp] theorem setSfp_mbx (d : Device) (k : Nat) (x : SfpPort) : (setSfp d k x).mbx = d.mbx := rfl
@[simp] theorem setSfp_udpOut (d : Device) (k : Nat) (x : SfpPort) : (setSfp d k x).udpOut = d.udpOut := rfl
@[simp] theorem setSfp_arpOut (d : Device) (k : Nat) (x : SfpPort) : (setSfp d k x).arpOut = d.arpOut := rfl
@[simp] theorem setSfp_mgmtDiscards (d : Device) (k : Nat) (x : SfpPort) : (setSfp d k x).mgmtDiscards = d.mgmtDiscards := rfl
@[simp] theorem setSfp_mctpOut (d : Device) (k : Nat) (x : SfpPort) : (setSfp d k x).mctpOut = d.mctpOut := rfl
@[simp] theorem setSfp_mctpControlOut (d : Device) (k : Nat) (x : SfpPort) : (setSfp d k x).mctpControlOut = d.mctpControlOut := rfl
@[simp] theorem setSfp_mctpEid (d : Device) (k : Nat) (x : SfpPort) : (setSfp d k x).mctpEid = d.mctpEid := rfl
@[simp] theorem setSfp_pcie (d : Device) (k : Nat) (x : SfpPort) : (setSfp d k x).pcie = d.pcie := rfl
@[simp] theorem setSfp_fw (d : Device) (k : Nat) (x : SfpPort) : (setSfp d k x).fw = d.fw := rfl
@[simp] theorem setSfp_pps (d : Device) (k : Nat) (x : SfpPort) : (setSfp d k x).pps = d.pps := rfl
@[simp] theorem setSfp_power (d : Device) (k : Nat) (x : SfpPort) : (setSfp d k x).power = d.power := rfl
@[simp] theorem setSfp_time (d : Device) (k : Nat) (x : SfpPort) : (setSfp d k x).time = d.time := rfl
@[simp] theorem setSfp_hostMem (d : Device) (k : Nat) (x : SfpPort) : (setSfp d k x).hostMem = d.hostMem := rfl
@[simp] theorem setSfp_moduleHurdles (d : Device) (k : Nat) (x : SfpPort) : (setSfp d k x).moduleHurdles = d.moduleHurdles := rfl
@[simp] theorem setSfp_nmi (d : Device) (k : Nat) (x : SfpPort) : (setSfp d k x).nmi = d.nmi := rfl
@[simp] theorem setSfp_stallTotals (d : Device) (k : Nat) (x : SfpPort) : (setSfp d k x).stallTotals = d.stallTotals := rfl
@[simp] theorem setSfp_sramScrubbed (d : Device) (k : Nat) (x : SfpPort) : (setSfp d k x).sramScrubbed = d.sramScrubbed := rfl
@[simp] theorem setSfp_hbmScrubbed (d : Device) (k : Nat) (x : SfpPort) : (setSfp d k x).hbmScrubbed = d.hbmScrubbed := rfl
@[simp] theorem setSfp_armed (d : Device) (k : Nat) (x : SfpPort) : (setSfp d k x).armed = d.armed := rfl
@[simp] theorem setSfp_drawn (d : Device) (k : Nat) (x : SfpPort) : (setSfp d k x).drawn = d.drawn := rfl
@[simp] theorem setSfp_sfp (d : Device) (k : Nat) (x : SfpPort) : (setSfp d k x).sfp = Tab.set d.sfp k x := rfl

/-! odPut -/

@[simp] theorem odPut_berths (d : Device) (i s v : Nat) : (odPut d i s v).berths = d.berths := rfl
@[simp] theorem odPut_links (d : Device) (i s v : Nat) : (odPut d i s v).links = d.links := rfl
@[simp] theorem odPut_ports (d : Device) (i s v : Nat) : (odPut d i s v).ports = d.ports := rfl
@[simp] theorem odPut_ends (d : Device) (i s v : Nat) : (odPut d i s v).ends = d.ends := rfl
@[simp] theorem odPut_toTile (d : Device) (i s v : Nat) : (odPut d i s v).toTile = d.toTile := rfl
@[simp] theorem odPut_spareUsed (d : Device) (i s v : Nat) : (odPut d i s v).spareUsed = d.spareUsed := rfl
@[simp] theorem odPut_laneSwitch (d : Device) (i s v : Nat) : (odPut d i s v).laneSwitch = d.laneSwitch := rfl
@[simp] theorem odPut_streams (d : Device) (i s v : Nat) : (odPut d i s v).streams = d.streams := rfl
@[simp] theorem odPut_queues (d : Device) (i s v : Nat) : (odPut d i s v).queues = d.queues := rfl
@[simp] theorem odPut_evqs (d : Device) (i s v : Nat) : (odPut d i s v).evqs = d.evqs := rfl
@[simp] theorem odPut_purserEvq (d : Device) (i s v : Nat) : (odPut d i s v).purserEvq = d.purserEvq := rfl
@[simp] theorem odPut_pendingEv (d : Device) (i s v : Nat) : (odPut d i s v).pendingEv = d.pendingEv := rfl
@[simp] theorem odPut_quality (d : Device) (i s v : Nat) : (odPut d i s v).quality = d.quality := rfl
@[simp] theorem odPut_folsa (d : Device) (i s v : Nat) : (odPut d i s v).folsa = d.folsa := rfl
@[simp] theorem odPut_hub (d : Device) (i s v : Nat) : (odPut d i s v).hub = d.hub := rfl
@[simp] theorem odPut_flash (d : Device) (i s v : Nat) : (odPut d i s v).flash = d.flash := rfl
@[simp] theorem odPut_journal (d : Device) (i s v : Nat) : (odPut d i s v).journal = d.journal := rfl
@[simp] theorem odPut_sessions (d : Device) (i s v : Nat) : (odPut d i s v).sessions = d.sessions := rfl
@[simp] theorem odPut_transfers (d : Device) (i s v : Nat) : (odPut d i s v).transfers = d.transfers := rfl
@[simp] theorem odPut_requests (d : Device) (i s v : Nat) : (odPut d i s v).requests = d.requests := rfl
@[simp] theorem odPut_responses (d : Device) (i s v : Nat) : (odPut d i s v).responses = d.responses := rfl
@[simp] theorem odPut_mbx (d : Device) (i s v : Nat) : (odPut d i s v).mbx = d.mbx := rfl
@[simp] theorem odPut_udpOut (d : Device) (i s v : Nat) : (odPut d i s v).udpOut = d.udpOut := rfl
@[simp] theorem odPut_arpOut (d : Device) (i s v : Nat) : (odPut d i s v).arpOut = d.arpOut := rfl
@[simp] theorem odPut_mgmtDiscards (d : Device) (i s v : Nat) : (odPut d i s v).mgmtDiscards = d.mgmtDiscards := rfl
@[simp] theorem odPut_mctpOut (d : Device) (i s v : Nat) : (odPut d i s v).mctpOut = d.mctpOut := rfl
@[simp] theorem odPut_mctpControlOut (d : Device) (i s v : Nat) : (odPut d i s v).mctpControlOut = d.mctpControlOut := rfl
@[simp] theorem odPut_mctpEid (d : Device) (i s v : Nat) : (odPut d i s v).mctpEid = d.mctpEid := rfl
@[simp] theorem odPut_sfp (d : Device) (i s v : Nat) : (odPut d i s v).sfp = d.sfp := rfl
@[simp] theorem odPut_pcie (d : Device) (i s v : Nat) : (odPut d i s v).pcie = d.pcie := rfl
@[simp] theorem odPut_fw (d : Device) (i s v : Nat) : (odPut d i s v).fw = d.fw := rfl
@[simp] theorem odPut_pps (d : Device) (i s v : Nat) : (odPut d i s v).pps = d.pps := rfl
@[simp] theorem odPut_power (d : Device) (i s v : Nat) : (odPut d i s v).power = d.power := rfl
@[simp] theorem odPut_time (d : Device) (i s v : Nat) : (odPut d i s v).time = d.time := rfl
@[simp] theorem odPut_hostMem (d : Device) (i s v : Nat) : (odPut d i s v).hostMem = d.hostMem := rfl
@[simp] theorem odPut_moduleHurdles (d : Device) (i s v : Nat) : (odPut d i s v).moduleHurdles = d.moduleHurdles := rfl
@[simp] theorem odPut_nmi (d : Device) (i s v : Nat) : (odPut d i s v).nmi = d.nmi := rfl
@[simp] theorem odPut_stallTotals (d : Device) (i s v : Nat) : (odPut d i s v).stallTotals = d.stallTotals := rfl
@[simp] theorem odPut_sramScrubbed (d : Device) (i s v : Nat) : (odPut d i s v).sramScrubbed = d.sramScrubbed := rfl
@[simp] theorem odPut_hbmScrubbed (d : Device) (i s v : Nat) : (odPut d i s v).hbmScrubbed = d.hbmScrubbed := rfl
@[simp] theorem odPut_armed (d : Device) (i s v : Nat) : (odPut d i s v).armed = d.armed := rfl
@[simp] theorem odPut_drawn (d : Device) (i s v : Nat) : (odPut d i s v).drawn = d.drawn := rfl
@[simp] theorem odPut_od (d : Device) (i s v : Nat) : (odPut d i s v).od = Tab.set d.od (256 * i + s) (v % 256 ^ ((odInfo i s).map (·.size)).getD 0) := rfl

/-! report -/

@[simp] theorem report_berths (d : Device) (n : Nat) (blame reporter : U32) (info : Nat) : (report d n blame reporter info).berths = d.berths := rfl
@[simp] theorem report_links (d : Device) (n : Nat) (blame reporter : U32) (info : Nat) : (report d n blame reporter info).links = d.links := rfl
@[simp] theorem report_ports (d : Device) (n : Nat) (blame reporter : U32) (info : Nat) : (report d n blame reporter info).ports = d.ports := rfl
@[simp] theorem report_ends (d : Device) (n : Nat) (blame reporter : U32) (info : Nat) : (report d n blame reporter info).ends = d.ends := rfl
@[simp] theorem report_toTile (d : Device) (n : Nat) (blame reporter : U32) (info : Nat) : (report d n blame reporter info).toTile = d.toTile := rfl
@[simp] theorem report_spareUsed (d : Device) (n : Nat) (blame reporter : U32) (info : Nat) : (report d n blame reporter info).spareUsed = d.spareUsed := rfl
@[simp] theorem report_laneSwitch (d : Device) (n : Nat) (blame reporter : U32) (info : Nat) : (report d n blame reporter info).laneSwitch = d.laneSwitch := rfl
@[simp] theorem report_streams (d : Device) (n : Nat) (blame reporter : U32) (info : Nat) : (report d n blame reporter info).streams = d.streams := rfl
@[simp] theorem report_queues (d : Device) (n : Nat) (blame reporter : U32) (info : Nat) : (report d n blame reporter info).queues = d.queues := rfl
@[simp] theorem report_evqs (d : Device) (n : Nat) (blame reporter : U32) (info : Nat) : (report d n blame reporter info).evqs = d.evqs := rfl
@[simp] theorem report_purserEvq (d : Device) (n : Nat) (blame reporter : U32) (info : Nat) : (report d n blame reporter info).purserEvq = d.purserEvq := rfl
@[simp] theorem report_pendingEv (d : Device) (n : Nat) (blame reporter : U32) (info : Nat) : (report d n blame reporter info).pendingEv = d.pendingEv := rfl
@[simp] theorem report_quality (d : Device) (n : Nat) (blame reporter : U32) (info : Nat) : (report d n blame reporter info).quality = d.quality := rfl
@[simp] theorem report_folsa (d : Device) (n : Nat) (blame reporter : U32) (info : Nat) : (report d n blame reporter info).folsa = d.folsa := rfl
@[simp] theorem report_od (d : Device) (n : Nat) (blame reporter : U32) (info : Nat) : (report d n blame reporter info).od = d.od := rfl
@[simp] theorem report_flash (d : Device) (n : Nat) (blame reporter : U32) (info : Nat) : (report d n blame reporter info).flash = d.flash := rfl
@[simp] theorem report_journal (d : Device) (n : Nat) (blame reporter : U32) (info : Nat) : (report d n blame reporter info).journal = d.journal := rfl
@[simp] theorem report_sessions (d : Device) (n : Nat) (blame reporter : U32) (info : Nat) : (report d n blame reporter info).sessions = d.sessions := rfl
@[simp] theorem report_transfers (d : Device) (n : Nat) (blame reporter : U32) (info : Nat) : (report d n blame reporter info).transfers = d.transfers := rfl
@[simp] theorem report_requests (d : Device) (n : Nat) (blame reporter : U32) (info : Nat) : (report d n blame reporter info).requests = d.requests := rfl
@[simp] theorem report_responses (d : Device) (n : Nat) (blame reporter : U32) (info : Nat) : (report d n blame reporter info).responses = d.responses := rfl
@[simp] theorem report_mbx (d : Device) (n : Nat) (blame reporter : U32) (info : Nat) : (report d n blame reporter info).mbx = d.mbx := rfl
@[simp] theorem report_udpOut (d : Device) (n : Nat) (blame reporter : U32) (info : Nat) : (report d n blame reporter info).udpOut = d.udpOut := rfl
@[simp] theorem report_arpOut (d : Device) (n : Nat) (blame reporter : U32) (info : Nat) : (report d n blame reporter info).arpOut = d.arpOut := rfl
@[simp] theorem report_mgmtDiscards (d : Device) (n : Nat) (blame reporter : U32) (info : Nat) : (report d n blame reporter info).mgmtDiscards = d.mgmtDiscards := rfl
@[simp] theorem report_mctpOut (d : Device) (n : Nat) (blame reporter : U32) (info : Nat) : (report d n blame reporter info).mctpOut = d.mctpOut := rfl
@[simp] theorem report_mctpControlOut (d : Device) (n : Nat) (blame reporter : U32) (info : Nat) : (report d n blame reporter info).mctpControlOut = d.mctpControlOut := rfl
@[simp] theorem report_mctpEid (d : Device) (n : Nat) (blame reporter : U32) (info : Nat) : (report d n blame reporter info).mctpEid = d.mctpEid := rfl
@[simp] theorem report_sfp (d : Device) (n : Nat) (blame reporter : U32) (info : Nat) : (report d n blame reporter info).sfp = d.sfp := rfl
@[simp] theorem report_pcie (d : Device) (n : Nat) (blame reporter : U32) (info : Nat) : (report d n blame reporter info).pcie = d.pcie := rfl
@[simp] theorem report_fw (d : Device) (n : Nat) (blame reporter : U32) (info : Nat) : (report d n blame reporter info).fw = d.fw := rfl
@[simp] theorem report_pps (d : Device) (n : Nat) (blame reporter : U32) (info : Nat) : (report d n blame reporter info).pps = d.pps := rfl
@[simp] theorem report_power (d : Device) (n : Nat) (blame reporter : U32) (info : Nat) : (report d n blame reporter info).power = d.power := rfl
@[simp] theorem report_time (d : Device) (n : Nat) (blame reporter : U32) (info : Nat) : (report d n blame reporter info).time = d.time := rfl
@[simp] theorem report_hostMem (d : Device) (n : Nat) (blame reporter : U32) (info : Nat) : (report d n blame reporter info).hostMem = d.hostMem := rfl
@[simp] theorem report_moduleHurdles (d : Device) (n : Nat) (blame reporter : U32) (info : Nat) : (report d n blame reporter info).moduleHurdles = d.moduleHurdles := rfl
@[simp] theorem report_nmi (d : Device) (n : Nat) (blame reporter : U32) (info : Nat) : (report d n blame reporter info).nmi = d.nmi := rfl
@[simp] theorem report_stallTotals (d : Device) (n : Nat) (blame reporter : U32) (info : Nat) : (report d n blame reporter info).stallTotals = d.stallTotals := rfl
@[simp] theorem report_sramScrubbed (d : Device) (n : Nat) (blame reporter : U32) (info : Nat) : (report d n blame reporter info).sramScrubbed = d.sramScrubbed := rfl
@[simp] theorem report_hbmScrubbed (d : Device) (n : Nat) (blame reporter : U32) (info : Nat) : (report d n blame reporter info).hbmScrubbed = d.hbmScrubbed := rfl
@[simp] theorem report_armed (d : Device) (n : Nat) (blame reporter : U32) (info : Nat) : (report d n blame reporter info).armed = d.armed := rfl
@[simp] theorem report_drawn (d : Device) (n : Nat) (blame reporter : U32) (info : Nat) : (report d n blame reporter info).drawn = d.drawn := rfl
@[simp] theorem report_hub (d : Device) (n : Nat) (blame reporter : U32) (info : Nat) : (report d n blame reporter info).hub = { d.hub with reports := d.hub.reports ++ [{ source := n, time := d.time, blame := blame, reporter := reporter, info := BitVec.ofNat 32 info }] } := rfl

/-! setIq -/

@[simp] theorem setIq_loaded (p : Plane) (n : Nat) (q : InQueue) : (setIq p n q).loaded = p.loaded := rfl
@[simp] theorem setIq_epoch (p : Plane) (n : Nat) (q : InQueue) : (setIq p n q).epoch = p.epoch := rfl
@[simp] theorem setIq_released (p : Plane) (n : Nat) (q : InQueue) : (setIq p n q).released = p.released := rfl
@[simp] theorem setIq_live (p : Plane) (n : Nat) (q : InQueue) : (setIq p n q).live = p.live := rfl
@[simp] theorem setIq_cut (p : Plane) (n : Nat) (q : InQueue) : (setIq p n q).cut = p.cut := rfl
@[simp] theorem setIq_steps (p : Plane) (n : Nat) (q : InQueue) : (setIq p n q).steps = p.steps := rfl
@[simp] theorem setIq_g (p : Plane) (n : Nat) (q : InQueue) : (setIq p n q).g = p.g := rfl
@[simp] theorem setIq_k (p : Plane) (n : Nat) (q : InQueue) : (setIq p n q).k = p.k := rfl
@[simp] theorem setIq_oq (p : Plane) (n : Nat) (q : InQueue) : (setIq p n q).oq = p.oq := rfl
@[simp] theorem setIq_xt (p : Plane) (n : Nat) (q : InQueue) : (setIq p n q).xt = p.xt := rfl
@[simp] theorem setIq_lt (p : Plane) (n : Nat) (q : InQueue) : (setIq p n q).lt = p.lt := rfl
@[simp] theorem setIq_hurdles (p : Plane) (n : Nat) (q : InQueue) : (setIq p n q).hurdles = p.hurdles := rfl
@[simp] theorem setIq_adapt (p : Plane) (n : Nat) (q : InQueue) : (setIq p n q).adapt = p.adapt := rfl
@[simp] theorem setIq_swap (p : Plane) (n : Nat) (q : InQueue) : (setIq p n q).swap = p.swap := rfl
@[simp] theorem setIq_side (p : Plane) (n : Nat) (q : InQueue) : (setIq p n q).side = p.side := rfl
@[simp] theorem setIq_sideBad (p : Plane) (n : Nat) (q : InQueue) : (setIq p n q).sideBad = p.sideBad := rfl
@[simp] theorem setIq_ctx (p : Plane) (n : Nat) (q : InQueue) : (setIq p n q).ctx = p.ctx := rfl
@[simp] theorem setIq_statOpen (p : Plane) (n : Nat) (q : InQueue) : (setIq p n q).statOpen = p.statOpen := rfl
@[simp] theorem setIq_iq (p : Plane) (n : Nat) (q : InQueue) : (setIq p n q).iq = Tab.set p.iq n q := rfl

/-! setOq -/

@[simp] theorem setOq_loaded (p : Plane) (n : Nat) (q : OutQueue) : (setOq p n q).loaded = p.loaded := rfl
@[simp] theorem setOq_epoch (p : Plane) (n : Nat) (q : OutQueue) : (setOq p n q).epoch = p.epoch := rfl
@[simp] theorem setOq_released (p : Plane) (n : Nat) (q : OutQueue) : (setOq p n q).released = p.released := rfl
@[simp] theorem setOq_live (p : Plane) (n : Nat) (q : OutQueue) : (setOq p n q).live = p.live := rfl
@[simp] theorem setOq_cut (p : Plane) (n : Nat) (q : OutQueue) : (setOq p n q).cut = p.cut := rfl
@[simp] theorem setOq_steps (p : Plane) (n : Nat) (q : OutQueue) : (setOq p n q).steps = p.steps := rfl
@[simp] theorem setOq_g (p : Plane) (n : Nat) (q : OutQueue) : (setOq p n q).g = p.g := rfl
@[simp] theorem setOq_k (p : Plane) (n : Nat) (q : OutQueue) : (setOq p n q).k = p.k := rfl
@[simp] theorem setOq_iq (p : Plane) (n : Nat) (q : OutQueue) : (setOq p n q).iq = p.iq := rfl
@[simp] theorem setOq_xt (p : Plane) (n : Nat) (q : OutQueue) : (setOq p n q).xt = p.xt := rfl
@[simp] theorem setOq_lt (p : Plane) (n : Nat) (q : OutQueue) : (setOq p n q).lt = p.lt := rfl
@[simp] theorem setOq_hurdles (p : Plane) (n : Nat) (q : OutQueue) : (setOq p n q).hurdles = p.hurdles := rfl
@[simp] theorem setOq_adapt (p : Plane) (n : Nat) (q : OutQueue) : (setOq p n q).adapt = p.adapt := rfl
@[simp] theorem setOq_swap (p : Plane) (n : Nat) (q : OutQueue) : (setOq p n q).swap = p.swap := rfl
@[simp] theorem setOq_side (p : Plane) (n : Nat) (q : OutQueue) : (setOq p n q).side = p.side := rfl
@[simp] theorem setOq_sideBad (p : Plane) (n : Nat) (q : OutQueue) : (setOq p n q).sideBad = p.sideBad := rfl
@[simp] theorem setOq_ctx (p : Plane) (n : Nat) (q : OutQueue) : (setOq p n q).ctx = p.ctx := rfl
@[simp] theorem setOq_statOpen (p : Plane) (n : Nat) (q : OutQueue) : (setOq p n q).statOpen = p.statOpen := rfl
@[simp] theorem setOq_oq (p : Plane) (n : Nat) (q : OutQueue) : (setOq p n q).oq = Tab.set p.oq n q := rfl

/-! setCtx -/

@[simp] theorem setCtx_loaded (p : Plane) (n : Nat) (x : Context) : (setCtx p n x).loaded = p.loaded := rfl
@[simp] theorem setCtx_epoch (p : Plane) (n : Nat) (x : Context) : (setCtx p n x).epoch = p.epoch := rfl
@[simp] theorem setCtx_released (p : Plane) (n : Nat) (x : Context) : (setCtx p n x).released = p.released := rfl
@[simp] theorem setCtx_live (p : Plane) (n : Nat) (x : Context) : (setCtx p n x).live = p.live := rfl
@[simp] theorem setCtx_cut (p : Plane) (n : Nat) (x : Context) : (setCtx p n x).cut = p.cut := rfl
@[simp] theorem setCtx_steps (p : Plane) (n : Nat) (x : Context) : (setCtx p n x).steps = p.steps := rfl
@[simp] theorem setCtx_g (p : Plane) (n : Nat) (x : Context) : (setCtx p n x).g = p.g := rfl
@[simp] theorem setCtx_k (p : Plane) (n : Nat) (x : Context) : (setCtx p n x).k = p.k := rfl
@[simp] theorem setCtx_iq (p : Plane) (n : Nat) (x : Context) : (setCtx p n x).iq = p.iq := rfl
@[simp] theorem setCtx_oq (p : Plane) (n : Nat) (x : Context) : (setCtx p n x).oq = p.oq := rfl
@[simp] theorem setCtx_xt (p : Plane) (n : Nat) (x : Context) : (setCtx p n x).xt = p.xt := rfl
@[simp] theorem setCtx_lt (p : Plane) (n : Nat) (x : Context) : (setCtx p n x).lt = p.lt := rfl
@[simp] theorem setCtx_hurdles (p : Plane) (n : Nat) (x : Context) : (setCtx p n x).hurdles = p.hurdles := rfl
@[simp] theorem setCtx_adapt (p : Plane) (n : Nat) (x : Context) : (setCtx p n x).adapt = p.adapt := rfl
@[simp] theorem setCtx_swap (p : Plane) (n : Nat) (x : Context) : (setCtx p n x).swap = p.swap := rfl
@[simp] theorem setCtx_side (p : Plane) (n : Nat) (x : Context) : (setCtx p n x).side = p.side := rfl
@[simp] theorem setCtx_sideBad (p : Plane) (n : Nat) (x : Context) : (setCtx p n x).sideBad = p.sideBad := rfl
@[simp] theorem setCtx_statOpen (p : Plane) (n : Nat) (x : Context) : (setCtx p n x).statOpen = p.statOpen := rfl
@[simp] theorem setCtx_ctx (p : Plane) (n : Nat) (x : Context) : (setCtx p n x).ctx = Tab.set p.ctx n x := rfl

/-! regWrite -/

@[simp] theorem regWrite_loaded (p : Plane) (n : Nat) (v : U32) : (regWrite p n v).loaded = p.loaded := rfl
@[simp] theorem regWrite_epoch (p : Plane) (n : Nat) (v : U32) : (regWrite p n v).epoch = p.epoch := rfl
@[simp] theorem regWrite_released (p : Plane) (n : Nat) (v : U32) : (regWrite p n v).released = p.released := rfl
@[simp] theorem regWrite_live (p : Plane) (n : Nat) (v : U32) : (regWrite p n v).live = p.live := rfl
@[simp] theorem regWrite_cut (p : Plane) (n : Nat) (v : U32) : (regWrite p n v).cut = p.cut := rfl
@[simp] theorem regWrite_steps (p : Plane) (n : Nat) (v : U32) : (regWrite p n v).steps = p.steps := rfl
@[simp] theorem regWrite_k (p : Plane) (n : Nat) (v : U32) : (regWrite p n v).k = p.k := rfl
@[simp] theorem regWrite_iq (p : Plane) (n : Nat) (v : U32) : (regWrite p n v).iq = p.iq := rfl
@[simp] theorem regWrite_oq (p : Plane) (n : Nat) (v : U32) : (regWrite p n v).oq = p.oq := rfl
@[simp] theorem regWrite_xt (p : Plane) (n : Nat) (v : U32) : (regWrite p n v).xt = p.xt := rfl
@[simp] theorem regWrite_lt (p : Plane) (n : Nat) (v : U32) : (regWrite p n v).lt = p.lt := rfl
@[simp] theorem regWrite_hurdles (p : Plane) (n : Nat) (v : U32) : (regWrite p n v).hurdles = p.hurdles := rfl
@[simp] theorem regWrite_adapt (p : Plane) (n : Nat) (v : U32) : (regWrite p n v).adapt = p.adapt := rfl
@[simp] theorem regWrite_swap (p : Plane) (n : Nat) (v : U32) : (regWrite p n v).swap = p.swap := rfl
@[simp] theorem regWrite_side (p : Plane) (n : Nat) (v : U32) : (regWrite p n v).side = p.side := rfl
@[simp] theorem regWrite_sideBad (p : Plane) (n : Nat) (v : U32) : (regWrite p n v).sideBad = p.sideBad := rfl
@[simp] theorem regWrite_ctx (p : Plane) (n : Nat) (v : U32) : (regWrite p n v).ctx = p.ctx := rfl
@[simp] theorem regWrite_statOpen (p : Plane) (n : Nat) (v : U32) : (regWrite p n v).statOpen = p.statOpen := rfl
@[simp] theorem regWrite_g (p : Plane) (n : Nat) (v : U32) : (regWrite p n v).g = Tab.set p.g n v := rfl

/-! setPlane -/

@[simp] theorem setPlane_run (t : Tile) (k : Nat) (p : Plane) : (setPlane t k p).run = t.run := rfl
@[simp] theorem setPlane_mem (t : Tile) (k : Nat) (p : Plane) : (setPlane t k p).mem = t.mem := rfl
@[simp] theorem setPlane_ecc (t : Tile) (k : Nat) (p : Plane) : (setPlane t k p).ecc = t.ecc := rfl
@[simp] theorem setPlane_bmMode (t : Tile) (k : Nat) (p : Plane) : (setPlane t k p).bmMode = t.bmMode := rfl
@[simp] theorem setPlane_banks (t : Tile) (k : Nat) (p : Plane) : (setPlane t k p).banks = t.banks := rfl
@[simp] theorem setPlane_csdelta (t : Tile) (k : Nat) (p : Plane) : (setPlane t k p).csdelta = t.csdelta := rfl
@[simp] theorem setPlane_inflight (t : Tile) (k : Nat) (p : Plane) : (setPlane t k p).inflight = t.inflight := rfl
@[simp] theorem setPlane_lastCtx (t : Tile) (k : Nat) (p : Plane) : (setPlane t k p).lastCtx = t.lastCtx := rfl
@[simp] theorem setPlane_correctable (t : Tile) (k : Nat) (p : Plane) : (setPlane t k p).correctable = t.correctable := rfl
@[simp] theorem setPlane_retries (t : Tile) (k : Nat) (p : Plane) : (setPlane t k p).retries = t.retries := rfl
@[simp] theorem setPlane_stall (t : Tile) (k : Nat) (p : Plane) : (setPlane t k p).stall = t.stall := rfl
@[simp] theorem setPlane_stallSeen (t : Tile) (k : Nat) (p : Plane) : (setPlane t k p).stallSeen = t.stallSeen := rfl
@[simp] theorem setPlane_arrival (t : Tile) (k : Nat) (p : Plane) : (setPlane t k p).arrival = t.arrival := rfl
@[simp] theorem setPlane_coreReset (t : Tile) (k : Nat) (p : Plane) : (setPlane t k p).coreReset = t.coreReset := rfl
@[simp] theorem setPlane_relay (t : Tile) (k : Nat) (p : Plane) : (setPlane t k p).relay = t.relay := rfl
@[simp] theorem setPlane_ports (t : Tile) (k : Nat) (p : Plane) : (setPlane t k p).ports = t.ports := rfl
@[simp] theorem setPlane_served (t : Tile) (k : Nat) (p : Plane) : (setPlane t k p).served = t.served := rfl
@[simp] theorem setPlane_outEnabled (t : Tile) (k : Nat) (p : Plane) : (setPlane t k p).outEnabled = t.outEnabled := rfl
@[simp] theorem setPlane_bud (t : Tile) (k : Nat) (p : Plane) : (setPlane t k p).bud = t.bud := rfl
@[simp] theorem setPlane_retention (t : Tile) (k : Nat) (p : Plane) : (setPlane t k p).retention = t.retention := rfl
@[simp] theorem setPlane_issued (t : Tile) (k : Nat) (p : Plane) : (setPlane t k p).issued = t.issued := rfl
@[simp] theorem setPlane_portA (t : Tile) (k : Nat) (p : Plane) : (setPlane t k p).portA = t.portA := rfl
@[simp] theorem setPlane_portB (t : Tile) (k : Nat) (p : Plane) : (setPlane t k p).portB = t.portB := rfl
@[simp] theorem setPlane_planes (t : Tile) (k : Nat) (p : Plane) : (setPlane t k p).planes = Tab.set t.planes k p := rfl

/-! setBank -/

@[simp] theorem setBank_planes (t : Tile) (n : Nat) (b : Bank) : (setBank t n b).planes = t.planes := rfl
@[simp] theorem setBank_run (t : Tile) (n : Nat) (b : Bank) : (setBank t n b).run = t.run := rfl
@[simp] theorem setBank_mem (t : Tile) (n : Nat) (b : Bank) : (setBank t n b).mem = t.mem := rfl
@[simp] theorem setBank_ecc (t : Tile) (n : Nat) (b : Bank) : (setBank t n b).ecc = t.ecc := rfl
@[simp] theorem setBank_bmMode (t : Tile) (n : Nat) (b : Bank) : (setBank t n b).bmMode = t.bmMode := rfl
@[simp] theorem setBank_csdelta (t : Tile) (n : Nat) (b : Bank) : (setBank t n b).csdelta = t.csdelta := rfl
@[simp] theorem setBank_inflight (t : Tile) (n : Nat) (b : Bank) : (setBank t n b).inflight = t.inflight := rfl
@[simp] theorem setBank_lastCtx (t : Tile) (n : Nat) (b : Bank) : (setBank t n b).lastCtx = t.lastCtx := rfl
@[simp] theorem setBank_correctable (t : Tile) (n : Nat) (b : Bank) : (setBank t n b).correctable = t.correctable := rfl
@[simp] theorem setBank_retries (t : Tile) (n : Nat) (b : Bank) : (setBank t n b).retries = t.retries := rfl
@[simp] theorem setBank_stall (t : Tile) (n : Nat) (b : Bank) : (setBank t n b).stall = t.stall := rfl
@[simp] theorem setBank_stallSeen (t : Tile) (n : Nat) (b : Bank) : (setBank t n b).stallSeen = t.stallSeen := rfl
@[simp] theorem setBank_arrival (t : Tile) (n : Nat) (b : Bank) : (setBank t n b).arrival = t.arrival := rfl
@[simp] theorem setBank_coreReset (t : Tile) (n : Nat) (b : Bank) : (setBank t n b).coreReset = t.coreReset := rfl
@[simp] theorem setBank_relay (t : Tile) (n : Nat) (b : Bank) : (setBank t n b).relay = t.relay := rfl
@[simp] theorem setBank_ports (t : Tile) (n : Nat) (b : Bank) : (setBank t n b).ports = t.ports := rfl
@[simp] theorem setBank_served (t : Tile) (n : Nat) (b : Bank) : (setBank t n b).served = t.served := rfl
@[simp] theorem setBank_outEnabled (t : Tile) (n : Nat) (b : Bank) : (setBank t n b).outEnabled = t.outEnabled := rfl
@[simp] theorem setBank_bud (t : Tile) (n : Nat) (b : Bank) : (setBank t n b).bud = t.bud := rfl
@[simp] theorem setBank_retention (t : Tile) (n : Nat) (b : Bank) : (setBank t n b).retention = t.retention := rfl
@[simp] theorem setBank_issued (t : Tile) (n : Nat) (b : Bank) : (setBank t n b).issued = t.issued := rfl
@[simp] theorem setBank_portA (t : Tile) (n : Nat) (b : Bank) : (setBank t n b).portA = t.portA := rfl
@[simp] theorem setBank_portB (t : Tile) (n : Nat) (b : Bank) : (setBank t n b).portB = t.portB := rfl
@[simp] theorem setBank_banks (t : Tile) (n : Nat) (b : Bank) : (setBank t n b).banks = Tab.set t.banks n b := rfl

end Sys2Proof.Machine
end

