-- ==== Sys2Proof/Laws/Ops.lean ====
section
/-! SUPPORT. The shared operations: what reads see after updates, and everything that a command's frame (`onDev`, `guarded`,
`stepCommand`, `strideCommand`) and a step's reads and writes of block memory can do. -/

namespace Sys2Proof.Machine

/-! Reads after the updates of other parts -/

@[simp] theorem linkAt_setBerth (d : Device) (k : Nat) (x : Berth) (n : Nat) : linkAt (setBerth d k x) n = linkAt d n := rfl
@[simp] theorem portAt_setBerth (d : Device) (k : Nat) (x : Berth) (n : Nat) : portAt (setBerth d k x) n = portAt d n := rfl
@[simp] theorem endAt_setBerth (d : Device) (k : Nat) (x : Berth) (n : Nat) : endAt (setBerth d k x) n = endAt d n := rfl
@[simp] theorem streamAt_setBerth (d : Device) (k : Nat) (x : Berth) (n : Nat) : streamAt (setBerth d k x) n = streamAt d n := rfl
@[simp] theorem ringOf_setBerth (d : Device) (k : Nat) (x : Berth) (n : Nat) : ringOf (setBerth d k x) n = ringOf d n := rfl
@[simp] theorem evqAt_setBerth (d : Device) (k : Nat) (x : Berth) (n : Nat) : evqAt (setBerth d k x) n = evqAt d n := rfl
@[simp] theorem folsaAt_setBerth (d : Device) (k : Nat) (x : Berth) (n : Nat) : folsaAt (setBerth d k x) n = folsaAt d n := rfl
@[simp] theorem sfpAt_setBerth (d : Device) (k : Nat) (x : Berth) (n : Nat) : sfpAt (setBerth d k x) n = sfpAt d n := rfl
@[simp] theorem odGet_setBerth (d : Device) (k : Nat) (x : Berth) (i s : Nat) : odGet (setBerth d k x) i s = odGet d i s := rfl
@[simp] theorem physKey_setBerth (d : Device) (k : Nat) (x : Berth) (b col row : Nat) : physKey (setBerth d k x) b col row = physKey d b col row := rfl
@[simp] theorem linkAt_modBerth (d : Device) (k : Nat) (f : Berth → Berth) (n : Nat) : linkAt (modBerth d k f) n = linkAt d n := rfl
@[simp] theorem portAt_modBerth (d : Device) (k : Nat) (f : Berth → Berth) (n : Nat) : portAt (modBerth d k f) n = portAt d n := rfl
@[simp] theorem endAt_modBerth (d : Device) (k : Nat) (f : Berth → Berth) (n : Nat) : endAt (modBerth d k f) n = endAt d n := rfl
@[simp] theorem streamAt_modBerth (d : Device) (k : Nat) (f : Berth → Berth) (n : Nat) : streamAt (modBerth d k f) n = streamAt d n := rfl
@[simp] theorem ringOf_modBerth (d : Device) (k : Nat) (f : Berth → Berth) (n : Nat) : ringOf (modBerth d k f) n = ringOf d n := rfl
@[simp] theorem evqAt_modBerth (d : Device) (k : Nat) (f : Berth → Berth) (n : Nat) : evqAt (modBerth d k f) n = evqAt d n := rfl
@[simp] theorem folsaAt_modBerth (d : Device) (k : Nat) (f : Berth → Berth) (n : Nat) : folsaAt (modBerth d k f) n = folsaAt d n := rfl
@[simp] theorem sfpAt_modBerth (d : Device) (k : Nat) (f : Berth → Berth) (n : Nat) : sfpAt (modBerth d k f) n = sfpAt d n := rfl
@[simp] theorem odGet_modBerth (d : Device) (k : Nat) (f : Berth → Berth) (i s : Nat) : odGet (modBerth d k f) i s = odGet d i s := rfl
@[simp] theorem physKey_modBerth (d : Device) (k : Nat) (f : Berth → Berth) (b col row : Nat) : physKey (modBerth d k f) b col row = physKey d b col row := rfl
@[simp] theorem linkAt_setTile (d : Device) (j l : Nat) (x : Tile) (n : Nat) : linkAt (setTile d j l x) n = linkAt d n := rfl
@[simp] theorem portAt_setTile (d : Device) (j l : Nat) (x : Tile) (n : Nat) : portAt (setTile d j l x) n = portAt d n := rfl
@[simp] theorem endAt_setTile (d : Device) (j l : Nat) (x : Tile) (n : Nat) : endAt (setTile d j l x) n = endAt d n := rfl
@[simp] theorem streamAt_setTile (d : Device) (j l : Nat) (x : Tile) (n : Nat) : streamAt (setTile d j l x) n = streamAt d n := rfl
@[simp] theorem ringOf_setTile (d : Device) (j l : Nat) (x : Tile) (n : Nat) : ringOf (setTile d j l x) n = ringOf d n := rfl
@[simp] theorem evqAt_setTile (d : Device) (j l : Nat) (x : Tile) (n : Nat) : evqAt (setTile d j l x) n = evqAt d n := rfl
@[simp] theorem folsaAt_setTile (d : Device) (j l : Nat) (x : Tile) (n : Nat) : folsaAt (setTile d j l x) n = folsaAt d n := rfl
@[simp] theorem sfpAt_setTile (d : Device) (j l : Nat) (x : Tile) (n : Nat) : sfpAt (setTile d j l x) n = sfpAt d n := rfl
@[simp] theorem odGet_setTile (d : Device) (j l : Nat) (x : Tile) (i s : Nat) : odGet (setTile d j l x) i s = odGet d i s := rfl
@[simp] theorem physKey_setTile (d : Device) (j l : Nat) (x : Tile) (b col row : Nat) : physKey (setTile d j l x) b col row = physKey d b col row := rfl
@[simp] theorem berthAt_setLink (d : Device) (k : Nat) (x : Link) (b : Nat) : berthAt (setLink d k x) b = berthAt d b := rfl
@[simp] theorem tileAt_setLink (d : Device) (k : Nat) (x : Link) (b m : Nat) : tileAt (setLink d k x) b m = tileAt d b m := rfl
@[simp] theorem slotAt_setLink (d : Device) (k : Nat) (x : Link) (b m : Nat) : slotAt (setLink d k x) b m = slotAt d b m := rfl
@[simp] theorem portAt_setLink (d : Device) (k : Nat) (x : Link) (n : Nat) : portAt (setLink d k x) n = portAt d n := rfl
@[simp] theorem endAt_setLink (d : Device) (k : Nat) (x : Link) (n : Nat) : endAt (setLink d k x) n = endAt d n := rfl
@[simp] theorem streamAt_setLink (d : Device) (k : Nat) (x : Link) (n : Nat) : streamAt (setLink d k x) n = streamAt d n := rfl
@[simp] theorem ringOf_setLink (d : Device) (k : Nat) (x : Link) (n : Nat) : ringOf (setLink d k x) n = ringOf d n := rfl
@[simp] theorem evqAt_setLink (d : Device) (k : Nat) (x : Link) (n : Nat) : evqAt (setLink d k x) n = evqAt d n := rfl
@[simp] theorem folsaAt_setLink (d : Device) (k : Nat) (x : Link) (n : Nat) : folsaAt (setLink d k x) n = folsaAt d n := rfl
@[simp] theorem sfpAt_setLink (d : Device) (k : Nat) (x : Link) (n : Nat) : sfpAt (setLink d k x) n = sfpAt d n := rfl
@[simp] theorem odGet_setLink (d : Device) (k : Nat) (x : Link) (i s : Nat) : odGet (setLink d k x) i s = odGet d i s := rfl
@[simp] theorem physKey_setLink (d : Device) (k : Nat) (x : Link) (b col row : Nat) : physKey (setLink d k x) b col row = physKey d b col row := rfl
@[simp] theorem berthAt_setPort (d : Device) (k : Nat) (x : StationPort) (b : Nat) : berthAt (setPort d k x) b = berthAt d b := rfl
@[simp] theorem tileAt_setPort (d : Device) (k : Nat) (x : StationPort) (b m : Nat) : tileAt (setPort d k x) b m = tileAt d b m := rfl
@[simp] theorem slotAt_setPort (d : Device) (k : Nat) (x : StationPort) (b m : Nat) : slotAt (setPort d k x) b m = slotAt d b m := rfl
@[simp] theorem linkAt_setPort (d : Device) (k : Nat) (x : StationPort) (n : Nat) : linkAt (setPort d k x) n = linkAt d n := rfl
@[simp] theorem endAt_setPort (d : Device) (k : Nat) (x : StationPort) (n : Nat) : endAt (setPort d k x) n = endAt d n := rfl
@[simp] theorem streamAt_setPort (d : Device) (k : Nat) (x : StationPort) (n : Nat) : streamAt (setPort d k x) n = streamAt d n := rfl
@[simp] theorem ringOf_setPort (d : Device) (k : Nat) (x : StationPort) (n : Nat) : ringOf (setPort d k x) n = ringOf d n := rfl
@[simp] theorem evqAt_setPort (d : Device) (k : Nat) (x : StationPort) (n : Nat) : evqAt (setPort d k x) n = evqAt d n := rfl
@[simp] theorem folsaAt_setPort (d : Device) (k : Nat) (x : StationPort) (n : Nat) : folsaAt (setPort d k x) n = folsaAt d n := rfl
@[simp] theorem sfpAt_setPort (d : Device) (k : Nat) (x : StationPort) (n : Nat) : sfpAt (setPort d k x) n = sfpAt d n := rfl
@[simp] theorem odGet_setPort (d : Device) (k : Nat) (x : StationPort) (i s : Nat) : odGet (setPort d k x) i s = odGet d i s := rfl
@[simp] theorem physKey_setPort (d : Device) (k : Nat) (x : StationPort) (b col row : Nat) : physKey (setPort d k x) b col row = physKey d b col row := rfl
@[simp] theorem berthAt_setEnd (d : Device) (k : Nat) (x : UEnd) (b : Nat) : berthAt (setEnd d k x) b = berthAt d b := rfl
@[simp] theorem tileAt_setEnd (d : Device) (k : Nat) (x : UEnd) (b m : Nat) : tileAt (setEnd d k x) b m = tileAt d b m := rfl
@[simp] theorem slotAt_setEnd (d : Device) (k : Nat) (x : UEnd) (b m : Nat) : slotAt (setEnd d k x) b m = slotAt d b m := rfl
@[simp] theorem linkAt_setEnd (d : Device) (k : Nat) (x : UEnd) (n : Nat) : linkAt (setEnd d k x) n = linkAt d n := rfl
@[simp] theorem portAt_setEnd (d : Device) (k : Nat) (x : UEnd) (n : Nat) : portAt (setEnd d k x) n = portAt d n := rfl
@[simp] theorem streamAt_setEnd (d : Device) (k : Nat) (x : UEnd) (n : Nat) : streamAt (setEnd d k x) n = streamAt d n := rfl
@[simp] theorem ringOf_setEnd (d : Device) (k : Nat) (x : UEnd) (n : Nat) : ringOf (setEnd d k x) n = ringOf d n := rfl
@[simp] theorem evqAt_setEnd (d : Device) (k : Nat) (x : UEnd) (n : Nat) : evqAt (setEnd d k x) n = evqAt d n := rfl
@[simp] theorem folsaAt_setEnd (d : Device) (k : Nat) (x : UEnd) (n : Nat) : folsaAt (setEnd d k x) n = folsaAt d n := rfl
@[simp] theorem sfpAt_setEnd (d : Device) (k : Nat) (x : UEnd) (n : Nat) : sfpAt (setEnd d k x) n = sfpAt d n := rfl
@[simp] theorem odGet_setEnd (d : Device) (k : Nat) (x : UEnd) (i s : Nat) : odGet (setEnd d k x) i s = odGet d i s := rfl
@[simp] theorem physKey_setEnd (d : Device) (k : Nat) (x : UEnd) (b col row : Nat) : physKey (setEnd d k x) b col row = physKey d b col row := rfl
@[simp] theorem berthAt_setStream (d : Device) (k : Nat) (x : Stream) (b : Nat) : berthAt (setStream d k x) b = berthAt d b := rfl
@[simp] theorem tileAt_setStream (d : Device) (k : Nat) (x : Stream) (b m : Nat) : tileAt (setStream d k x) b m = tileAt d b m := rfl
@[simp] theorem slotAt_setStream (d : Device) (k : Nat) (x : Stream) (b m : Nat) : slotAt (setStream d k x) b m = slotAt d b m := rfl
@[simp] theorem linkAt_setStream (d : Device) (k : Nat) (x : Stream) (n : Nat) : linkAt (setStream d k x) n = linkAt d n := rfl
@[simp] theorem portAt_setStream (d : Device) (k : Nat) (x : Stream) (n : Nat) : portAt (setStream d k x) n = portAt d n := rfl
@[simp] theorem endAt_setStream (d : Device) (k : Nat) (x : Stream) (n : Nat) : endAt (setStream d k x) n = endAt d n := rfl
@[simp] theorem ringOf_setStream (d : Device) (k : Nat) (x : Stream) (n : Nat) : ringOf (setStream d k x) n = ringOf d n := rfl
@[simp] theorem evqAt_setStream (d : Device) (k : Nat) (x : Stream) (n : Nat) : evqAt (setStream d k x) n = evqAt d n := rfl
@[simp] theorem folsaAt_setStream (d : Device) (k : Nat) (x : Stream) (n : Nat) : folsaAt (setStream d k x) n = folsaAt d n := rfl
@[simp] theorem sfpAt_setStream (d : Device) (k : Nat) (x : Stream) (n : Nat) : sfpAt (setStream d k x) n = sfpAt d n := rfl
@[simp] theorem odGet_setStream (d : Device) (k : Nat) (x : Stream) (i s : Nat) : odGet (setStream d k x) i s = odGet d i s := rfl
@[simp] theorem physKey_setStream (d : Device) (k : Nat) (x : Stream) (b col row : Nat) : physKey (setStream d k x) b col row = physKey d b col row := rfl
@[simp] theorem berthAt_setRing (d : Device) (k : Nat) (x : Ring) (b : Nat) : berthAt (setRing d k x) b = berthAt d b := rfl
@[simp] theorem tileAt_setRing (d : Device) (k : Nat) (x : Ring) (b m : Nat) : tileAt (setRing d k x) b m = tileAt d b m := rfl
@[simp] theorem slotAt_setRing (d : Device) (k : Nat) (x : Ring) (b m : Nat) : slotAt (setRing d k x) b m = slotAt d b m := rfl
@[simp] theorem linkAt_setRing (d : Device) (k : Nat) (x : Ring) (n : Nat) : linkAt (setRing d k x) n = linkAt d n := rfl
@[simp] theorem portAt_setRing (d : Device) (k : Nat) (x : Ring) (n : Nat) : portAt (setRing d k x) n = portAt d n := rfl
@[simp] theorem endAt_setRing (d : Device) (k : Nat) (x : Ring) (n : Nat) : endAt (setRing d k x) n = endAt d n := rfl
@[simp] theorem streamAt_setRing (d : Device) (k : Nat) (x : Ring) (n : Nat) : streamAt (setRing d k x) n = streamAt d n := rfl
@[simp] theorem evqAt_setRing (d : Device) (k : Nat) (x : Ring) (n : Nat) : evqAt (setRing d k x) n = evqAt d n := rfl
@[simp] theorem folsaAt_setRing (d : Device) (k : Nat) (x : Ring) (n : Nat) : folsaAt (setRing d k x) n = folsaAt d n := rfl
@[simp] theorem sfpAt_setRing (d : Device) (k : Nat) (x : Ring) (n : Nat) : sfpAt (setRing d k x) n = sfpAt d n := rfl
@[simp] theorem odGet_setRing (d : Device) (k : Nat) (x : Ring) (i s : Nat) : odGet (setRing d k x) i s = odGet d i s := rfl
@[simp] theorem physKey_setRing (d : Device) (k : Nat) (x : Ring) (b col row : Nat) : physKey (setRing d k x) b col row = physKey d b col row := rfl
@[simp] theorem berthAt_setEvq (d : Device) (k : Nat) (x : EventQueue) (b : Nat) : berthAt (setEvq d k x) b = berthAt d b := rfl
@[simp] theorem tileAt_setEvq (d : Device) (k : Nat) (x : EventQueue) (b m : Nat) : tileAt (setEvq d k x) b m = tileAt d b m := rfl
@[simp] theorem slotAt_setEvq (d : Device) (k : Nat) (x : EventQueue) (b m : Nat) : slotAt (setEvq d k x) b m = slotAt d b m := rfl
@[simp] theorem linkAt_setEvq (d : Device) (k : Nat) (x : EventQueue) (n : Nat) : linkAt (setEvq d k x) n = linkAt d n := rfl
@[simp] theorem portAt_setEvq (d : Device) (k : Nat) (x : EventQueue) (n : Nat) : portAt (setEvq d k x) n = portAt d n := rfl
@[simp] theorem endAt_setEvq (d : Device) (k : Nat) (x : EventQueue) (n : Nat) : endAt (setEvq d k x) n = endAt d n := rfl
@[simp] theorem streamAt_setEvq (d : Device) (k : Nat) (x : EventQueue) (n : Nat) : streamAt (setEvq d k x) n = streamAt d n := rfl
@[simp] theorem ringOf_setEvq (d : Device) (k : Nat) (x : EventQueue) (n : Nat) : ringOf (setEvq d k x) n = ringOf d n := rfl
@[simp] theorem folsaAt_setEvq (d : Device) (k : Nat) (x : EventQueue) (n : Nat) : folsaAt (setEvq d k x) n = folsaAt d n := rfl
@[simp] theorem sfpAt_setEvq (d : Device) (k : Nat) (x : EventQueue) (n : Nat) : sfpAt (setEvq d k x) n = sfpAt d n := rfl
@[simp] theorem odGet_setEvq (d : Device) (k : Nat) (x : EventQueue) (i s : Nat) : odGet (setEvq d k x) i s = odGet d i s := rfl
@[simp] theorem physKey_setEvq (d : Device) (k : Nat) (x : EventQueue) (b col row : Nat) : physKey (setEvq d k x) b col row = physKey d b col row := rfl
@[simp] theorem berthAt_setFolsa (d : Device) (k : Nat) (x : Folsa) (b : Nat) : berthAt (setFolsa d k x) b = berthAt d b := rfl
@[simp] theorem tileAt_setFolsa (d : Device) (k : Nat) (x : Folsa) (b m : Nat) : tileAt (setFolsa d k x) b m = tileAt d b m := rfl
@[simp] theorem slotAt_setFolsa (d : Device) (k : Nat) (x : Folsa) (b m : Nat) : slotAt (setFolsa d k x) b m = slotAt d b m := rfl
@[simp] theorem linkAt_setFolsa (d : Device) (k : Nat) (x : Folsa) (n : Nat) : linkAt (setFolsa d k x) n = linkAt d n := rfl
@[simp] theorem portAt_setFolsa (d : Device) (k : Nat) (x : Folsa) (n : Nat) : portAt (setFolsa d k x) n = portAt d n := rfl
@[simp] theorem endAt_setFolsa (d : Device) (k : Nat) (x : Folsa) (n : Nat) : endAt (setFolsa d k x) n = endAt d n := rfl
@[simp] theorem streamAt_setFolsa (d : Device) (k : Nat) (x : Folsa) (n : Nat) : streamAt (setFolsa d k x) n = streamAt d n := rfl
@[simp] theorem ringOf_setFolsa (d : Device) (k : Nat) (x : Folsa) (n : Nat) : ringOf (setFolsa d k x) n = ringOf d n := rfl
@[simp] theorem evqAt_setFolsa (d : Device) (k : Nat) (x : Folsa) (n : Nat) : evqAt (setFolsa d k x) n = evqAt d n := rfl
@[simp] theorem sfpAt_setFolsa (d : Device) (k : Nat) (x : Folsa) (n : Nat) : sfpAt (setFolsa d k x) n = sfpAt d n := rfl
@[simp] theorem odGet_setFolsa (d : Device) (k : Nat) (x : Folsa) (i s : Nat) : odGet (setFolsa d k x) i s = odGet d i s := rfl
@[simp] theorem physKey_setFolsa (d : Device) (k : Nat) (x : Folsa) (b col row : Nat) : physKey (setFolsa d k x) b col row = physKey d b col row := rfl
@[simp] theorem berthAt_setSfp (d : Device) (k : Nat) (x : SfpPort) (b : Nat) : berthAt (setSfp d k x) b = berthAt d b := rfl
@[simp] theorem tileAt_setSfp (d : Device) (k : Nat) (x : SfpPort) (b m : Nat) : tileAt (setSfp d k x) b m = tileAt d b m := rfl
@[simp] theorem slotAt_setSfp (d : Device) (k : Nat) (x : SfpPort) (b m : Nat) : slotAt (setSfp d k x) b m = slotAt d b m := rfl
@[simp] theorem linkAt_setSfp (d : Device) (k : Nat) (x : SfpPort) (n : Nat) : linkAt (setSfp d k x) n = linkAt d n := rfl
@[simp] theorem portAt_setSfp (d : Device) (k : Nat) (x : SfpPort) (n : Nat) : portAt (setSfp d k x) n = portAt d n := rfl
@[simp] theorem endAt_setSfp (d : Device) (k : Nat) (x : SfpPort) (n : Nat) : endAt (setSfp d k x) n = endAt d n := rfl
@[simp] theorem streamAt_setSfp (d : Device) (k : Nat) (x : SfpPort) (n : Nat) : streamAt (setSfp d k x) n = streamAt d n := rfl
@[simp] theorem ringOf_setSfp (d : Device) (k : Nat) (x : SfpPort) (n : Nat) : ringOf (setSfp d k x) n = ringOf d n := rfl
@[simp] theorem evqAt_setSfp (d : Device) (k : Nat) (x : SfpPort) (n : Nat) : evqAt (setSfp d k x) n = evqAt d n := rfl
@[simp] theorem folsaAt_setSfp (d : Device) (k : Nat) (x : SfpPort) (n : Nat) : folsaAt (setSfp d k x) n = folsaAt d n := rfl
@[simp] theorem odGet_setSfp (d : Device) (k : Nat) (x : SfpPort) (i s : Nat) : odGet (setSfp d k x) i s = odGet d i s := rfl
@[simp] theorem physKey_setSfp (d : Device) (k : Nat) (x : SfpPort) (b col row : Nat) : physKey (setSfp d k x) b col row = physKey d b col row := rfl
@[simp] theorem berthAt_odPut (d : Device) (j l v : Nat) (b : Nat) : berthAt (odPut d j l v) b = berthAt d b := rfl
@[simp] theorem tileAt_odPut (d : Device) (j l v : Nat) (b m : Nat) : tileAt (odPut d j l v) b m = tileAt d b m := rfl
@[simp] theorem slotAt_odPut (d : Device) (j l v : Nat) (b m : Nat) : slotAt (odPut d j l v) b m = slotAt d b m := rfl
@[simp] theorem linkAt_odPut (d : Device) (j l v : Nat) (n : Nat) : linkAt (odPut d j l v) n = linkAt d n := rfl
@[simp] theorem portAt_odPut (d : Device) (j l v : Nat) (n : Nat) : portAt (odPut d j l v) n = portAt d n := rfl
@[simp] theorem endAt_odPut (d : Device) (j l v : Nat) (n : Nat) : endAt (odPut d j l v) n = endAt d n := rfl
@[simp] theorem streamAt_odPut (d : Device) (j l v : Nat) (n : Nat) : streamAt (odPut d j l v) n = streamAt d n := rfl
@[simp] theorem ringOf_odPut (d : Device) (j l v : Nat) (n : Nat) : ringOf (odPut d j l v) n = ringOf d n := rfl
@[simp] theorem evqAt_odPut (d : Device) (j l v : Nat) (n : Nat) : evqAt (odPut d j l v) n = evqAt d n := rfl
@[simp] theorem folsaAt_odPut (d : Device) (j l v : Nat) (n : Nat) : folsaAt (odPut d j l v) n = folsaAt d n := rfl
@[simp] theorem sfpAt_odPut (d : Device) (j l v : Nat) (n : Nat) : sfpAt (odPut d j l v) n = sfpAt d n := rfl
@[simp] theorem berthAt_report (d : Device) (j : Nat) (blame reporter : U32) (info : Nat) (b : Nat) : berthAt (report d j blame reporter info) b = berthAt d b := rfl
@[simp] theorem tileAt_report (d : Device) (j : Nat) (blame reporter : U32) (info : Nat) (b m : Nat) : tileAt (report d j blame reporter info) b m = tileAt d b m := rfl
@[simp] theorem slotAt_report (d : Device) (j : Nat) (blame reporter : U32) (info : Nat) (b m : Nat) : slotAt (report d j blame reporter info) b m = slotAt d b m := rfl
@[simp] theorem linkAt_report (d : Device) (j : Nat) (blame reporter : U32) (info : Nat) (n : Nat) : linkAt (report d j blame reporter info) n = linkAt d n := rfl
@[simp] theorem portAt_report (d : Device) (j : Nat) (blame reporter : U32) (info : Nat) (n : Nat) : portAt (report d j blame reporter info) n = portAt d n := rfl
@[simp] theorem endAt_report (d : Device) (j : Nat) (blame reporter : U32) (info : Nat) (n : Nat) : endAt (report d j blame reporter info) n = endAt d n := rfl
@[simp] theorem streamAt_report (d : Device) (j : Nat) (blame reporter : U32) (info : Nat) (n : Nat) : streamAt (report d j blame reporter info) n = streamAt d n := rfl
@[simp] theorem ringOf_report (d : Device) (j : Nat) (blame reporter : U32) (info : Nat) (n : Nat) : ringOf (report d j blame reporter info) n = ringOf d n := rfl
@[simp] theorem evqAt_report (d : Device) (j : Nat) (blame reporter : U32) (info : Nat) (n : Nat) : evqAt (report d j blame reporter info) n = evqAt d n := rfl
@[simp] theorem folsaAt_report (d : Device) (j : Nat) (blame reporter : U32) (info : Nat) (n : Nat) : folsaAt (report d j blame reporter info) n = folsaAt d n := rfl
@[simp] theorem sfpAt_report (d : Device) (j : Nat) (blame reporter : U32) (info : Nat) (n : Nat) : sfpAt (report d j blame reporter info) n = sfpAt d n := rfl
@[simp] theorem odGet_report (d : Device) (j : Nat) (blame reporter : U32) (info : Nat) (i s : Nat) : odGet (report d j blame reporter info) i s = odGet d i s := rfl
@[simp] theorem physKey_report (d : Device) (j : Nat) (blame reporter : U32) (info : Nat) (b col row : Nat) : physKey (report d j blame reporter info) b col row = physKey d b col row := rfl

/-! Reads after an update of the same part -/

@[simp] theorem berthAt_setBerth_same (d : Device) (k : Nat) (x : Berth) : berthAt (setBerth d k x) k = x := Tab.get_set_same _ _ k x
theorem berthAt_setBerth_other (d : Device) {k n : Nat} (x : Berth) (h : n ≠ k) : berthAt (setBerth d k x) n = berthAt d n := Tab.get_set_other _ _ x h
@[simp] theorem linkAt_setLink_same (d : Device) (k : Nat) (x : Link) : linkAt (setLink d k x) k = x := Tab.get_set_same _ _ k x
theorem linkAt_setLink_other (d : Device) {k n : Nat} (x : Link) (h : n ≠ k) : linkAt (setLink d k x) n = linkAt d n := Tab.get_set_other _ _ x h
@[simp] theorem portAt_setPort_same (d : Device) (k : Nat) (x : StationPort) : portAt (setPort d k x) k = x := Tab.get_set_same _ _ k x
theorem portAt_setPort_other (d : Device) {k n : Nat} (x : StationPort) (h : n ≠ k) : portAt (setPort d k x) n = portAt d n := Tab.get_set_other _ _ x h
@[simp] theorem endAt_setEnd_same (d : Device) (k : Nat) (x : UEnd) : endAt (setEnd d k x) k = x := Tab.get_set_same _ _ k x
theorem endAt_setEnd_other (d : Device) {k n : Nat} (x : UEnd) (h : n ≠ k) : endAt (setEnd d k x) n = endAt d n := Tab.get_set_other _ _ x h
@[simp] theorem streamAt_setStream_same (d : Device) (k : Nat) (x : Stream) : streamAt (setStream d k x) k = x := Tab.get_set_same _ _ k x
theorem streamAt_setStream_other (d : Device) {k n : Nat} (x : Stream) (h : n ≠ k) : streamAt (setStream d k x) n = streamAt d n := Tab.get_set_other _ _ x h
@[simp] theorem ringOf_setRing_same (d : Device) (k : Nat) (x : Ring) : ringOf (setRing d k x) k = x := Tab.get_set_same _ _ k x
theorem ringOf_setRing_other (d : Device) {k n : Nat} (x : Ring) (h : n ≠ k) : ringOf (setRing d k x) n = ringOf d n := Tab.get_set_other _ _ x h
@[simp] theorem evqAt_setEvq_same (d : Device) (k : Nat) (x : EventQueue) : evqAt (setEvq d k x) k = x := Tab.get_set_same _ _ k x
theorem evqAt_setEvq_other (d : Device) {k n : Nat} (x : EventQueue) (h : n ≠ k) : evqAt (setEvq d k x) n = evqAt d n := Tab.get_set_other _ _ x h
@[simp] theorem folsaAt_setFolsa_same (d : Device) (k : Nat) (x : Folsa) : folsaAt (setFolsa d k x) k = x := Tab.get_set_same _ _ k x
theorem folsaAt_setFolsa_other (d : Device) {k n : Nat} (x : Folsa) (h : n ≠ k) : folsaAt (setFolsa d k x) n = folsaAt d n := Tab.get_set_other _ _ x h
@[simp] theorem sfpAt_setSfp_same (d : Device) (k : Nat) (x : SfpPort) : sfpAt (setSfp d k x) k = x := Tab.get_set_same _ _ k x
theorem sfpAt_setSfp_other (d : Device) {k n : Nat} (x : SfpPort) (h : n ≠ k) : sfpAt (setSfp d k x) n = sfpAt d n := Tab.get_set_other _ _ x h
@[simp] theorem berthAt_modBerth_same (d : Device) (b : Nat) (f : Berth → Berth) : berthAt (modBerth d b f) b = f (berthAt d b) :=
  berthAt_setBerth_same d b _

theorem berthAt_modBerth_other (d : Device) {b n : Nat} (f : Berth → Berth) (h : n ≠ b) : berthAt (modBerth d b f) n = berthAt d n :=
  berthAt_setBerth_other d _ h

@[simp] theorem tileAt_setTile_same (d : Device) (b k : Nat) (t : Tile) : tileAt (setTile d b k t) b k = t := by
  simp [tileAt, setTile]

theorem tileAt_setTile_other (d : Device) (b : Nat) {k n : Nat} (t : Tile) (h : n ≠ k) : tileAt (setTile d b k t) b n = tileAt d b n := by
  simp [tileAt, setTile, Tab.get_set_other _ _ _ h]

theorem tileAt_setTile_berth (d : Device) {b c : Nat} (k n : Nat) (t : Tile) (h : c ≠ b) : tileAt (setTile d b k t) c n = tileAt d c n := by
  rw [tileAt, setTile, berthAt_modBerth_other _ _ h, tileAt]

/-- A tile update leaves the rest of its berth. -/
theorem berthAt_setTile (d : Device) (b k : Nat) (t : Tile) :
    berthAt (setTile d b k t) b = { berthAt d b with tiles := Tab.set (berthAt d b).tiles k t } := by
  simp [setTile]

@[simp] theorem tileAt_modTile_same (d : Device) (b k : Nat) (f : Tile → Tile) : tileAt (modTile d b k f) b k = f (tileAt d b k) :=
  tileAt_setTile_same d b k _

theorem tileAt_modTile_other (d : Device) (b : Nat) {k n : Nat} (f : Tile → Tile) (h : n ≠ k) : tileAt (modTile d b k f) b n = tileAt d b n :=
  tileAt_setTile_other d b _ h

@[simp] theorem slotAt_setSlot_same (d : Device) (b k : Nat) (x : Slot) : slotAt (setSlot d b k x) b k = x := by
  simp [slotAt, setSlot]

theorem slotAt_setSlot_other (d : Device) (b : Nat) {k n : Nat} (x : Slot) (h : n ≠ k) : slotAt (setSlot d b k x) b n = slotAt d b n := by
  simp [slotAt, setSlot, Tab.get_set_other _ _ _ h]

/-! Object dictionary values -/

@[simp] theorem odGet_odPut_same (d : Device) (i s v : Nat) :
    odGet (odPut d i s v) i s = v % 256 ^ ((odInfo i s).map (·.size)).getD 0 := Tab.get_set_same _ _ _ _

theorem odGet_odPut_other (d : Device) {i s j t : Nat} (v : Nat) (h : 256 * j + t ≠ 256 * i + s) :
    odGet (odPut d i s v) j t = odGet d j t := Tab.get_set_other _ _ _ h

/-- A saturating counter after an addition. -/
theorem odGet_odAdd_same (d : Device) (i s n : Nat) :
    odGet (odAdd d i s n) i s = min (odGet d i s + n) (256 ^ ((odInfo i s).map (·.size)).getD 0 - 1) := by
  have : 0 < 256 ^ ((odInfo i s).map (·.size)).getD 0 := Nat.pow_pos (by norm_num)
  simp only [odAdd, odGet_odPut_same]
  exact Nat.mod_eq_of_lt (by omega)

theorem odGet_odAdd_other (d : Device) {i s j t : Nat} (n : Nat) (h : 256 * j + t ≠ 256 * i + s) :
    odGet (odAdd d i s n) j t = odGet d j t := odGet_odPut_other d _ h

/-- An addition to a counter changes object dictionary values alone. -/
theorem odAdd_frame (d : Device) (i s n : Nat) : ∃ m, odAdd d i s n = { d with od := m } := ⟨_, rfl⟩

/-! Tile records -/

@[simp] theorem iqAt_setIq_same (p : Plane) (n : Nat) (q : InQueue) : iqAt (setIq p n q) n = q := Tab.get_set_same _ _ n q
theorem iqAt_setIq_other (p : Plane) {k n : Nat} (q : InQueue) (h : n ≠ k) : iqAt (setIq p k q) n = iqAt p n := Tab.get_set_other _ _ q h
@[simp] theorem oqAt_setOq_same (p : Plane) (n : Nat) (q : OutQueue) : oqAt (setOq p n q) n = q := Tab.get_set_same _ _ n q
theorem oqAt_setOq_other (p : Plane) {k n : Nat} (q : OutQueue) (h : n ≠ k) : oqAt (setOq p k q) n = oqAt p n := Tab.get_set_other _ _ q h
@[simp] theorem ctxAt_setCtx_same (p : Plane) (n : Nat) (x : Context) : ctxAt (setCtx p n x) n = x := Tab.get_set_same _ _ n x
theorem ctxAt_setCtx_other (p : Plane) {k n : Nat} (x : Context) (h : n ≠ k) : ctxAt (setCtx p k x) n = ctxAt p n := Tab.get_set_other _ _ x h
@[simp] theorem regRead_regWrite_same (p : Plane) (n : Nat) (v : U32) : regRead (regWrite p n v) n = v := Tab.get_set_same _ _ n v
theorem regRead_regWrite_other (p : Plane) {k n : Nat} (v : U32) (h : n ≠ k) : regRead (regWrite p k v) n = regRead p n := Tab.get_set_other _ _ v h
@[simp] theorem planeAt_setPlane_same (t : Tile) (k : Nat) (p : Plane) : planeAt (setPlane t k p) k = p := Tab.get_set_same _ _ k p
theorem planeAt_setPlane_other (t : Tile) {k n : Nat} (p : Plane) (h : n ≠ k) : planeAt (setPlane t k p) n = planeAt t n := Tab.get_set_other _ _ p h
@[simp] theorem bankAt_setBank_same (t : Tile) (n : Nat) (b : Bank) : bankAt (setBank t n b) n = b := Tab.get_set_same _ _ n b
theorem bankAt_setBank_other (t : Tile) {k n : Nat} (b : Bank) (h : n ≠ k) : bankAt (setBank t k b) n = bankAt t n := Tab.get_set_other _ _ b h

/-! The frame of a command -/

@[simp] theorem onDev_eq (f : Device → Device) (s : State) : onDev f s = .next { s with dev := f s.dev } := rfl

theorem guarded_pos {p : Device → Bool} {d : Device} (f : Device → Device) (h : p d = true) : guarded p f d = f d := if_pos h

theorem guarded_neg {p : Device → Bool} {d : Device} (f : Device → Device) (h : p d = false) : guarded p f d = d := by
  simp [guarded, h]

/-- A guarded command has its effect where its condition holds. -/
theorem onDev_guarded_pos {p : Device → Bool} {s : State} (f : Device → Device) (h : p s.dev = true) :
    onDev (guarded p f) s = .next { s with dev := f s.dev } := by rw [onDev_eq, guarded_pos f h]

/-- A guarded command changes nothing where its condition does not hold. -/
theorem onDev_guarded_neg {p : Device → Bool} {s : State} (f : Device → Device) (h : p s.dev = false) :
    onDev (guarded p f) s = .next s := by rw [onDev_eq, guarded_neg f h]

/-- Everything a step command can do: nothing, enter the hold's hurdle, wait, or issue. -/
theorem stepCommand_next {o : Nat} {u : ExecUnit} {mode ready : Xe → Bool} {op : Xe → Option Xe} {t : TileId} {c : Fin 4} {s s' : State}
    (h : stepCommand o u mode ready op t c s = .next s') :
    let b := t.b.val
    let key := keyOf s.dev t
    let x := stepOf s.dev b key c.val
    s' = s ∨
    (headHeld x = true ∧ s' = { s with dev := hurdleStart (noteState s.dev b key c.val .hurdle) b .berth x.pl.adapt.shid }) ∨
    s' = { s with dev := noteState s.dev b key c.val .wait } ∨
    ∃ z, op x = some z ∧ banksOk u z = true ∧ eligible u (berthAt s.dev b).fclk (berthAt s.dev b).droopUntil x = true ∧ ready x = true ∧
      berthLive s.dev b = true ∧ examined x = true ∧ wOpcode x.w = o ∧ headHeld x = false ∧ mode x = true ∧
      inTurn s.dev b key c.val = true ∧ s' = { s with dev := commitStep s.dev b key u x z } := by
  intro b key x
  simp only [stepCommand] at h
  split at h
  · exact .inl (by injection h with h; exact h.symm)
  split at h
  · rename_i hh; exact .inr (.inl ⟨hh, by injection h with h; exact h.symm⟩)
  split at h
  · exact .inr (.inr (.inl (by injection h with h; exact h.symm)))
  split at h
  · cases h
  · rename_i h1 h2 h3 _ z hz
    split at h
    · exact .inr (.inr (.inl (by injection h with h; exact h.symm)))
    split at h
    · rename_i hb ht
      simp only [Bool.not_eq_true', Bool.not_eq_false, Bool.and_eq_true, decide_eq_true_eq, Bool.not_eq_true] at h1 h2 h3 hb
      exact .inr (.inr (.inr ⟨z, hz, hb, h3.1, h3.2, h1.1.1.1.1, h1.1.1.1.2, h1.1.1.2, h2, h1.2, ht,
        by injection h with h; exact h.symm⟩))
    · exact .inl (by injection h with h; exact h.symm)

/-- A step command stops for a reserved field alone. -/
theorem stepCommand_stop {o : Nat} {u : ExecUnit} {mode ready : Xe → Bool} {op : Xe → Option Xe} {t : TileId} {c : Fin 4} {s : State} :
    (∀ f, stepCommand o u mode ready op t c s ≠ .fault f) ∧
    ∀ r, stepCommand o u mode ready op t c s = .refused r → r = .reservedField ∧ op (stepOf s.dev t.b.val (keyOf s.dev t) c.val) = none := by
  constructor
  · intro f h
    simp only [stepCommand] at h
    split_ifs at h <;> split at h <;> first | cases h | (split at h <;> cases h)
  · intro r h
    simp only [stepCommand] at h
    split_ifs at h <;> split at h <;>
      first | (rename_i hz; injection h with h; exact ⟨h.symm, hz⟩) | cases h | (split at h <;> cases h)

/-- What a thread's command does to the configuration of its engine: nothing, or its instruction's effect at the thread's head. -/
theorem issueStride_next {o : Nat} {ready : Device → Se → Bool} {act : Device → Se → Option Device} {b e pt : Nat} {s s' : State}
    (h : issueStride o ready act b e pt s = .next s') :
    s' = s ∨ ∃ d, strideHead o s.dev (seOf s.dev b e pt) = true ∧ ready s.dev (seOf s.dev b e pt) = true ∧
      threadTurn s.dev b e pt = true ∧ act s.dev (seOf s.dev b e pt) = some d ∧ s' = { s with dev := d } := by
  simp only [issueStride] at h
  split at h
  · rename_i hc
    simp only [Bool.and_eq_true] at hc
    split at h
    · cases h
    · rename_i d hd; exact .inr ⟨d, hc.1.1, hc.1.2, hc.2, hd, by injection h with h; exact h.symm⟩
  · exact .inl (by injection h with h; exact h.symm)

/-- A stride instruction stops for a reserved field alone. -/
theorem issueStride_stop {o : Nat} {ready : Device → Se → Bool} {act : Device → Se → Option Device} {b e pt : Nat} {s : State} :
    (∀ f, issueStride o ready act b e pt s ≠ .fault f) ∧
    ∀ r, issueStride o ready act b e pt s = .refused r → r = .reservedField ∧ act s.dev (seOf s.dev b e pt) = none := by
  constructor
  · intro f h
    simp only [issueStride] at h
    split_ifs at h
    split at h <;> cases h
  · intro r h
    simp only [issueStride] at h
    split_ifs at h
    split at h
    · rename_i hd; injection h with h; exact ⟨h.symm, hd⟩
    · cases h

/-- A command of engine e acts on the running configuration, or on the incoming one where the engine has switched. -/
theorem engineSide_next {b e : Nat} {f : State → Host.Outcome State Fault Refusal} {s s' : State} (h : engineSide b e f s = .next s') :
    (engineSwitched s.dev b e = false ∧ f s = .next s') ∨
    (engineSwitched s.dev b e = true ∧ ∃ t, f { s with dev := swapUnits s.dev b } = .next t ∧ s' = { t with dev := swapUnits t.dev b }) := by
  simp only [engineSide] at h
  split at h
  · rename_i hc
    split at h
    · rename_i t ht; exact .inr ⟨hc, t, ht, by injection h with h; exact h.symm⟩
    · rename_i hn; exact absurd h (hn s')
  · rename_i hc
    exact .inl ⟨by simpa using hc, h⟩

/-! A step's reads of block memory -/

/-- What noting a read leaves: the plane, memory, banks and everything a step has gathered but reports and poison. -/
structure SameWork (x y : Xe) : Prop where
  pl : y.pl = x.pl
  c : y.c = x.c
  ctx : y.ctx = x.ctx
  w : y.w = x.w
  out : y.out = x.out
  mem : y.t.mem = x.t.mem
  banks : y.t.banks = x.t.banks
  planes : y.t.planes = x.t.planes
  inflight : y.t.inflight = x.t.inflight
  ecc : y.t.ecc = x.t.ecc
  run : y.t.run = x.t.run

theorem SameWork.refl (x : Xe) : SameWork x x := by constructor <;> rfl

theorem SameWork.trans {x y z : Xe} (h : SameWork x y) (k : SameWork y z) : SameWork x z := by
  constructor
  · rw [k.pl, h.pl]
  · rw [k.c, h.c]
  · rw [k.ctx, h.ctx]
  · rw [k.w, h.w]
  · rw [k.out, h.out]
  · rw [k.mem, h.mem]
  · rw [k.banks, h.banks]
  · rw [k.planes, h.planes]
  · rw [k.inflight, h.inflight]
  · rw [k.ecc, h.ecc]
  · rw [k.run, h.run]

theorem sameWork_foldl {α : Type} (f : Xe → α → Xe) (hf : ∀ x a, SameWork x (f x a)) (as : List α) (x : Xe) : SameWork x (as.foldl f x) := by
  induction as generalizing x with
  | nil => exact .refl x
  | cons a as ih => exact (hf x a).trans (ih (f x a))

theorem sameWork_xRep (x : Xe) (i n : Nat) : SameWork x (xRep x i n) := by constructor <;> rfl
theorem sameWork_xPoison (x : Xe) (p : Bool) : SameWork x (xPoison x p) := by constructor <;> rfl

theorem sameWork_touchGranule (x : Xe) (g : Nat) : SameWork x (touchGranule x g) := by
  simp only [touchGranule]
  split <;> constructor <;> rfl

theorem sameWork_touchSide (x : Xe) (iq slot : Nat) : SameWork x (touchSide x iq slot) := by
  simp only [touchSide]
  split_ifs <;> constructor <;> rfl

theorem sameWork_touchWord (x : Xe) (o : Operand) (i : Int) : SameWork x (touchWord x o i) := by
  have h := (sameWork_touchGranule x (2 * opWord o i)).trans (sameWork_touchGranule _ (2 * opWord o i + 1))
  simp only [touchWord]
  split
  · exact h.trans (sameWork_touchSide _ _ _)
  · exact h

theorem sameWork_touchWords (x : Xe) (o : Operand) (is : List Int) : SameWork x (touchWords x o is) :=
  sameWork_foldl _ (fun x i => sameWork_touchWord x o i) is x

theorem sameWork_touchFront (x : Xe) (iq n : Nat) : SameWork x (touchFront x iq n) :=
  sameWork_foldl _ (fun x _ => ((((sameWork_touchSide x _ _).trans (sameWork_touchGranule _ _)).trans (sameWork_touchGranule _ _)).trans
    (sameWork_touchGranule _ _)).trans (sameWork_touchGranule _ _)) _ x

theorem sameWork_touchSides (x : Xe) (iq n : Nat) : SameWork x (touchSides x iq n) :=
  sameWork_foldl _ (fun y k => sameWork_touchSide y iq (slotOf (iqAt x.pl iq) k)) _ x

/-- A step that looks at its popped tokens changes nothing but its reports and poison. -/
theorem sameWork_readPopped (x : Xe) : SameWork x (readPopped x) := by
  have h := (sameWork_touchSides x (wIqa x.w) (naTokens x)).trans (sameWork_touchSides _ (wIqb x.w) (nbTokens x))
  have k : SameWork x (if bankOpcode (wOpcode x.w) then
      { touchSides (touchSides x (wIqa x.w) (naTokens x)) (wIqb x.w) (nbTokens x) with poison := false }
    else xPoison (touchSides (touchSides x (wIqa x.w) (naTokens x)) (wIqb x.w) (nbTokens x)) (framePoison x)) := by
    split
    · exact ⟨h.pl, h.c, h.ctx, h.w, h.out, h.mem, h.banks, h.planes, h.inflight, h.ecc, h.run⟩
    · exact h.trans (sameWork_xPoison _ _)
  simp only [readPopped]
  split
  · exact (k.trans (sameWork_xPoison _ _)).trans (sameWork_xRep _ _ _)
  · exact k

/-! A step's writes of block memory -/

/-- Port A's note of a write changes no byte and no error. -/
@[simp] theorem portAWrite_mem (x : Xe) (gr : Nat) : (portAWrite x gr).t.mem = x.t.mem := by
  simp only [portAWrite]
  split <;> rfl

@[simp] theorem portAWrite_ecc (x : Xe) (gr : Nat) : (portAWrite x gr).t.ecc = x.t.ecc := by
  simp only [portAWrite]
  split <;> rfl

@[simp] theorem touchGranule_mem (x : Xe) (gr : Nat) : (touchGranule x gr).t.mem = x.t.mem := (sameWork_touchGranule x gr).mem
@[simp] theorem touchGranule_ecc (x : Xe) (gr : Nat) : (touchGranule x gr).t.ecc = x.t.ecc := (sameWork_touchGranule x gr).ecc

/-- A word write changes its 16 bytes. -/
theorem memRead_writeWord (x : Xe) (a v n : Nat) (h : memWf x.t.mem = true) : memRead (writeWord x a v).t.mem n =
    if 16 * a ≤ n ∧ n < 16 * a + 16 then (leBytes 16 v).getD (n - 16 * a) 0 else memRead x.t.mem n := by
  have := memRead_memWriteBytes (16 * a) n (leBytes 16 v) h
  simp only [writeWord, portAWrite_mem]
  rwa [leBytes_length] at this

@[simp] theorem memWf_writeWord (x : Xe) (a v : Nat) (h : memWf x.t.mem = true) : memWf (writeWord x a v).t.mem = true := by
  simp only [writeWord, portAWrite_mem]
  exact memWf_memWriteBytes _ _ h

/-- A granule write changes its 8 bytes. -/
theorem memRead_writeGranule (x : Xe) (gr v n : Nat) (h : memWf x.t.mem = true) : memRead (writeGranule x gr v).t.mem n =
    if 8 * gr ≤ n ∧ n < 8 * gr + 8 then (leBytes 8 v).getD (n - 8 * gr) 0 else memRead x.t.mem n := by
  have := memRead_memWriteBytes (8 * gr) n (leBytes 8 v) h
  simp only [writeGranule, portAWrite_mem]
  rwa [leBytes_length] at this

@[simp] theorem memWf_writeGranule (x : Xe) (gr v : Nat) (h : memWf x.t.mem = true) : memWf (writeGranule x gr v).t.mem = true := by
  simp only [writeGranule, portAWrite_mem]
  exact memWf_memWriteBytes _ _ h

/-- A partial write changes its bytes, or nothing where the granule is uncorrectable (R41). -/
theorem writePart_mem (x : Xe) (a : Nat) (bs : List Byte) : (writePart x a bs).t.mem =
    if Tab.find x.t.ecc (a / 8) = some .double then x.t.mem else memWriteBytes x.t.mem a bs := by
  simp only [writePart, touchGranule_ecc]
  split
  · rename_i he; simp [he]
  · rename_i he
    rw [if_neg he]
    simp

theorem memRead_writePart (x : Xe) (a n : Nat) (bs : List Byte) (h : memWf x.t.mem = true) : memRead (writePart x a bs).t.mem n =
    if a ≤ n ∧ n < a + bs.length ∧ Tab.find x.t.ecc (a / 8) ≠ some .double then bs.getD (n - a) 0 else memRead x.t.mem n := by
  rw [writePart_mem]
  by_cases he : Tab.find x.t.ecc (a / 8) = some .double
  · simp [he]
  · simp only [he, if_false, ne_eq, not_false_eq_true, and_true]
    exact memRead_memWriteBytes a n bs h

@[simp] theorem memWf_writePart (x : Xe) (a : Nat) (bs : List Byte) (h : memWf x.t.mem = true) : memWf (writePart x a bs).t.mem = true := by
  rw [writePart_mem]
  split
  · exact h
  · exact memWf_memWriteBytes _ _ h

@[simp] theorem memWf_writeTokens (x : Xe) (o : Operand) (ts : List OutTok) (h : memWf x.t.mem = true) :
    memWf (writeTokens x o ts).t.mem = true := by
  rw [writeTokens]
  generalize ts.zipIdx = es
  induction es generalizing x with
  | nil => exact h
  | cons e es ih =>
    rw [List.foldl_cons]
    apply ih
    apply memWf_writeWord
    apply memWf_writeWord
    exact h

/-! HBM -/

@[simp] theorem memWf_hbmWriteToken (m : Hbm) (a : Nat) (t : Token) (h : memWf m.mem = true) : memWf (hbmWriteToken m a t).mem = true := by
  simp only [hbmWriteToken, memWf_memWriteNat, h]

@[simp] theorem memWf_hbmWriteBytes (m : Hbm) (a : Nat) (bs : List Byte) (h : memWf m.mem = true) : memWf (hbmWriteBytes m a bs).mem = true :=
  memWf_memWriteBytes _ _ h

/-- A token written to HBM is read back with its sideband (R241). -/
theorem hbmToken_hbmWriteToken_same (m : Hbm) (a : Nat) (t : Token) (h : memWf m.mem = true) (hs : t.sb ≠ {}) :
    hbmToken (hbmWriteToken m a t) a = t := by
  simp only [hbmToken, hbmWriteToken, if_neg hs, memReadNat_memWriteNat _ _ _ h, Tab.get_set_same]
  have : t.data.toNat % 256 ^ 32 = t.data.toNat := Nat.mod_eq_of_lt (by rw [show (256 : Nat) ^ 32 = 2 ^ 256 by norm_num]; exact t.data.isLt)
  rw [this, BitVec.ofNat_toNat, BitVec.setWidth_eq]

/-! Discard records -/

/-- A discard record changes the discard log and its counter alone, and nothing where it counts no item (R235). -/
theorem addDiscard_frame (d : Device) (r : Discard) : ∃ m l, addDiscard d r = { d with od := m, hub := { d.hub with discards := l } } := by
  simp only [addDiscard]
  split
  · exact ⟨d.od, d.hub.discards, rfl⟩
  · exact ⟨_, _, rfl⟩

end Sys2Proof.Machine
end

