-- ==== Sys2Proof/Laws/Device.lean ====
section
/-! SUPPORT. The shared operations of the device: the parts of the module that each one changes. -/

namespace Sys2Proof.Machine

/-- Berths alone differ. -/
def OnlyBerths (d e : Device) : Prop := ∃ m, e = { d with berths := m }

/-- Object dictionary values alone differ. -/
def OnlyOd (d e : Device) : Prop := ∃ m, e = { d with od := m }

/-- Berths, object dictionary values and the fault hub alone differ. -/
def OnlyCore (d e : Device) : Prop := ∃ m o h, e = { d with berths := m, od := o, hub := h }

theorem OnlyBerths.refl (d : Device) : OnlyBerths d d := ⟨d.berths, rfl⟩
theorem OnlyOd.refl (d : Device) : OnlyOd d d := ⟨d.od, rfl⟩
theorem OnlyCore.refl (d : Device) : OnlyCore d d := ⟨d.berths, d.od, d.hub, rfl⟩

theorem OnlyBerths.trans {a b c : Device} (h : OnlyBerths a b) (k : OnlyBerths b c) : OnlyBerths a c := by
  obtain ⟨m, rfl⟩ := h
  obtain ⟨n, rfl⟩ := k
  exact ⟨n, rfl⟩

theorem OnlyOd.trans {a b c : Device} (h : OnlyOd a b) (k : OnlyOd b c) : OnlyOd a c := by
  obtain ⟨m, rfl⟩ := h
  obtain ⟨n, rfl⟩ := k
  exact ⟨n, rfl⟩

theorem OnlyCore.trans {a b c : Device} (h : OnlyCore a b) (k : OnlyCore b c) : OnlyCore a c := by
  obtain ⟨m, o, u, rfl⟩ := h
  obtain ⟨n, p, v, rfl⟩ := k
  exact ⟨n, p, v, rfl⟩

theorem OnlyBerths.core {d e : Device} (h : OnlyBerths d e) : OnlyCore d e := by
  obtain ⟨m, rfl⟩ := h
  exact ⟨m, d.od, d.hub, rfl⟩

theorem OnlyOd.core {d e : Device} (h : OnlyOd d e) : OnlyCore d e := by
  obtain ⟨m, rfl⟩ := h
  exact ⟨d.berths, m, d.hub, rfl⟩

theorem OnlyBerths.foldl {α : Type} {f : Device → α → Device} (hf : ∀ d a, OnlyBerths d (f d a)) (as : List α) (d : Device) :
    OnlyBerths d (as.foldl f d) := by
  induction as generalizing d with
  | nil => exact .refl d
  | cons a as ih => exact (hf d a).trans (ih (f d a))

theorem OnlyOd.foldl {α : Type} {f : Device → α → Device} (hf : ∀ d a, OnlyOd d (f d a)) (as : List α) (d : Device) :
    OnlyOd d (as.foldl f d) := by
  induction as generalizing d with
  | nil => exact .refl d
  | cons a as ih => exact (hf d a).trans (ih (f d a))

theorem OnlyCore.foldl {α : Type} {f : Device → α → Device} (hf : ∀ d a, OnlyCore d (f d a)) (as : List α) (d : Device) :
    OnlyCore d (as.foldl f d) := by
  induction as generalizing d with
  | nil => exact .refl d
  | cons a as ih => exact (hf d a).trans (ih (f d a))

/-! Berth state -/

theorem onlyBerths_modBerth (d : Device) (b : Nat) (f : Berth → Berth) : OnlyBerths d (modBerth d b f) := ⟨_, rfl⟩
theorem onlyBerths_setTile (d : Device) (b k : Nat) (t : Tile) : OnlyBerths d (setTile d b k t) := ⟨_, rfl⟩
theorem onlyBerths_modTile (d : Device) (b k : Nat) (f : Tile → Tile) : OnlyBerths d (modTile d b k f) := ⟨_, rfl⟩
theorem onlyBerths_setSlot (d : Device) (b k : Nat) (x : Slot) : OnlyBerths d (setSlot d b k x) := ⟨_, rfl⟩
theorem onlyBerths_setCo (d : Device) (b : Nat) (c : Changeover) : OnlyBerths d (setCo d b c) := ⟨_, rfl⟩
theorem onlyBerths_setRepair (d : Device) (b : Nat) (r : Repair) : OnlyBerths d (setRepair d b r) := ⟨_, rfl⟩
theorem onlyBerths_modAdapt (d : Device) (b : Nat) (f : Adapt → Adapt) : OnlyBerths d (modAdapt d b f) := ⟨_, rfl⟩
theorem onlyBerths_noteState (d : Device) (b key c : Nat) (st : CtxState) : OnlyBerths d (noteState d b key c st) := ⟨_, rfl⟩

theorem onlyBerths_mapPlanes (d : Device) (b k : Nat) (f : Plane → Plane) : OnlyBerths d (mapPlanes d b k f) :=
  .foldl (fun d key => onlyBerths_modTile d b key _) _ d

theorem onlyBerths_loadSlotTiles (d : Device) (b k : Nat) (img : Image) : OnlyBerths d (loadSlotTiles d b k img) :=
  .foldl (fun d _ => onlyBerths_modTile d b _ _) _ d

/-- A context's state is noted in its own context alone. -/
theorem ctx_noteState (d : Device) (b key c n : Nat) (st : CtxState) :
    let t := tileAt d b key
    let u := tileAt (noteState d b key c st) b key
    u.mem = t.mem ∧ u.run = t.run ∧
      ctxAt (planeAt u u.run) n = if n = c then { ctxAt (planeAt t t.run) c with state := st } else ctxAt (planeAt t t.run) n := by
  intro t u
  have hu : u = setPlane t t.run (setCtx (planeAt t t.run) c { ctxAt (planeAt t t.run) c with state := st }) :=
    tileAt_modTile_same d b key _
  rw [hu]
  refine ⟨rfl, rfl, ?_⟩
  rw [setPlane_run, planeAt_setPlane_same]
  split
  · subst_vars; exact ctxAt_setCtx_same _ _ _
  · exact ctxAt_setCtx_other _ _ ‹_›

/-! Object dictionary -/

theorem onlyOd_odPut (d : Device) (i s v : Nat) : OnlyOd d (odPut d i s v) := ⟨_, rfl⟩
theorem onlyOd_odAdd (d : Device) (i s n : Nat) : OnlyOd d (odAdd d i s n) := ⟨_, rfl⟩
theorem onlyOd_berthCount (d : Device) (b sub n : Nat) : OnlyOd d (berthCount d b sub n) := ⟨_, rfl⟩
theorem onlyOd_setBstate (d : Device) (b v : Nat) : OnlyOd d (setBstate d b v) := ⟨_, rfl⟩
theorem onlyOd_setCause (d : Device) (bits berths : Nat) : OnlyOd d (setCause d bits berths) := ⟨_, rfl⟩
theorem onlyOd_putSetpoints (d : Device) (f : Nat) : OnlyOd d (putSetpoints d f) := .foldl (fun d _ => onlyOd_odPut d _ _ _) _ d
theorem onlyOd_odReset (p : Nat → Nat → OdRow → Bool) (d : Device) : OnlyOd d (odReset p d) := ⟨_, rfl⟩

/-! Reports -/

theorem onlyCore_report (d : Device) (n : Nat) (blame reporter : U32) (info : Nat) : OnlyCore d (report d n blame reporter info) := ⟨_, _, _, rfl⟩
theorem onlyCore_berthReport (d : Device) (b i : Nat) (blame reporter : U32) (info : Nat) : OnlyCore d (berthReport d b i blame reporter info) := ⟨_, _, _, rfl⟩

theorem onlyCore_closeRecord (d : Device) (seq : Nat) (f : FaultRec → FaultRec) : OnlyCore d (closeRecord d seq f) := ⟨_, _, _, rfl⟩

theorem onlyCore_addDiscard (d : Device) (r : Discard) : OnlyCore d (addDiscard d r) := by
  obtain ⟨m, l, h⟩ := addDiscard_frame d r
  exact ⟨d.berths, m, _, h⟩

theorem onlyCore_levelCondition (d : Device) (source : Nat) (holds : Bool) (blame : U32) : OnlyCore d (levelCondition d source holds blame) := by
  simp only [levelCondition]
  split
  · exact ⟨_, _, _, rfl⟩
  · split
    · exact ⟨_, _, _, rfl⟩
    · exact .refl d

/-- A level condition is set where it holds and released where it does not. -/
theorem levelCondition_level (d : Device) (source : Nat) (holds : Bool) (blame : U32) :
    source ∈ (levelCondition d source holds blame).hub.level ↔ holds = true := by
  cases holds <;> simp only [levelCondition, Bool.false_and, Bool.true_and, Bool.not_false, Bool.not_true]
  · simp
  · split
    · simp
    · simp_all

/-- Noting an HBM token's errors reports them and changes nothing else (R241). -/
theorem onlyCore_hbmNote (d : Device) (b a : Nat) : OnlyCore d (hbmNote d b a) := by
  simp only [hbmNote]
  split <;> split <;> first | exact .refl d | exact ⟨_, _, _, rfl⟩

/-- A step's reports, counters, mirror writes and posts leave every other part of the module alone. -/
theorem onlyCore_stepEffects (d : Device) (b key : Nat) (x : Xe) : OnlyCore d (stepEffects d b key x) := by
  rw [stepEffects]
  exact (((OnlyCore.foldl (fun d _ => onlyCore_berthReport d _ _ _ _ _) _ d).trans
    (OnlyCore.foldl (fun d _ => (onlyOd_berthCount d _ _ _).core) _ _)).trans
    (OnlyCore.foldl (fun d _ => (onlyOd_odAdd d _ _ _).core) _ _)).trans (onlyBerths_modBerth _ _ _).core

/-- A self-test's new spare map changes berths, object dictionary values and reports, and draws one free value. -/
theorem rebuildSpares_frame (d : Device) (b : Nat) : ∃ e, OnlyCore d e ∧ rebuildSpares d b = { e with drawn := d.drawn + 1 } := by
  rw [rebuildSpares]
  refine ⟨_, OnlyCore.foldl (fun d c => ?_) _ d, rfl⟩
  dsimp only
  split
  · exact ⟨_, _, _, rfl⟩
  · exact ⟨_, _, _, rfl⟩

/-! Resets (Table 18-7) -/

theorem onlyOd_listRestored (d : Device) (i s : Nat) : OnlyOd d (listRestored d i s) := by
  rw [listRestored]
  split <;> exact ⟨_, rfl⟩

/-- A start's reading of the flash takes the damaged class P records away, draws one free value and writes nothing else but object
dictionary values (R403). -/
theorem readFlash_frame (d : Device) : ∃ e, OnlyOd d e ∧ readFlash d =
    { e with
      flash := d.flash.filter (fun e => !((d.flash.filter (fun e => classP e.1 && Config.flashDamaged e.1 d.drawn)).map (·.1)).contains e.1)
      drawn := d.drawn + 1 } := by
  simp only [readFlash]
  split
  · exact ⟨d, .refl d, rfl⟩
  · obtain ⟨o, h⟩ := (onlyOd_setCause { d with
        flash := d.flash.filter (fun e => !((d.flash.filter (fun e => classP e.1 && Config.flashDamaged e.1 d.drawn)).map (·.1)).contains e.1)
        drawn := d.drawn + 1 } 256 0).trans
      (OnlyOd.foldl (fun d k => (onlyOd_odPut d _ _ _).trans (onlyOd_listRestored _ (k / 256) (k % 256)))
        ((d.flash.filter (fun e => classP e.1 && Config.flashDamaged e.1 d.drawn)).map (·.1)) _)
    rw [h]
    exact ⟨{ d with od := o }, ⟨o, rfl⟩, rfl⟩

/-- What every module reset keeps. -/
theorem resetModule_keeps (kt kr : Bool) (d : Device) :
    (resetModule kt kr d).flash = d.flash ∧ (resetModule kt kr d).hostMem = d.hostMem ∧ (resetModule kt kr d).pcie = d.pcie ∧
      (resetModule kt kr d).time = (if kt then d.time else 0) ∧ (resetModule kt kr d).berths = [] ∧ (resetModule kt kr d).streams = [] ∧
      (resetModule kt kr d).queues = [] ∧ (resetModule kt kr d).sessions = [] ∧ (resetModule kt kr d).hub = {} := ⟨rfl, rfl, rfl, rfl, rfl, rfl, rfl, rfl, rfl⟩

/-! Queues (R354, R371) -/

/-- An offer counts its item once: as published or as dropped, with the next item sequence number. -/
theorem ringOffer_iseq (r : Ring) (entries ebytes : Nat) (up room : Bool) (item : List Byte) (key : U64) :
    (ringOffer r entries ebytes up room item key).1.iseq = r.iseq + 1 := by
  simp only [ringOffer]
  split <;> rfl

/-- A dropped offer publishes no entry, and a published one leaves no gap behind. -/
theorem ringOffer_cases (r : Ring) (entries ebytes : Nat) (up room : Bool) (item : List Byte) (key : U64) :
    (let o := ringOffer r entries ebytes up room item key
     o.1.dropped = r.dropped ∧ o.1.gaps = [] ∧ o.1.items = satAdd top64 r.items 1 ∧
       o.2 = r.gaps.map (gapEntry ebytes) ++ itemEntries ebytes item) ∨
    (let o := ringOffer r entries ebytes up room item key
     o.1.dropped = satAdd top64 r.dropped 1 ∧ o.1.items = r.items ∧ o.2 = []) := by
  simp only [ringOffer]
  split
  · exact .inl ⟨rfl, rfl, rfl, rfl⟩
  · exact .inr ⟨rfl, rfl, rfl⟩

/-- Publishing moves the producer index and its copy by the entries published. -/
theorem ringPublish_pi (entries : Nat) (keep : Bool) (key : Nat) (es : List (Nat × List Byte)) (r : Ring) (h : r.piCopy = r.pi) :
    (ringPublish r entries keep key es).pi = r.pi + BitVec.ofNat 32 es.length ∧
      (ringPublish r entries keep key es).piCopy = (ringPublish r entries keep key es).pi := by
  induction es generalizing r with
  | nil => simp [ringPublish, h]
  | cons e es ih =>
    obtain ⟨fl, bs⟩ := e
    simp only [ringPublish]
    refine ⟨?_, (ih _ rfl).2⟩
    rw [(ih _ rfl).1]
    simp only [setPi, List.length_cons]
    rw [BitVec.add_assoc]
    congr 1
    rw [Nat.add_comm, BitVec.ofNat_add]
    rfl

end Sys2Proof.Machine
end

