-- ==== Sys2Proof/Tests/Slice0.lean ====
section
/-! SUPPORT. Tests: that the hypotheses of every statement can be met, the well-formedness check, and small cases from the
specification. -/

set_option Elab.async false

namespace Sys2Proof.Tests

open Sys2Proof Sys2Proof.Machine

/-! Tile steps -/

/-- A module whose rails are up, with one tile of berth 0 at column 0, row 0. -/
def withTile (t : Tile) : State :=
  { State.reset with dev := { State.reset.dev with
      power := { fabric := true }
      berths := [(0, { tiles := [(0, t)] })] } }

def tile0 : TileId := ⟨0, 0, 0⟩

/-- A tile whose context 0 is READY at step 0, which holds `w`. -/
def stepTile (w : BitVec 128) : Tile := { planes := [(0, { steps := [(0, w)], ctx := [(0, { state := .ready })] })] }

/-- The operand fields of a word of each form: submode bits, and values that the tables do not reserve. -/
def formBits (f : StepForm) : Nat :=
  if f.opcode = 0x24 then 2 ^ 51
  else if f.opcode = 0x33 then 2 ^ 26
  else if f.opcode = 0x07 then 0
  else if f.mode { t := {}, pl := {}, c := 0, ctx := {}, w := 0 } then 0
  else if f.mode { t := {}, pl := {}, c := 0, ctx := {}, w := BitVec.ofNat 128 (2 ^ 49) } then 2 ^ 49
  else if f.mode { t := {}, pl := {}, c := 0, ctx := {}, w := BitVec.ofNat 128 (2 ^ 50) } then 2 ^ 50
  else if f.mode { t := {}, pl := {}, c := 0, ctx := {}, w := BitVec.ofNat 128 (2 ^ 51) } then 2 ^ 51
  else 2 ^ 51 + 2 ^ 50

/-- A state in which the head step of context 0 is of form f: a scale token is at the front of queue 0, and the query record at block
memory 0 has SDEFAULT = 1.0; XFORM and ROTW pop a masked token. -/
def formState (f : StepForm) : State :=
  let long := f.opcode = 0x2C || f.opcode = 0x24
  withTile
    { planes := [(0,
        { steps := [(0, BitVec.ofNat 128 (f.opcode + formBits f + if long then 2 ^ 99 else 0))]
          ctx := [(0, { state := .ready })]
          iq := [(0, { occ := 1 })]
          side := [(0, { s := !long })] })]
      mem := [(30, 0x80), (31, 0x3F)] }

theorem test_formBits : ∀ f ∈ stepForms, wOpcode (BitVec.ofNat 128 (f.opcode + formBits f)) = f.opcode := by decide +kernel

theorem test_hyps_TileStepIssues_plain : ∀ f ∈ plainForms, f.Heads tile0 0 (formState f) ∧ f.CanIssue tile0 0 (formState f) ∧
    InTurn tile0 0 (formState f) ∧ ((f.op (headWork (formState f) tile0 0)).map (banksOk f.unit)) = some true := by
  unfold StepForm.Heads StepForm.CanIssue InTurn; decide +kernel

theorem test_hyps_TileStepIssues_scale : ∀ f ∈ scaleForms, f.Heads tile0 0 (formState f) ∧ f.CanIssue tile0 0 (formState f) ∧
    InTurn tile0 0 (formState f) ∧ ((f.op (headWork (formState f) tile0 0)).map (banksOk f.unit)) = some true := by
  unfold StepForm.Heads StepForm.CanIssue InTurn; decide +kernel

theorem test_hyps_TileStepIssues_mover : ∀ f ∈ moverForms, f.Heads tile0 0 (formState f) ∧ f.CanIssue tile0 0 (formState f) ∧
    InTurn tile0 0 (formState f) ∧ ((f.op (headWork (formState f) tile0 0)).map (banksOk f.unit)) = some true := by
  unfold StepForm.Heads StepForm.CanIssue InTurn; decide +kernel

theorem test_hyps_TileStepIssues_array : ∀ f ∈ arrayForms, f.Heads tile0 0 (formState f) ∧ f.CanIssue tile0 0 (formState f) ∧
    InTurn tile0 0 (formState f) ∧ ((f.op (headWork (formState f) tile0 0)).map (banksOk f.unit)) = some true := by
  unfold StepForm.Heads StepForm.CanIssue InTurn; decide +kernel

theorem test_hyps_TileStepIssues_vector : ∀ f ∈ vectorForms, f.Heads tile0 0 (formState f) ∧ f.CanIssue tile0 0 (formState f) ∧
    InTurn tile0 0 (formState f) ∧ ((f.op (headWork (formState f) tile0 0)).map (banksOk f.unit)) = some true := by
  unfold StepForm.Heads StepForm.CanIssue InTurn; decide +kernel

/-- The same states with a step that asks for one unit of credit of output queue 0, which has none. -/
def waitState (f : StepForm) : State :=
  withTile { planes := [(0, {
    steps := [(0, BitVec.ofNat 128 (f.opcode + formBits f + 2 ^ 80))]
    ctx := [(0, { state := .ready })]
    iq := [(0, { occ := 1 })]
    side := [(0, { s := true })] })] }

theorem test_hyps_TileStepWaits : ∀ f ∈ stepForms, f.Heads tile0 0 (waitState f) ∧ ¬ f.CanIssue tile0 0 (waitState f) := by
  unfold StepForm.Heads StepForm.CanIssue; decide +kernel

/-- Contexts 0 and 1 of a tile are READY at NOP steps, and context 0 issued last. -/
def twoContexts : State :=
  withTile { lastCtx := 0, planes := [(0, {
    steps := [(0, 0), (1, BitVec.ofNat 128 (2 ^ 109))]
    ctx := [(0, { state := .ready }), (1, { state := .ready, ptr := 1 })] })] }

/-- R37: NOP can issue in both contexts, and context 1 comes first. -/
theorem test_hyps_TileStepWaits_turn : let f : StepForm := ⟨.nop, 0x00, .none, anyMode, alwaysReady, opNop⟩
    f ∈ stepForms ∧ f.Heads tile0 0 twoContexts ∧ f.CanIssue tile0 0 twoContexts ∧ ¬ InTurn tile0 0 twoContexts ∧
    f.Heads tile0 1 twoContexts ∧ InTurn tile0 1 twoContexts ∧
    ((f.op (headWork twoContexts tile0 0)).map (banksOk f.unit)) = some true := by
  refine ⟨?_, ?_⟩
  · simp [stepForms, plainForms]
  · unfold StepForm.Heads StepForm.CanIssue InTurn; decide +kernel

/-- CONV with the reserved activation layout AM = 0b11. -/
def reservedConv : State := withTile (stepTile (BitVec.ofNat 128 (0x10 + 3 * 2 ^ 41)))

theorem test_hyps_TileStepReservedFields : ∃ f ∈ stepForms, f.Heads tile0 0 reservedConv ∧ f.CanIssue tile0 0 reservedConv ∧
    f.op (headWork reservedConv tile0 0) = none := by
  refine ⟨⟨.conv, 0x10, .array, anyMode, alwaysReady, opConv⟩, ?_, ?_⟩
  · simp [stepForms, arrayForms]
  · unfold StepForm.Heads StepForm.CanIssue; decide +kernel

/-- A working record on an empty tile whose one token in queue 0 is valid, with step word `w`. -/
def workXe (w : Nat) : Xe :=
  { t := {}
    pl :=
      { iq := [(0, { occ := 1 })]
        side := [(0, { v := true })] }
    c := 0
    ctx := {}
    w := BitVec.ofNat 128 (w + 2 ^ 99) }

theorem test_hyps_ConvMatwAccumulate : ∀ op ∈ [opConv, opMatw], (op (workXe 0)).isSome = true ∧
    allMasked (tokensA (workXe 0) ++ tokensB (workXe 0)) = false ∧ allMasked (tokensA (workXe 0)) = false ∧
    clearControl (workXe 0) (fld (workXe 0).w 50 49) (fld (workXe 0).w 48 45)
      (bankAt (workXe 0).t (bankKey (workXe 0) (bit (workXe 0).w 51))) = some {} := by decide +kernel

theorem test_hyps_OtherArraySums : (∀ op ∈ [opDwconv, opMata, opBwd, opWgrad], (op (workXe 0)).isSome = true) ∧
    allMasked (tokensA (workXe 0) ++ tokensB (workXe 0)) = false ∧
    clearControl (workXe 0) (fld (workXe 0).w 50 49) (fld (workXe 0).w 48 45)
      (bankAt (workXe 0).t (bankKey (workXe 0) (bit (workXe 0).w 51))) = some {} ∧
    clearControl (workXe 0) (fld (workXe 0).w 50 49) (fld (workXe 0).w 48 45)
      (bankAt (workXe 0).t (8 + b2n (bit (workXe 0).w 51))) = some {} := by decide +kernel

theorem test_hyps_ZpcAccinLanes : (opZpc (workXe 0)).isSome = true ∧ (opAccin (workXe 0)).isSome = true ∧
    allMasked (tokensA (workXe 0) ++ tokensB (workXe 0)) = false ∧ InA48 (-140737488355328) ∧ InA48 140737488355327 := by
  unfold InA48; decide +kernel

/-- RQ with requantisation factor 1.0 in the registers that PR names. -/
def rqXe : Xe := { workXe 0 with pl := { (workXe 0).pl with g := [(0, 0x3F800000)] } }

theorem test_hyps_RqUint8Codes : (opRq rqXe).isSome = true ∧ allMasked (tokensA rqXe ++ tokensB rqXe) = false ∧
    bit rqXe.w 50 = false ∧ bit rqXe.w 44 = false ∧ fld rqXe.w 26 25 = 0 ∧ fld rqXe.w 22 21 ≠ 1 ∧ bit rqXe.w 43 = false ∧
    badFactor (paramsOf rqXe).ma = false := by decide +kernel

theorem test_hyps_MoverSteps : (opPass (workXe 0)).isSome = true ∧ (opSend (workXe 0)).isSome = true ∧ (opCopy (workXe 0)).isSome = true ∧
    (workXe 0).t.ecc = [] ∧ (workXe 0).pl.sideBad = [] ∧ memWf (workXe 0).t.mem = true ∧
    2 * (fld (workXe 0).w 51 40 + 1) ≤ (opC (workXe 0)).span ∧ (opC (workXe 0)).span ≤ 2048 := by decide +kernel

theorem test_hyps_TileStepsWithoutStore :
    ∀ op ∈ [opNop, opHurdle, opBand, opBchk, opScale, opStatSend, opSemit, opSend, opPass, opSteer, opMerge, opConv, opMatw,
      opDwconv, opMata, opBwd, opWgrad, opZpc, opAccin, opTfn, opElt, opPoolMax, opPoolAverage, opGpoolMaxAcc, opGpoolSumAcc,
      opGpoolEmitMax, opGpoolEmitAvg, opResize, opSoftmax, opLnorm, opLossCe, opLossBce, opLossSmoothL1, opLossDrain],
    (op (workXe 0)).isSome = true := by decide +kernel

theorem test_hyps_TileStepsWithoutStore_crop : (opCrop (workXe (2 ^ 26))).isSome = true := by decide +kernel

theorem test_hyps_TileStoresStayInOperand :
    ∀ op ∈ [opAccout, opRq, opXformFr, opXformFs, opXformIs, opSpec, opSelect, opOpt, opOptFin, opStatUpdate],
    (op (workXe 0)).isSome = true ∧ memWf (workXe 0).t.mem = true := by decide +kernel

theorem test_hyps_TileStoresStayInOperand_rotw : (opRotw (workXe (2 ^ 51))).isSome = true ∧ (opRotw (workXe (2 ^ 51 + 2 ^ 50))).isSome = true := by
  decide +kernel

/-- BCHK with threshold 3 and at most 2 re-runs, in a band whose first pass saturated n elements. -/
def bchkXe (n : Nat) : Xe := { workXe (3 * 2 ^ 36 + 2 * 2 ^ 28) with ctx := { satcnt := n, runs := 1, bandOpen := true, bandK := [0, 0, 0, 0] } }

theorem test_hyps_BandCheckOutcomes : (opBand (workXe 0)).isSome = true ∧ (opBchk (bchkXe 4)).isSome = true ∧
    (bchkXe 4).ctx.wide = false ∧ fld (bchkXe 4).w 51 36 < (bchkXe 4).ctx.satcnt ∧ (bchkXe 4).ctx.runs < fld (bchkXe 4).w 35 28 ∧
    (bchkXe 4).ctx.bandK.length = 4 ∧ (opBchk (bchkXe 3)).isSome = true ∧ (bchkXe 3).ctx.satcnt ≤ fld (bchkXe 3).w 51 36 := by decide +kernel

/-- Counters 0 and 1 at their limit and linked, counter 2 below its limit. -/
def loopPlane : Plane :=
  { k := [(0, { linken := true, link := 1, limit := 3, value := 3 }), (1, { linken := true, link := 2, limit := 5, value := 5 }),
      (2, { limit := 5, value := 4 })] }

theorem test_hyps_IssueNextCounters :
    let w : BitVec 128 := BitVec.ofNat 128 (2 ^ 115)
    wLoopen w = true ∧ (counterAt loopPlane (wLoopk w)).value = (counterAt loopPlane (wLoopk w)).limit ∧
    (counterAt loopPlane (wLoopk w)).linken = true ∧ (wLoopk w :: [1] ++ [2]).Nodup ∧
    (counterAt loopPlane 2).value ≠ (counterAt loopPlane 2).limit := by decide +kernel

/-- R27: the cascade sets counters 0 and 1 back to 0 and bumps counter 2. -/
theorem test_cascade : (List.range 3).map (fun n => (counterAt (issueNext loopPlane (BitVec.ofNat 128 (2 ^ 115))).1 n).value) = [0, 0, 5] := by
  decide +kernel

theorem test_hyps_ScaleSetsFrame : ∀ kind < 5, (opScale (workXe (kind * 2 ^ 44))).isSome = true ∧
    fld (workXe (kind * 2 ^ 44)).w 46 44 = kind ∧ fld (workXe (kind * 2 ^ 44)).w 43 41 = 0 ∧ bit (workXe (kind * 2 ^ 44)).w 47 = false := by
  decide +kernel

/-! Decoded values of chapter 3 and 4, from the specification's own words -/

/-- R60: the KF9 encodings 0x000 and 0x100 both have the value 0. -/
theorem test_kf9_zero : wint 0x000 = 0 ∧ wint 0x100 = 0 := by decide +kernel

/-! Completion, the router mesh and hurdles -/

/-- A tile with one step in flight on the vector unit, issued at FCLK 0. -/
def busyTile : Tile :=
  { planes := [(0,
      { iq := [(1, { occ := 3, head := 2, size := 4, base := 8 })]
        adapt := { adq := 7 } })]
    inflight := [{ ctx := 0, unit := .vector, iqa := 1, na := 2, cycles := 5 }]
    bud := 3 }

/-- Berth 0 with tile (0, 0) as given, past the watchdog's time, with a re-run acknowledged. -/
def busyState : State :=
  { State.reset with dev := { State.reset.dev with
      power := { fabric := true }
      berths := [(0, { tiles := [(0, busyTile)], fclk := 1048576, rerunAcks := [(0, 0)] })] } }

theorem test_hyps_SequencerEvents :
    berthLive busyState.dev 0 = true ∧
    oldestFlight (tileAt busyState.dev 0 (keyOf busyState.dev tile0)) 0 .vector
      = some { ctx := 0, unit := .vector, iqa := 1, na := 2, cycles := 5 } ∧
    watchdogFlight (tileAt busyState.dev 0 (keyOf busyState.dev tile0)) 0 .vector (berthAt busyState.dev 0).fclk
      = some { ctx := 0, unit := .vector, iqa := 1, na := 2, cycles := 5 } ∧
    (keyOf busyState.dev tile0, 0) ∈ (berthAt busyState.dev 0).rerunAcks := by decide +kernel

/-- A step whose one unit has not been sent. -/
theorem test_hyps_SequencerEvents_unsent : let f : InFlight := { ctx := 0, unit := .vector, no := 1 }
    oldestFlight (tileAt (withTile { inflight := [f] }).dev 0 (keyOf (withTile { inflight := [f] }).dev tile0)) 0 .vector = some f ∧
    f.sent ≠ f.no := by decide +kernel

/-- A flit for logical position (column, row), queue 1, from a token of epoch 0. -/
def flitTo (col row : Nat) : Flit := makeFlit { data := 5, sb := { v := true } } false (BitVec.ofNat 14 (col * 512 + row * 16 + 1))

/-- Tile (1, 1) of berth 0 with flit f on its core port, and a live plane of epoch 0. -/
def meshState (f : Flit) : State :=
  { State.reset with dev := { State.reset.dev with
      power := { fabric := true }
      berths := [(0, { tiles := [(33,
        { planes := [(0,
            { live := true
              iq := [(1, { occ := 1, size := 3, base := 4 })] })]
          ports := [(4, { queue := [f] })] })] })] } }

def tile11 : TileId := ⟨0, 1, 1⟩

/-- The flit waits on the neighbour to the west of tile (1, 1). -/
def westState (f : Flit) : State :=
  { State.reset with dev := { State.reset.dev with
      power := { fabric := true }
      berths := [(0, { tiles := [(1, { ports := [(1, { queue := [f] })] })] })] } }

theorem test_hyps_FlitReceived :
    (∀ p ∈ [(2, 1), (0, 1), (1, 2), (1, 0)], let s := meshState (flitTo p.1 p.2)
      berthLive s.dev 0 = true ∧ sourceFlits s.dev 0 (flitSource s.dev tile11 .core) = [flitTo p.1 p.2] ∧
      flitGood (flitTo p.1 p.2) = true ∧ portTurn s.dev tile11 .core = true ∧ flitCol (flitTo p.1 p.2) = p.1 ∧ flitRow (flitTo p.1 p.2) = p.2) ∧
    (let s := westState (flitTo 2 1)
     sourceFlits s.dev 0 (flitSource s.dev tile11 .west) = [flitTo 2 1] ∧
      flitGood (flitErr (flitTo 2 1) 1) = false) ∧
    (let s := meshState (flitTo 1 1)
     let o := tileAt s.dev 0 (keyOf s.dev tile11)
     berthLive s.dev 0 = true ∧ sourceFlits s.dev 0 (flitSource s.dev tile11 .core) = [flitTo 1 1] ∧
      atTile s.dev tile11 .core (flitTo 1 1) = true ∧ isMark (flitTo 1 1).tok = false ∧ portTurn s.dev tile11 .core = true ∧
      flitGood (flitTo 1 1) = true ∧
      epochPlane o (flitTo 1 1).tok.sb.e = some 0 ∧ o.portA = [] ∧ memWf o.mem = true) := by decide +kernel

/-- Flits for the east wait at the west input and at the core of tile (1, 1), whose east output served the south input last. -/
def crossState (relay : Bool) : State :=
  { State.reset with dev := { State.reset.dev with
      power := { fabric := true }
      berths := [(0, { tiles := [(1, { ports := [(1, { queue := [flitTo 2 1] })] }),
        (33, { relay := relay, served := [(1, 2)], ports := [(4, { queue := [flitTo 2 1] })] })] })] } }

theorem test_hyps_FlitReceived_turn : let s := crossState false
    sourceFlits s.dev 0 (flitSource s.dev tile11 .core) = [flitTo 2 1] ∧ portTurn s.dev tile11 .core = false ∧
    portTurn s.dev tile11 .west = true ∧ relayed (crossState true).dev tile11 = true := by decide +kernel

/-- An epoch mark for queue 1 of tile (1, 1), from epoch 0 to epoch 1. -/
def markFlit : Flit := makeFlit { data := 1, sb := { s := true, l := true } } false (BitVec.ofNat 14 (512 + 16 + 1))

/-- Tile (0, 0) with a credit message of 4 on output queue 2. -/
def creditState : State :=
  withTile { planes := [(0, { oq := [(2, { creditIn := [4], cred := 1 })] })] }

/-- Hurdle 3 of berth 0: tile (0, 0) has a member context that waits there, and the purser has arrived. -/
def hurdleState (scope : Scope) : State :=
  { State.reset with dev := { State.reset.dev with
      power := { fabric := true }
      time := 10000000000
      moduleHurdles := [(3, { started := true })]
      od := [(0x301001, 0)]
      berths := [(0,
        { tiles := [(0,
            { planes := [(0,
                { ctx := [(0, { state := .hurdle, scope := scope, hid := 3 })]
                  hurdles := [(3, 1)] })]
              arrival := [(256 * scopeCode scope + 3, 1)]
              inflight := [{ ctx := 0, hurdle := true }] })]
          hurdles := [(256 * scopeCode scope + 3, { withPurser := true, purserArrived := true, started := true })] })] } }

theorem test_hyps_MarksCreditsHurdles :
    (let s := meshState markFlit
     berthLive s.dev 0 = true ∧ sourceFlits s.dev 0 (flitSource s.dev tile11 .core) = [markFlit] ∧ localMark s.dev tile11 .core markFlit = true ∧ flitGood markFlit = true ∧
      epochPlane (tileAt s.dev 0 (keyOf s.dev tile11)) markFlit.tok.sb.e = some 0) ∧
    (berthLive creditState.dev 0 = true ∧ creditPlane (tileAt creditState.dev 0 (keyOf creditState.dev tile0)) 2 = some 0) ∧
    ((hurdleAt (hurdleState .berth).dev 0 .berth 3).withPurser = true ∧
      workDone (hurdleState .berth).dev 0 (hurdleAt (hurdleState .berth).dev 0 .berth 3) = true ∧
      moduleTied (hurdleState .berth).dev 3 = [] ∧ (hurdleAt (hurdleState .berth).dev 0 .module 3).started = true ∧ headOf (hurdleState .berth).dev 0 = none) ∧
    (∀ scope ∈ [Scope.pipeline, Scope.berth], let d := (hurdleState scope).dev
      (hurdleAt d 0 scope 3).started = true ∧ (hurdleAt d 0 scope 3).since + 100000 * odGet d 0x8010 8 ≤ d.time) := by decide +kernel

/-- A module hurdle that ties the samples of berth 0, all of which have been taken. -/
theorem test_hyps_MarksCreditsHurdles_tied :
    let s := { State.reset with dev := { State.reset.dev with
      berths := [(0, { hurdles := [(512 + 3, { withPurser := true, tied := 1 })], adapt := { updating := true } })] } }
    moduleTied s.dev 3 = [0] ∧ workDone s.dev 0 (Tab.get {} (berthAt s.dev 0).hurdles (512 + 3)) = true := by decide +kernel

theorem test_hyps_MarksCreditsHurdles_full : hurdleFull (hurdleState .berth).dev 0 .berth 3 = true := by decide +kernel

/-! The shuttle and the ledger -/

/-- A shuttle flit from station 0, port 0 of berth 0 to an endpoint. -/
def shFlitTo (dest : BitVec 14) (typ : BitVec 2) : ShFlit := shSeal { data := 9, dest := dest, typ := typ }

def waitingTo (dest : BitVec 14) (typ : BitVec 2) : Waiting := { flit := shFlitTo dest typ }

/-- A link direction of the running fabric. -/
def withLink (k : Nat) (x : Link) : State :=
  { State.reset with dev := { State.reset.dev with
      power := { fabric := true }
      links := [(k, x)] } }

def up0 : LinkDir := .stationUp 0 0

theorem test_hyps_ShuttleSlotOrder :
    linkLive (withLink 0 {}).dev up0 = true ∧ retryFull 0 {} = false ∧
    (let x : Link := { tt := [(0, 5)], queues := [(5, [waitingTo 1 0])] }
     slotOwner (linkKey up0) x = 5 ∧ flowQueue x 5 = [waitingTo 1 0] ∧ hasRoom x 5 = true) ∧
    (let x : Link := { light := [waitingTo 1 1] }
     slotOwner (linkKey up0) x = 0 ∧ hasRoom x 256 = true) ∧
    (let x : Link := { bg := [waitingTo 1 2] }
     slotOwner (linkKey up0) x = 0 ∧ x.light = [] ∧ hasRoom x 257 = true) ∧
    retryFull 0 { wire := List.replicate 8 (shFlitTo 1 0, 0) } = true ∧ retryFull 200 { wire := List.replicate 8 (shFlitTo 1 0, 0) } = false := by
  decide +kernel

/-- R226: on a link direction that the berths share, slot 6 is of berth 2. -/
theorem test_slotOwner_shared : slotOwner (linkKey (.lane false 0)) { lap := 6, tt := [(6, 5)] } = 133 := by decide +kernel

/-- A station port of berth 0, and the wire down to its station. -/
def downState : State :=
  { State.reset with dev := { State.reset.dev with
      power := { fabric := true }
      links := [(100, { wire := [(shFlitTo 0 0, 5)], used := [(5, 1)] })]
      ports := [(0, { valid := true, dcol := 0, drow := 0, diq := 2 })] } }

/-- The gangway's lane 3 waits for its spare. -/
def laneState : State :=
  { State.reset with dev := { State.reset.dev with
      laneSwitch := some 3
      links := [(203, { quiesced := true, wire := [(shFlitTo 0 0, 5)] })] } }

theorem test_hyps_ShuttleFlitArrives :
    (let s := withLink 0 { wire := [(shFlitTo 2048 0, 5)] }
     linkLive s.dev up0 = true ∧ shGood (shFlitTo 2048 0) = true ∧ linkLanding (linkKey up0) = some 0 ∧
      landingLink 0 (shFlitTo 2048 0).src (shFlitTo 2048 0).dest ≠ linkKey up0 ∧ shGood (shErr (shFlitTo 2048 0) 1) = false) ∧
    (linkLive downState.dev (.stationDown 0 0) = true ∧ (linkAt downState.dev (linkKey (.stationDown 0 0))).wire = [(shFlitTo 0 0, 5)] ∧
      epIsStation (shFlitTo 0 0).dest = true ∧ (portAt downState.dev (epKey (shFlitTo 0 0).dest)).valid = true ∧
      (portAt downState.dev (epKey (shFlitTo 0 0).dest)).link = false ∧ (shFlitTo 0 0).typ = 0 ∧
      (berthAt downState.dev (epDomain (shFlitTo 0 0).dest)).incoming = none) ∧
    laneState.dev.laneSwitch = some (32 * b2n false + 3) := by decide +kernel

/-- Port 0 of station 0 of berth 0, as given. -/
def withPort (x : StationPort) : State :=
  { State.reset with dev := { State.reset.dev with
      power := { fabric := true }
      ports := [(0, x)] } }

def creditPort : StationPort := { valid := true, inbound := true, credits := 7, peer := 8192 }
def senderPort : StationPort :=
  let fin : LinkEnd := { cap := 3, grain := 1, buf := [{ data := 1 }, { data := 2 }, { data := 3 }], freedIn := [0, 9], peer := 2048 }
  { valid := true, link := true, fin := fin }
def receiverPort : StationPort :=
  let fin : LinkEnd := { receiver := true, cap := 3, freed := 2, sentFreed := 1, peer := 2048 }
  { valid := true, link := true, fin := fin }

theorem test_hyps_StationLinkCommands :
    (let sp := portAt (withPort creditPort).dev (portKey 0 0 0)
     sp.valid = true ∧ sp.link = false ∧ sp.inbound = true ∧ 0 < sp.credits ∧ berthLive (withPort creditPort).dev 0 = true ∧
      (berthAt (withPort creditPort).dev 0).incoming = none) ∧
    (let sp := portAt (withPort senderPort).dev (portKey 0 0 0)
     sp.valid = true ∧ sp.link = true ∧ sp.fin.receiver = false ∧ sp.fin.mark = none ∧ 2 ^ sp.fin.grain ≤ sp.fin.buf.length ∧
      (sp.fin.filled - sp.fin.freed).toNat < sp.fin.cap + 1 ∧ sp.fin.freedIn = [0, 9] ∧ ((0 : U32) - sp.fin.freed).toNat ≤ sp.fin.cap + 1 ∧
      sp.fin.cap + 1 < ((9 : U32) - sp.fin.freed).toNat ∧ (berthAt (withPort senderPort).dev 0).incoming = none) ∧
    (let sp := portAt (withPort receiverPort).dev (portKey 0 0 0)
     sp.valid = true ∧ sp.link = true ∧ sp.fin.receiver = true ∧ sp.fin.freed ≠ sp.fin.sentFreed ∧
      (berthAt (withPort receiverPort).dev 0).incoming = none) := by decide +kernel

/-- A timetable of berth 1 waits at its lap start. -/
def newTable : Nat × Tab Nat × Tab FlowEntry := (1, [(0, 3)], [(0, { valid := true, tag := 3 })])

theorem test_hyps_TimetableSwitches (l : LinkDir) (h : l = .stationUp 1 0 ∨ l = .lane false 0) :
    let s := withLink (linkKey l) { nextTt := [newTable] }
    (linkAt s.dev (linkKey l)).nextTt = [newTable] ∧ (linkAt s.dev (linkKey l)).lap = 0 ∧
      linkClear s.dev (linkAt s.dev (linkKey l)) newTable.1 = true ∧ linkLive s.dev l = true ∧ newTable.1 < 4 := by
  rcases h with rfl | rfl <;> decide +kernel

theorem test_hyps_TimetableSwitches_kinds : linkShared (linkKey (.stationUp 1 0)) = false ∧ linkShared (linkKey (.lane false 0)) = true := by
  decide

/-- A latched loop whose tests hold, and one that has lost a token. -/
def goodLoop : LoopLatch := { credmax := 8, cred := 8 }
def badLoop : LoopLatch := { credmax := 8, cred := 7, berth := 2, qid := 5 }
def latchState (ls : List LoopLatch) : State :=
  { State.reset with dev := { State.reset.dev with
      power := { fabric := true }
      hub := { latch := some { time := 4, loops := ls } } } }

theorem test_hyps_LedgerBalances :
    (State.reset.dev.hub.latch = none ∧ mstate State.reset.dev = 0 ∧ (withLink 0 {}).dev.power.fabric = true ∧
      (withLink 0 {}).dev.hub.latch = none ∧ mstate (withLink 0 {}).dev = 0) ∧
    loopHolds goodLoop = true ∧ loopHolds badLoop = false ∧ badLoop.linked = false ∧
    (32 * badLoop.berth + 18, badLoop.qid) ∉ (latchState [badLoop]).dev.hub.imbalanced ∧
    (let q := iqAt (planeAt (tileAt (meshState (flitTo 1 1)).dev 0 33) 0) 1
     let q' : InQueue := { q with init := 1 }
     BitVec.ofNat 32 q'.init + q'.received = q'.consumed + q'.discc + BitVec.ofNat 32 q'.occ) := by decide +kernel

/-! Stride engines, the pacer and HBM -/

/-- Engine 1 of berth 0 with thread 2 at instruction word `w`; queue 3 of the engine ends at station port 0. -/
def strideState (w : Nat) (outbound : Bool) (ts : List Transfer) (sem : Nat) : State :=
  let th : Thread := { used := true, running := true, a := [(1, 4)], l := [(0, 1)], lstart := [(0, 7)], sc := 2, size := 64 }
  { State.reset with dev := { State.reset.dev with
      power := { fabric := true }
      ends := [(0, { valid := true, cred := 20, credmax := 20, tokens := [{ data := 1 }, { data := 2 }, { data := 3 }] })]
      berths := [(0,
        { engines := [(1,
            { prog := [(0, BitVec.ofNat 64 w)]
              threads := [(2, th)]
              sems := [(0, sem)]
              eqs := [(3, { valid := true, outbound := outbound, peer := 0, credmax := 20, rate := 4 })] })]
          hbm := { transfers := ts } })] } }

def strideWord (op rest : Nat) : Nat := op * 2 ^ 58 + 2 ^ 55 + 3 * 2 ^ 49 + rest

/-- R246: every register and loop instruction is at the head of thread 2. -/
theorem test_hyps_StrideControl_registers : ∀ op ∈ [0x01, 0x02, 0x03, 0x04, 0x08, 0x09, 0x3F],
    let s := strideState (strideWord op 5) true [] 0
    strideHead op s.dev (seOf s.dev 0 1 2) = true ∧ threadTurn s.dev 0 1 2 = true ∧ engineSwitched s.dev 0 1 = false ∧ (berthAt s.dev 0).co.active = false := by decide +kernel

def doneWrite : Transfer := { engine := 1, thread := 2, eq := 3, write := true, admitted := true, done := true }

theorem test_hyps_StrideControl_semaphores :
    (∀ sem ∈ [0, 1, 255], let s := strideState (strideWord 0x18 0) true [] sem
      strideHead 0x18 s.dev (seOf s.dev 0 1 2) = true ∧ threadTurn s.dev 0 1 2 = true ∧ engineSwitched s.dev 0 1 = false ∧ Tab.get 0 (seOf s.dev 0 1 2).g.sems 0 = sem) ∧
    (let s := strideState (strideWord 0x19 0) true [] 254
     strideHead 0x19 s.dev (seOf s.dev 0 1 2) = true ∧ threadTurn s.dev 0 1 2 = true ∧ engineSwitched s.dev 0 1 = false ∧ writesAcked s.dev (seOf s.dev 0 1 2) = true) ∧
    (let s := strideState (strideWord 0x1A 0) true [doneWrite] 0
     strideHead 0x1A s.dev (seOf s.dev 0 1 2) = true ∧ writesAcked s.dev (seOf s.dev 0 1 2) = false ∧ engineSwitched s.dev 0 1 = false ∧ berthLive s.dev 0 = true) ∧
    (let s := strideState (strideWord 0x1A 0) true [] 0
     strideHead 0x1A s.dev (seOf s.dev 0 1 2) = true ∧ threadTurn s.dev 0 1 2 = true ∧ engineSwitched s.dev 0 1 = false ∧ writesAcked s.dev (seOf s.dev 0 1 2) = true) := by
  decide +kernel

/-- Threads 2 and 3 of an engine are both at SETA, and thread 2 issued last. -/
def twoThreads : State :=
  let s := strideState (strideWord 0x01 5) true [] 0
  { s with dev := modBerth s.dev 0 (fun y => { y with
      engines := Tab.map (fun (g : Engine) => { g with lastThread := 2, threads := g.threads ++ [(3, Tab.get {} g.threads 2)] }) y.engines }) }

theorem test_hyps_StrideControl_turn : engineSwitched twoThreads.dev 0 1 = false ∧ threadTurn twoThreads.dev 0 1 2 = false ∧ threadTurn twoThreads.dev 0 1 3 = true := by decide +kernel

/-- LEN + 1 = n tokens. -/
def lenBits (n : Nat) : Nat := (n - 1) * 2 ^ 42

theorem test_hyps_StrideTransfers :
    (let s := strideState (strideWord 0x10 (lenBits 4)) true [] 0
     let x := seOf s.dev 0 1 2
     strideHead 0x10 s.dev x = true ∧ rdReady s.dev x = true ∧ threadTurn s.dev 0 1 2 = true ∧ engineSwitched s.dev 0 1 = false ∧ sLctl x.w ≠ 3 ∧
       (arOf x).toNat + sLen x.w ≤ x.th.size) ∧
    (let s := strideState (strideWord 0x11 (lenBits 3)) false [] 0
     let x := seOf s.dev 0 1 2
     strideHead 0x11 s.dev x = true ∧ wrReady s.dev x = true ∧ threadTurn s.dev 0 1 2 = true ∧ engineSwitched s.dev 0 1 = false ∧ (arOf x).toNat + sLen x.w ≤ x.th.size) ∧
    (let s := strideState (strideWord 0x12 (lenBits 4)) true [] 0
     let x := seOf s.dev 0 1 2
     strideHead 0x12 s.dev x = true ∧ padReady s.dev x = true ∧ threadTurn s.dev 0 1 2 = true ∧ engineSwitched s.dev 0 1 = false ∧ sLctl x.w ≠ 3 ∧
       (arOf x).toNat + sLen x.w ≤ x.th.size) ∧
    (∀ op ∈ [0x10, 0x12], let s := strideState (strideWord op (lenBits 4 + 3 * 2 ^ 39)) true [] 0
     let x := seOf s.dev 0 1 2
     strideHead op s.dev x = true ∧ threadTurn s.dev 0 1 2 = true ∧ engineSwitched s.dev 0 1 = false ∧ rdReady s.dev x = true ∧ padReady s.dev x = true ∧ sLctl x.w = 3) := by
  decide +kernel

/-- The same engine with a region of 6 tokens, which the transfer from AR = 4 leaves. -/
def boundsState (op n : Nat) (outbound : Bool) : State :=
  let s := strideState (strideWord op (lenBits n)) outbound [] 0
  { s with dev := modBerth s.dev 0 (fun y => { y with
      engines := Tab.map (fun (g : Engine) => { g with threads := Tab.map (fun (t : Thread) => { t with size := 6 }) g.threads }) y.engines }) }

theorem test_hyps_StrideTransfers_bounds :
    (let s := boundsState 0x10 4 true
     let x := seOf s.dev 0 1 2
     strideHead 0x10 s.dev x = true ∧ rdReady s.dev x = true ∧ threadTurn s.dev 0 1 2 = true ∧ engineSwitched s.dev 0 1 = false ∧ sLctl x.w ≠ 3 ∧
       x.th.size < (arOf x).toNat + sLen x.w) ∧
    (let s := boundsState 0x11 3 false
     let x := seOf s.dev 0 1 2
     strideHead 0x11 s.dev x = true ∧ wrReady s.dev x = true ∧ threadTurn s.dev 0 1 2 = true ∧ engineSwitched s.dev 0 1 = false ∧ sLctl x.w ≠ 3 ∧
       x.th.size < (arOf x).toNat + sLen x.w) ∧
    (let s := boundsState 0x12 4 true
     let x := seOf s.dev 0 1 2
     strideHead 0x12 s.dev x = true ∧ padReady s.dev x = true ∧ threadTurn s.dev 0 1 2 = true ∧ engineSwitched s.dev 0 1 = false ∧ sLctl x.w ≠ 3 ∧
       x.th.size < (arOf x).toNat + sLen x.w) := by
  decide +kernel

def openRead : Transfer := { engine := 1, thread := 2, eq := 3, addr := 5, len := 2 }

theorem test_hyps_PacerGrantsLeast :
    (let s := strideState 0 true [openRead] 0
     hbmLive s.dev 0 = true ∧ (berthAt s.dev 0).hbm.admission.length < 32 ∧ (berthAt s.dev 0).hbm.lightQ = [] ∧
      (paceBest (paceReqs s.dev 0)).isSome = true) := by decide +kernel

/-- A write of the engine's queue that its end's tokens cover. -/
theorem test_hyps_PacerGrantsLeast_write : let t : Transfer := { openRead with write := true }
    let s := strideState 0 false [t] 0
    engineSwitched s.dev 0 1 = false ∧ nextTransfer (berthAt s.dev 0).hbm 1 3 = some t ∧ paceBest (paceReqs s.dev 0) ≠ none ∧
    t.len ≤ (endAt s.dev (epKey (Tab.get {} (engineAt (berthAt s.dev 0) 1).eqs 3).peer)).tokens.length := by decide +kernel

/-- Berth 0 with its HBM as given. -/
def withHbm (h : Hbm) : State :=
  { State.reset with dev := { State.reset.dev with
      power := { fabric := true }
      berths := [(0, { hbm := h })] } }

def lightRead : LightReq := { addr := 60, len := 4, write := false, data := [], src := 1 }
def lightWrite : LightReq := { addr := 64, len := 2, write := true, data := [7, 0], src := 1 }

theorem test_hyps_PacerGrantsLeast_light :
    let h : Hbm := { lightQ := [lightRead] }
    hbmLive (withHbm h).dev 0 = true ∧ h.admission.length < 32 ∧ 15 ≤ h.sinceLight ∧ paceReqs (withHbm h).dev 0 = [] := by decide +kernel

def writeTransfer : Transfer := { engine := 1, eq := 3, write := true, addr := 5, len := 2, tokens := [{ data := 1 }, { data := 2 }], admitted := true }
def readTransfer : Transfer := { engine := 1, eq := 3, addr := 5, len := 2, admitted := true }

theorem test_hyps_HbmAccesses :
    (∀ t ∈ [writeTransfer, readTransfer], let h : Hbm := { admission := [.transfer 1 3], transfers := [t] }
      hbmLive (withHbm h).dev 0 = true ∧ memWf h.mem = true ∧
      h.transfers.find? (fun t => decide (t.engine = 1) && decide (t.eq = 3) && t.admitted && !t.done) = some t) ∧
    (∀ r ∈ [lightRead, lightWrite], let h : Hbm := { admission := [.light r] }
      hbmLive (withHbm h).dev 0 = true ∧ memWf h.mem = true ∧ r.addr < 12884901888 ∧ 1 ≤ r.len ∧ r.len ≤ 64 ∧
      r.addr % 64 + r.len ≤ 64 ∧ reachesHbm 0 (BitVec.ofNat 14 r.src) = true) ∧ lightWrite.data.length = lightWrite.len ∧
    reachesHbm 0 (BitVec.ofNat 14 2048) = false := by decide +kernel

/-! Ingest, the feeder and the queue manager -/

/-- Stream 5 as given beside object values, on a live berth 0. -/
def withStream (st : Stream) (od : Tab Nat) : State :=
  { State.reset with dev := { State.reset.dev with
      power := { fabric := true }
      time := 900000
      sfp := [(0, { link := true })]
      streams := [(5, st)]
      od := od } }

def rtp1 : Rtp :=
  { version := 2, pt := 96, seq := 10, ts := 0, ssrc := 7, marker := false, nal := 1, fuStart := false, fuEnd := false, don := false,
    rap := false, nonRef := false, nals := [[1]] }
def portOn : Tab Nat := [(0x200001, 1), (0x200004, 0x0100000A), (0x240509, mapped4 0x0100000A), (0x24050A, 5004)]
def udpFrame (dst : BitVec 128) : EthFrame :=
  { len := 100, fcsOk := true, tags := [], ethernetII := true, net := .udp false 3 dst 5004 false true [] (some rtp1) }

theorem test_hyps_EthernetFrames :
    let s := withStream { active := true } portOn
    let d := odAdd s.dev 0x2000 6 1
    portUp s.dev 0 = true ∧ 0x0100000A ≠ (0 : U32) ∧ addressed d 0 (mapped4 0x0100000A) = true ∧ addressed d 0 99 = false ∧
    (d.streams.filter (fun p => p.2.active && decide (strm d p.1 3 ≠ 2)
      && streamMatches d 0 p.1 [] 3 (mapped4 0x0100000A))).find? (fun p => decide (strm d p.1 0x0A = 5004) &&
        (decide (strm d p.1 0x0D / 2 % 2 = 0) || decide (strm d p.1 0x0C = rtp1.ssrc.toNat))) = some (5, { active := true }) := by
  decide +kernel

theorem test_hyps_EthernetFrames_badFrame : ∀ f ∈ [{ udpFrame 0 with len := 9217 }, { udpFrame 0 with fcsOk := false },
      { udpFrame 0 with tags := [1, 2] }, { udpFrame 0 with ethernetII := false }],
    9216 < f.len ∨ f.fcsOk = false ∨ 1 < f.tags.length ∨ f.ethernetII = false := by decide +kernel

theorem test_hyps_EthernetFrames_goodFrame :
    let f := udpFrame 0
    f.len ≤ 9216 ∧ f.fcsOk = true ∧ f.tags.length ≤ 1 ∧ f.ethernetII = true := by decide

def openStream (w : List (Nat × Rtp)) : Stream := { active := true, ssrc := some 7, nextSeq := some 10, window := w }

theorem test_hyps_ReorderWindow :
    let d := (withStream (openStream []) []).dev
    let p := { rtp1 with seq := 12 }
    p.version = 2 ∧ p.pt = odGet d 0x2405 0x0E ∧ payloadOk (odGet d 0x2405 3) p = true ∧ (streamAt d 5).ssrc = some p.ssrc ∧
    (streamAt d 5).nextSeq = some 10 ∧ (streamAt d 5).window = [] ∧ 0 < seqDist p.seq 10 ∧ seqDist (9 : BitVec 16) 10 < 0 := by
  decide +kernel

theorem test_hyps_ReorderWindow_timeout :
    let d := (withStream (openStream [(700000, { rtp1 with seq := 12 })]) []).dev
    (streamAt d 5).active = true ∧ (streamAt d 5).window = [(700000, { rtp1 with seq := 12 })] ∧ (streamAt d 5).nextSeq = some 10 ∧
    700000 + 200000 ≤ d.time := by decide +kernel

/-- Stream 5 has an access unit in slice 17 of berth 0. -/
def decodeState (active stale : Bool) : State :=
  withStream { active := active, stale := stale, slice := 18, inDecode := some { rap := false }, decodeFrom := 0 }
    [(0x240504, 64), (0x240505, 64), (0x24051B, 1)]

theorem test_hyps_DecodeSlices :
    (∀ p ∈ [(true, false), (true, true), (false, false)], let s := decodeState p.1 p.2
      s.dev.streams.find? (fun p => onSlice 0 17 p.2) = some (5, streamAt s.dev 5) ∧ (streamAt s.dev 5).active = p.1 ∧
      (streamAt s.dev 5).stale = p.2 ∧ (streamAt s.dev 5).inDecode = some { rap := false }) ∧
    (let s := decodeState true false
     (streamAt s.dev 5).decodeFrom + 4 * decodeCounts s.dev 5 { rap := false } + 100000 ≤ s.dev.time ∧ odGet s.dev 0x2405 0x1B = 1) := by
  decide +kernel

/-- A descriptor of a 64 × 64 NV12 picture. -/
def rawDesc : BitVec 512 := BitVec.ofNat 512 (64 * 2 ^ 368 + 64 * 2 ^ 352 + 64 * 2 ^ 336)

/-- Raw stream 5 reads queue 9, which holds one item. -/
def rawState (st : Stream) : State :=
  let s := withStream st [(0x240503, 2), (0x240504, 64), (0x240505, 64), (0x240511, 9), (0x400902, 1)]
  { s with dev := { s.dev with
      queues := [(9, { enabled := true, pi := 1 })]
      pcie := { busMaster := true } } }

theorem test_hyps_RawPictures : let s := rawState { active := true }
    rawReady s.dev 5 = true ∧ (streamAt s.dev 5).raw = none ∧ rawBad s.dev 5 0 = true ∧ rawBad s.dev 5 rawDesc = false ∧
    fld (0 : BitVec 512) 7 0 ≠ 0xFE ∧ fld rawDesc 7 0 ≠ 0xFE ∧ fld (0xFE : BitVec 512) 7 0 = 0xFE := by
  decide +kernel

theorem test_hyps_RawPictures_copy : (streamAt (rawState { active := true, raw := some (rawDesc, 3) }).dev 5).raw = some (rawDesc, 3) ∧
    odGet (rawState { pics := [{}, {}, {}] }).dev 0x2405 0x14 ≤ (streamAt (rawState { pics := [{}, {}, {}] }).dev 5).pics.length := by
  decide +kernel

/-- Berth 0 analyses stream 5: STATE ACTIVE, its feeder open. -/
def feedState (st : Stream) : State :=
  let s := withStream st [(0x301003, 2)]
  { s with dev := { s.dev with berths := [(0, { feederOpen := true })] } }

theorem test_hyps_FeederFrames :
    (let s := feedState { active := true, entries := [{ replay := true }] }
     feederReady s.dev 0 = true ∧ (coOf s.dev 0).marksSent = false ∧ nextReplay s.dev 0 = some (5, { replay := true })) ∧
    (let s := feedState { active := true, pics := [{ cap := 3 }] }
     feederReady s.dev 0 = true ∧ (coOf s.dev 0).marksSent = false ∧ nextReplay s.dev 0 = none ∧ nextPicture s.dev 0 = some (5, { cap := 3 }) ∧
      (berthAt s.dev 0).repair.replaying = false ∧ (berthAt s.dev 0).repair.catching = false ∧ memWf (berthAt s.dev 0).hbm.mem = true) := by
  decide +kernel

/-- A binding whose header and code ends differ, both with no credit and nothing waiting. -/
theorem test_hyps_FeederFrames_ends : let u : UnitBind := { headerEnd := 20, codeEnd := 21 }
    (endAt (feedState {}).dev u.headerEnd).tokens = [] ∧ (endAt (feedState {}).dev u.headerEnd).cred = 0 ∧ u.headerEnd ≠ u.codeEnd ∧
    (endAt (feedState {}).dev u.codeEnd).tokens = [] ∧ (endAt (feedState {}).dev u.codeEnd).cred = 0 ∧
    u.sideEnd ≠ some u.headerEnd ∧ u.sideEnd ≠ some u.codeEnd := by decide +kernel

/-- Berth 0 with the unit bindings of slot 1, and what stands at its memory-side queue ends. -/
def unitState (u : UnitBind) (es : Tab UEnd) (rs : List (Nat × Nat × Nat × Nat)) : State :=
  { State.reset with dev := { State.reset.dev with
      ends := es
      berths := [(0, { unitSlot := some 1, slots := [(1, { image := some { bind := u } })], reruns := rs })] } }

theorem test_hyps_QueueManagerFrames :
    (berthAt (unitState {} [] [(7, 1, 2, 3)]).dev 0).reruns = [(7, 1, 2, 3)] ∧
    (let s := unitState { cropIn := some 20, cropA := 21, cropB := 22 } [(20, { tokens := [{ sb := { v := false } }] })] []
     (runBind s.dev 0).cropIn = some 20 ∧ (endAt s.dev 20).tokens = [{ sb := { v := false } }] ∧ (runBind s.dev 0).cropA ≠ 20 ∧
      (runBind s.dev 0).cropB ≠ 20 ∧ (coOf s.dev 0).marksSent = false) ∧
    (let s := unitState { resHeader := 20, resBody := 21, resSlots := 1 } [(20, { tokens := [{}] }), (21, { tokens := [{}, {}] })] []
     let u := runBind s.dev 0
     (endAt s.dev u.resHeader).tokens ≠ [] ∧ u.resSlots + 1 ≤ (endAt s.dev u.resBody).tokens.length ∧ (coOf s.dev 0).marksSent = false) ∧
    (let s := unitState { taps := [(20, 4, 1)] } [(20, { tokens := [{ sb := { s := true } }, {}] })] []
     readyTap s.dev (runBind s.dev 0) = some (20, 4, 1) ∧ (coOf s.dev 0).marksSent = false) := by decide +kernel

/-- A live slot of a frame that is in the frame store, and of one that is gone, for the crop gather unit. -/
def cropState (es : List FsEntry) : State :=
  let s := unitState { cropIn := some 20, cropA := 21, cropB := 22, cropW := 2, cropH := 1 } [(20, { tokens := [{ sb := { v := true } }] })] []
  { s with dev := { s.dev with streams := [(0, { entries := es })] } }

theorem test_hyps_QueueManagerFrames_crop :
    (∀ es ∈ [[], [({} : FsEntry)]], let s := cropState es
      (runBind s.dev 0).cropIn = some 20 ∧ (endAt s.dev 20).tokens = [{ sb := { v := true } }] ∧ (endAt s.dev 20).mark = false ∧
      (runBind s.dev 0).cropA ≠ (runBind s.dev 0).cropB ∧ (endAt s.dev 21).tokens = [] ∧ (endAt s.dev 22).cred = 0 ∧
      (entryOf s.dev 0 0).isSome = !es.isEmpty ∧ (coOf s.dev 0).marksSent = false) := by decide +kernel

/-- A frame at the result queues: the last stripe of two, then the first, with result queue 9 a DIR 0 queue or none. -/
def resultState (stripe q : Nat) : State :=
  let s := unitState { resHeader := 20, resBody := 21, resSlots := 1 }
    [(20, { tokens := [{ data := headerPayload 0 0 (BitVec.ofNat 32 stripe) stripe 2 5 false false false }] }),
      (21, { tokens := [{ sb := { v := true } }, {}] })] []
  { s with dev := { s.dev with od := [(0x240510, q)], streams := [(5, { entries := [{ stripes := 2 }] })] } }

theorem test_hyps_QueueManagerFrames_result :
    ∀ p ∈ [(0, 9), (1, 16384)], let s := resultState p.1 p.2
      let u := runBind s.dev 0
      let h := (endAt s.dev u.resHeader).tokens.headD {}
      hStream h.data = 5 ∧ hStripe h.data = p.1 ∧ hStripes h.data = 2 ∧ BitVec.ofNat 32 (hFcount h.data) - BitVec.ofNat 32 (hStripe h.data) = 0 ∧
      u.resSlots + 1 ≤ (endAt s.dev u.resBody).tokens.length ∧ u.resHeader ≠ u.resBody ∧ strm s.dev 5 0x10 = p.2 ∧
      qDir s.dev 9 = 0 ∧ (berthAt s.dev 0).repair.replaying = false ∧ (berthAt s.dev 0).repair.catching = false ∧
      (coOf s.dev 0).marksSent = false := by decide +kernel

theorem test_hyps_StreamEnableDisable :
    (let s := withStream {} [(0x240503, 2), (0x240504, 64), (0x240505, 64)]
     mstate s.dev = 0 ∧ bpstate s.dev (strmBerth s.dev 5) ≠ 2 ∧ (streamAt s.dev 5).active = false ∧ streamRefusal s.dev 5 = 0 ∧
      (poolAllocAll (berthAt s.dev (strmBerth s.dev 5)).hbm (0x10000 + 5) (streamSizes s.dev 5)).isSome = true) ∧
    (let s := withStream {} [(0x240503, 0), (0x240504, 63)]
     streamRefusal s.dev 5 ≠ 0 ∧ odGet s.dev 0x2405 1 = 0) := by decide +kernel

/-- R344: a stream to group 239.0.0.1 with JOIN set joins on the ports of its mask. -/
theorem test_hyps_StreamEnableDisable_join :
    joinPorts (withStream {} [(0x200001, 1), (0x240509, mapped4 0x010000EF), (0x24050D, 4)]).dev 5 = [0] := by decide +kernel

/-! Hardware queues and events -/

/-- Queue 5 with ring `r` and the object values `od`; the firmware is ready. -/
def queueState (r : Ring) (od : Tab Nat) : State :=
  { State.reset with dev := { State.reset.dev with
      fw := { fwstate := 2 }
      od := od
      queues := [(5, r)] } }

/-- Three of the 16 entries are held. -/
def heldRing : Ring :=
  { enabled := true, pi := 2, ci := 0xFFFFFFFF, piCopy := 2, ciCopy := 0xFFFFFFFF, fepoch := 255, pube := 3, slots := [(15, 3, []), (0, 1, [9]), (1, 2, [8])] }
def q16 (dir loc : Nat) : Tab Nat := [(0x400502, dir), (0x400503, loc), (0x400506, 16)]
def bell (ptr flags : Nat) : U64 := BitVec.ofNat 64 (ptr + 255 * 2 ^ 40 + flags)

theorem test_hyps_QueueDoorbells :
    (let s := queueState heldRing (q16 0 0)
     let w := bell 2 (2 ^ 32)
     firmwareReady s.dev = true ∧ (ringOf s.dev 5).enabled = true ∧ fld w 47 40 = 255 ∧ bit w 32 = true ∧ bit w 63 = false ∧
      qDir s.dev 5 = 0 ∧ (BitVec.ofNat 32 (fld w 31 0) - (0xFFFFFFFF : U32)).toNat ≤ ((2 : U32) - 0xFFFFFFFF).toNat) ∧
    (let s := queueState heldRing (q16 1 0)
     let w := bell 14 (2 ^ 32)
     qDir s.dev 5 = 1 ∧ (BitVec.ofNat 32 (fld w 31 0) - (2 : U32)).toNat ≤ qEntries s.dev 5 - 1 - ((2 : U32) - 0xFFFFFFFF).toNat) ∧
    bit (bell 0 (2 ^ 63)) 63 = true ∧ fld (bell 0 (2 ^ 63)) 47 40 = 255 := by decide +kernel

theorem test_hyps_QueueDoorbells_arm :
    let w := bell 0 (2 ^ 62)
    bit w 32 = false ∧ bit w 63 = false ∧ bit w 62 = true ∧
    (∀ dir ∈ [0, 1], let r := { heldRing with ci := (2 : U32) - (if dir = 0 then 0 else 15), ciCopy := 0 }
      let s := queueState r (q16 dir 0)
      if qDir s.dev 5 = 0 then r.pi = r.ci else qEntries s.dev 5 - 1 - (r.pi - r.ci).toNat < qEntries s.dev 5 / 2) := by decide +kernel

theorem test_hyps_QueueCommandsAndRings :
    queueCheck (queueState {} (q16 0 0)).dev 5 = 0 ∧ queueCheck (queueState {} [(0x400506, 17)]).dev 5 ≠ 0 ∧
    (let s := queueState heldRing (q16 0 1)
     let es := firstItem heldRing (qEntries s.dev 5) (ringHeld heldRing) 0
     qLoc s.dev 5 = 1 ∧ qDir s.dev 5 = 0 ∧ 0 < ringHeld heldRing ∧ es.length ≤ ringHeld heldRing) ∧
    (let s := queueState heldRing (q16 1 1)
     qDir s.dev 5 = 1 ∧ (itemEntries (qBytes s.dev 5) [1, 2, 3]).length ≤ qEntries s.dev 5 - 1 - ringHeld heldRing) := by decide +kernel

/-- An offer to a ring with room and to a full one. -/
theorem test_hyps_QueueCommandsAndRings_offer :
    ∀ n ∈ [4, 16], let l : RingLatch := { ring := heldRing, entries := n }
      ringHolds l = true ∧ l.entries ≤ 65536 ∧ l.ring.items < top64 ∧ l.ring.dropped < top64 := by decide +kernel

theorem test_hyps_QueueCommandsAndRings_mismatch : let r := { heldRing with piCopy := 3 }
    r.pi ≠ r.piCopy ∨ r.ci ≠ r.ciCopy := by decide

/-- Host event queue 3 as given, with shared source 7 routed to it. -/
def evqState (q : EventQueue) (on : Nat) (pend : Tab PendingEvent) : State :=
  { State.reset with dev := { State.reset.dev with
      fw := { fwstate := 2 }
      pcie := { busMaster := true, pending := [3] }
      od := [(0x810008, 0x8013), (0x818301, on), (0x818303, 16)]
      evqs := [(3, q)]
      pendingEv := pend } }

theorem test_hyps_EventCommands :
    odGet (evqState {} 1 []).dev 0x8100 8 = 0x8010 + 3 ∧ evqFull (evqState {} 1 []).dev 3 = false ∧
    evqFull (evqState { pi := 15 } 1 []).dev 3 = true ∧ Tab.find (evqState { pi := 15 } 1 []).dev.pendingEv 7 = none ∧
    firstPending (evqState {} 1 [(7, { time := 5, target := 0x13 })]).dev 3 = some (7, { time := 5, target := 0x13 }) := by
  decide +kernel

theorem test_hyps_EventCommands_unrouted :
    odGet { State.reset.dev with od := [(0x810008, 0x0013)] } 0x8100 8 / 32768 % 2 = 0 := by decide +kernel

theorem test_hyps_EventCommands_doorbell :
    let s := evqState { pi := 4, ci := 2 } 1 []
    let w : U64 := BitVec.ofNat 64 (3 + 2 ^ 32)
    firmwareReady s.dev = true ∧ evqEnabled s.dev 3 = true ∧ bit w 32 = true ∧
    ((4 : U32) - BitVec.ofNat 32 (fld w 31 0)).toNat ≤ ((4 : U32) - 2).toNat ∧
    bit (BitVec.ofNat 64 (2 ^ 62) : U64) 32 = false ∧ bit (BitVec.ofNat 64 (2 ^ 62) : U64) 62 = true := by decide +kernel

theorem test_hyps_EventCommands_enable :
    let s := evqState {} 0 []
    evqEnabled s.dev 3 = false ∧ isPow2 (evqEntries s.dev 3) = true ∧
    odGet s.dev (0x8180 + 3) 2 % min (16 * evqEntries s.dev 3) 4096 = 0 ∧ s.dev.pendingEv = [] ∧
    3 ∈ s.dev.pcie.pending ∧ s.dev.pcie.busMaster = true := by decide +kernel

/-! The block as a whole -/

theorem test_hyps_StepRunsFrontCommand : State.reset.pending = [] := rfl

/-- A state whose queue holds one well-formed command, and whose memories are in canonical form. -/
def oneCommand (c : Instr) : State := { State.reset with pending := [c] }

theorem test_hyps_CommandsStayWellFormed :
    (∀ c ∈ (oneCommand (.anchorWrite 5 3)).pending, c.wf = true) ∧
    step (oneCommand (.anchorWrite 5 3)) = .next { State.reset with dev := anchorWrite State.reset.dev 5 3 } :=
  ⟨by decide, rfl⟩

theorem test_hyps_HostMemoryAndTimeKept :
    HostMemoryWf State.reset.dev ∧ State.reset.dev.time < 2 ^ 64 :=
  ⟨⟨by decide, by decide, by decide⟩, by decide⟩

theorem test_hyps_BerthMemoryKept :
    ∀ p ∈ (withHbm { mem := [(62, 3), (65, 9)] }).dev.berths, BerthMemoryWf p.2 := by
  simp [withHbm, BerthMemoryWf]
  decide

/-! The host interface -/

/-- A mailbox request for operation `op` on an object, outside any session. -/
def mbxReq (op index sub : Nat) (payload : List Byte) : JopReq := { op := op, index := index, sub := sub, payload := payload }

/-- The module in operation; `r` is the next mailbox request. -/
def jopState (r : JopReq) (od : Tab Nat) : State :=
  { State.reset with dev := { State.reset.dev with
      fw := { fwstate := 2 }
      time := 7000000000
      requests := [(0, [r])]
      od := od } }

theorem served_mailbox (s : State) (r : JopReq) (h1 : headRequest s.dev .mailbox [] = some r)
    (h2 : r.sid = 0 ∧ r.auth = false ∧ r.op ≠ 0x10 ∧ r.tr = .mailbox) (h3 : odFlag (popRequest s.dev .mailbox) 0x1100 7 = false)
    (h4 : powerAllows (popRequest s.dev .mailbox) { r with role := 2 } = true) (h5 : roleAllows { r with role := 2 } = true) :
    Served s .mailbox [] r.op (popRequest s.dev .mailbox) { r with role := 2 } :=
  ⟨r, h1, by simp, rfl, by simp [vetRequest, h2.1, h2.2.1, h2.2.2.1, h2.2.2.2, h3], rfl, h4, h5⟩

/-- The plain mailbox operations are served. -/
theorem test_hyps_Served (op : Nat) (h : op ∈ [0x01, 0x02, 0x03, 0x04, 0x05, 0x06, 0x20]) (bs : List Byte) :
    Served (jopState (mbxReq op 0x1200 2 bs) []) .mailbox [] op (popRequest (jopState (mbxReq op 0x1200 2 bs) []).dev .mailbox)
      { mbxReq op 0x1200 2 bs with role := 2 } := by
  refine served_mailbox _ (mbxReq op 0x1200 2 bs) rfl ⟨rfl, rfl, ?_, rfl⟩ ?_ ?_ ?_
  · simp [mbxReq] at h ⊢; omega
  · show odFlag (jopState (mbxReq 0 0 0 []) []).dev 0x1100 7 = false
    decide +kernel
  · show powerAllows (jopState (mbxReq 0 0 0 []) []).dev { mbxReq 0 0x1200 2 [] with role := 2 } = true
    decide +kernel
  · fin_cases h <;> rfl

theorem test_hyps_JopObjects_read : ∃ row, odInfo 0x1200 2 = some row ∧ row.acc ≠ 2 ∧ row.acc ≠ 4 ∧ row.typ ≠ 12 :=
  ⟨odBool 2 3 0 0, by decide +kernel⟩

theorem test_hyps_JopObjects_write :
    let d := (jopState (mbxReq 0x02 0x1200 2 [1]) []).dev
    odInfo 0x1200 2 = some (odBool 2 3 0 0) ∧ (odBool 2 3 0 0).acc ≠ 0 ∧ (odBool 2 3 0 0).typ ≠ 12 ∧
    valueStatus (odBool 2 3 0 0) [1] = 0 ∧ (mstate d = 2 → moorRefuses d 0x1200 2 1 = false) := by decide +kernel

/-- No object, no subindex, a read-only row, a wrong length, a value out of range. -/
theorem test_hyps_JopObjects_refused :
    odKind 0x0FFF = none ∧ odKind 0x1200 = some .time ∧ odRow .time 9 = none ∧
    odInfo 0x1000 3 = some (odRo16 3 0 4) ∧ (odRo16 3 0 4).acc = 0 ∧ ([1, 2] : List Byte).length ≠ (odBool 2 3 0 0).size ∧
    (odBool 2 3 0 0).typ ≤ 5 ∧ (odBool 2 3 0 0).hi < leNat [2] := by decide +kernel

/-- OPEN on an enabled key slot, on a disabled one, and where the transport holds its two sessions. -/
def openPayload : List Byte := List.replicate 32 0
def openState (ss : List Session) (od : Tab Nat) : State :=
  let s := jopState (mbxReq 0x10 0 0 openPayload) od
  { s with dev := { s.dev with sessions := ss } }

theorem test_hyps_JopSessions_open (ss : List Session) (od : Tab Nat) (h : powerAllows (openState ss od).dev { op := 0x10 } = true) :
    Served (openState ss od) .mailbox [] 0x10 (popRequest (openState ss od).dev .mailbox)
      { mbxReq 0x10 0 0 openPayload with role := 0 } :=
  ⟨mbxReq 0x10 0 0 openPayload, rfl, by simp, rfl, by simp [vetRequest, mbxReq], rfl, h, rfl⟩

theorem test_hyps_JopSessions_openCases :
    powerAllows (openState [] [(0x111003, 1)]).dev { op := 0x10 } = true ∧
    (mbxReq 0x10 0 0 openPayload).payload.length = 32 ∧ leAt openPayload 1 15 = 0 ∧ leAt openPayload 0 1 ≤ 3 ∧
    odFlag (openState [] [(0x111003, 1)]).dev 0x1110 3 = true ∧ odFlag (openState [] []).dev 0x1110 3 = false ∧
    sessionLimit .mailbox ≤ ((openState [{}, {}] [(0x111003, 1)]).dev.sessions.filter (fun x => x.tr = .mailbox)).length ∧
    ((openState [{}] [(0x111003, 1)]).dev.sessions.filter (fun x => x.tr = .mailbox)).length < sessionLimit .mailbox := by
  decide +kernel

/-- CLOSE in session 7, whose frame carries the tag that the session's key gives. -/
def closeReq : JopReq := { op := 0x11, sid := 7, seq := 1, auth := true, header := [1], authTag := frameTag [] [1] [] }
def closeState : State :=
  let s := jopState closeReq []
  { s with dev := { s.dev with sessions := [{ sid := 7 }] } }

theorem test_hyps_JopSessions_close : ∃ d q, Served closeState .mailbox [] 0x11 d q ∧ (sessionOf d q.tr q.sid).isSome = true ∧ q.payload = [] := by
  have h : vetRequest (popRequest closeState.dev .mailbox) closeReq
      = .go (modSession (modSession (popRequest closeState.dev .mailbox) 7 (fun s => { s with fails := 0 })) 7
          (fun s => { s with lastSeq := 1, lastTag := closeReq.authTag, lastResp := [], usedAt := 7000000000 }))
        (odGet closeState.dev 0x1110 2) := by
    simp [vetRequest, closeReq, sessionOf, popRequest, closeState, jopState, State.reset, admitSession, modSession, odGet]
  exact ⟨_, { closeReq with role := odGet closeState.dev 0x1110 2 }, ⟨closeReq, rfl, by simp, rfl, h, rfl, by decide +kernel,
    by decide +kernel⟩, rfl, rfl⟩

def segState (r : JopReq) (ts : List SegTransfer) : State :=
  let s := jopState r []
  { s with dev := { s.dev with transfers := ts, sessions := [{ sid := 7, usedAt := 1000000000 }] } }

/-- Transfers of IMAGE of slot 0 and of SNAPSHOT of berth 0. -/
def imageTransfer : SegTransfer := { index := 0x3000, sub := 1, write := true, total := 8, moved := 0 }
def snapTransfer : SegTransfer := { index := 0x8820, sub := 0, total := 8, moved := 4 }

theorem test_hyps_JopSessions_segInit :
    let d := (segState (mbxReq 0x03 0x3000 1 [8, 0, 0, 0]) []).dev
    odInfo 0x3000 1 = some (odDom 1 1 2) ∧ (odDom 1 1 2).typ = 12 ∧ (odDom 1 1 2).acc ≠ 0 ∧ transferOf d 0x3000 1 = none ∧
    0 < leAt [8, 0, 0, 0] 0 4 ∧ leAt [8, 0, 0, 0] 0 4 ≤ domainLimit d 0x3000 ∧ mstate d ≠ 2 ∧ (writeStart d 0x3000).2 = 0 ∧
    leAt [0, 0, 0, 0] 0 4 = 0 := by decide +kernel

theorem test_hyps_JopSessions_segData :
    (let q : JopReq := { mbxReq 0x04 0x3000 1 [1, 2, 3, 4] with role := 2 }
     let d := (segState q [imageTransfer]).dev
     myTransfer d q = some imageTransfer ∧ q.offset = imageTransfer.moved ∧
      imageTransfer.moved + q.payload.length < imageTransfer.total ∧ q.payload.length % 4 = 0 ∧
      (segmentEffect d imageTransfer q.payload).isSome = true) ∧
    (let q : JopReq := { mbxReq 0x04 0x8820 0 [4, 0, 0, 0] with role := 2, offset := 4 }
     let d := (segState q [snapTransfer]).dev
     odInfo 0x8820 0 = some (odDom 0 1 2) ∧ myTransfer d q = some snapTransfer ∧ q.offset = snapTransfer.moved ∧
      odKind 0x8820 ≠ some .queue ∧ min (min (leAt q.payload 0 4) (8 - 4)) (maxPayload q.tr) = 8 - 4) := by decide +kernel

theorem test_hyps_JopSessions_segEnd :
    let q : JopReq := { mbxReq 0x05 0x3000 1 [8, 0, 0, 0] with role := 2 }
    let t := { imageTransfer with moved := 8 }
    myTransfer (segState q [t]).dev q = some t ∧ leAt q.payload 0 4 = t.total ∧ t.moved = t.total ∧
    (writeEnd (segState q [t]).dev t).2 = 0 := by decide +kernel

theorem test_hyps_JopSessions_timeouts : let s := segState (mbxReq 0 0 0 []) [imageTransfer]
    transferOf s.dev 0x3000 1 = some imageTransfer ∧ imageTransfer.lastAt + 1000000000 ≤ s.dev.time ∧
    (∃ x ∈ s.dev.sessions, x.sid = 7 ∧ x.usedAt + 6000000000 ≤ s.dev.time) := by decide +kernel

/-- The mailbox with a request of 32 bytes in its buffer. -/
def mbxState (busy : Bool) (rs : Tab (JopReq × List Byte)) : State :=
  { State.reset with dev := { State.reset.dev with
      fw := { fwstate := 2 }
      pcie := { up := true, busMaster := true, unmasked := [32] }
      mbx := { req := [(0, 1), (16, 1), (17, 0x40), (18, 0x12), (19, 2)], busy := busy, irqen := true }
      responses := rs } }

theorem test_hyps_MailboxAndManagement :
    (let s := mbxState false []
     let w : U32 := BitVec.ofNat 32 (2 ^ 31 + 32)
     bit w 31 = true ∧ firmwareReady s.dev = true ∧ (s.dev.mbx.busy || s.dev.mbx.done) = false ∧
      frameBad .mailbox (memReadBytes s.dev.mbx.req 0 (fld w 12 0)) = false ∧ fld w 12 0 = 32 ∧
      frameBad .mailbox (memReadBytes s.dev.mbx.req 0 33) = true) ∧
    Tab.find (mbxState true [(0, {}, [1])]).dev.responses 0 = some ({}, [1]) := by decide +kernel

theorem test_hyps_MailboxAndManagement_registers :
    (0x1000 ≤ (0x1008 : BitVec 20).toNat ∧ (0x1008 : BitVec 20).toNat < 0x2000 ∧ (0x1008 : BitVec 20).toNat % 8 = 0) ∧
    (0x3FFF8 : BitVec 20).toNat = 0x20000 + 8 * (16383 : Fin 16384).val ∧
    (0x400F8 : BitVec 20).toNat = 0x40000 + 8 * (31 : Fin 32).val := by decide

/-- The management port in use with address 10.0.0.1. -/
def mgmtState : State :=
  { State.reset with dev := { State.reset.dev with
      fw := { fwstate := 2 }
      od := [(0x110001, 1), (0x110002, 0x0100000A)] } }
def jopDatagram : Datagram :=
  { arp := none, dst := 0x0100000A, udp := true, dport := 17380, src := 3, sport := 9, body := leBytes 32 (2 ^ 128 + 1) }

theorem test_hyps_MailboxAndManagement_datagram :
    mgmtUp mgmtState.dev = true ∧ jopDatagram.dst.toNat = odGet mgmtState.dev 0x1100 2 ∧
    jopDatagram.dport = odGet mgmtState.dev 0x1100 5 ∧ frameBad .udp jopDatagram.body = false ∧
    mgmtState.dev.power.aux = true := by decide +kernel

/-! Firmware and device time -/

def fwState (f : Firmware) (od : Tab Nat) : State :=
  { State.reset with dev := { State.reset.dev with
      fw := f
      od := od
      time := 1000000000
      pps := { lastEdge := some 500 } } }

theorem test_hyps_FirmwareBoot :
    (∀ c ∈ [1, 2, 3], fwAllowed (fwState { fwstate := 2, inactiveValid := true } []).dev c = true) ∧
    (∀ n ∈ [0, 2, 3], let f := (fwState { running := true, marked := true, fwstate := 1, tries := n } []).dev.fw
      f.running = true ∧ f.marked = true ∧ f.fwstate ≠ 2 ∧ f.bootAt + 1000000000 ≤ 1000000000 ∧ (n < 3 ∨ 3 ≤ f.tries)) ∧
    odGet State.reset.dev 0x1010 1 < 2 ^ 32 := by decide +kernel

/-- A command may be allowed for an object of class P, such as RESTORE_DEFAULTS meets. -/
theorem test_hyps_FirmwareBoot_class : ∃ row, odInfo 0x1200 2 = some row ∧ row.cls = 0 ∧ odKind 0x1200 ≠ some .key :=
  ⟨odBool 2 3 0 0, by decide +kernel⟩

/-- PPS_ENABLE set: an edge on the second, one 10 counts off, one 5 µs off, one 20 µs off. -/
theorem test_hyps_DeviceTime :
    let s := fwState {} [(0x120002, 1)]
    odFlag s.dev 0x1200 2 = true ∧ s.dev.pps.lastEdge = some 500 ∧
    (∀ n ∈ [200000000, 200000010, 199999990, 200000500, 199998000], let te := (BitVec.ofNat 64 n : U64).toNat
      te ≤ s.dev.time ∧ 500 + 50000000 ≤ te ∧ -2000 ≤ secondError te ∧ secondError te ≤ 500) ∧
    odGet s.dev 0x1200 3 = 0 ∧ odGet (fwState {} [(0x120003, 7)]).dev 0x1200 3 ≠ 0 ∧
    500 + 100000000 * (s.dev.pps.missed + 1) + 100000 < s.dev.time ∧ ((BitVec.ofNat 64 600 : U64).toNat : Int) < 500 + 50000000 := by decide +kernel

/-- Seconds are rounded to the nearest (R445). -/
theorem test_secondError : secondError 200000010 = 10 ∧ secondError 199999990 = -10 := by decide

/-! Slots, changeover, halt and scan -/

/-- Berth 0 as given, with the object values `od`; 120 W are available. -/
def coState (x : Berth) (od : Tab Nat) : State :=
  { State.reset with dev := { State.reset.dev with
      fw := { fwstate := 2 }
      power := { fabric := true, cableMv := 12000 }
      time := 90000000
      berths := [(0, x)]
      od := od } }

/-- Slot 2 is LOADED, slot 1 runs, the berth is ACTIVE under epoch 3. -/
def coOd : Tab Nat := [(0x300102, 6), (0x300202, 4), (0x301001, 1), (0x301003, 2), (0x301004, 3)]

/-- A stored container of ten empty sections and the hash; IMGID and hash are SHA-256 values computed apart from the model. -/
def imageBytes : List Byte :=
  let h := 0x474C4E4C + 2 ^ 32 + 4 * 2 ^ 64 + 2 ^ 88 + 0x61cbdb090c4c5c155ae365ea15304246 * 2 ^ 128 + 352 * 2 ^ 256 + 10 * 2 ^ 288
  let entry := fun (t len : Nat) => leBytes 16 (t + 320 * 2 ^ 32 + len * 2 ^ 64)
  leBytes 128 h ++ ([1, 2, 3, 4, 5, 6, 8, 9, 10].flatMap (fun t => entry t 0)) ++ entry 255 32 ++ List.replicate 32 0
    ++ leBytes 32 0x350261c09c0b7de0b5e2371e52256b3325976b3176d258736ade9f21760a4c34

def slotState2 (bs : List Byte) : State :=
  coState { hbm := { mem := memWriteBytes [] (slotStore 2) bs }, slots := [(2, { received := bs.length })] } [(0x300202, 2)]

theorem test_hyps_SlotLoading_refused : let s := slotState2 [1, 2, 3]
    firmwareReady s.dev = true ∧ slotState s.dev 0 2 = 2 ∧
    (loadVerdict {} s.dev 0 2 3 (slotBytes s.dev 0 2)).isSome = true := by decide +kernel

theorem test_hyps_SlotLoading_accepted : let s := slotState2 imageBytes
    slotState s.dev 0 2 = 2 ∧ loadVerdict {} s.dev 0 2 352 (slotBytes s.dev 0 2) = none ∧
    (poolAllocAll (berthAt s.dev 0).hbm (0x10000 + 2) (spillSizes {})).isSome = true := by decide +kernel

theorem test_hyps_SlotLoading_written :
    let s := coState { slots := [(2, { image := some { planes := [(33, {})] } })] } [(0x300202, 3)]
    firmwareReady s.dev = true ∧ slotState s.dev 0 2 = 3 ∧ (slotAt s.dev 0 2).image = some { planes := [(33, {})] } ∧
    (∀ n ∈ [4, 7], slotState (coState {} [(0x300202, n)]).dev 0 2 = n) := by decide +kernel

/-- 120 W, a free berth, slot 2 LOADED, for a pipeline of one berth and one of two. -/
theorem test_hyps_ChangeoverCommands :
    (∀ ps ∈ [[], [1]], let s := coState { slots := [(2, { image := some { partners := ps } })] } coOd
      120 ≤ availW s.dev ∧ (berthAt s.dev 0).co.active = false ∧ repairBusy s.dev 0 = false ∧ bstate s.dev 0 ≠ 4 ∧ bstate s.dev 0 ≠ 5 ∧
      slotState s.dev 0 2 = 4 ∧ (pipelineBerths s.dev 0 2).Nodup ∧ ∀ x ∈ pipelineBerths s.dev 0 2, x < 4) ∧
    availW State.reset.dev < 120 ∧ slotState (coState {} coOd).dev 0 3 ≠ 4 ∧ (coState { co := { active := true } } coOd).dev.berths ≠ [] ∧
    runSlot (coState {} coOd).dev 0 = 1 ∧ bstate (coState {} []).dev 0 = 0 := by decide +kernel

/-- A halted berth whose scan area holds the running slot's state. -/
def haltedState (frames : List (Nat × U32)) : State :=
  let s := coState { slots := [(1, { imgid := 9, image := some { planes := [(33, {})] } })] } [(0x300102, 6), (0x301001, 1), (0x301003, 4)]
  { s with dev := modBerth s.dev 0 (fun x => { x with scan := { allocated := true, header := scanHeader s.dev 0, frames := frames, tiles := [(33, {}), (65, {})] } }) }

theorem test_hyps_ChangeoverCommands_hold : let s := haltedState []
    bstate s.dev 0 = 4 ∧ scanMatches s.dev 0 = true ∧ repairBusy s.dev 0 = false ∧ runSlot s.dev 0 = 1 ∧
    scanMatches (coState {} coOd).dev 0 = false := by decide +kernel

def stageState (c : Changeover) (od : Tab Nat) : State :=
  coState { co := c, slots := [(2, { image := some { planes := [(33, {})] } })] } od

theorem test_hyps_ReleaseAndDrain :
    (∀ n ∈ [0, 1, 2], let s := stageState { active := true, target := 2, stage := n, mode := 1, since := 0 } coOd
      (coOf s.dev 0).active = true ∧ (coOf s.dev 0).target < 4 ∧ (slotAt s.dev 0 2).image.isSome = true ∧
      (coOf s.dev 0).stage = n ∧ (coOf s.dev 0).arriveHalted = false ∧ slotPaired s.dev 0 2 = true ∧ (coOf s.dev 0).mode ≠ 0 ∧
      runSlot s.dev 0 < 4 ∧ runSlot s.dev 0 ≠ 2) ∧
    (∀ k ∈ [2, 15], let s := stageState { active := true, target := k, stage := 2, mode := 0, since := 0 } coOd
      (coOf s.dev 0).mode = 0 ∧ (coOf s.dev 0).marksSent = false ∧ runSlot s.dev 0 < 4 ∧ slotPaired s.dev 0 k = true ∧
      (coOf s.dev 0).since + 100000 * odGet s.dev (0x3010 + 0) 6 ≤ s.dev.time) := by decide +kernel

/-- Slot 1 runs and slot 2 comes in: at stage 1; then with its units beside, its marks sent and its switches made. -/
def twoEpochs (x : Berth) (c : Changeover) : State :=
  coState { x with co := { c with active := true, target := 2 }, unitSlot := some 1, slots := [(1, { image := some {} }), (2, { image := some {} })] } coOd

theorem test_hyps_ReleaseAndDrain_units :
    (let s := twoEpochs {} { stage := 1 }
     let c := coOf s.dev 0
     c.active = true ∧ c.target < 4 ∧ c.stage = 1 ∧ c.mode = 0 ∧ runSlot s.dev 0 < 4 ∧ (slotAt s.dev 0 c.target).image = some {}) ∧
    (let u : UnitTables := { slot := some 2 }
     let s := twoEpochs { incoming := some u, feederOpen := true } { stage := 2, marksSent := true, enginesSwitched := [4], cropSwitched := true }
     let c := coOf s.dev 0
     (berthAt s.dev 0).incoming = some u ∧ u.slot = some c.target ∧ c.active = true ∧ (berthAt s.dev 0).unitSlot ≠ some c.target ∧
      c.enginesSwitched.contains 4 = true ∧ c.marksSent = true ∧ endsDrained s.dev (managerEnds (runBind s.dev 0)) = true ∧
      c.cropSwitched = true) := by decide +kernel

/-- The feeder of a berth that has sent its marks may start a frame of the incoming epoch. -/
theorem test_hyps_ReleaseAndDrain_feeder :
    let s := twoEpochs { incoming := some { slot := some 2 }, feederOpen := true } { stage := 2, marksSent := true }
    let d := { s.dev with streams := [(5, { active := true, pics := [{ cap := 3 }] })] }
    (coOf d 0).marksSent = true ∧ feederReady d 0 = true := by decide +kernel

/-- Context 1 of tile (1, 1) pops a marked queue that holds its initial token, in an orderly changeover. -/
def drainState : State :=
  let w : BitVec 128 := BitVec.ofNat 128 (1 * 2 ^ 109 + 3 * 2 ^ 105 + 1 * 2 ^ 99)
  coState
    { co := { active := true, target := 2 }
      tiles := [(33, { run := 1, planes := [(1, { steps := [(0, w)], ctx := [(1, { state := .wait })], iq := [(3, { mark := true })] })] })] } coOd

def tile1 : TileId := ⟨0, 1, 1⟩

theorem test_hyps_ReleaseAndDrain_context : let s := drainState
    let T := tileAt s.dev 0 (keyOf s.dev tile1)
    (coOf s.dev 0).active = true ∧ (coOf s.dev 0).mode = 0 ∧ T.run = runSlot s.dev 0 ∧ (coOf s.dev 0).target ≠ T.run ∧
    (ctxAt (planeAt T T.run) 1).drained = false ∧ contextDrained (planeAt T T.run) 1 = true ∧ (∀ f ∈ T.inflight, f.ctx ≠ 1) := by
  decide +kernel

theorem test_hyps_HaltScanReset :
    (let s := coState {} coOd
     (coOf s.dev 0).active = false ∧ bstate s.dev 0 = 2 ∧ mstate s.dev = 0) ∧
    (let s := coState { haltDone := true } coOd
     (berthAt s.dev 0).haltDone = true ∧ berthQuiet s.dev 0 = true) ∧
    (let s := haltedState []
     (coOf s.dev 0).active = false ∧ odGet s.dev (0x8020 + 0) 1 ≠ 6 ∧ (berthAt s.dev 0).scan.allocated = true ∧
      (∀ c < 20, spareEntry s.dev 0 c < 256) ∧ scanInOk s.dev 0 = true ∧
      (List.map (fun p => physKey s.dev 0 (p.1 / 32) (p.1 % 32)) (berthAt s.dev 0).scan.tiles).Nodup) ∧
    scanInOk (haltedState [(5, 1)]).dev 0 = false := by decide +kernel

/-! Adaptation -/

/-- Slot 1 of berth 0 runs an image with a head on tile (1, 1), under epoch 2. -/
def headDecl : HeadDecl := { batch := 2, tiles := [33], entryTiles := [33], tapTid := 5, tapTokens := 1, classes := 9 }
def adaptState1 (a : Adapt) (od : Tab Nat) : State :=
  let p : Plane := { adapt := { aen := true, hold := true, hctx := 1 }, swap := { fpc := 6, g := 4 }, ctx := [(1, { state := .hurdle })] }
  coState { adapt := a, slots := [(1, { imgid := 9, image := some { head := some headDecl } })], tiles := [(33, { run := 1, planes := [(1, p)] })] }
    (coOd ++ od)

/-- A target item of class 3 for identity 9. -/
def targetItem : List Byte :=
  leBytes 32 (3 * 2 ^ 16) ++ leBytes 32 (9 * 2 ^ 192 + 5 * 2 ^ 48 + 1 * 2 ^ 8) ++ List.replicate 64 0

/-- Queue 5 is the target queue and holds 8 entries. -/
def targetState : State :=
  let s := adaptState1 {} [(0x400502, 1), (0x880002, 5)]
  { s with dev := { s.dev with queues := [(5, { enabled := true, pi := 8 })] } }

theorem test_hyps_AdaptationCommands_target : let s := targetState
    headOf s.dev 0 = some headDecl ∧ firmwareReady s.dev = true ∧ odGet s.dev 0x8800 2 = 5 ∧ (ringOf s.dev 5).enabled = true ∧
    qDir s.dev 5 = 1 ∧ targetEntries (dropHostGaps s.dev 5) 5 targetItem ≤ ringHeld (ringOf (dropHostGaps s.dev 5) 5) ∧
    leAt targetItem 0 1 ≠ 0xFE ∧ targetGood headDecl 9 targetItem = true ∧ targetGood headDecl 8 targetItem = false ∧
    (let gap : List Byte := 0xFE :: List.replicate 31 0
     targetEntries (dropHostGaps s.dev 5) 5 gap ≤ ringHeld (ringOf (dropHostGaps s.dev 5) 5) ∧ leAt gap 0 1 = 0xFE) := by decide +kernel

theorem test_hyps_AdaptationCommands_update :
    (let s := adaptState1 { accepted := [(3, targetItem), (4, targetItem)] } [(0x880001, 1)]
     headOf s.dev 0 = some headDecl ∧ updateDue s.dev 0 headDecl = true) ∧
    updateDue (adaptState1 {} []).dev 0 headDecl = false := by decide +kernel

theorem test_hyps_AdaptationCommands_commit :
    (let s := adaptState1 { committing := true } []
     headOf s.dev 0 = some headDecl ∧ (adaptOf s.dev 0).committing = true ∧ (adaptOf s.dev 0).snapshotTaken = false ∧
      rollbackBusy s.dev 0 = true) ∧
    (let s := adaptState1 { pendingEpoch := some {} } []
     (adaptOf s.dev 0).pendingEpoch.isSome = true ∧ headDecl.entryTiles ≠ [] ∧
      ∀ k ∈ headKeys s.dev 0 headDecl.entryTiles, tileHeld (tileAt s.dev 0 k) = true) := by decide +kernel

/-- Epoch 3 is current and epoch 2 is in the ring. -/
theorem test_hyps_AdaptationCommands_rollback :
    let s := adaptState1 { ring := [{ number := 2, slot := 1 }, { number := 3, slot := 1 }] } [(0x88000D, 2), (0x881002, 3)]
    rollbackEpoch s.dev 0 3 = some 2 ∧ rollbackEpoch s.dev 0 4 = some 0 ∧ rollbackEpoch s.dev 0 5 = some 2 ∧
    rollbackBusy s.dev 0 = false ∧ rollbackEpoch (adaptState1 {} [(0x88000D, 2)]).dev 0 5 = none := by decide +kernel

/-! Folsa ports -/

/-- Folsa port 0 as given, in STATE `st`. -/
def folsaState (f : Folsa) (st : Nat) (on : Nat) : State :=
  { State.reset with dev := { State.reset.dev with
      power := { fabric := true }
      time := 50000000
      folsa := [(0, f)]
      ports := [(7, { link := true, fin := { filled := 9, freed := 2 } }), (8, { link := true, fin := { receiver := true } })]
      od := [(0x890001, on), (0x890002, st)] } }

theorem test_hyps_FolsaCommands :
    (let s := folsaState { cable := true } 1 1
     odFlag s.dev 0x8900 1 = true ∧ folsaLive s.dev = true ∧ (folsaAt s.dev 0).cable = true ∧ fState s.dev 0 = 1) ∧
    odFlag (folsaState {} 0 0).dev 0x8900 1 = false ∧ (∀ n ∈ [2, 3, 5], fState (folsaState {} n 1).dev 0 = n) := by decide +kernel

/-- A CRC taken in two parts. -/
theorem crc_chunk (v r c : Nat) (n m k : Nat) (hk : k = m + n) (h : crcBits 16 0x1021 (v / 2 ^ m) n r = c) :
    crcBits 16 0x1021 v k r = crcBits 16 0x1021 v m c := by
  subst hk
  induction n generalizing r with
  | zero => simp [crcBits] at h; simp [h]
  | succ n ih =>
    rw [← Nat.add_assoc, crcBits]
    apply ih
    rw [crcBits] at h
    rw [Nat.pow_add, ← Nat.div_div_eq_div_mul]
    exact h

/-- A frame with header `h` and nothing else, under CRC `c`. -/
def frameOf (h c : Nat) : List Byte := leBytes 8 h ++ List.replicate 490 0 ++ leBytes 2 c

theorem frameOf_good (h c : Nat) (hl : leAt (frameOf h c) 498 2 = c)
    (hc : crcBits 16 0x1021 (leNat ((frameOf h c).take 498).reverse) 3984 0xFFFF = c) : frameGood (frameOf h c) = true := by
  have : (frameOf h c).length = 500 := by
    rw [frameOf, List.length_append, List.length_append, List.length_replicate]
    rfl
  simp [frameGood, this, hl, hc]

/-- CRC of the idle frame of a peer that has sent nothing, and of its frame 1 with one slot. -/
theorem crc_idle : crcBits 16 0x1021 (leNat ((frameOf 0 60921).take 498).reverse) 3984 0xFFFF = 60921 := by
  rw [crc_chunk _ 65535 5903 498 3486 3984 rfl (by decide +kernel)]
  rw [crc_chunk _ 5903 4071 498 2988 3486 rfl (by decide +kernel)]
  rw [crc_chunk _ 4071 46998 498 2490 2988 rfl (by decide +kernel)]
  rw [crc_chunk _ 46998 14628 498 1992 2490 rfl (by decide +kernel)]
  rw [crc_chunk _ 14628 36468 498 1494 1992 rfl (by decide +kernel)]
  rw [crc_chunk _ 36468 7507 498 996 1494 rfl (by decide +kernel)]
  rw [crc_chunk _ 7507 17134 498 498 996 rfl (by decide +kernel)]
  rw [crc_chunk _ 17134 60921 498 0 498 rfl (by decide +kernel)]
  rfl

theorem crc_frame1 : crcBits 16 0x1021 (leNat ((frameOf (1 + 2 ^ 52) 50900).take 498).reverse) 3984 0xFFFF = 50900 := by
  rw [crc_chunk _ 65535 35759 498 3486 3984 rfl (by decide +kernel)]
  rw [crc_chunk _ 35759 41470 498 2988 3486 rfl (by decide +kernel)]
  rw [crc_chunk _ 41470 57126 498 2490 2988 rfl (by decide +kernel)]
  rw [crc_chunk _ 57126 32232 498 1992 2490 rfl (by decide +kernel)]
  rw [crc_chunk _ 32232 36869 498 1494 1992 rfl (by decide +kernel)]
  rw [crc_chunk _ 36869 40515 498 996 1494 rfl (by decide +kernel)]
  rw [crc_chunk _ 40515 27187 498 498 996 rfl (by decide +kernel)]
  rw [crc_chunk _ 27187 50900 498 0 498 rfl (by decide +kernel)]
  rfl

theorem test_hyps_FolsaCommands_frames :
    frameGood (frameOf 0 60921) = true ∧ frameGood (frameOf (1 + 2 ^ 52) 50900) = true :=
  ⟨frameOf_good _ _ (by decide +kernel) crc_idle, frameOf_good _ _ (by decide +kernel) crc_frame1⟩

theorem test_hyps_FolsaCommands_sequence :
    nbits (leAt (frameOf 0 60921) 0 8) 55 52 = 0 ∧ BitVec.ofNat 16 (nbits (leAt (frameOf 0 60921) 0 8) 15 0) = ({} : Folsa).rxNext - 1 ∧
    nbits (leAt (frameOf (1 + 2 ^ 52) 50900) 0 8) 55 52 ≠ 0 ∧
    BitVec.ofNat 16 (nbits (leAt (frameOf (1 + 2 ^ 52) 50900) 0 8) 15 0) = ({} : Folsa).rxNext ∧ frameGood [1] = false := by decide +kernel

/-- HELLO of version 2, and of version 3 alone. -/
def helloOf (lo hi : Byte) : List Byte := [1, lo, hi, 0, 5, 0, 0, 0, 0, 0, 0, 0]

theorem test_hyps_FolsaCommands_hello :
    (∀ r ∈ [helloOf 1 2, helloOf 3 3], let s := folsaState { hello := [r] } 2 1
      (folsaAt s.dev 0).hello = [r] ∧ fState s.dev 0 = 2 ∧ peerChanged (folsaAt s.dev 0) r = false) ∧
    helloVersion (helloOf 3 3) = 0 ∧ helloVersion (helloOf 1 2) ≠ 0 := by decide +kernel

/-- A SEM record for a sender's channel, for a receiver's, and for one not in use. -/
def semRec (ch : Byte) : List Byte := [2, ch, 0, 0, 3, 0, 0, 0, 5, 0, 0, 0]
def semChannels : Tab FolsaChannel := [(1, { used := true, port := 7 }), (2, { used := true, port := 8 })]

theorem test_hyps_FolsaCommands_sem :
    (∀ ch ∈ [1, 2, 3], (folsaAt (folsaState { sems := [semRec ch], channels := semChannels } 3 1).dev 0).sems = [semRec ch]) ∧
    (let s := folsaState { sems := [semRec 1], channels := semChannels } 3 1
     let c := Tab.get {} (folsaAt s.dev 0).channels (leAt (semRec 1) 1 1)
     c.used = true ∧ (portAt s.dev c.port).fin.receiver = false ∧ c.restore = false ∧
      semFits (portAt s.dev c.port).fin (BitVec.ofNat 32 (leAt (semRec 1) 4 4)) (BitVec.ofNat 32 (leAt (semRec 1) 8 4)) = true) ∧
    (portAt (folsaState {} 3 1).dev 8).fin.receiver = true := by decide +kernel

/-- The second half of a claim on channels 3 to 5, behind its first. -/
def pairHalf (top : Byte) : List Byte := [3, 3 + top, 5, 0] ++ leBytes 16 9 ++ List.replicate 12 0

theorem test_hyps_FolsaCommands_pair :
    let f : Folsa := { pairs := [pairHalf 128], halfPairs := [pairHalf 0] }
    let r := pairHalf 128
    128 ≤ leAt r 1 1 ∧ f.halfPairs.find? (fun h => decide (leAt h 1 1 = leAt r 1 1 % 128) && decide (leAt h 2 2 = leAt r 2 2)) = some (pairHalf 0) ∧
    leAt r 1 1 % 128 ≤ 4 ∧ 4 ≤ leAt r 2 1 := by decide +kernel

/-- A link that goes down, and one that has been down beyond its hold time under a running pipeline. -/
theorem test_hyps_FolsaCommands_down :
    (∀ c ∈ [DownCause.resends, .laneLock], let s := folsaState { fails := 17, sent := [{ seq := 4 }] } 3 1
      folsaLive s.dev = true ∧ fState s.dev 0 = 3 ∧ downCause (folsaAt s.dev 0) c = true) ∧
    (let s := coState { slots := [(1, { image := some { channels := [(0, 4, 7)] } })] } (coOd ++ [(0x890002, 4)])
     let s := { s with dev := { s.dev with folsa := [(0, { downSince := some 5 })] } }
     fState s.dev 0 ≠ 3 ∧ (folsaAt s.dev 0).downSince = some 5 ∧ 5 + 100000 * odGet s.dev 0x8900 4 ≤ s.dev.time ∧
      portBerths s.dev 0 = [0] ∧ ∀ x ∈ pipelineBerths s.dev 0 1, x < 4) := by decide +kernel

theorem test_hyps_FolsaFrameReadsBack :
    let ss : List SlotOut := [(63, { data := 2 }, none), (5, { data := 7, sb := { v := true, l := true, f := 4095 } }, some 9)]
    ss.length ≤ 14 ∧ (∀ x ∈ ss, x.1 < 64) ∧ (∀ x ∈ (some (1, (9 : BitVec 16)) : Option (Nat × BitVec 16)), x.1 < 14) := by decide

/-! The fault hub, credit timeouts and test mode -/

/-- A hub as given, at time 500000, with a window of 2000 ns. -/
def hubState (h : Hub) : State :=
  { State.reset with dev := { State.reset.dev with
      hub := h
      time := 500000 } }

def report1 : Report := { source := 4, time := 9, blame := 33, info := 5 }
def record1 (n : U32) : FaultRec := { seq := n, source := 4, blame := 33, time := 3, written := 7 }

theorem test_hyps_FaultHub_arrival :
    lateMatch (hubState {}).dev report1 = none ∧ lateMatch (hubState { log := [record1 6] }).dev report1 = some 6 ∧
    [record1 0].any (sameFault report1) = true ∧ [{ record1 0 with blame := 34 }].any (sameFault report1) = false := by decide +kernel

/-- A watchdog record before a record of the array residue, and one alone. -/
theorem test_hyps_FaultHub_close :
    (let s := hubState { stormOpen := true, stormAt := 9, storm := [{ record1 0 with source := 8 }, record1 0] }
     s.dev.hub.stormOpen = true ∧ s.dev.hub.stormAt + odGet s.dev 0x8010 6 / 10 ≤ s.dev.time ∧
      record1 0 ∈ s.dev.hub.storm ∧ isTimeout (record1 0).source = false ∧ rootOf s.dev.hub.storm = some (record1 0)) := by
  decide +kernel

theorem test_hyps_FaultHub_reaction :
    reactionRefused 4 0x101 = false ∧ reactionRefused 4 4 = true ∧ reactionRefused 0x088 0x104 = true ∧ reactionRefused 7 4 = false ∧
    reactionRefused 511 1023 = true := by decide

/-- A module with one berth as given, RUNNING, whose credit timer has reached 1,000,000. -/
def timerState (x : Berth) : State := coState { x with cto := 1000000 } coOd

/-- Tile (1, 1): context 0 wants one token of credit of output queue 2, which has none. -/
def starvedState : State :=
  timerState { tiles := [(33, { run := 1, planes := [(1, { live := true, steps := [(0, BitVec.ofNat 128 (0x01 + 2 * 2 ^ 85 + 2 ^ 80))], ctx := [(0, { state := .wait })] })] })] }

theorem test_hyps_TimeoutsAndTestMode_context : let s := starvedState
    timersRun s.dev 0 = true ∧ contextStarved s.dev 0 (keyOf s.dev tile1) 0 = true ∧
    (let x := headWork s tile1 0
     wOq x.w = 2 ∧ x.ctx.waitFrom + ctoFclk s.dev ≤ (berthAt s.dev 0).cto) := by decide +kernel

/-- Station port 0 with a unit that waits, a link sender that waits, and a stride thread that waits. -/
def portWait : State :=
  let s := timerState {}
  { s with dev := { s.dev with
      ends := [(0, { valid := true, tokens := [{}], waiting := true })]
      ports := [(1, { valid := true, link := true, fin := { buf := [{}], cap := 4, filled := 5 }, uend := { waiting := true } })] } }

theorem test_hyps_TimeoutsAndTestMode_ends : let s := portWait
    timersRun s.dev 0 = true ∧ unitStarved (endAt s.dev (portKey 0 0 0)) = true ∧ endLate s.dev 0 (endAt s.dev (portKey 0 0 0)) = true ∧
    senderStarved s.dev (portKey 0 0 1) (portAt s.dev (portKey 0 0 1)) = true ∧
    endLate s.dev 0 (portAt s.dev (portKey 0 0 1)).uend = true ∧ (berthAt s.dev 0).incoming = none := by decide +kernel

def threadWait : State :=
  let x := strideState (strideWord 0x10 (lenBits 4)) true [] 0
  let s := timerState (berthAt x.dev 0)
  { s with dev := { s.dev with ends := [(0, { valid := true, cred := 1, credmax := 20, waiting := true })] } }

theorem test_hyps_TimeoutsAndTestMode_thread : let s := threadWait
    timersRun s.dev 0 = true ∧ engineSwitched s.dev 0 1 = false ∧ threadStarved s.dev 0 1 2 3 = true ∧
    (let pk := eqKey (seOf s.dev 0 1 2)
     endLate s.dev (pk / 1280) (endAt s.dev pk) = true) := by decide +kernel

theorem test_hyps_TimeoutsAndTestMode_spare :
    let s := coState { repair := { active := true, spare := some 1 }, slots := [(1, { image := some { planes := [(tileKey 1 2, {})] } })] } ((0x311002, 130) :: coOd)
    let row := spareRow s.dev 0 1
    (berthAt s.dev 0).repair.active = true ∧ (berthAt s.dev 0).repair.spare = some 1 ∧
    (((slotAt s.dev 0 1).image).bind (fun img => Tab.find img.planes (tileKey 1 row))).isSome = true := by decide +kernel

/-- Test mode entered, with injection point 3 for source `src`, armed once. -/
def armedState (src : Nat) : State :=
  { State.reset with dev := { State.reset.dev with
      power := { testEn := true }
      armed := [(3, 1)]
      od := [(0xF00001, 1), (0xF01301, src)] } }

theorem test_hyps_TimeoutsAndTestMode_points :
    (let s := armedState 0
     testMode s.dev = true ∧ odGet s.dev (0xF010 + 3) 4 = 0 ∧ Tab.find s.dev.armed 3 = some 1 ∧ Tab.find s.dev.armed 4 = none) ∧
    (∀ n ∈ [0, 14, 0x086, 6], injectable (odGet (armedState n).dev (0xF010 + 3) 1) = true) ∧
    testMode State.reset.dev = false ∧
    (let s := { State.reset with dev := { State.reset.dev with power := { testEn := true } } }
     s.dev.power.testEn = true ∧ (0x54455354 : U32).toNat = 0x54455354 ∧ odGet s.dev 0xF000 1 = 0) := by decide +kernel

/-! Power, clocks and background work -/

/-- A module whose rails are up, at 3,000 MHz, with the object values `od`. -/
def powerState (p : Power) (od : Tab Nat) : State :=
  { State.reset with dev := { State.reset.dev with
      fw := { running := true, fwstate := 2 }
      power := p
      time := 90000000
      berths := [(0, {})]
      od := od } }

def railsUp : Power := { control := true, fabric := true, slot12 := true, fR := 3000, want := 3000 }

theorem test_hyps_PowerStates_berth :
    (let s := powerState railsUp []
     holdAllowed s.dev 0 = true ∧ dozeAllowed s.dev 0 = true ∧ mstate s.dev = 0 ∧ bpstate s.dev 0 = 0) ∧
    (let s := powerState railsUp [(0x841001, 2)]
     holdAllowed s.dev 0 = false ∧ dozeAllowed s.dev 0 = false ∧ bpstate s.dev 0 ≠ 0) ∧
    (let s := powerState railsUp [(0x301003, 2), (0x841003, 1), (0x841004, 1)]
     odFlag s.dev (0x8410 + 0) 3 = true ∧ bpstate s.dev 0 = 0 ∧ bstate s.dev 0 = 2 ∧ quiescent s.dev 0 = true ∧
      (berthAt s.dev 0).idleSince + 100 * odGet s.dev (0x8410 + 0) 4 ≤ s.dev.time) ∧
    (let s := coState { hbm := { transfers := [readTransfer] } } [(0x841001, 1)]
     quiescent s.dev 0 = false ∧ bpstate s.dev 0 = 1 ∧ wakeDue s.dev 0 = true) := by decide +kernel

theorem test_hyps_PowerStates_module :
    moorAllowed (powerState railsUp []).dev = true ∧ moorAllowed State.reset.dev = false ∧
    mstate (powerState railsUp [(0x840008, 2)]).dev = 2 ∧
    (let s := powerState { slot12 := true } [(0x840008, 5)]
     mstate s.dev = 5 ∧ s.dev.power.tripped = false ∧ s.dev.power.slot12 = true ∧ s.dev.power.aux = true) ∧
    mstate State.reset.dev ≠ 2 ∧ mstate State.reset.dev ≠ 5 ∧
    (let s := powerState { railsUp with leavingMoor := true } [(0x300003, 3), (0x300102, 3)]
     let s := { s with dev := setSlot s.dev 0 1 { image := some {} } }
     s.dev.power.leavingMoor = true ∧ mstate s.dev = 0 ∧ slotState s.dev 0 1 = 3 ∧ (slotAt s.dev 0 1).image.isSome = true) := by
  decide +kernel

theorem test_hyps_ClockAndVoltage :
    (let s := powerState railsUp []
     s.dev.power.control = true ∧ mstate s.dev = 0 ∧ s.dev.power.fabric = true ∧ s.dev.power.aux = true) ∧
    (∃ t ∈ [(0 : Int), 105000], 105000 ≤ t) ∧ (∀ t ∈ [(0 : Int), 92000], t ≤ 92000) ∧
    ((∃ t ∈ [(0 : Int), 95000, 104999], 95000 ≤ t) ∧ ∀ t ∈ [(0 : Int), 95000, 104999], t < 105000) ∧
    (let s := powerState { railsUp with fR := 2400 } []
     1000 * effectiveW s.dev < 66001 ∧ s.dev.power.fR = 2400) ∧
    (let s := powerState railsUp []
     0 + 5000 ≤ 1000 * effectiveW s.dev ∧ s.dev.power.voltReq = false ∧ s.dev.power.fR + 100 ≤ odGet s.dev 0x8400 2) := by decide +kernel

/-- Whatever the fused voltage table holds, a correction of ± 10 V leaves a setpoint that is below, or at or above, 0.80 V. -/
theorem test_hyps_ClockAndVoltage_setpoint : ∃ c : Int, let s := powerState { railsUp with corr := [(0, c)], above := [(0, 99)] } []
    800 ≤ wantedMv s.dev 0 s.dev.power.fR ∧ Tab.get 0 s.dev.power.above 0 = 99 :=
  ⟨800, by
    show (800 : Int) ≤ (Config.vtab 3000 : Int) + _ + 800
    omega, rfl⟩

theorem test_hyps_ClockAndVoltage_margin : ∃ c : Int, let s := powerState { railsUp with corr := [(0, c)] } []
    wantedMv s.dev 0 s.dev.power.fR < 800 :=
  ⟨-(Config.vtab 3000 : Int), by
    show (Config.vtab 3000 : Int) + ((odGet (powerState railsUp []).dev 0x8410 6 : Nat) : Int) + -(Config.vtab 3000 : Int) < 800
    have : odGet (powerState railsUp []).dev 0x8410 6 = 0 := by decide +kernel
    omega⟩

theorem test_hyps_BackgroundWork :
    (let s := powerState railsUp []
     let r : Readings := { sensors := List.replicate 9 40000, inputs := [1, 2, 3], energyMj := 7 }
     s.dev.fw.running = true ∧ r.sensors.length = 9 ∧ r.inputs.length = 3) ∧
    (∀ e ∈ [Ecc.single, .double], let s := coState { tiles := [(0, { ecc := [(5, e)] })] } []
      s.dev.power.fabric = true ∧ mstate s.dev = 0 ∧ bpstate s.dev 0 ≠ 2 ∧ Tab.find (tileAt s.dev 0 (tileKey 0 0)).ecc 5 = some e ∧
      (tileAt s.dev 0 (tileKey 0 0)).relay = false) ∧
    (∀ n ∈ [1, 2], let s := powerState railsUp []
      let s := { s with dev := modBerth s.dev 0 (fun x => { x with hbm := { err := [(9, { payload := n })] } }) }
      s.dev.power.control = true ∧ (berthAt s.dev 0).hbm.selfRefresh = false ∧ (Tab.get {} (berthAt s.dev 0).hbm.err 9).payload = n) ∧
    odGet (powerState railsUp []).dev (0x8410 + 0) 6 + 5 ≤ 50 ∧
    50 < odGet (powerState railsUp [(0x841006, 50)]).dev (0x8410 + 0) 6 + 5 := by decide +kernel

/-! The card and its resets -/

theorem test_hyps_CardEvents_power :
    cablePresent State.reset.dev = false ∧ cablePresent (coState {} coOd).dev = true ∧ runSlot (coState {} coOd).dev 0 < 4 ∧
    (∀ b < 4, 4 ≤ runSlot (powerState { railsUp with cableMv := 12000 } []).dev b) ∧ cablePresent (powerState { railsUp with cableMv := 12000 } []).dev = true ∧
    (powerState railsUp []).dev.power.control = true ∧ State.reset.dev.power.aux = true ∧ State.reset.dev.power.perstLow = true ∧
    (powerState { railsUp with perstLow := true } []).dev.power.perstLow = true ∧ State.reset.dev.power.control = false ∧
    (let e := slotValid (powerState { aux := true } []).dev
     e.power.control = true) := by decide +kernel

theorem test_hyps_CardEvents_cage :
    let s := powerState railsUp [(0x200001, 1)]
    let s := { s with dev := { s.dev with sfp := [(0, { present := true, txDisable := false })], pcie := { pending := [3], unmasked := [3] } } }
    odFlag s.dev (0x2000 + 0) 1 = true ∧ (sfpAt s.dev 0).present = true ∧ (sfpAt s.dev 0).txDisable = false ∧
    3 ∈ s.dev.pcie.pending ∧ 3 ∈ s.dev.pcie.unmasked := by decide +kernel

theorem test_hyps_ModuleResets :
    State.reset.dev.power.aux = true ∧ mstate State.reset.dev ≠ 5 ∧ mstate (powerState {} [(0x840008, 5)]).dev = 5 ∧
    (powerState { aux := false } []).dev.power.aux = false ∧
    (∀ x ∈ [({ sid := 1, tr := .udp } : Session)], x.tr ≠ .mailbox) := by decide +kernel

/-! Worked examples of the specification -/

/-- The worked example to the bit of chapter 3: expansion, products, corrected sum, requantised code; R68's ties. -/
theorem test_rq_worked_example : wint 0x068 = 768 ∧ wint 0x153 = -304 ∧ wint 0x005 = 5 ∧
    200 * wint 0x068 + 37 * wint 0x153 + 129 * wint 0x005 = 142997 ∧ res3 142997 = 2 ∧ toA48 (37 * wint 0x153) = 0xFFFFFFFFD410 ∧
    clampU8 (scaledRounded 82965 0x40666666 (-13) + 20) = 56 := by decide +kernel

theorem test_rne_ties : rneShift 5 1 = 2 ∧ rneShift 7 1 = 4 ∧ rneShift (-5) 1 = -2 ∧ rneShift (-1) 1 = 0 := by decide

/-- Chapter 4's headlight element: M1 = rne32(2/3) and t = 301. -/
theorem test_scale_worked_example : f32Div 0x3D000000 0x3D400000 = 0x3F2AAAAB ∧
    scaledRounded 3698688 0x3F2AAAAB (-13) = 301 := by decide +kernel

/-- Chapter 5's examples of ELT, POOL, GPOOL, RESIZE, SOFTMAX, LNORM, SCALE and STAT. -/
theorem test_elt_worked_example : eltValue 0 0x3F000000 0x3F400000 22 40 + 10 = 51 ∧
    eltValue 0 0x3F000000 0x3F400000 23 40 + 10 = 52 := by decide +kernel

theorem test_average_worked_examples : avgValue (1 + 2 + 3 + 4) 0x3F800000 4 = 2 ∧ avgValue 40 0x3F800000 16 = 2 := by decide +kernel

theorem test_resize_worked_example : bilin 9 3 3 1 10 10 10 18 = 10 := by decide

theorem test_softmax_worked_example :
    let pl : Plane := { lt := [(0, 65535), (10, 39749), (50, 5379)] }
    let es := [(200, true), (190, true), (150, true)]
    softSum pl 0 (softMax es) es = 110663 ∧ rneDiv (255 * 65535) 110663 = 151 ∧ rneDiv (255 * 39749) 110663 = 92 ∧
    rneDiv (255 * 5379) 110663 = 12 := by decide +kernel

theorem test_lnorm_worked_example : lnormValues [3, -1, 1, -3] 0 0x42000000 = [43, -14, 14, -43] := by decide +kernel

theorem test_scale_factor_worked_example : (scaleFactors 1 0 0x3D800000 0x3C800000 0x3C000000).1 = 0x3E000000 := by decide +kernel

theorem test_stat_worked_example : (leBytes 8 (statPayload 301 0x12 217 true).toNat) =
    [0x2D, 0x01, 0, 0, 0x12, 0, 0xD9, 0x04] := by decide +kernel

/-- Chapter 7's class-aware selection and its crop sample. -/
def candidate (n score x0 y0 x1 y1 : Nat) : Cand :=
  ⟨n, BitVec.ofNat 128 (x0 + 2 ^ 16 * y0 + 2 ^ 32 * x1 + 2 ^ 48 * y1 + 2 ^ 64 * score + 2 ^ 80 * 2)⟩

theorem test_select_worked_example :
    let cs := [candidate 40 870 600 200 640 240, candidate 5 870 410 205 490 265, candidate 17 900 400 200 480 260]
    List.map (·.idx) (rankSort cs) = [17, 5, 40] ∧
    List.map (·.idx) (selectWalk true 128 64 (rankSort cs) [] 0).1 = [17, 40] ∧ (selectWalk true 128 64 (rankSort cs) [] 0).2.1 = 1 := by
  decide +kernel

theorem test_crop_worked_example :
    sampleCode 0 (BitVec.ofNat 128 (100 + 120 * 2 ^ 24 + 110 * 2 ^ 48 + 140 * 2 ^ 72 + 192 * 2 ^ 96 + 128 * 2 ^ 104)) 0 = 124 := by
  decide +kernel

/-- Chapter 11's loss offsets and its adaptation step. -/
theorem test_loss_worked_example :
    let pl : Plane := { lt := [(0, 65535), (10, 39749), (50, 5379)] }
    offCe pl 0 255 0 200 110663 0 200 = -52 ∧ offCe pl 0 255 0 200 110663 1 190 = 46 ∧ offCe pl 0 255 0 200 110663 2 150 = 6 := by
  decide +kernel

/-- MG = 2^−11, LR = 128, B1 = 0.875, S2M = 2^−10. -/
theorem test_opt_worked_example :
    let xt : XTable := { w8 := true, xoff := -6, entries := [(140, 0x063), (141, 0x064)] }
    let o : OptRegs := { mg := 0x3A000000, b1 := 0x3F600000, b1c := 0x3F800000, lr := 0x43000000, mbias := 0, b2 := 0, b2c := 0, epsv := 0, s2m := 0x3A800000, s2v := 0 }
    let out := optWeight o false 2 xt 0x70 0 { code := 140, r := -37, mc := -96, vc := 0, cg := -1900 }
    wint 0x063 = 608 ∧ wint 0x064 = 640 ∧ out.code = 141 ∧ out.r = -36 := by decide +kernel

/-! Well-formed commands: one that each check refuses -/

theorem test_wf_refuses :
    (∀ i ∈ [Instr.queueDoorbellPointer 0 3 0, .queueDoorbellArm 0 16 0, .queueDoorbellFlush 0 0 0, .eventDoorbellCi 0 5 0,
        .eventDoorbellArm 0 3 0, .registerWrite 0 7 0, .read .mailbox [1], .write .udp [1], .segInit .mailbox [1],
        .segData .udp [0], .segEnd .mailbox [1], .segAbort .mailbox [1], .open .udp [1], .close .mailbox [1], .info .udp [1],
        .read .mctp (List.replicate 1076 0), .segTransferTimeout 65536 0, .segTransferTimeout 0 256,
        .mgmtDatagram { arp := none, dst := 0, udp := true, dport := 65536, src := 0, sport := 0, body := [] },
        .mgmtDatagram { arp := none, dst := 0, udp := true, dport := 0, src := 0, sport := 65536, body := [] },
        .folsaFrameReceive 0 (List.replicate 501 0), .testEnter 3 true 0, .sfpModuleInsert 0 3, .hbmPatrolScrub 0 402653184,
        .telemetrySample { sensors := [], inputs := [1, 2, 3], energyMj := 0 },
        .telemetrySample { sensors := List.replicate 9 0, inputs := [], energyMj := 0 }], i.wf = false) ∧
    (∀ r ∈ [{ addr := 0, len := 65, write := false, data := [], src := 0 }, { addr := 0, len := 1, write := true, data := [], src := 0 },
        { addr := 0, len := 1, write := false, data := [], src := 16384 }], (Instr.lightRequest 0 r).wf = false) ∧
    (∀ n ∈ [.udp false 0 0 65536 false true [] none,
        .udp false 0 0 5004 false true [] (some { rtp1 with version := 4 }), .udp false 0 0 5004 false true [] (some { rtp1 with pt := 128 }),
        .udp false 0 0 5004 false true [] (some { rtp1 with nal := 64 })],
      (Instr.ethFrameReceive 0 { len := 100, fcsOk := true, tags := [], ethernetII := true, net := n }).wf = false) ∧
    (Instr.ethFrameReceive 0 { len := 100, fcsOk := true, tags := [4096], ethernetII := true, net := .fragment }).wf = false := by
  decide +kernel

theorem test_wf_accepts : (∀ i ∈ [Instr.queueDoorbellPointer 0 8 0, .read .mctp [1], .read .mailbox [], .ledgerTick, .sfpModuleInsert 1 2,
    .testEnter 2 true 0, .folsaFrameReceive 0 (List.replicate 500 0)], i.wf = true) := by decide +kernel

end Sys2Proof.Tests
end

section
/-! The loop counters of a plane (R27): what a cascade along the LINK chain does to them, and what the issue of a step does. -/

namespace Sys2Proof.Machine

/-- Counter `n` takes the value `v`; its limit and its link stay. -/
def withCounter (p : Plane) (n v : Nat) : Plane := { p with k := Tab.set p.k n { counterAt p n with value := v } }

@[simp] theorem counterAt_withCounter_same (p : Plane) (n v : Nat) :
    counterAt (withCounter p n v) n = { counterAt p n with value := v } := Tab.get_set_same _ _ n _

theorem counterAt_withCounter_other (p : Plane) {k n : Nat} (v : Nat) (h : n ≠ k) :
    counterAt (withCounter p k v) n = counterAt p n := Tab.get_set_other _ _ _ h

/-- Counter `a` wraps when it is bumped, and its link bumps counter `b`. -/
def CascadesTo (p : Plane) (a b : Nat) : Prop :=
  (counterAt p a).value = (counterAt p a).limit ∧ (counterAt p a).linken = true ∧ (counterAt p a).link = b

/-- A bump of counter `n` bumps no further counter. -/
def EndsCascade (p : Plane) (n : Nat) : Prop :=
  (counterAt p n).value = (counterAt p n).limit → (counterAt p n).linken = false

/-- The value of counter `n` after one bump: back to 0 from its limit, else one more. -/
def bumpedValue (p : Plane) (n : Nat) : Nat :=
  if (counterAt p n).value = (counterAt p n).limit then 0 else (counterAt p n).value + 1

/-! One bump -/

theorem bump_of_endsCascade (fuel : Nat) {p : Plane} {n : Nat} (h : EndsCascade p n) :
    bump (fuel + 1) p n = withCounter p n (bumpedValue p n) := by
  by_cases hlim : (counterAt p n).value = (counterAt p n).limit
  · simp [bump, withCounter, bumpedValue, hlim, h hlim]
  · simp [bump, withCounter, bumpedValue, hlim]

theorem bump_of_cascadesTo (fuel : Nat) {p : Plane} {a b : Nat} (h : CascadesTo p a b) :
    bump (fuel + 1) p a = bump fuel (withCounter p a 0) b := by
  obtain ⟨hlim, hlink, rfl⟩ := h
  simp [bump, withCounter, hlim, hlink]

/-- A cascade changes no part of a plane but its counters. -/
theorem bump_frame (fuel : Nat) (p : Plane) (n : Nat) : ∃ m, bump fuel p n = { p with k := m } := by
  induction fuel generalizing p n with
  | zero => exact ⟨p.k, rfl⟩
  | succ fuel ih =>
    simp only [bump]
    split_ifs
    · exact ih _ _
    · exact ⟨_, rfl⟩
    · exact ⟨_, rfl⟩

/-! A cascade along a LINK chain -/

/-- Setting a counter that a LINK chain does not meet leaves the chain as it was. -/
theorem isChain_cascadesTo_withCounter {p : Plane} {a v : Nat} {path : List Nat} (ha : a ∉ path)
    (h : path.IsChain (CascadesTo p)) : path.IsChain (CascadesTo (withCounter p a v)) :=
  h.imp_of_mem_imp fun x y hx _ hxy => by
    simpa only [CascadesTo, counterAt_withCounter_other p v (ne_of_mem_of_not_mem hx ha)] using hxy

/-- A cascade that starts at the first counter of `full ++ [last]` sets those of `full` back to 0, bumps `last` and no other: the
first counter is set to 0, and the rest of the chain, which does not meet it again, is a cascade of its own. -/
theorem bump_along_chain {full : List Nat} {last fuel : Nat} {p : Plane} (hfuel : full.length < fuel)
    (hnodup : (full ++ [last]).Nodup) (hchain : (full ++ [last]).IsChain (CascadesTo p)) (hlast : EndsCascade p last) :
    (∀ n ∈ full, (counterAt (bump fuel p (full.headD last)) n).value = 0) ∧
    (counterAt (bump fuel p (full.headD last)) last).value = bumpedValue p last ∧
    ∀ n ∉ full ++ [last], counterAt (bump fuel p (full.headD last)) n = counterAt p n := by
  obtain ⟨fuel, rfl⟩ := Nat.exists_eq_add_one_of_ne_zero (Nat.ne_zero_of_lt hfuel)
  induction full generalizing p fuel with
  | nil =>
    simp only [List.headD_nil, bump_of_endsCascade fuel hlast]
    exact ⟨by simp, by simp, fun n hn => counterAt_withCounter_other p _ (by simpa using hn)⟩
  | cons a rest ih =>
    obtain ⟨ha, hrest⟩ := List.nodup_cons.mp hnodup
    obtain ⟨hfirst, htail⟩ := List.isChain_cons.mp hchain
    have hstep : bump (fuel + 1) p a = bump fuel (withCounter p a 0) (rest.headD last) :=
      bump_of_cascadesTo fuel (hfirst _ (by cases rest <;> simp))
    obtain ⟨fuel, rfl⟩ := Nat.exists_eq_add_one_of_ne_zero (Nat.ne_zero_of_lt (Nat.lt_of_succ_lt_succ hfuel))
    have hsame : counterAt (withCounter p a 0) last = counterAt p last :=
      counterAt_withCounter_other p 0 (ne_of_mem_of_not_mem (by simp) ha)
    have hend : EndsCascade (withCounter p a 0) last := by simpa only [EndsCascade, hsame] using hlast
    obtain ⟨hzero, hbump, hother⟩ := ih hrest (isChain_cascadesTo_withCounter ha htail) hend fuel (Nat.lt_of_succ_lt_succ hfuel)
    simp only [List.headD_cons, hstep]
    refine ⟨?_, by simpa only [bumpedValue, hsame] using hbump, fun n hn => ?_⟩
    · rintro n (_ | ⟨_, hn⟩)
      · rw [hother a ha, counterAt_withCounter_same]
      · exact hzero n hn
    · obtain ⟨hna, hnrest⟩ := not_or.mp (mt List.mem_cons.mpr hn)
      rw [hother n hnrest, counterAt_withCounter_other p 0 hna]

/-! The issue of a step -/

theorem issueNext_of_not_loopen (p : Plane) {w : BitVec 128} (h : wLoopen w = false) : issueNext p w = (p, wNext w) := by
  simp [issueNext, h]

/-- The counters after the issue of a step with LOOPEN are those after a cascade from LOOPK. -/
theorem issueNext_of_loopen (p : Plane) {w : BitVec 128} (h : wLoopen w = true) :
    issueNext p w = (bump 17 p (wLoopk w),
      if (counterAt p (wLoopk w)).value = (counterAt p (wLoopk w)).limit then wExit w else wNext w) := by
  by_cases hlim : (counterAt p (wLoopk w)).value = (counterAt p (wLoopk w)).limit <;> simp [issueNext, bump, h, hlim]

/-- The issue of a step changes no part of a plane but its counters. -/
theorem issueNext_frame (p : Plane) (w : BitVec 128) : ∃ m, (issueNext p w).1 = { p with k := m } := by
  cases h : wLoopen w with
  | false => exact ⟨p.k, by rw [issueNext_of_not_loopen p h]⟩
  | true => rw [issueNext_of_loopen p h]; exact bump_frame 17 p (wLoopk w)

/-- The issue of a step whose loop counter bumps no further counter. -/
theorem issueNext_of_endsCascade {p : Plane} {w : BitVec 128} (h : wLoopen w = true) (hend : EndsCascade p (wLoopk w)) :
    (issueNext p w).2 = (if (counterAt p (wLoopk w)).value = (counterAt p (wLoopk w)).limit then wExit w else wNext w) ∧
    (counterAt (issueNext p w).1 (wLoopk w)).value = bumpedValue p (wLoopk w) ∧
    ∀ n, n ≠ wLoopk w → counterAt (issueNext p w).1 n = counterAt p n := by
  rw [issueNext_of_loopen p h, bump_of_endsCascade 16 hend]
  exact ⟨rfl, by rw [counterAt_withCounter_same], fun n hn => counterAt_withCounter_other p _ hn⟩

/-- The work of a head step stands on the running plane of its tile. -/
theorem headWork_pl (s : State) (t : TileId) (c : Fin 4) :
    (headWork s t c).pl
      = planeAt (tileAt s.dev t.b.val (keyOf s.dev t)) (tileAt s.dev t.b.val (keyOf s.dev t)).run :=
  (sameWork_readPopped _).pl

/-- Settles O13: with LOOPEN an issue is a cascade from LOOPK, and a cascade is an induction along the LINK chain. -/
theorem issueNextCounters : Obligations.IssueNextCounters := by
  refine ⟨fun t c s n => congrArg (counterAt · n) (headWork_pl s t c), fun p w =>
    ⟨issueNext_of_not_loopen p, ?below, ?unlinked, ?linked, ?frame⟩⟩
  case below =>
    intro hloop hlim
    simpa only [bumpedValue, if_neg hlim] using issueNext_of_endsCascade hloop fun h => absurd h hlim
  case unlinked =>
    intro hloop hlim hlink
    simpa only [bumpedValue, if_pos hlim] using issueNext_of_endsCascade hloop fun _ => hlink
  case linked =>
    intro hloop hlim _ mid last hmid hnodup hchain hlast
    rw [issueNext_of_loopen p hloop]
    exact ⟨if_pos hlim, bump_along_chain (full := wLoopk w :: mid) (Nat.succ_lt_succ hmid) hnodup hchain hlast⟩
  case frame =>
    obtain ⟨m, hm⟩ := issueNext_frame p w
    simp [hm]

end Sys2Proof.Machine
end

section
/-! Box selection (R179, R180): the rank order is a total preorder, and the walk down the ranked list keeps greedily. -/

namespace Sys2Proof.Machine

/-! Rank order -/

theorem ranksBefore_iff {a b : Cand} :
    ranksBefore a b = true ↔ cScore b < cScore a ∨ (cScore a = cScore b ∧ a.idx ≤ b.idx) := by
  simp [ranksBefore]

theorem ranksBefore_total : Std.Total (ranksBefore · · = true) where
  total a b := by simp only [ranksBefore_iff]; omega

theorem ranksBefore_trans : IsTrans Cand (ranksBefore · · = true) where
  trans a b c := by simp only [ranksBefore_iff]; omega

theorem insertRanked_eq_orderedInsert (c : Cand) (ds : List Cand) :
    insertRanked c ds = ds.orderedInsert (ranksBefore · · = true) c := by
  induction ds with
  | nil => rfl
  | cons d ds ih => rw [insertRanked, List.orderedInsert_cons, ih]

/-- Ranking is the library's insertion sort by the rank order. -/
theorem rankSort_eq_insertionSort (cs : List Cand) :
    rankSort cs = cs.insertionSort (ranksBefore · · = true) := by
  induction cs with
  | nil => rfl
  | cons c cs ih => rw [rankSort, List.insertionSort_cons, insertRanked_eq_orderedInsert, ih]

theorem rankSort_perm (cs : List Cand) : (rankSort cs).Perm cs :=
  rankSort_eq_insertionSort cs ▸ List.perm_insertionSort _ cs

theorem rankSort_pairwise (cs : List Cand) : (rankSort cs).Pairwise (ranksBefore · · = true) := by
  have := ranksBefore_total
  have := ranksBefore_trans
  exact rankSort_eq_insertionSort cs ▸ List.pairwise_insertionSort _ cs

/-! The walk -/

section Walk

variable {caw : Bool} {t slots : Nat}

variable (caw t slots) in
/-- The walk only adds to what is kept, and what it adds are candidates of the list, in their order. -/
theorem selectWalk_kept_eq_append (as_ kept : List Cand) (sup : Nat) :
    ∃ new, new.Sublist as_ ∧ (selectWalk caw t slots as_ kept sup).1 = kept ++ new := by
  fun_induction selectWalk caw t slots as_ kept sup with
  | case1 kept sup => exact ⟨[], .slnil, by simp⟩
  | case2 a as_ kept sup hfull => exact ⟨[], List.nil_sublist _, by simp⟩
  | case3 a as_ kept sup hfree hsup ih =>
    obtain ⟨new, hnew, hwalk⟩ := ih
    exact ⟨new, hnew.cons a, hwalk⟩
  | case4 a as_ kept sup hfree hsup ih =>
    obtain ⟨new, hnew, hwalk⟩ := ih
    exact ⟨a :: new, hnew.cons_cons a, by simp [hwalk]⟩

theorem subset_selectWalk_kept (as_ kept : List Cand) (sup : Nat) :
    kept ⊆ (selectWalk caw t slots as_ kept sup).1 := by
  obtain ⟨new, -, hwalk⟩ := selectWalk_kept_eq_append caw t slots as_ kept sup
  exact hwalk ▸ List.subset_append_left kept new

theorem selectWalk_kept_sublist (as_ : List Cand) : (selectWalk caw t slots as_ [] 0).1.Sublist as_ := by
  obtain ⟨new, hnew, hwalk⟩ := selectWalk_kept_eq_append caw t slots as_ [] 0
  exact hwalk ▸ hnew

theorem selectWalk_kept_length_le {as_ kept : List Cand} {sup : Nat} (h : kept.length ≤ slots) :
    (selectWalk caw t slots as_ kept sup).1.length ≤ slots := by
  fun_induction selectWalk caw t slots as_ kept sup with
  | case1 kept sup => exact h
  | case2 a as_ kept sup hfull => exact h
  | case3 a as_ kept sup hfree hsup ih => exact ih h
  | case4 a as_ kept sup hfree hsup ih => exact ih (by simpa using Nat.lt_of_le_of_ne h hfree)

/-- No kept candidate suppresses a later kept one. -/
theorem selectWalk_kept_pairwise {as_ kept : List Cand} {sup : Nat}
    (h : kept.Pairwise (fun a b => suppresses caw t b a = false)) :
    (selectWalk caw t slots as_ kept sup).1.Pairwise (fun a b => suppresses caw t b a = false) := by
  fun_induction selectWalk caw t slots as_ kept sup with
  | case1 kept sup => exact h
  | case2 a as_ kept sup hfull => exact h
  | case3 a as_ kept sup hfree hsup ih => exact ih h
  | case4 a as_ kept sup hfree hsup ih =>
    have hnone : ∀ k ∈ kept, suppresses caw t a k = false := by simpa using hsup
    exact ih (List.pairwise_append.mpr ⟨h, List.pairwise_singleton _ a, by simpa using hnone⟩)

/-- A candidate that the walk meets is kept, unless the slots filled or a kept candidate suppresses it. -/
theorem selectWalk_kept_or_full_or_suppressed {as_ kept : List Cand} {sup : Nat} {a : Cand} (h : a ∈ as_) :
    let final := (selectWalk caw t slots as_ kept sup).1
    a ∈ final ∨ final.length = slots ∨ ∃ k ∈ final, suppresses caw t a k = true := by
  fun_induction selectWalk caw t slots as_ kept sup with
  | case1 kept sup => cases h
  | case2 b as_ kept sup hfull => exact .inr (.inl hfull)
  | case3 b as_ kept sup hfree hsup ih =>
    obtain rfl | htail := List.mem_cons.mp h
    · obtain ⟨k, hk, hsk⟩ := List.any_eq_true.mp hsup
      exact .inr (.inr ⟨k, subset_selectWalk_kept as_ kept (sup + 1) hk, hsk⟩)
    · exact ih htail
  | case4 b as_ kept sup hfree hsup ih =>
    obtain rfl | htail := List.mem_cons.mp h
    · exact .inl (subset_selectWalk_kept as_ (kept ++ [a]) sup (by simp))
    · exact ih htail

end Walk

/-- Settles O11: ranking is an insertion sort, and each clause about the kept candidates is an induction along the walk. -/
theorem selectKeepsBest : Obligations.SelectKeepsBest := by
  intro caw t slots cs kept
  have hranked : (rankSort cs).Pairwise (ranksBefore · · = true) := rankSort_pairwise cs
  have hsub : kept.Sublist (rankSort cs) := selectWalk_kept_sublist (rankSort cs)
  refine ⟨rankSort_perm cs, hranked.imp ranksBefore_iff.mp, selectWalk_kept_length_le (Nat.zero_le slots),
    hranked.sublist hsub, selectWalk_kept_pairwise .nil, fun a ha => (rankSort_perm cs).mem_iff.mp (hsub.subset ha),
    fun a ha hout => ?dropped⟩
  case dropped =>
    have hmet : a ∈ rankSort cs := (rankSort_perm cs).mem_iff.mpr ha
    exact (selectWalk_kept_or_full_or_suppressed hmet).resolve_left hout

end Sys2Proof.Machine
end

section
/-! The fault hub (R415, R419, R421 to R425): what the arrival of a report does, which record of a storm is its root, how a
closing storm's records are numbered and logged, and what a reaction word and CLEAR leave. -/

namespace Sys2Proof.Machine

/-! Arrival of a report (R422, R424) -/

/-- The module with the reports `rs` on their way to the hub. -/
def withReports (d : Device) (rs : List Report) : Device := { d with hub := { d.hub with reports := rs } }

/-- The hub looks for a report's record by source and blame tag: the mark of an injection does not count. -/
@[simp] theorem sameFault_inj (r : Report) (i : Bool) : sameFault { r with inj := i } = sameFault r := rfl

@[simp] theorem lateMatch_inj (d : Device) (r : Report) (i : Bool) : lateMatch d { r with inj := i } = lateMatch d r := rfl

theorem sameFault_iff (r : Report) (x : FaultRec) : sameFault r x = true ↔ x.source = r.source ∧ x.blame = r.blame := by
  simp [sameFault]

/-- An arrival changes the hub alone, and no report that is still on its way. -/
theorem hubReport_frame (d : Device) (r : Report) :
    ∃ h, hubReport d r = { d with hub := h } ∧ h.reports = d.hub.reports := by
  simp only [hubReport]
  split
  · exact ⟨_, rfl, rfl⟩
  · split <;> exact ⟨_, rfl, rfl⟩

section Arrival

variable (d : Device) (r : Report)

theorem hubReport_opens (hclosed : d.hub.stormOpen = false) (hlate : lateMatch d r = none) :
    let h := (hubReport d r).hub
    h.stormOpen = true ∧ h.stormAt = r.time ∧
      h.storm = [firstRecord { r with inj := r.inj || d.hub.injected.contains r.source }] ∧ h.log = d.hub.log := by
  simp [hubReport, hclosed, hlate]

theorem hubReport_joins_log {n : U32} (hclosed : d.hub.stormOpen = false) (hlate : lateMatch d r = some n) :
    let h := (hubReport d r).hub
    h.stormOpen = false ∧ h.log = d.hub.log.map (fun y => if y.seq = n then raiseCount y else y) := by
  simp [hubReport, hclosed, hlate]

theorem hubReport_adds_record (hopen : d.hub.stormOpen = true) (hnew : d.hub.storm.any (sameFault r) = false) :
    let h := (hubReport d r).hub
    h.storm = d.hub.storm ++ [firstRecord { r with inj := r.inj || d.hub.injected.contains r.source }] ∧
      h.stormAt = d.hub.stormAt := by
  simp only [hubReport, hopen, sameFault_inj, hnew, if_true, Bool.false_eq_true, if_false, and_self]

theorem hubReport_raises_count (hopen : d.hub.stormOpen = true) (hknown : d.hub.storm.any (sameFault r) = true) :
    (hubReport d r).hub.storm = d.hub.storm.map (fun y => if sameFault r y then raiseCount y else y) := by
  simp only [hubReport, hopen, if_true]
  exact if_pos hknown

end Arrival

/-- FAULT_REPORT takes the oldest report off its way and lets it arrive. -/
theorem exec_faultReport_cons {s : State} {r : Report} {rs : List Report} (h : s.dev.hub.reports = r :: rs) :
    exec .faultReport s = .next { s with dev := hubReport (withReports s.dev rs) r } := by
  change execFaultReport s = _
  simp only [execFaultReport, onDev_eq, h, withReports]

/-! The root (R423) -/

theorem recBefore_iff {a b : FaultRec} :
    recBefore a b = true ↔ a.time < b.time ∨ a.time = b.time ∧
      (a.source < b.source ∨ a.source = b.source ∧ a.blame.toNat ≤ b.blame.toNat) := by
  simp [recBefore]

theorem recBefore_refl (a : FaultRec) : recBefore a a = true := recBefore_iff.mpr (by omega)

theorem recBefore_trans {a b c : FaultRec} (hab : recBefore a b = true) (hbc : recBefore b c = true) :
    recBefore a c = true := by
  rw [recBefore_iff] at *
  omega

theorem recBefore_of_not {a b : FaultRec} (h : ¬ recBefore a b = true) : recBefore b a = true := by
  rw [recBefore_iff] at *
  omega

/-- The search for a root: the earlier of the best record so far and the next one. -/
def earlier (best : Option FaultRec) (r : FaultRec) : Option FaultRec :=
  match best with
  | none => some r
  | some q => if recBefore q r then some q else some r

/-- From a best record on, the search ends at a record that stands before it and before every record it met. -/
theorem foldl_earlier_some (rs : List FaultRec) (q : FaultRec) :
    ∃ m ∈ q :: rs, rs.foldl earlier (some q) = some m ∧ ∀ r ∈ q :: rs, recBefore m r = true := by
  induction rs generalizing q with
  | nil => exact ⟨q, by simp, rfl, by simp [recBefore_refl]⟩
  | cons a rs ih =>
    rw [List.foldl_cons, earlier]
    split
    case isTrue hqa =>
      obtain ⟨m, hm, hfold, hbefore⟩ := ih q
      obtain ⟨hmq, hrest⟩ := List.forall_mem_cons.mp hbefore
      refine ⟨m, List.cons_subset_cons q (List.subset_cons_self a rs) hm, hfold, ?_⟩
      exact List.forall_mem_cons.mpr ⟨hmq, List.forall_mem_cons.mpr ⟨recBefore_trans hmq hqa, hrest⟩⟩
    case isFalse hqa =>
      obtain ⟨m, hm, hfold, hbefore⟩ := ih a
      have hma : recBefore m a = true := hbefore a List.mem_cons_self
      exact ⟨m, List.mem_cons_of_mem q hm, hfold,
        List.forall_mem_cons.mpr ⟨recBefore_trans hma (recBefore_of_not hqa), hbefore⟩⟩

/-- Where the storm has a record that is no timeout, the root is what the search among those records finds. -/
theorem rootOf_of_foldl_earlier {storm : List FaultRec} {q : FaultRec}
    (h : (storm.filter (fun r => !isTimeout r.source)).foldl earlier none = some q) : rootOf storm = some q := by
  unfold rootOf
  split
  case h_1 r hr => exact hr.symm.trans h
  case h_2 hr => cases hr.symm.trans h

theorem rootOf_before {storm : List FaultRec} {r : FaultRec} (hr : r ∈ storm) (ht : isTimeout r.source = false) :
    ∃ q ∈ storm, rootOf storm = some q ∧ isTimeout q.source = false ∧ recBefore q r = true := by
  have hmem : r ∈ storm.filter (fun r => !isTimeout r.source) := List.mem_filter.mpr ⟨hr, by simp [ht]⟩
  cases hrest : storm.filter (fun r => !isTimeout r.source) with
  | nil => simp [hrest] at hmem
  | cons a as =>
    obtain ⟨q, hq, hfold, hbefore⟩ := foldl_earlier_some as a
    obtain ⟨hqs, hqt⟩ := List.mem_filter.mp (hrest ▸ hq)
    exact ⟨q, hqs, rootOf_of_foldl_earlier (by rw [hrest]; exact hfold), by simpa using hqt, hbefore r (hrest ▸ hmem)⟩

/-! Closing (R422, R425) -/

@[simp] theorem length_stormRecords (d : Device) (root : FaultRec) :
    (stormRecords d root).length = d.hub.storm.length := by
  simp [stormRecords]

/-- Record `i` keeps its report and takes the `i`-th sequence number from the next one on. -/
theorem getElem_stormRecords (d : Device) (root : FaultRec) (i : Nat) (h : i < d.hub.storm.length)
    (h' : i < (stormRecords d root).length) :
    (stormRecords d root)[i].seq = d.hub.nextSeq + BitVec.ofNat 32 i ∧
      (stormRecords d root)[i].source = d.hub.storm[i].source ∧ (stormRecords d root)[i].blame = d.hub.storm[i].blame ∧
      (stormRecords d root)[i].count = d.hub.storm[i].count := by
  simp [stormRecords]

/-- One position of a list has a given index below its length. -/
theorem countP_zipIdx_snd_eq_one {α : Type} (as : List α) {i : Nat} (h : i < as.length) :
    as.zipIdx.countP (fun p => decide (p.2 = i)) = 1 := by
  calc as.zipIdx.countP (fun p => decide (p.2 = i))
      = (as.zipIdx.map Prod.snd).countP (· == i) := by rw [List.countP_map]; rfl
    _ = (List.range' 0 as.length).count i := by rw [List.zipIdx_map_snd]; rfl
    _ = 1 := List.count_eq_one_of_mem List.nodup_range' (by simpa using h)

/-- A closing storm has one root among its records: the first one equal to `root`. -/
theorem length_filter_root_stormRecords {d : Device} {root : FaultRec} (h : root ∈ d.hub.storm) :
    ((stormRecords d root).filter (·.root)).length = 1 := by
  have hidx : d.hub.storm.findIdx (fun r => r = root) < d.hub.storm.length :=
    List.findIdx_lt_length_of_exists ⟨root, h, by simp⟩
  rw [← List.countP_eq_length_filter, stormRecords, List.countP_map]
  exact countP_zipIdx_snd_eq_one d.hub.storm hidx

@[simp] theorem odAdd_hub (d : Device) (i s n : Nat) : (odAdd d i s n).hub = d.hub := rfl

theorem writeRecords_hub (d : Device) (rs : List FaultRec) :
    let h := (writeRecords d rs).hub
    h.log = (d.hub.log ++ rs).drop (d.hub.log.length + rs.length - 256) ∧ h.log.length ≤ 256 ∧ h.stormOpen = false ∧
      h.nextSeq = d.hub.nextSeq + BitVec.ofNat 32 rs.length := by
  have hlog : (writeRecords d rs).hub.log = (d.hub.log ++ rs).drop (d.hub.log.length + rs.length - 256) := by
    simp only [writeRecords, odAdd_hub, List.length_append]
  refine ⟨hlog, ?_, rfl, rfl⟩
  rw [hlog, List.length_drop, List.length_append]
  omega

/-! Reaction words (R419) -/

/-- The journal that an accepted write may join is no part of the values. -/
theorem odGet_odStore (d : Device) (i s v j t : Nat) : odGet (odStore d i s v) j t = odGet (odPut d i s v) j t := by
  simp only [odStore]
  split <;> rfl

theorem odKind_reaction {i : Nat} (h : i < 4) : odKind (0x8000 + i) = some .reaction := by
  revert i
  decide

theorem size_odInfo_reaction {src : Nat} (h : src < 512) :
    (odInfo (0x8000 + src / 128) (src % 128 + 1)).map (·.size) = some 2 := by
  have hsub : src % 128 < 128 := by omega
  simp [odInfo, odKind_reaction (show src / 128 < 4 by omega), odRow, odSingle, odArray, odU16, hsub]

theorem reactionOf_odStore_same (d : Device) {src v : Nat} (h : src < 512) (hv : v < 65536) :
    reactionOf (odStore d (0x8000 + src / 128) (src % 128 + 1) v) src = v := by
  rw [reactionOf, odGet_odStore, odGet_odPut_same, size_odInfo_reaction h]
  exact Nat.mod_eq_of_lt hv

theorem reactionOf_odStore_other (d : Device) {src n : Nat} (v : Nat) (h : n ≠ src) :
    reactionOf (odStore d (0x8000 + src / 128) (src % 128 + 1) v) n = reactionOf d n := by
  rw [reactionOf, odGet_odStore]
  exact odGet_odPut_other d v (by omega)

theorem exec_reactionWrite (src : Fin 512) (v : BitVec 16) (s : State) :
    exec (.reactionWrite src v) s = .next { s with dev := reactionWrite s.dev src.val v.toNat } := rfl

/-! CLEAR (R421) -/

/-- What stays uncleared: what the CLEAR does not name, and the level sources whose condition holds. -/
theorem mem_uncleared_clearSources (d : Device) (v x : Nat) :
    x ∈ (clearSources d v).hub.uncleared ↔
      x ∈ d.hub.uncleared ∧ ((v ≠ 0xFFFF ∧ v ≠ x) ∨ levelHolds d x = true) := by
  simp [clearSources]

/-- Settles O54: an arrival has four cases, the root is the least record under `recBefore`, and a closing storm is its list of records
with their positions. -/
theorem faultHub : Obligations.FaultHub := by
  refine ⟨fun r x => ⟨sameFault_iff r x, rfl, rfl, rfl, rfl, rfl, rfl, rfl, rfl⟩, ?arrival, ?close,
    fun storm r => rootOf_before, ?records, fun core s => ⟨_, _, rfl, rfl, rfl, rfl, rfl, rfl, rfl⟩, ?reaction,
    fun v s => ⟨_, rfl, rfl, rfl, mem_uncleared_clearSources s.dev v.toNat⟩⟩
  case arrival =>
    intro s r rs hreports
    obtain ⟨h, hframe, hrest⟩ := hubReport_frame (withReports s.dev rs) r
    refine ⟨_, exec_faultReport_cons hreports, ?_, ?_, ?_, hubReport_opens (withReports s.dev rs) r,
      fun n => hubReport_joins_log (withReports s.dev rs) r, hubReport_adds_record (withReports s.dev rs) r,
      hubReport_raises_count (withReports s.dev rs) r⟩
    · rw [hframe]; exact hrest
    · rw [hframe]; rfl
    · rw [hframe]; rfl
  case close =>
    intro s hopen hdue
    exact onDev_guarded_pos closeStorm (by simp [hopen, hdue])
  case records =>
    intro d root hroot
    exact ⟨length_stormRecords d root, length_filter_root_stormRecords hroot, getElem_stormRecords d root,
      writeRecords_hub d (stormRecords d root)⟩
  case reaction =>
    intro src v s
    rw [exec_reactionWrite, reactionWrite]
    constructor
    · intro hok
      simp only [hok, Bool.false_eq_true, if_false]
      exact ⟨_, rfl, reactionOf_odStore_same s.dev src.isLt v.isLt, fun n _ hn => reactionOf_odStore_other s.dev v.toNat hn⟩
    · intro hrefused
      rw [if_pos hrefused]

end Sys2Proof.Machine
end

section
/-! Byte strings and the Folsa frame (R326, R327): a number laid into a string of bytes is read back at its place. -/

namespace Sys2Proof.Machine

/-! Numbers in byte strings (R54) -/

theorem leNat_append (xs ys : List Byte) : leNat (xs ++ ys) = leNat xs + 256 ^ xs.length * leNat ys := by
  induction xs with
  | nil => simp [leNat]
  | cons x xs ih => simp only [List.cons_append, leNat, ih, List.length_cons, pow_succ]; ring

theorem sliceBytes_of_length_le {bs : List Byte} {n : Nat} (h : bs.length ≤ n) :
    sliceBytes bs 0 n = bs ++ List.replicate (n - bs.length) 0 := by
  simp [sliceBytes, List.take_of_length_le h]

@[simp] theorem length_sliceBytes (bs : List Byte) (i n : Nat) : (sliceBytes bs i n).length = n := by
  simp only [sliceBytes, List.length_append, List.length_take, List.length_replicate]
  omega

/-- The number at the place of a part of a string is the part's. -/
theorem leAt_append (pre part post : List Byte) : leAt (pre ++ (part ++ post)) pre.length part.length = leNat part := by
  simp [leAt, sliceBytes]

theorem leAt_of_eq_append {bs pre part : List Byte} {i n : Nat} (h : ∃ post, bs = pre ++ (part ++ post)) (hi : pre.length = i)
    (hn : part.length = n) : leAt bs i n = leNat part := by
  obtain ⟨post, rfl⟩ := h
  subst hi hn
  exact leAt_append pre part post

/-- Parts of one length `c` laid end to end: part `k` begins at byte `c * k`. -/
theorem flatMap_eq_append {α : Type} {f : α → List Byte} {c : Nat} (hc : ∀ x, (f x).length = c) (xs : List α) {k : Nat}
    (hk : k < xs.length) : ∃ pre post, xs.flatMap f = pre ++ (f xs[k] ++ post) ∧ pre.length = c * k := by
  refine ⟨(xs.take k).flatMap f, (xs.drop (k + 1)).flatMap f, ?_, ?_⟩
  · rw [← List.flatMap_cons, ← List.flatMap_append, List.getElem_cons_drop, List.take_append_drop]
  · simp [List.length_flatMap, hc, Nat.min_eq_left hk.le, Nat.mul_comm]

theorem length_flatMap_const {α β : Type} {f : α → List β} {c : Nat} (hc : ∀ x, (f x).length = c) (xs : List α) :
    (xs.flatMap f).length = c * xs.length := by
  simp [List.length_flatMap, hc, Nat.mul_comm]

/-! CRCs -/

theorem crcBit_lt {width poly reg : Nat} (b : Bool) (hp : poly < 2 ^ width) : crcBit width poly reg b < 2 ^ width := by
  have hsh : reg * 2 % 2 ^ width < 2 ^ width := Nat.mod_lt _ (by positivity)
  simp only [crcBit]
  split
  · exact Nat.xor_lt_two_pow hsh hp
  · exact hsh

theorem crcBits_lt {width poly : Nat} (hp : poly < 2 ^ width) (w n : Nat) {reg : Nat} (hr : reg < 2 ^ width) :
    crcBits width poly w n reg < 2 ^ width := by
  induction n generalizing reg with
  | zero => exact hr
  | succ n ih => exact ih (crcBit_lt _ hp)

/-! Sidebands and header fields -/

theorem b2n_lt_two (b : Bool) : b2n b < 2 := by cases b <;> decide

theorem decide_eq_one_of_eq_b2n {n : Nat} {b : Bool} (h : n = b2n b) : decide (n = 1) = b := by
  subst h
  cases b <;> rfl

theorem sideNat_lt (x : Sideband) : sideNat x < 2 ^ 18 := by
  have := b2n_lt_two x.v; have := b2n_lt_two x.p; have := b2n_lt_two x.l; have := b2n_lt_two x.s
  have := x.e.isLt; have := x.f.isLt
  simp only [sideNat]
  omega

/-- The 18 bits of a sideband hold every field of it. -/
theorem sideOf_sideNat (x : Sideband) : sideOf (sideNat x) = x := by
  obtain ⟨v, p, l, s, e, f⟩ := x
  have hv := b2n_lt_two v; have hp := b2n_lt_two p; have hl := b2n_lt_two l; have hs := b2n_lt_two s
  have he := e.isLt; have hf := f.isLt
  simp only [sideOf, sideNat, Sideband.mk.injEq]
  refine ⟨?_, ?_, ?_, ?_, ?_, ?_⟩
  · exact decide_eq_one_of_eq_b2n (by omega)
  · exact decide_eq_one_of_eq_b2n (by omega)
  · exact decide_eq_one_of_eq_b2n (by omega)
  · exact decide_eq_one_of_eq_b2n (by omega)
  · apply BitVec.eq_of_toNat_eq; rw [BitVec.toNat_ofNat]; omega
  · apply BitVec.eq_of_toNat_eq; rw [BitVec.toNat_ofNat]; omega

/-! The frame (Tables 13-1, 13-2) -/

section Frame

variable (seq ack : BitVec 16) (retry : Bool) (stamp : Option (Nat × BitVec 16)) (ss : List SlotOut)

/-- The 64 bits before the slots (Table 13-1). -/
def frameHeader : Nat :=
  seq.toNat + 2 ^ 16 * ack.toNat + 2 ^ 32 * ((stamp.map (fun s => s.2.toNat)).getD 0)
    + 2 ^ 48 * ((stamp.map (fun s => s.1)).getD 0) + 2 ^ 52 * ss.length + 2 ^ 56 * b2n stamp.isSome + 2 ^ 57 * b2n retry

/-- The channel and sideband of a slot (Table 13-2). -/
def slotHead (x : SlotOut) : List Byte := leBytes 3 (x.1 * 2 ^ 18 + sideNat x.2.1.sb)

/-- The payload of a slot. -/
def slotLoad (x : SlotOut) : List Byte := leBytes 32 x.2.1.data.toNat

/-- What the CRC of a frame covers. -/
def frameCovered : List Byte :=
  leBytes 8 (frameHeader seq ack retry stamp ss) ++ sliceBytes (ss.flatMap slotHead) 0 42 ++ sliceBytes (ss.flatMap slotLoad) 0 448

theorem frameBytes_eq : frameBytes seq ack retry stamp ss = frameCovered seq ack retry stamp ss
    ++ leBytes 2 (crcBits 16 0x1021 (leNat (frameCovered seq ack retry stamp ss).reverse) 3984 0xFFFF) := rfl

theorem length_frameCovered : (frameCovered seq ack retry stamp ss).length = 498 := by simp [frameCovered]

theorem length_frameBytes : (frameBytes seq ack retry stamp ss).length = 500 := by simp [frameBytes_eq, length_frameCovered]

theorem frameGood_frameBytes : frameGood (frameBytes seq ack retry stamp ss) = true := by
  have hbody := length_frameCovered seq ack retry stamp ss
  have htake : (frameBytes seq ack retry stamp ss).take 498 = frameCovered seq ack retry stamp ss := by
    rw [frameBytes_eq, List.take_left' hbody]
  have hcrc := crcBits_lt (width := 16) (poly := 0x1021) (by decide) (leNat (frameCovered seq ack retry stamp ss).reverse) 3984
    (reg := 0xFFFF) (by decide)
  have hat : leAt (frameBytes seq ack retry stamp ss) 498 2
      = crcBits 16 0x1021 (leNat (frameCovered seq ack retry stamp ss).reverse) 3984 0xFFFF := by
    rw [leAt_of_eq_append ⟨[], by rw [List.append_nil]; exact frameBytes_eq seq ack retry stamp ss⟩ hbody
      (leBytes_length _ _), leNat_leBytes]
    exact Nat.mod_eq_of_lt hcrc
  simp [frameGood, length_frameBytes, htake, hat]

variable {seq ack retry stamp ss}

/-- The header fits 64 bits, and each of its fields has bits of its own. -/
theorem frameHeader_fields (hlen : ss.length ≤ 14) (hstamp : ∀ x, stamp = some x → x.1 < 14) :
    let h := frameHeader seq ack retry stamp ss
    h < 256 ^ 8 ∧ nbits h 15 0 = seq.toNat ∧ nbits h 31 16 = ack.toNat ∧
      nbits h 47 32 = (stamp.map (fun s => s.2.toNat)).getD 0 ∧ nbits h 51 48 = (stamp.map (fun s => s.1)).getD 0 ∧
      nbits h 55 52 = ss.length ∧ nbits h 56 56 = b2n stamp.isSome ∧ nbits h 57 57 = b2n retry := by
  have hseq := seq.isLt; have hack := ack.isLt
  have hflag := b2n_lt_two stamp.isSome; have hretry := b2n_lt_two retry
  have hvalue : (stamp.map (fun s => s.2.toNat)).getD 0 < 2 ^ 16 := by
    cases stamp with
    | none => simp
    | some x => exact x.2.isLt
  have hslot : (stamp.map (fun s => s.1)).getD 0 < 14 := by
    cases stamp with
    | none => simp
    | some x => exact hstamp x rfl
  simp only [frameHeader, nbits]
  omega

theorem leAt_frameBytes_header (hlen : ss.length ≤ 14) (hstamp : ∀ x, stamp = some x → x.1 < 14) :
    leAt (frameBytes seq ack retry stamp ss) 0 8 = frameHeader seq ack retry stamp ss := by
  have happend : ∃ post, frameBytes seq ack retry stamp ss = [] ++ (leBytes 8 (frameHeader seq ack retry stamp ss) ++ post) := by
    rw [frameBytes_eq, frameCovered]
    simp only [List.append_assoc, List.nil_append]
    exact ⟨_, rfl⟩
  rw [leAt_of_eq_append (i := 0) (n := 8) happend rfl (leBytes_length _ _), leNat_leBytes, Nat.mod_eq_of_lt (frameHeader_fields hlen hstamp).1]

theorem leAt_frameBytes_head (hlen : ss.length ≤ 14) {k : Nat} (hk : k < ss.length) :
    leAt (frameBytes seq ack retry stamp ss) (8 + 3 * k) 3 = leNat (slotHead ss[k]) := by
  have hc : ∀ x, (slotHead x).length = 3 := fun x => leBytes_length _ _
  obtain ⟨pre, post, heq, hpre⟩ := flatMap_eq_append hc ss hk
  have hfit : (ss.flatMap slotHead).length ≤ 42 := by rw [length_flatMap_const hc]; omega
  apply leAt_of_eq_append (pre := leBytes 8 (frameHeader seq ack retry stamp ss) ++ pre) _ (by simp [hpre]) (hc _)
  rw [frameBytes_eq, frameCovered, sliceBytes_of_length_le hfit, heq]
  simp only [List.append_assoc]
  exact ⟨_, rfl⟩

theorem leAt_frameBytes_load (hlen : ss.length ≤ 14) {k : Nat} (hk : k < ss.length) :
    leAt (frameBytes seq ack retry stamp ss) (50 + 32 * k) 32 = leNat (slotLoad ss[k]) := by
  have hc : ∀ x, (slotLoad x).length = 32 := fun x => leBytes_length _ _
  obtain ⟨pre, post, heq, hpre⟩ := flatMap_eq_append hc ss hk
  have hfit : (ss.flatMap slotLoad).length ≤ 448 := by rw [length_flatMap_const hc]; omega
  apply leAt_of_eq_append
    (pre := leBytes 8 (frameHeader seq ack retry stamp ss) ++ sliceBytes (ss.flatMap slotHead) 0 42 ++ pre) _
    (by simp [hpre]; omega) (hc _)
  rw [frameBytes_eq, frameCovered, sliceBytes_of_length_le hfit, heq]
  simp only [List.append_assoc]
  exact ⟨_, rfl⟩

/-- A slot reads back as its channel, sideband and payload. -/
theorem slot_readsBack {x : SlotOut} (hx : x.1 < 64) :
    (nbits (leNat (slotHead x)) 23 18,
      ({ data := BitVec.ofNat 256 (leNat (slotLoad x)), sb := sideOf (leNat (slotHead x) % 2 ^ 18) } : Token)) = (x.1, x.2.1) := by
  have hside := sideNat_lt x.2.1.sb
  have hhead : leNat (slotHead x) = x.1 * 2 ^ 18 + sideNat x.2.1.sb := by
    rw [slotHead, leNat_leBytes]
    exact Nat.mod_eq_of_lt (by omega)
  have hload : BitVec.ofNat 256 (leNat (slotLoad x)) = x.2.1.data := by
    apply BitVec.eq_of_toNat_eq
    rw [slotLoad, leNat_leBytes, BitVec.toNat_ofNat]
    have := x.2.1.data.isLt
    norm_num at this ⊢
    omega
  rw [hhead, hload, show (x.1 * 2 ^ 18 + sideNat x.2.1.sb) % 2 ^ 18 = sideNat x.2.1.sb by omega, sideOf_sideNat,
    show nbits (x.1 * 2 ^ 18 + sideNat x.2.1.sb) 23 18 = x.1 by simp only [nbits]; omega]

theorem frameSlots_frameBytes (hlen : ss.length ≤ 14) (hch : ∀ x ∈ ss, x.1 < 64) (hstamp : ∀ x, stamp = some x → x.1 < 14) :
    frameSlots (frameBytes seq ack retry stamp ss) = ss.map (fun x => (x.1, x.2.1)) := by
  have hcount : min (nbits (leAt (frameBytes seq ack retry stamp ss) 0 8) 55 52) 14 = ss.length := by
    obtain ⟨-, -, -, -, -, hcount, -, -⟩ := frameHeader_fields (seq := seq) (ack := ack) (retry := retry) hlen hstamp
    rw [leAt_frameBytes_header hlen hstamp, hcount, Nat.min_eq_left hlen]
  apply List.ext_getElem
  · simp [frameSlots, hcount]
  · intro k h1 h2
    have hk : k < ss.length := by simpa using h2
    simp only [frameSlots, List.getElem_map, List.getElem_range, leAt_frameBytes_head hlen hk, leAt_frameBytes_load hlen hk]
    exact slot_readsBack (hch _ (List.getElem_mem hk))

end Frame

/-- Settles O53: header, slot heads, payloads and CRC lie end to end, so each number reads back at its place. -/
theorem folsaFrameReadsBack : Obligations.FolsaFrameReadsBack := by
  intro seq ack retry stamp ss hlen hch hstamp bs h
  have hh : h = frameHeader seq ack retry stamp ss := leAt_frameBytes_header hlen hstamp
  obtain ⟨-, hseq, hack, hvalue, hslot, hcount, hflag, hretry⟩ :=
    frameHeader_fields (seq := seq) (ack := ack) (retry := retry) hlen hstamp
  rw [hh]
  refine ⟨length_frameBytes .., frameGood_frameBytes .., frameSlots_frameBytes hlen hch hstamp, hseq, hack, hcount, hretry, ?_, ?_⟩
  · rintro k v rfl
    exact ⟨hflag, hslot, hvalue⟩
  · rintro rfl
    exact hflag

end Sys2Proof.Machine
end

section
/-! The step commands (Table 5-1): every form of the table runs through `stepCommand`, and what a head step that cannot issue does. -/

namespace Sys2Proof.Machine

/-- The command of a form runs the form's row. -/
def RunsForm (f : StepForm) : Prop :=
  ∀ (t : TileId) (c : Fin 4) (s : State), exec (f.cmd t c) s = stepCommand f.opcode f.unit f.mode f.ready f.op t c s

theorem runsForm_plainForms : ∀ f ∈ plainForms, RunsForm f := by
  simp only [plainForms, List.forall_mem_cons, List.not_mem_nil, false_implies, implies_true, and_true, RunsForm]
  and_intros <;> intros <;> rfl

theorem runsForm_scaleForms : ∀ f ∈ scaleForms, RunsForm f := by
  simp only [scaleForms, List.forall_mem_cons, List.not_mem_nil, false_implies, implies_true, and_true, RunsForm]
  and_intros <;> intros <;> rfl

theorem runsForm_moverForms : ∀ f ∈ moverForms, RunsForm f := by
  simp only [moverForms, List.forall_mem_cons, List.not_mem_nil, false_implies, implies_true, and_true, RunsForm]
  and_intros <;> intros <;> rfl

theorem runsForm_arrayForms : ∀ f ∈ arrayForms, RunsForm f := by
  simp only [arrayForms, List.forall_mem_cons, List.not_mem_nil, false_implies, implies_true, and_true, RunsForm]
  and_intros <;> intros <;> rfl

theorem runsForm_vectorForms : ∀ f ∈ vectorForms, RunsForm f := by
  simp only [vectorForms, List.forall_mem_cons, List.not_mem_nil, false_implies, implies_true, and_true, RunsForm]
  and_intros <;> intros <;> rfl

theorem exec_stepForm {f : StepForm} (hf : f ∈ stepForms) (t : TileId) (c : Fin 4) (s : State) :
    exec (f.cmd t c) s = stepCommand f.opcode f.unit f.mode f.ready f.op t c s := by
  simp only [stepForms, List.mem_append] at hf
  rcases hf with (((hf | hf) | hf) | hf) | hf
  · exact runsForm_plainForms f hf t c s
  · exact runsForm_scaleForms f hf t c s
  · exact runsForm_moverForms f hf t c s
  · exact runsForm_arrayForms f hf t c s
  · exact runsForm_vectorForms f hf t c s

section Head

variable {f : StepForm} {t : TileId} {c : Fin 4} {s : State} (hf : f ∈ stepForms) (hhead : f.Heads t c s)

include hf hhead

/-- What is left of a step command once its head step is of the form and no hold keeps its context. -/
theorem exec_of_heads : exec (f.cmd t c) s =
    if !(eligible f.unit (berthAt s.dev t.b.val).fclk (berthAt s.dev t.b.val).droopUntil (headWork s t c) && f.ready (headWork s t c)) then
      .next { s with dev := noteState s.dev t.b.val (keyOf s.dev t) c.val .wait }
    else match f.op (headWork s t c) with
      | none => .refused .reservedField
      | some z =>
        if !banksOk f.unit z then .next { s with dev := noteState s.dev t.b.val (keyOf s.dev t) c.val .wait }
        else if inTurn s.dev t.b.val (keyOf s.dev t) c.val then
          .next { s with dev := commitStep s.dev t.b.val (keyOf s.dev t) f.unit (headWork s t c) z }
        else .next s := by
  obtain ⟨hlive, hexamined, hop, hctx, hmode, hheld⟩ := hhead
  simp only [headWork] at *
  rw [exec_stepForm hf, stepCommand, hlive, hexamined, decide_eq_true hop, decide_eq_true hctx, hmode, hheld]
  rfl

theorem exec_of_not_canIssue (h : ¬ f.CanIssue t c s) :
    exec (f.cmd t c) s = .next { s with dev := noteState s.dev t.b.val (keyOf s.dev t) c.val .wait } := by
  rw [exec_of_heads hf hhead]
  refine if_pos ?_
  simpa only [StepForm.CanIssue, ← Bool.and_eq_true, Bool.not_eq_true', Bool.not_eq_true] using h

variable (hcan : f.CanIssue t c s)

include hcan

theorem exec_of_op_none (h : f.op (headWork s t c) = none) : exec (f.cmd t c) s = .refused .reservedField := by
  rw [exec_of_heads hf hhead, hcan.1, hcan.2, h]
  rfl

variable {z : Xe} (hz : f.op (headWork s t c) = some z)

include hz

theorem exec_of_banks_busy (hbanks : banksOk f.unit z = false) :
    exec (f.cmd t c) s = .next { s with dev := noteState s.dev t.b.val (keyOf s.dev t) c.val .wait } := by
  rw [exec_of_heads hf hhead, hcan.1, hcan.2, hz]
  simp [hbanks]

theorem exec_of_not_inTurn (hbanks : banksOk f.unit z = true) (hturn : ¬ InTurn t c s) : exec (f.cmd t c) s = .next s := by
  rw [exec_of_heads hf hhead, hcan.1, hcan.2, hz]
  simp only [InTurn] at hturn
  simp [hbanks, hturn]

theorem exec_of_issues (hbanks : banksOk f.unit z = true) (hturn : InTurn t c s) : exec (f.cmd t c) s =
    .next { s with dev := commitStep s.dev t.b.val (keyOf s.dev t) f.unit (headWork s t c) z } := by
  rw [exec_of_heads hf hhead, hcan.1, hcan.2, hz]
  simp only [InTurn] at hturn
  simp [hbanks, hturn]

end Head

/-- Settles O2: a step that lacks something only has its context's state noted. -/
theorem tileStepWaits : Obligations.TileStepWaits := by
  intro f hf t c s hhead
  refine ⟨fun h => ?_, fun z hcan hz hbanks hturn => exec_of_not_inTurn hf hhead hcan hz hbanks hturn⟩
  by_cases hcan : f.CanIssue t c s
  · obtain hno | ⟨z, hz, hbanks⟩ := h
    · exact absurd hcan hno
    · exact exec_of_banks_busy hf hhead hcan hz hbanks
  · exact exec_of_not_canIssue hf hhead hcan

end Sys2Proof.Machine
end

section
/-! What the reads of a step leave of its working record, field by field. -/

namespace Sys2Proof.Machine

section Touch

variable (x : Xe)

@[simp] theorem touchSide_pl (iq s : Nat) : (touchSide x iq s).pl = x.pl := (sameWork_touchSide x iq s).pl
@[simp] theorem touchWord_pl (o : Operand) (i : Int) : (touchWord x o i).pl = x.pl := (sameWork_touchWord x o i).pl
@[simp] theorem touchWord_mem (o : Operand) (i : Int) : (touchWord x o i).t.mem = x.t.mem := (sameWork_touchWord x o i).mem
@[simp] theorem touchWords_pl (o : Operand) (is : List Int) : (touchWords x o is).pl = x.pl := (sameWork_touchWords x o is).pl
@[simp] theorem touchWords_c (o : Operand) (is : List Int) : (touchWords x o is).c = x.c := (sameWork_touchWords x o is).c
@[simp] theorem touchWords_ctx (o : Operand) (is : List Int) : (touchWords x o is).ctx = x.ctx := (sameWork_touchWords x o is).ctx
@[simp] theorem touchWords_w (o : Operand) (is : List Int) : (touchWords x o is).w = x.w := (sameWork_touchWords x o is).w
@[simp] theorem touchWords_out (o : Operand) (is : List Int) : (touchWords x o is).out = x.out := (sameWork_touchWords x o is).out
@[simp] theorem touchWords_mem (o : Operand) (is : List Int) : (touchWords x o is).t.mem = x.t.mem := (sameWork_touchWords x o is).mem
@[simp] theorem touchWords_banks (o : Operand) (is : List Int) : (touchWords x o is).t.banks = x.t.banks :=
  (sameWork_touchWords x o is).banks
@[simp] theorem touchFront_pl (iq n : Nat) : (touchFront x iq n).pl = x.pl := (sameWork_touchFront x iq n).pl
@[simp] theorem touchFront_ctx (iq n : Nat) : (touchFront x iq n).ctx = x.ctx := (sameWork_touchFront x iq n).ctx
@[simp] theorem touchFront_w (iq n : Nat) : (touchFront x iq n).w = x.w := (sameWork_touchFront x iq n).w
@[simp] theorem touchFront_c (iq n : Nat) : (touchFront x iq n).c = x.c := (sameWork_touchFront x iq n).c
@[simp] theorem touchFront_mem (iq n : Nat) : (touchFront x iq n).t.mem = x.t.mem := (sameWork_touchFront x iq n).mem
@[simp] theorem touchFront_banks (iq n : Nat) : (touchFront x iq n).t.banks = x.t.banks := (sameWork_touchFront x iq n).banks

@[simp] theorem xCnt_t (sub n : Nat) : (xCnt x sub n).t = x.t := by simp only [xCnt]; split <;> rfl
@[simp] theorem xCnt_pl (sub n : Nat) : (xCnt x sub n).pl = x.pl := by simp only [xCnt]; split <;> rfl
@[simp] theorem xCnt_ctx (sub n : Nat) : (xCnt x sub n).ctx = x.ctx := by simp only [xCnt]; split <;> rfl
@[simp] theorem xCnt_c (sub n : Nat) : (xCnt x sub n).c = x.c := by simp only [xCnt]; split <;> rfl
@[simp] theorem xCnt_w (sub n : Nat) : (xCnt x sub n).w = x.w := by simp only [xCnt]; split <;> rfl
@[simp] theorem xCnt_out (sub n : Nat) : (xCnt x sub n).out = x.out := by simp only [xCnt]; split <;> rfl
@[simp] theorem xCnt_rerun (sub n : Nat) : (xCnt x sub n).rerun = x.rerun := by simp only [xCnt]; split <;> rfl
@[simp] theorem xCnt_release (sub n : Nat) : (xCnt x sub n).release = x.release := by simp only [xCnt]; split <;> rfl

/-- A step's factor fault changes the mark of its context, its reports and its counters. -/
theorem factorFault_eq : ∃ reps cnts b, factorFault x = { x with reps := reps, cnts := cnts, ctx := { x.ctx with factorFault := b } } := by
  simp only [factorFault]
  split
  · exact ⟨x.reps, x.cnts, x.ctx.factorFault, rfl⟩
  · exact ⟨_, _, true, rfl⟩

@[simp] theorem factorFault_t : (factorFault x).t = x.t := by obtain ⟨_, _, _, h⟩ := factorFault_eq x; rw [h]
@[simp] theorem factorFault_pl : (factorFault x).pl = x.pl := by obtain ⟨_, _, _, h⟩ := factorFault_eq x; rw [h]
@[simp] theorem factorFault_out : (factorFault x).out = x.out := by obtain ⟨_, _, _, h⟩ := factorFault_eq x; rw [h]

@[simp] theorem factorCheck_t (ms : List U32) : (factorCheck x ms).1.t = x.t := by
  simp only [factorCheck]
  split
  · exact factorFault_t x
  · rfl

@[simp] theorem statAdd_t (z : Int) (ns : List Int) : (statAdd x z ns).t = x.t := by simp only [statAdd]; split <;> rfl

@[simp] theorem finishU8_t (z : Int) (b : Bool) (ns : List Int) : (finishU8 x z b ns).t = x.t := by
  simp only [finishU8]
  split
  · exact statAdd_t x z ns
  · rfl

@[simp] theorem checkScale_t (iq : Nat) (r : BitVec 320) (ok : Bool) : (checkScale x iq r ok).t = x.t := by
  simp only [checkScale]
  split
  · rfl
  · exact xCnt_t _ _ _

end Touch

/-- A fold of steps that keep a step's tile memory keeps it. -/
theorem foldl_mem {α : Type} {f : Xe → α → Xe} (hf : ∀ x a, (f x a).t.mem = x.t.mem) (as : List α) (x : Xe) :
    (as.foldl f x).t.mem = x.t.mem := by
  induction as generalizing x with
  | nil => rfl
  | cons a as ih => exact (ih (f x a)).trans (hf x a)

theorem foldl_t {α : Type} {f : Xe → α → Xe} (hf : ∀ x a, (f x a).t = x.t) (as : List α) (x : Xe) : (as.foldl f x).t = x.t := by
  induction as generalizing x with
  | nil => rfl
  | cons a as ih => exact (ih (f x a)).trans (hf x a)

end Sys2Proof.Machine
end

section
/-! The values of step fields that the tables reserve (R5, R48, R116). -/

namespace Sys2Proof.Machine

theorem fld_lt {n : Nat} (w : BitVec n) (hi lo : Nat) : fld w hi lo < 2 ^ (hi + 1 - lo) := Nat.mod_lt _ (by positivity)

theorem clearControl_eq_none {x : Xe} {clr m : Nat} {b : Bank} (h : clr < 4) : clearControl x clr m b = none ↔ clr = 3 := by
  simp only [clearControl]
  split_ifs <;> simp <;> omega

/-- An array step is refused for its clear control alone. -/
theorem fld_eq_three_iff_clearControl {x y : Xe} {hi lo m : Nat} {b : Bank} (hw : hi + 1 - lo = 2) :
    clearControl y (fld x.w hi lo) m b = none ↔ fld x.w hi lo = 3 :=
  clearControl_eq_none (by have := fld_lt x.w hi lo; rw [hw] at this; exact this)

/-- What a step does with the bank that its clear control leaves decides nothing about its refusal. -/
theorem bankStep_eq_none {cc : Option Bank} {m : Bool} {f g : Bank → Xe} :
    (match cc with | none => none | some b => if m then some (f b) else some (g b)) = none ↔ cc = none := by
  cases cc with
  | none => simp
  | some b => cases m <;> simp

theorem convCore_eq_none (x : Xe) (masked : Bool) : convCore x masked = none ↔ fld x.w 42 41 = 3 ∨ fld x.w 50 49 = 3 := by
  unfold convCore
  dsimp only
  by_cases ham : fld x.w 42 41 = 3
  · simp [ham]
  · rw [if_neg ham, or_iff_right ham]
    exact bankStep_eq_none.trans (fld_eq_three_iff_clearControl rfl)

theorem opMatw_eq_none (x : Xe) : opMatw x = none ↔ fld x.w 42 41 = 3 ∨ fld x.w 50 49 = 3 := by
  rw [← convCore_eq_none x (allMasked (if bit x.w 18 then tokensA x else tokensA x ++ tokensB x))]
  simp only [opMatw]
  split <;> simp [*]

theorem opDwconv_eq_none (x : Xe) : opDwconv x = none ↔ fld x.w 50 49 = 3 :=
  bankStep_eq_none.trans (fld_eq_three_iff_clearControl rfl)

theorem opMata_eq_none (x : Xe) : opMata x = none ↔ fld x.w 50 49 = 3 :=
  bankStep_eq_none.trans (fld_eq_three_iff_clearControl rfl)

theorem opBwd_eq_none (x : Xe) : opBwd x = none ↔ fld x.w 50 49 = 3 :=
  bankStep_eq_none.trans (fld_eq_three_iff_clearControl rfl)

theorem opWgrad_eq_none (x : Xe) : opWgrad x = none ↔ fld x.w 50 49 = 3 :=
  bankStep_eq_none.trans (fld_eq_three_iff_clearControl rfl)

theorem gpoolAccumulate_eq_none (x : Xe) (f : Int → Int → Int) : gpoolAccumulate x f = none ↔ fld x.w 48 47 = 3 :=
  bankStep_eq_none.trans (fld_eq_three_iff_clearControl rfl)

/-- A step that refuses its reserved value first, and answers in every other case, is refused for that value alone. -/
theorem refuses_iff {p : Prop} [Decidable p] {o : Option Xe} (h : o.isSome = true) : (if p then none else o) = none ↔ p := by
  split <;> simp_all [Option.isSome_iff_ne_none]

/-- A step that answers both where all its tokens are masked and where they are not, answers. -/
theorem isSome_masked {m : Prop} [Decidable m] {o p : Option Xe} (ho : o.isSome = true) (hp : p.isSome = true) :
    (if m then o else p).isSome = true := by split <;> assumption

theorem opHurdle_eq_none (x : Xe) : opHurdle x = none ↔ fld x.w 51 50 = 3 := refuses_iff rfl

theorem opRq_eq_none (x : Xe) : opRq x = none ↔ fld x.w 26 25 = 3 := refuses_iff (isSome_masked rfl rfl)

theorem opRotw_eq_none (x : Xe) : opRotw x = none ↔ fld x.w 51 50 < 2 := refuses_iff (isSome_masked rfl rfl)

theorem opElt_eq_none (x : Xe) : opElt x = none ↔ 4 < fld x.w 51 49 := refuses_iff (isSome_masked rfl rfl)

theorem opScale_eq_none (x : Xe) : opScale x = none ↔ 4 < fld x.w 46 44 := refuses_iff (isSome_masked rfl rfl)

theorem opCrop_eq_none (x : Xe) : opCrop x = none ↔ fld x.w 29 26 = 0 ∨ 10 < fld x.w 29 26 :=
  refuses_iff (isSome_masked rfl rfl)

theorem opLossSmoothL1_eq_none (x : Xe) : opLossSmoothL1 x = none ↔ bit x.w 49 = true := refuses_iff rfl

theorem isSome_opStatUpdate (x : Xe) : (opStatUpdate x).isSome = true := by
  unfold opStatUpdate
  refine isSome_masked rfl ?_
  cases tokensA x with
  | nil => rfl
  | cons t0 ts => exact isSome_masked rfl (isSome_masked rfl (isSome_masked (isSome_masked rfl rfl) rfl))

/-- The steps whose fields hold no reserved value. -/
theorem isSome_of_total : ∀ op ∈ [opNop, opBand, opBchk, opStatSend, opStatUpdate, opSemit, opSend, opCopy, opPass, opSteer, opMerge,
    opSpec, opXformFr, opXformFs, opXformIs, opXformIc, opZpc, opAccin, opAccout, opTfn, opPoolMax, opPoolAverage, opGpoolEmitMax,
    opGpoolEmitAvg, opResize, opSoftmax, opLnorm, opSelect, opOpt, opOptFin, opLossCe, opLossBce, opLossDrain],
    ∀ x, (op x).isSome = true := by
  simp only [List.forall_mem_cons, List.not_mem_nil, false_implies, implies_true, and_true]
  exact ⟨fun x => rfl, fun x => rfl, fun x => isSome_masked rfl (isSome_masked rfl (isSome_masked rfl rfl)), fun x =>
    isSome_masked rfl rfl, fun x => isSome_opStatUpdate x, fun x => rfl, fun x => rfl, fun x => rfl, fun x => rfl, fun x => rfl,
    fun x => rfl, fun x => isSome_masked rfl (isSome_masked rfl rfl), fun x => isSome_masked rfl rfl, fun x => isSome_masked rfl
    rfl, fun x => isSome_masked rfl rfl, fun x => isSome_masked rfl rfl, fun x => isSome_masked rfl rfl, fun x => isSome_masked
    rfl rfl, fun x => isSome_masked rfl (isSome_masked rfl rfl), fun x => isSome_masked rfl rfl, fun x => isSome_masked rfl rfl,
    fun x => isSome_masked rfl rfl, fun x => isSome_masked rfl rfl, fun x => isSome_masked rfl rfl, fun x => isSome_masked rfl
    rfl, fun x => isSome_masked rfl rfl, fun x => isSome_masked rfl rfl, fun x => isSome_masked rfl rfl, fun x => isSome_masked
    rfl rfl, fun x => isSome_masked rfl rfl, fun x => rfl, fun x => rfl, fun x => isSome_masked rfl rfl⟩

/-- Settles O3, form by form: an operation answers `none` for its reserved values alone, and its command then refuses. -/
theorem tileStepReservedFields : Obligations.TileStepReservedFields :=
  ⟨fun x => convCore_eq_none x _, opMatw_eq_none, opDwconv_eq_none, opMata_eq_none, opBwd_eq_none, opWgrad_eq_none,
    fun x => gpoolAccumulate_eq_none x _, fun x => gpoolAccumulate_eq_none x _, opHurdle_eq_none, opRq_eq_none, opRotw_eq_none,
    opElt_eq_none, opScale_eq_none, opCrop_eq_none, opLossSmoothL1_eq_none, isSome_of_total,
    fun _ hf _ _ _ hhead hcan hz => exec_of_op_none hf hhead hcan hz⟩

end Sys2Proof.Machine
end

section
/-! The block as a whole: what a step runs, and the state after reset. -/

namespace Sys2Proof.Machine

/-- Settles O37: both clauses are the two branches of `step`. -/
theorem stepRunsFrontCommand : Obligations.StepRunsFrontCommand :=
  ⟨fun _ _ => rfl, fun s hs => by simp only [step, hs]⟩

/-- Settles O38: every part of the state after reset is a literal. -/
theorem resetState : Obligations.ResetState := by
  refine ⟨rfl, ⟨⟨rfl, rfl, rfl⟩, by rintro p ⟨⟩⟩, rfl, rfl, rfl, rfl, rfl, ?_, ?_, ?_, ?_, ?_, fun q => rfl, fun n => rfl, rfl, rfl⟩
  · decide
  · decide
  · decide
  · decide
  · decide

/-- A copy step of one token that already holds a token to send. -/
def copyHoldingOutput : Xe := { t := {}, pl := {}, c := 0, ctx := {}, w := 0, out := [{}] }

/-- Refutes O8: COPY keeps the tokens that its working record already holds, so that one which holds a token to send ends with it. -/
theorem not_moverSteps : ¬ Obligations.MoverSteps := by
  intro h
  obtain ⟨-, -, -, hout⟩ := h.2 copyHoldingOutput _ rfl (by decide) (by decide) (by decide)
  have hkept : ∀ z, opCopy copyHoldingOutput = some z → z.out = [{}] := by
    rintro z ⟨⟩
    decide
  rw [hkept _ rfl] at hout
  exact absurd hout (by decide)

end Sys2Proof.Machine
end

section
/-! What a step's operation leaves of its tile's block memory. -/

namespace Sys2Proof.Machine

/-! Reads -/

section Reads

variable (x : Xe)

@[simp] theorem touchSide_mem (iq s : Nat) : (touchSide x iq s).t.mem = x.t.mem := (sameWork_touchSide x iq s).mem

theorem touchToken_mem (o : Operand) (i : Int) : (touchToken x o i).t.mem = x.t.mem := by simp [touchToken]

theorem touchRecord_mem (o : Operand) (base : Int) : (touchRecord x o base).t.mem = x.t.mem := by simp [touchRecord, xPoison]

@[simp] theorem touchBlock_mem (o : Operand) : (touchBlock x o).t.mem = x.t.mem := by
  rw [touchBlock, foldl_mem fun x v => touchRecord_mem x o _]

end Reads

/-! What holds of every answer of an operation, by the shape of the operation -/

/-- `P` holds of what an operation answers. -/
def Answers (P : Xe → Prop) (o : Option Xe) : Prop := ∀ z, o = some z → P z

section Answers

variable {P : Xe → Prop}

theorem answers_some {y : Xe} (h : P y) : Answers P (some y) := by
  rintro z ⟨⟩
  exact h

theorem answers_none : Answers P none := by rintro z ⟨⟩

theorem answers_ite {m : Prop} [Decidable m] {o p : Option Xe} (ho : Answers P o) (hp : Answers P p) :
    Answers P (if m then o else p) := by
  split
  · exact ho
  · exact hp

theorem answers_refuses {m : Prop} [Decidable m] {o : Option Xe} (h : Answers P o) : Answers P (if m then none else o) :=
  answers_ite answers_none h

theorem answers_bankStep {cc : Option Bank} {m : Prop} [Decidable m] {f g : Bank → Xe} (hf : ∀ b, P (f b)) (hg : ∀ b, P (g b)) :
    Answers P (match cc with | none => none | some b => if m then some (f b) else some (g b)) := by
  cases cc with
  | none => exact answers_none
  | some b => exact answers_ite (answers_some (hf b)) (answers_some (hg b))

end Answers

/-- An operation that stores nothing. -/
abbrev StoresNothing (x : Xe) (o : Option Xe) : Prop := Answers (fun z => z.t.mem = x.t.mem) o

section Storeless

variable (x : Xe)

theorem storesNothing_opNop : StoresNothing x (opNop x) := answers_some rfl
theorem storesNothing_opHurdle : StoresNothing x (opHurdle x) := answers_refuses (answers_some rfl)
theorem storesNothing_opBand : StoresNothing x (opBand x) := answers_some rfl

theorem bandRelease_mem : (bandRelease x).t.mem = x.t.mem := foldl_mem (fun x _ => touchGranule_mem x _) _ x

theorem storesNothing_opBchk : StoresNothing x (opBchk x) := by
  refine answers_ite (answers_some ?_) (answers_ite (answers_some ?_) (answers_ite (answers_some ?_) (answers_some ?_)))
  · rw [bandRelease_mem, xCnt_t]
  · rw [bandRelease_mem, xCnt_t]
  · rw [xCnt_t]; rfl
  · rw [bandRelease_mem, xCnt_t, xCnt_t]

theorem storesNothing_opScale : StoresNothing x (opScale x) := by
  refine answers_refuses (answers_ite (answers_some ?_) (answers_some ?_))
  all_goals simp [xRep, apply_ite Xe.t, apply_ite Tile.mem]

theorem storesNothing_opStatSend : StoresNothing x (opStatSend x) := answers_ite (answers_some rfl) (answers_some rfl)
theorem storesNothing_opSemit : StoresNothing x (opSemit x) := answers_some (by simp)
theorem storesNothing_opSend : StoresNothing x (opSend x) := answers_some (by simp)
theorem storesNothing_opPass : StoresNothing x (opPass x) := answers_some (by simp)
theorem storesNothing_opSteer : StoresNothing x (opSteer x) := answers_some (by simp [xRep, apply_ite Xe.t])
theorem storesNothing_opMerge : StoresNothing x (opMerge x) := answers_some (by simp [xRep, apply_ite Xe.t])
theorem storesNothing_opCrop : StoresNothing x (opCrop x) :=
  answers_refuses (answers_ite (answers_some (by simp)) (answers_some (by simp)))

theorem storesNothing_convCore (b : Bool) : StoresNothing x (convCore x b) :=
  answers_refuses (answers_bankStep (fun _ => rfl) (fun _ => by simp))
theorem storesNothing_opConv : StoresNothing x (opConv x) := storesNothing_convCore x _
theorem storesNothing_opMatw : StoresNothing x (opMatw x) := by
  unfold opMatw
  dsimp only
  generalize hb : allMasked _ = masked
  have h := storesNothing_convCore x masked
  cases hz : convCore x masked with
  | none => exact answers_none
  | some z =>
    refine answers_some ?_
    split
    · exact (touchFront_mem _ _ _).trans (h z hz)
    · exact h z hz

theorem storesNothing_opDwconv : StoresNothing x (opDwconv x) := answers_bankStep (fun _ => rfl) (fun _ => by simp)
theorem storesNothing_opMata : StoresNothing x (opMata x) := answers_bankStep (fun _ => rfl) (fun _ => by simp)
theorem storesNothing_opBwd : StoresNothing x (opBwd x) := answers_bankStep (fun _ => rfl) (fun _ => by simp)
theorem storesNothing_opWgrad : StoresNothing x (opWgrad x) := answers_bankStep (fun _ => rfl) (fun _ => by simp)
theorem storesNothing_opZpc : StoresNothing x (opZpc x) := answers_ite (answers_some rfl) (answers_some (by simp))
theorem storesNothing_opAccin : StoresNothing x (opAccin x) := answers_ite (answers_some rfl) (answers_some (by simp [xPoison]))
theorem storesNothing_opTfn : StoresNothing x (opTfn x) := answers_ite (answers_some rfl) (answers_some (by simp))
theorem storesNothing_opElt : StoresNothing x (opElt x) := by
  unfold opElt
  refine answers_refuses (answers_ite (answers_some rfl) ?_)
  dsimp only
  generalize hfc : factorCheck _ _ = r
  refine answers_some ?_
  rw [foldl_t fun x r => finishU8_t x _ _ _, ← hfc]
  simp
theorem storesNothing_opPoolMax : StoresNothing x (opPoolMax x) :=
  answers_ite (answers_some (foldl_mem (fun x i => touchToken_mem x _ i) _ _))
    (answers_some (foldl_mem (fun x i => touchToken_mem x _ i) _ _))
theorem storesNothing_opPoolAverage : StoresNothing x (opPoolAverage x) := by
  unfold opPoolAverage
  refine answers_ite (answers_some rfl) ?_
  dsimp only
  generalize hfc : factorCheck _ _ = r
  refine answers_some ?_
  rw [finishU8_t, ← hfc, factorCheck_t, foldl_mem fun x i => touchToken_mem x _ i]

theorem storesNothing_gpoolAccumulate (f : Int → Int → Int) : StoresNothing x (gpoolAccumulate x f) :=
  answers_bankStep (fun _ => rfl) (fun _ => by simp)
theorem storesNothing_gpoolEmit (b : Bool) : StoresNothing x (gpoolEmit x b) := by
  unfold gpoolEmit
  refine answers_ite (answers_some rfl) ?_
  dsimp only
  cases b
  · exact answers_some (by simp [xPoison])
  · simp only [if_true]
    generalize hfc : factorCheck _ _ = r
    refine answers_some ?_
    rw [finishU8_t, ← hfc]
    simp [xPoison]

theorem storesNothing_opGpoolEmitMax : StoresNothing x (opGpoolEmitMax x) := by
  unfold opGpoolEmitMax
  exact storesNothing_gpoolEmit x false
theorem storesNothing_opGpoolEmitAvg : StoresNothing x (opGpoolEmitAvg x) := by
  unfold opGpoolEmitAvg
  exact storesNothing_gpoolEmit x true
theorem storesNothing_opResize : StoresNothing x (opResize x) :=
  answers_ite (answers_some rfl) (answers_some (foldl_mem (fun x i => touchToken_mem x _ i) _ _))
theorem storesNothing_opSoftmax : StoresNothing x (opSoftmax x) := answers_ite (answers_some rfl) (answers_some (by simp))
theorem storesNothing_opLnorm : StoresNothing x (opLnorm x) := by
  unfold opLnorm
  refine answers_ite (answers_some rfl) ?_
  dsimp only
  generalize hfc : factorCheck _ _ = r
  refine answers_some ?_
  rw [finishU8_t, ← hfc]
  simp

theorem storesNothing_lossCore (f : Payload → List (Nat × Bool) → Nat → Nat → Int) : StoresNothing x (lossCore x f) := answers_some (by simp)
theorem storesNothing_opLossCe : StoresNothing x (opLossCe x) := by
  unfold opLossCe
  exact storesNothing_lossCore x _
theorem storesNothing_opLossBce : StoresNothing x (opLossBce x) := by
  unfold opLossBce
  exact storesNothing_lossCore x _
theorem storesNothing_opLossSmoothL1 : StoresNothing x (opLossSmoothL1 x) := answers_refuses (storesNothing_lossCore x _)
theorem storesNothing_opLossDrain : StoresNothing x (opLossDrain x) := by
  unfold opLossDrain
  refine answers_ite (answers_some rfl) ?_
  dsimp only
  generalize hfc : factorCheck _ _ = r
  have hr : r.1.t.mem = x.t.mem := by rw [← hfc]; simp [xPoison]
  refine answers_some ?_
  dsimp only
  split <;> exact hr

end Storeless

/-- Settles O9: form by form. -/
theorem tileStepsWithoutStore : Obligations.TileStepsWithoutStore := by
  simp only [Obligations.TileStepsWithoutStore, List.forall_mem_cons, List.not_mem_nil, false_implies, implies_true, and_true]
  exact ⟨storesNothing_opNop, storesNothing_opHurdle, storesNothing_opBand, storesNothing_opBchk, storesNothing_opScale,
    storesNothing_opStatSend, storesNothing_opSemit, storesNothing_opSend, storesNothing_opPass, storesNothing_opSteer,
    storesNothing_opMerge, storesNothing_opCrop, storesNothing_opConv, storesNothing_opMatw, storesNothing_opDwconv,
    storesNothing_opMata, storesNothing_opBwd, storesNothing_opWgrad, storesNothing_opZpc, storesNothing_opAccin,
    storesNothing_opTfn, storesNothing_opElt, storesNothing_opPoolMax, storesNothing_opPoolAverage,
    fun x => storesNothing_gpoolAccumulate x _, fun x => storesNothing_gpoolAccumulate x _, storesNothing_opGpoolEmitMax,
    storesNothing_opGpoolEmitAvg, storesNothing_opResize, storesNothing_opSoftmax, storesNothing_opLnorm,
    storesNothing_opLossCe, storesNothing_opLossBce, storesNothing_opLossSmoothL1, storesNothing_opLossDrain⟩


/-! Stores -/

/-- What a step writes lies in the words `A`: block memory stays canonical and every other byte stays. -/
def WritesAt (A : Nat → Prop) (x z : Xe) : Prop :=
  memWf x.t.mem = true → memWf z.t.mem = true ∧ ∀ a, ¬ A (a / 16) → memRead z.t.mem a = memRead x.t.mem a

section WritesAt

variable {A : Nat → Prop} {x y z : Xe}

theorem writesAt_of_mem_eq (h : z.t.mem = x.t.mem) : WritesAt A x z := fun hwf => by rw [h]; exact ⟨hwf, fun _ _ => rfl⟩

theorem WritesAt.trans (h : WritesAt A x y) (k : WritesAt A y z) : WritesAt A x z := fun hwf => by
  obtain ⟨hy, hxy⟩ := h hwf
  obtain ⟨hz, hyz⟩ := k hy
  exact ⟨hz, fun a ha => (hyz a ha).trans (hxy a ha)⟩

theorem WritesAt.of_mem_eq_left (h : WritesAt A y z) (hxy : y.t.mem = x.t.mem) : WritesAt A x z :=
  (writesAt_of_mem_eq hxy).trans h

theorem WritesAt.of_mem_eq_right (h : WritesAt A x y) (hyz : z.t.mem = y.t.mem) : WritesAt A x z :=
  h.trans (writesAt_of_mem_eq hyz)

theorem WritesAt.mono {B : Nat → Prop} (h : WritesAt A x z) (hAB : ∀ w, A w → B w) : WritesAt B x z := fun hwf =>
  ⟨(h hwf).1, fun a ha => (h hwf).2 a fun hA => ha (hAB _ hA)⟩

theorem writesAt_writeWord {w : Nat} (v : Nat) (hw : A w) : WritesAt A x (writeWord x w v) := fun hwf => by
  refine ⟨memWf_writeWord x w v hwf, fun a ha => ?_⟩
  rw [memRead_writeWord x w v a hwf, if_neg]
  rintro ⟨hlo, hhi⟩
  exact ha ((show a / 16 = w by omega) ▸ hw)

theorem writesAt_writeGranule {gr : Nat} (v : Nat) (hw : A (gr / 2)) : WritesAt A x (writeGranule x gr v) := fun hwf => by
  refine ⟨memWf_writeGranule x gr v hwf, fun a ha => ?_⟩
  rw [memRead_writeGranule x gr v a hwf, if_neg]
  rintro ⟨hlo, hhi⟩
  exact ha ((show a / 16 = gr / 2 by omega) ▸ hw)

theorem writesAt_writePart {n : Nat} {bs : List Byte} (hn : n % 16 + bs.length ≤ 16) (hw : A (n / 16)) :
    WritesAt A x (writePart x n bs) := fun hwf => by
  refine ⟨memWf_writePart x n bs hwf, fun a ha => ?_⟩
  rw [memRead_writePart x n a bs hwf, if_neg]
  rintro ⟨hlo, hhi, -⟩
  exact ha ((show a / 16 = n / 16 by omega) ▸ hw)

/-- A fold of writes, where `I` is what its steps keep of the working record. -/
theorem writesAt_foldl {α : Type} {f : Xe → α → Xe} {I : Xe → Prop} {as : List α} (hI : ∀ x, ∀ a ∈ as, I x → I (f x a))
    (hf : ∀ x, ∀ a ∈ as, I x → WritesAt A x (f x a)) (hx : I x) : WritesAt A x (as.foldl f x) := by
  induction as generalizing x with
  | nil => exact writesAt_of_mem_eq rfl
  | cons a as ih =>
    exact (hf x a List.mem_cons_self hx).trans (ih (fun x b hb => hI x b (List.mem_cons_of_mem a hb))
      (fun x b hb => hf x b (List.mem_cons_of_mem a hb)) (hI x a List.mem_cons_self hx))

theorem writesAt_foldl_of_all {α : Type} {f : Xe → α → Xe} {as : List α} (hf : ∀ x, ∀ a ∈ as, WritesAt A x (f x a)) :
    WritesAt A x (as.foldl f x) :=
  writesAt_foldl (I := fun _ => True) (fun _ _ _ _ => trivial) (fun x a ha _ => hf x a ha) trivial

theorem writesAt_writeTokens {o : Operand} {ts : List OutTok} (h : ∀ i < 2 * ts.length, A (opWord o (i : Int))) :
    WritesAt A x (writeTokens x o ts) := by
  unfold writeTokens
  refine writesAt_foldl_of_all fun x e he => ?_
  have hlt : e.2 < ts.length := by
    obtain ⟨i, hi, rfl⟩ := List.mem_iff_getElem.1 he
    simpa using hi
  exact (writesAt_writeWord _ (by exact_mod_cast h (2 * e.2) (by omega))).trans
    (writesAt_writeWord _ (by exact_mod_cast h (2 * e.2 + 1) (by omega)))

end WritesAt

end Sys2Proof.Machine
end

section
/-! The step forms that store, and the words that they may write. -/

namespace Sys2Proof.Machine

/-- The two working records name the same operands and read the same bytes. -/
structure SameReads (x y : Xe) : Prop where
  pl : y.pl = x.pl
  c : y.c = x.c
  w : y.w = x.w
  mem : y.t.mem = x.t.mem

theorem SameReads.refl (x : Xe) : SameReads x x := ⟨rfl, rfl, rfl, rfl⟩

theorem SameReads.trans {x y z : Xe} (h : SameReads x y) (k : SameReads y z) : SameReads x z :=
  ⟨k.pl.trans h.pl, k.c.trans h.c, k.w.trans h.w, k.mem.trans h.mem⟩

theorem SameWork.sameReads {x y : Xe} (h : SameWork x y) : SameReads x y := ⟨h.pl, h.c, h.w, h.mem⟩

section SameReads

variable {x y : Xe}

theorem SameReads.foldl {α : Type} {f : Xe → α → Xe} {as : List α} (h : SameReads x y) (hf : ∀ x a, SameReads x (f x a)) :
    SameReads x (as.foldl f y) := by
  induction as generalizing y with
  | nil => exact h
  | cons a as ih => exact ih (h.trans (hf y a))

theorem SameReads.ite {m : Prop} [Decidable m] {z : Xe} (hy : SameReads x y) (hz : SameReads x z) :
    SameReads x (if m then y else z) := by
  split
  · exact hy
  · exact hz

theorem SameReads.xRep {i n : Nat} (h : SameReads x y) : SameReads x (xRep y i n) := h.trans (sameWork_xRep y i n).sameReads
theorem SameReads.xPoison {p : Bool} (h : SameReads x y) : SameReads x (xPoison y p) := h.trans (sameWork_xPoison y p).sameReads
theorem SameReads.touchWord {o : Operand} {i : Int} (h : SameReads x y) : SameReads x (touchWord y o i) :=
  h.trans (sameWork_touchWord y o i).sameReads
theorem SameReads.touchWords {o : Operand} {is : List Int} (h : SameReads x y) : SameReads x (touchWords y o is) :=
  h.trans (sameWork_touchWords y o is).sameReads
theorem SameReads.touchRecord {o : Operand} {base : Int} (h : SameReads x y) : SameReads x (touchRecord y o base) :=
  h.touchWords.xPoison

theorem SameReads.factorFault (h : SameReads x y) : SameReads x (factorFault y) := by
  obtain ⟨_, _, _, hy⟩ := factorFault_eq y
  rw [hy]
  exact ⟨h.pl, h.c, h.w, h.mem⟩

theorem SameReads.factorCheck {ms : List U32} (h : SameReads x y) : SameReads x (factorCheck y ms).1 := by
  simp only [Machine.factorCheck]
  split
  · exact h.factorFault.xPoison
  · exact h

theorem SameReads.statAdd {z : Int} {ns : List Int} (h : SameReads x y) : SameReads x (statAdd y z ns) := by
  simp only [Machine.statAdd]
  split <;> exact ⟨h.pl, h.c, h.w, h.mem⟩

theorem SameReads.setBank {n : Nat} {b : Bank} (h : SameReads x y) : SameReads x { y with t := setBank y.t n b } :=
  ⟨h.pl, h.c, h.w, h.mem⟩

end SameReads

theorem SameReads.opA {x y : Xe} (h : SameReads x y) : opA y = opA x := by simp only [Machine.opA, h.pl, h.c, h.w]
theorem SameReads.opB {x y : Xe} (h : SameReads x y) : opB y = opB x := by simp only [Machine.opB, h.pl, h.c, h.w]
theorem SameReads.opC {x y : Xe} (h : SameReads x y) : opC y = opC x := by simp only [Machine.opC, h.pl, h.c, h.w]

@[simp] theorem writeWord_pl (x : Xe) (a v : Nat) : (writeWord x a v).pl = x.pl := by
  simp only [writeWord, portAWrite]
  split <;> split <;> rfl

/-- An operation that writes in the words `A` alone. -/
abbrev StoresIn (A : Nat → Prop) (x : Xe) (o : Option Xe) : Prop := Answers (WritesAt A x) o

/-- Words `0` to `n - 1` of an operand. -/
def WordsOf (o : Operand) (n w : Nat) : Prop := ∃ i < n, w = opWord o ((i : Nat) : Int)

theorem wordsOf_opWord {o : Operand} {n i : Nat} (h : i < n) : WordsOf o n (opWord o (i : Int)) := ⟨i, h, rfl⟩

theorem WordsOf.mono {o : Operand} {m n w : Nat} (h : WordsOf o m w) (hmn : m ≤ n) : WordsOf o n w := by
  obtain ⟨i, hi, rfl⟩ := h
  exact wordsOf_opWord (by omega)

/-- A token takes two words. -/
theorem writesAt_token {x : Xe} {o : Operand} {n k : Nat} (v v' : Nat) (h : 2 * k + 1 < n) :
    WritesAt (WordsOf o n) x (writeWord (writeWord x (opWord o (2 * (k : Int))) v) (opWord o (2 * (k : Int) + 1)) v') :=
  (writesAt_writeWord _ (by exact_mod_cast wordsOf_opWord (i := 2 * k) (by omega))).trans
    (writesAt_writeWord _ (by exact_mod_cast wordsOf_opWord h))

theorem writesAt_writeRecord {A : Nat → Prop} {x : Xe} {o : Operand} {base : Int} {v : SbVec} {p : Bool}
    (h : ∀ n : Nat, n < 18 → A (opWord o (base + (n : Int)))) : WritesAt A x (writeRecord x o base v p) := by
  unfold writeRecord
  exact writesAt_foldl_of_all fun y n hn => writesAt_writeWord _ (h n (List.mem_range.1 hn))

theorem writesAt_writeVec {A : Nat → Prop} {x : Xe} {o : Operand} {base g : Int} {acc : List Cplx}
    (h : ∀ n : Nat, n < 18 → A (opWord o (base + (n : Int)))) : WritesAt A x (writeVec x o base g acc) := by
  unfold writeVec
  exact WritesAt.of_mem_eq_right (y := writeRecord x o base (renormalise acc g).1 x.poison) (writesAt_writeRecord h) (by simp)

/-- A record put at DC. -/
theorem writesAt_vecAtC {x y : Xe} {g : Int} {acc : List Cplx} (h : SameReads x y) :
    WritesAt (WordsOf (opC x) 18) x (writeVec y (opC y) 0 g acc) := by
  rw [h.opC]
  exact (writesAt_writeVec fun n hn => by simpa using wordsOf_opWord hn).of_mem_eq_left h.mem

theorem snd_lt_of_mem_zipIdx {α : Type} {as : List α} {e : α × Nat} (h : e ∈ as.zipIdx) : e.2 < as.length := by
  obtain ⟨i, hi, rfl⟩ := List.mem_iff_getElem.1 h
  simpa using hi

section Stores

variable (x : Xe)

theorem storesIn_opCopy : StoresIn (fun _ => True) x (opCopy x) := by
  unfold opCopy
  refine answers_some (WritesAt.of_mem_eq_left (writesAt_foldl_of_all fun x e _ => ?_) (touchWords_mem x _ _))
  exact (writesAt_writeWord _ trivial).trans (writesAt_writeWord _ trivial)

theorem storesIn_opAccout : StoresIn (WordsOf (opC x) 128) x (opAccout x) := by
  unfold opAccout
  refine answers_ite (answers_some (writesAt_of_mem_eq rfl)) (answers_ite (answers_some ?_) (answers_some (writesAt_of_mem_eq ?_)))
  · refine WritesAt.of_mem_eq_left (writesAt_foldl_of_all fun y e he => ?_) (by simp [xRep, apply_ite Xe.t])
    have hlt : e.2 < 64 := by simpa [bankTokens] using snd_lt_of_mem_zipIdx he
    have hoc (b : Bool) (y : Xe) : opC (if b then xRep y 0 0 else y) = opC y := by cases b <;> rfl
    rw [hoc]
    exact writesAt_token _ _ (by omega)
  · simp [xPoison, xRep, apply_ite Xe.t]

theorem length_rqPixel (n j : Nat) : (rqPixel x n j).length = 16 := by
  simp only [rqPixel, hadamard]
  split <;> split <;> simp

/-- The values of 16 pixels, of at most 32 channels each. -/
def PixelRows (px : List (List Int)) : Prop := px.length = 16 ∧ ∀ cs ∈ px, cs.length ≤ 32

theorem PixelRows.map {px : List (List Int)} (h : PixelRows px) (f : Int → Int) : PixelRows (px.map fun l => l.map f) := by
  obtain ⟨hpx, hcs⟩ := h
  exact ⟨by rw [List.length_map, hpx], by simpa using hcs⟩

theorem pixelRows_rqBounded (p : Params) {nb : Nat} (hnb : nb ≤ 2) :
    PixelRows ((List.range 16).map fun j => (List.range nb).flatMap fun n => rqBounded x p n j) := by
  refine ⟨by simp, ?_⟩
  simp only [List.forall_mem_map]
  intro j _
  have hlen : ∀ n, (rqBounded x p n j).length = 16 := fun n => by rw [rqBounded, List.length_map, length_rqPixel]
  rw [length_flatMap_const hlen, List.length_range]
  omega

theorem length_rqTokens_le {omode : Nat} {wide pair : Bool} {px : List (List Int)} (h : PixelRows px) :
    (rqTokens omode wide pair px).length ≤ 32 := by
  obtain ⟨hpx, hcs⟩ := h
  have hsum (f : List Int → List OutTok) (hf : ∀ cs ∈ px, (f cs).length ≤ 2) : (px.flatMap f).length ≤ 32 := by
    rw [List.length_flatMap]
    have := List.sum_le_card_nsmul (px.map fun cs => (f cs).length) 2 (by simpa using hf)
    simpa [hpx] using this
  unfold rqTokens
  split
  · exact hsum _ fun cs h => by simpa using (Nat.div_le_div_right (hcs cs h) : cs.length / 16 ≤ 32 / 16)
  · split
    · split
      · exact hsum _ fun cs _ => by simp [splitPair]
      · exact hsum _ fun cs _ => by simp
    · split
      · simp [hpx]
      · simp

/-- A step that either stores its tokens at DC or sends them. -/
theorem writesAt_storedOrSent {x y : Xe} {m : Prop} [Decidable m] {ts : List OutTok} (hy : SameReads x y) (hts : ts.length ≤ 32) :
    WritesAt (WordsOf (opC x) 64) x (if m then writeTokens y (opC y) ts else { y with out := ts }) := by
  split
  · rw [hy.opC]
    exact (writesAt_writeTokens fun i hi => wordsOf_opWord (by omega)).of_mem_eq_left hy.mem
  · exact writesAt_of_mem_eq hy.mem

theorem storesIn_opRq : StoresIn (WordsOf (opC x) 64) x (opRq x) := by
  unfold opRq
  refine answers_refuses (answers_ite (answers_some (writesAt_of_mem_eq rfl)) ?_)
  dsimp only
  generalize hfc : factorCheck _ _ = r
  have hr : SameReads x r.1 := by
    rw [← hfc]
    refine SameReads.factorCheck (SameReads.ite (SameReads.xPoison (SameReads.touchWords ?_)) (SameReads.foldl ?_ fun y k => ?_))
    · exact SameReads.ite (SameReads.touchWords ⟨rfl, rfl, rfl, rfl⟩) ⟨rfl, rfl, rfl, rfl⟩
    · exact SameReads.ite (SameReads.touchWords ⟨rfl, rfl, rfl, rfl⟩) ⟨rfl, rfl, rfl, rfl⟩
    · exact SameReads.xPoison (SameReads.ite (.xRep (.refl y)) (.refl y))
  refine answers_some (writesAt_storedOrSent ?_ ?_)
  · exact SameReads.ite hr (SameReads.ite ⟨hr.statAdd.pl, hr.statAdd.c, hr.statAdd.w, hr.statAdd.mem⟩
      ⟨hr.statAdd.pl, hr.statAdd.c, hr.statAdd.w, hr.statAdd.mem⟩)
  · have hrows := pixelRows_rqBounded r.1 (paramsOf x) (nb := if bit x.w 50 then 2 else 1) (by split <;> omega)
    refine length_rqTokens_le (PixelRows.map ?_ _)
    split
    · exact hrows.map fun _ => _
    · exact hrows

theorem storesIn_opRotw : StoresIn (WordsOf (opA x) (if fld x.w 51 50 = 2 then 512 else 2048)) x (opRotw x) := by
  unfold opRotw
  refine answers_refuses (answers_ite (answers_some (writesAt_of_mem_eq rfl)) (answers_some ?_))
  refine WritesAt.of_mem_eq_left (writesAt_foldl_of_all fun y n hn => writesAt_writeWord _ ?_) (by simp)
  have hn := List.mem_range.1 hn
  exact wordsOf_opWord (by split_ifs at hn ⊢ <;> omega)

theorem storesIn_opXformFr : StoresIn (WordsOf (opC x) 18) x (opXformFr x) := by
  unfold opXformFr
  refine answers_ite (answers_some (writesAt_of_mem_eq rfl)) (answers_some ?_)
  exact writesAt_vecAtC (SameReads.foldl (y := { x with cycles := 72 }) ⟨rfl, rfl, rfl, rfl⟩ fun y j => .touchWord (.refl y))

theorem storesIn_xformBlock (b : Bool) (src : Tile → Operand → Nat → SrcTerms) :
    StoresIn (WordsOf (opC x) 1152) x (xformBlock x b src) := by
  unfold xformBlock
  refine answers_ite (answers_some (writesAt_of_mem_eq rfl)) (answers_some ?_)
  refine WritesAt.of_mem_eq_left (writesAt_foldl_of_all fun y n hn => writesAt_writeVec fun m hm => ?_) (by simp)
  have hn := List.mem_range.1 hn
  exact_mod_cast wordsOf_opWord (n := 1152) (i := 18 * n + m) (by omega)

theorem storesIn_opXformIc : StoresIn (fun _ => True) x (opXformIc x) := by
  unfold opXformIc
  refine answers_ite (answers_some (writesAt_of_mem_eq rfl)) ?_
  dsimp only
  generalize hfc : factorCheck _ _ = r
  refine answers_some (WritesAt.of_mem_eq_left (writesAt_foldl_of_all fun y e _ => writesAt_writePart ?_ trivial) ?_)
  · simp only [List.length_singleton]
    omega
  · rw [finishU8_t, ← hfc]
    simp

theorem storesIn_opSpec : StoresIn (WordsOf (opC x) 18) x (opSpec x) := by
  unfold opSpec
  have hrec {o : Operand} {f : Nat → Int} (y : Xe) (c : Nat) : SameReads y (touchRecord y o (f c)) := .touchRecord (.refl y)
  refine answers_ite (answers_some (writesAt_of_mem_eq rfl)) (answers_ite (answers_some ?_) (answers_some (writesAt_of_mem_eq ?_)))
  · exact writesAt_vecAtC (SameReads.setBank (SameReads.foldl (SameReads.foldl ⟨rfl, rfl, rfl, rfl⟩ hrec) hrec))
  · refine (congrArg Tile.mem (xCnt_t _ _ _)).trans ?_
    exact (SameReads.setBank (SameReads.foldl (SameReads.foldl ⟨rfl, rfl, rfl, rfl⟩ hrec) hrec)).mem

theorem storesIn_opSelect : StoresIn (WordsOf (opC x) (npOf (fld x.w 19 8 + 1) / 4)) x (opSelect x) := by
  unfold opSelect
  refine answers_ite (answers_some (writesAt_of_mem_eq rfl)) (answers_some ?_)
  refine WritesAt.of_mem_eq_right (WritesAt.of_mem_eq_left (writesAt_foldl_of_all fun y k hk => writesAt_writeWord _ ?_) ?_) rfl
  · exact wordsOf_opWord (List.mem_range.1 hk)
  · simp

/-- The words of the partner plane that an optimiser step may write: 16 of weights, 64 of their states. -/
def OptWords (x : Xe) (oa ob : Operand) (w : Nat) : Prop := WordsOf (partnerOp x oa) 16 w ∨ WordsOf (partnerOp x ob) 64 w

theorem WritesAt.withDelta {A : Nat → Prop} {x y : Xe} {cs : Tab U32} {ac : List (Nat × Nat)} (h : WritesAt A x y) :
    WritesAt A x { y with t := { y.t with csdelta := cs }, acnts := ac } := h.of_mem_eq_right rfl

/-- One word of weights and the four words of its state. -/
theorem writesAt_optWord {o : OptRegs} {rule : Bool} {rsh za j : Nat} {xt : XTable} {oa ob : Operand} {bank : Bank} {x y : Xe}
    (hy : y.pl = x.pl) (hj : j < 16) :
    WritesAt (OptWords x oa ob) y (optWord o rule rsh xt oa ob bank za y j) := by
  have hp (q : Operand) : partnerOp y q = partnerOp x q := by rw [partnerOp, partnerOp, hy]
  have h0 (v : Nat) {z : Xe} := writesAt_writeWord (x := z) (A := OptWords x oa ob) v (.inr ⟨4 * j, by omega, rfl⟩)
  have h1 (v : Nat) {z : Xe} := writesAt_writeWord (x := z) (w := opWord (partnerOp x ob) (((4 * j : Nat) : Int) + 1))
    (A := OptWords x oa ob) v (.inr ⟨4 * j + 1, by omega, by push_cast; rfl⟩)
  have h2 (v : Nat) {z : Xe} := writesAt_writeWord (x := z) (w := opWord (partnerOp x ob) (((4 * j : Nat) : Int) + 2))
    (A := OptWords x oa ob) v (.inr ⟨4 * j + 2, by omega, by push_cast; rfl⟩)
  have h3 (v : Nat) {z : Xe} := writesAt_writeWord (x := z) (w := opWord (partnerOp x ob) (((4 * j : Nat) : Int) + 3))
    (A := OptWords x oa ob) v (.inr ⟨4 * j + 3, by omega, by push_cast; rfl⟩)
  have hwords (v v0 v1 v2 v3 : Nat) := (writesAt_writeWord (x := y) (A := OptWords x oa ob) v (.inl (wordsOf_opWord hj))).trans
    ((h0 v0).trans ((h1 v1).trans ((h2 v2).trans (h3 v3))))
  unfold optWord
  dsimp only
  rw [hp oa, hp ob]
  exact WritesAt.withDelta (hwords _ _ _ _ _)

theorem storesIn_opOpt : StoresIn (OptWords x (opA x) (opB x)) x (opOpt x) := by
  unfold opOpt
  refine answers_ite (answers_some (writesAt_of_mem_eq rfl)) (answers_some ?_)
  refine WritesAt.of_mem_eq_left (writesAt_foldl (I := fun y => y.pl = x.pl) (fun y j _ hy => ?_) (fun y j hj hy => ?_) ?_) ?_
  · simpa [optWord] using hy
  · exact writesAt_optWord hy (List.mem_range.1 hj)
  · simp
  · simp

theorem wordsOf_partnerOp {x y : Xe} {o : Operand} {n i : Nat} (h : y.pl = x.pl) (hi : i < n) :
    WordsOf (partnerOp x o) n (opWord (partnerOp y o) (i : Int)) := by
  rw [show partnerOp y o = partnerOp x o by rw [partnerOp, partnerOp, h]]
  exact wordsOf_opWord hi

theorem WritesAt.withCsdelta {A : Nat → Prop} {x y : Xe} {cs : Tab U32} (h : WritesAt A x y) :
    WritesAt A x { y with t := { y.t with csdelta := cs } } := h.of_mem_eq_right rfl

theorem storesIn_opOptFin : StoresIn (WordsOf (partnerOp x (opC x)) 16) x (opOptFin x) := by
  unfold opOptFin
  refine answers_ite (answers_some (writesAt_of_mem_eq rfl)) (answers_some (WritesAt.withCsdelta ?_))
  refine WritesAt.of_mem_eq_left (writesAt_foldl_of_all fun y i hi => writesAt_writeWord _ ?_) ?_
  · exact wordsOf_partnerOp (touchWords_pl _ _ _) (List.mem_range.1 hi)
  · exact touchWords_mem _ _ _

/-- The words of the statistic entries at an operand: two scale entries to a word, then four largest values to a word. -/
def StatWords (o : Operand) (w : Nat) : Prop := WordsOf o 512 w ∨ ∃ i < 256, w = opWord o ((512 + i : Nat) : Int)

theorem WritesAt.withMirror {A : Nat → Prop} {x y : Xe} {ms : List MirrorWrite} (h : WritesAt A x y) :
    WritesAt A x { y with mirror := ms } := h.of_mem_eq_right rfl

theorem WritesAt.orCounted {A : Nat → Prop} {x y : Xe} {m : Prop} [Decidable m] {i n : Nat} (h : WritesAt A x y) :
    WritesAt A x (if m then y else xCnt y i n) := by
  split
  · exact h
  · exact h.of_mem_eq_right (by rw [xCnt_t])

theorem storesIn_opStatUpdate : StoresIn (StatWords (opA x)) x (opStatUpdate x) := by
  unfold opStatUpdate
  refine answers_ite (answers_some (writesAt_of_mem_eq rfl)) ?_
  cases tokensA x with
  | nil => exact answers_some (writesAt_of_mem_eq rfl)
  | cons t0 ts =>
    have hs : fld t0.data 57 48 < 1024 := fld_lt _ 57 48
    have hread {y : Xe} {o o' : Operand} {i j : Int} {is : List Int} :
        (touchWords (touchWord (touchWord y o i) o j) o' is).t.mem = y.t.mem := by simp
    have hentry {y : Xe} (e : Nat) : WritesAt (StatWords (opA x)) y (writeEntry y (opA x) (fld t0.data 57 48) e) :=
      writesAt_writeGranule e (.inl ⟨fld t0.data 57 48 / 2, by omega, by omega⟩)
    have hamax {y : Xe} (a : Nat) : WritesAt (StatWords (opA x)) y (writeAmax y (opA x) (fld t0.data 57 48) a) :=
      writesAt_writePart (by rw [leBytes_length]; omega) (.inr ⟨fld t0.data 57 48 / 4, by omega, by omega⟩)
    refine answers_ite (answers_some (writesAt_of_mem_eq rfl)) (answers_ite (answers_some (writesAt_of_mem_eq ?_))
      (answers_ite (answers_ite (answers_some (WritesAt.withMirror ?_)) (answers_some (writesAt_of_mem_eq ?_)))
        (answers_some (WritesAt.withMirror ?_))))
    · exact hread
    · exact (hentry _).of_mem_eq_left hread
    · exact hread
    · exact WritesAt.orCounted (((hentry _).trans (hamax _)).of_mem_eq_left hread)

end Stores

/-- A byte outside the words that an operation writes keeps its value. -/
theorem StoresIn.memRead_eq {A : Nat → Prop} {x z : Xe} {o : Option Xe} {a : Nat} (h : StoresIn A x o) (hz : o = some z)
    (hwf : memWf x.t.mem = true) (ha : ¬ A (a / 16)) : memRead z.t.mem a = memRead x.t.mem a := (h z hz hwf).2 a ha

theorem not_wordsOf {o : Operand} {n w : Nat} (h : ∀ i : Nat, i < n → w ≠ opWord o (i : Int)) : ¬ WordsOf o n w := by
  rintro ⟨i, hi, rfl⟩
  exact h i hi rfl

/-- Settles O10: each storing form writes in the words of its destination alone. -/
theorem tileStoresStayInOperand : Obligations.TileStoresStayInOperand := by
  refine ⟨fun x z hz hwf a ha => (storesIn_opAccout x).memRead_eq hz hwf (not_wordsOf ha),
    fun x z hz hwf a ha => (storesIn_opRq x).memRead_eq hz hwf (not_wordsOf ha),
    fun x z hz hwf a ha => (storesIn_opRotw x).memRead_eq hz hwf (not_wordsOf ha),
    fun x z hz hwf a ha => (storesIn_opXformFr x).memRead_eq hz hwf (not_wordsOf ha), ?_,
    fun x z hz hwf a ha => (storesIn_opSpec x).memRead_eq hz hwf (not_wordsOf ha),
    fun x z hz hwf a ha => (storesIn_opSelect x).memRead_eq hz hwf (not_wordsOf ha),
    fun x z hz hwf a ha hb => (storesIn_opOpt x).memRead_eq hz hwf (not_or.2 ⟨not_wordsOf ha, not_wordsOf hb⟩),
    fun x z hz hwf a ha => (storesIn_opOptFin x).memRead_eq hz hwf (not_wordsOf ha),
    fun x z hz hwf a ha hb => (storesIn_opStatUpdate x).memRead_eq hz hwf (not_or.2 ⟨not_wordsOf ha, ?_⟩)⟩
  · simp only [List.forall_mem_cons, List.not_mem_nil, false_implies, implies_true, and_true]
    exact ⟨fun x z hz hwf a ha => (storesIn_xformBlock x true _).memRead_eq hz hwf (not_wordsOf ha),
      fun x z hz hwf a ha => (storesIn_xformBlock x false _).memRead_eq hz hwf (not_wordsOf ha)⟩
  · rintro ⟨i, hi, h⟩
    exact hb i hi h

end Sys2Proof.Machine
end

section
/-! The lanes of a multiply bank, and what the array and accumulator operations leave in them. -/

namespace Sys2Proof.Machine

/-! Lanes and sums -/

theorem Tab.get_map_range' {α : Type} (d : α) (f : Nat → α) (s n k : Nat) :
    Tab.get d ((List.range' s n).map fun i => (i, f i)) k = if s ≤ k ∧ k < s + n then f k else d := by
  induction n generalizing s with
  | zero => rw [if_neg (by omega)]; rfl
  | succ n ih =>
    rw [List.range'_succ, List.map_cons, Tab.get, ih]
    by_cases hk : s = k
    · rw [if_pos hk, if_pos (by omega), hk]
    · by_cases hlt : k < s
      · rw [if_neg hk, if_pos hlt, if_neg (by omega)]
      · rw [if_neg hk, if_neg hlt]
        exact if_congr (by omega) rfl rfl

theorem Tab.get_map_range {α : Type} (d : α) (f : Nat → α) {n k : Nat} (h : k < n) :
    Tab.get d ((List.range n).map fun i => (i, f i)) k = f k := by
  rw [List.range_eq_range', Tab.get_map_range', if_pos (by omega)]

theorem toInt_toA48 {v : Int} (h : InA48 v) : (toA48 v).toInt = v := by
  obtain ⟨hlo, hhi⟩ := h
  rw [toA48, if_pos ⟨hlo, hhi⟩, BitVec.toInt_ofInt_eq_self (by omega)] <;> omega

theorem toInt_toI32 {v : Int} (h : InI32 v) : (toI32 v).toInt = v := by
  obtain ⟨hlo, hhi⟩ := h
  rw [toI32, if_pos ⟨hlo, hhi⟩, BitVec.toInt_ofInt_eq_self (by omega)] <;> omega

section Lanes

variable {b : Bank} {d : Nat → Int} {l : Nat}

theorem laneVal_addLanes {v : Int} (hd : d l = v) (hl : l < 256) (h : InA48 (laneVal b l + v)) :
    laneVal (addLanes b d) l = laneVal b l + v := by
  rw [laneVal, addLanes, Tab.get_map_range _ _ hl, hd, toInt_toA48 h]

theorem laneVal_setLanes (hl : l < 256) (h : InA48 (d l)) : laneVal (setLanes b d) l = d l := by
  rw [laneVal, setLanes, Tab.get_map_range _ _ hl, toInt_toA48 h]

theorem laneRes_setLanes (hl : l < 256) (h : InA48 (d l)) : laneRes (setLanes b d) l = res3 (d l) := by
  rw [laneRes, setLanes, Tab.get_map_range _ _ hl, toInt_toA48 h]

theorem rowSum_addRowSums {v : Int} (hd : d l = v) (hl : l < 16) (h : InI32 (rowSum b l + v)) :
    rowSum (addRowSums b d) l = rowSum b l + v := by
  rw [rowSum, addRowSums, Tab.get_map_range _ _ hl, hd, toInt_toI32 h]

theorem transSum_addTransSums {v : Int} (hd : d l = v) (hl : l < 16) (h : InI32 (transSum b l + v)) :
    transSum (addTransSums b d) l = transSum b l + v := by
  rw [transSum, addTransSums, Tab.get_map_range _ _ hl, hd, toInt_toI32 h]

@[simp] theorem laneVal_poisonBank (p : Bool) : laneVal (poisonBank b p) l = laneVal b l := rfl
@[simp] theorem laneRes_poisonBank (p : Bool) : laneRes (poisonBank b p) l = laneRes b l := rfl
@[simp] theorem rowSum_poisonBank (p : Bool) : rowSum (poisonBank b p) l = rowSum b l := rfl
@[simp] theorem transSum_poisonBank (p : Bool) : transSum (poisonBank b p) l = transSum b l := rfl
@[simp] theorem laneVal_addRowSums : laneVal (addRowSums b d) l = laneVal b l := rfl
@[simp] theorem laneVal_addTransSums : laneVal (addTransSums b d) l = laneVal b l := rfl
@[simp] theorem rowSum_addLanes : rowSum (addLanes b d) l = rowSum b l := rfl
@[simp] theorem transSum_addLanes : transSum (addLanes b d) l = transSum b l := rfl

end Lanes

/-- An accumulation over a range is its sum. -/
theorem foldl_add_range (f : Nat → Int) (a : Int) (n : Nat) :
    (List.range n).foldl (fun acc i => acc + f i) a = a + ∑ i ∈ Finset.range n, f i := by
  induction n with
  | zero => simp
  | succ n ih => rw [List.range_succ, List.foldl_append, ih, Finset.sum_range_succ]; simp [add_assoc]

/-! Block memory is all that an operand's bytes depend on -/

section SameMem

variable {t u : Tile} (h : u.mem = t.mem)

include h

theorem byteOf_congr (o : Operand) (i : Int) (k : Nat) : byteOf u o i k = byteOf t o i k := by rw [byteOf, byteOf, h]

theorem a48At_congr (o : Operand) (i : Int) (k : Nat) : a48At u o i k = a48At t o i k := by
  simp only [a48At, word, h]

theorem weightCode_congr (o : Operand) (w8 : Bool) (base : Int) (ch i : Nat) : weightCode u o w8 base ch i = weightCode t o w8 base ch i := by
  simp only [weightCode, byteOf_congr h]

theorem convDelta_congr (pl : Plane) (oa ob : Operand) (xt : XTable) (am ng pstr i j : Nat) :
    convDelta u pl oa ob xt am ng pstr i j = convDelta t pl oa ob xt am ng pstr i j := by
  simp only [convDelta, convLow, convHigh, weightCode_congr h, byteOf_congr h]

theorem dwDelta_congr (oa ob : Operand) (xt : XTable) (kw dil str pstr i j : Nat) :
    dwDelta u oa ob xt kw dil str pstr i j = dwDelta t oa ob xt kw dil str pstr i j := by
  simp only [dwDelta, weightCode_congr h, byteOf_congr h]

theorem mataRow_congr (ob : Operand) (zb n i : Nat) : mataRow u ob zb n i = mataRow t ob zb n i := by
  simp only [mataRow, byteOf_congr h]

theorem mataDelta_congr (oa ob : Operand) (ng pstr zb i j : Nat) : mataDelta u oa ob ng pstr zb i j = mataDelta t oa ob ng pstr zb i j := by
  simp only [mataDelta, mataRow_congr h, byteOf_congr h]

theorem bwdDelta_congr (oa ob : Operand) (xt : XTable) (ng pstr c j : Nat) :
    bwdDelta u oa ob xt ng pstr c j = bwdDelta t oa ob xt ng pstr c j := by
  simp only [bwdDelta, weightCode_congr h, byteOf_congr h]

theorem bwdSum_congr (ob : Operand) (xt : XTable) (ng c : Nat) : bwdSum u ob xt ng c = bwdSum t ob xt ng c := by
  simp only [bwdSum, weightCode_congr h]

theorem wgradDelta_congr (oa ob : Operand) (nt astr gstr i j : Nat) :
    wgradDelta u oa ob nt astr gstr i j = wgradDelta t oa ob nt astr gstr i j := by
  simp only [wgradDelta, byteOf_congr h]

end SameMem

theorem convDelta_eq_sum (t : Tile) (pl : Plane) (oa ob : Operand) (xt : XTable) (am ng pstr i j : Nat) :
    convDelta t pl oa ob xt am ng pstr i j = ∑ g ∈ Finset.range (ng + 1), ∑ ch ∈ Finset.range 16,
      (convLow t oa am pstr g j ch + 256 * convHigh t pl oa am pstr g j ch)
        * expand xt (weightCode t ob xt.w8 ((g * (if xt.w8 then 16 else 8) : Nat) : Int) ch i) := by
  have hterm (a b w acc : Int) : acc + a * w + b * w * 256 = acc + (a + 256 * b) * w := by ring
  simp only [convDelta, hterm, foldl_add_range, zero_add]

/-! An array operation adds to one bank -/

/-- An array operation's answer, where its tokens are not masked and its clear control leaves the bank `b`. -/
theorem bankStep_eq_some {cc : Option Bank} {m : Bool} {f g : Bank → Xe} {b : Bank} {z : Xe}
    (h : (match cc with | none => none | some b => if m then some (f b) else some (g b)) = some z) (hcc : cc = some b) (hm : m = false) :
    z = g b := by
  subst hcc hm
  exact (Option.some.inj h).symm

theorem accumStep_eq_some {m : Bool} {y y' z : Xe} (h : (if m then some y else some y') = some z) (hm : m = false) : z = y' := by
  subst hm
  exact (Option.some.inj h).symm

theorem bankAt_congr {t u : Tile} (h : u.banks = t.banks) (n : Nat) : bankAt u n = bankAt t n := by rw [bankAt, bankAt, h]

/-- An operation adds `delta` to the lanes of bank `bk`, of which its clear control leaves `b`, and leaves the other banks. -/
def AddsLanes (x z : Xe) (bk : Nat) (b : Bank) (delta : Nat → Int) : Prop :=
  (∀ l < 256, InA48 (laneVal b l + delta l) → laneVal (bankAt z.t bk) l = laneVal b l + delta l) ∧
  (∀ n, n ≠ bk → bankAt z.t n = bankAt x.t n) ∧ z.t.mem = x.t.mem

theorem addsLanes_of_setBank {x y z : Xe} {bk : Nat} {b c : Bank} {delta : Nat → Int} (hz : z.t = setBank y.t bk c)
    (hy : SameWork x y) (hc : ∀ l < 256, InA48 (laneVal b l + delta l) → laneVal c l = laneVal b l + delta l) :
    AddsLanes x z bk b delta := by
  rw [AddsLanes, hz]
  refine ⟨fun l hl hv => ?_, fun n hn => ?_, by rw [setBank_mem, hy.mem]⟩
  · rw [bankAt_setBank_same]
    exact hc l hl hv
  · rw [bankAt_setBank_other _ _ hn, bankAt_congr hy.banks]

theorem sameWork_withCycles (x : Xe) (c g : Nat) (bs rs : List Nat) :
    SameWork x { x with cycles := c, lastGroup := g, banksW := bs, banksR := rs } := ⟨rfl, rfl, rfl, rfl, rfl, rfl, rfl, rfl, rfl, rfl, rfl⟩

section Ops

variable {x z : Xe} {b : Bank}

/-- The bank that bit 51 of an array step names. -/
abbrev arrayBank (x : Xe) : Nat := bankKey x (bit x.w 51)

theorem convCore_adds {masked : Bool} (hz : convCore x masked = some z) (hm : masked = false)
    (hcc : clearControl x (fld x.w 50 49) (fld x.w 48 45) (bankAt x.t (arrayBank x)) = some b) :
    AddsLanes x z (arrayBank x) b fun l =>
      convDelta x.t x.pl (opA x) (opB x) (xtAt x.pl (fld x.w 44 43)) (fld x.w 42 41) (fld x.w 40 29) (fld x.w 28 19) (l / 16) (l % 16) := by
  unfold convCore at hz
  dsimp only at hz
  by_cases ham : fld x.w 42 41 = 3
  · rw [if_pos ham] at hz
    cases hz
  · rw [if_neg ham] at hz
    obtain rfl := bankStep_eq_some hz hcc hm
    refine addsLanes_of_setBank rfl
      (((sameWork_withCycles x _ _ _ _).trans (sameWork_touchWords _ _ _)).trans (sameWork_touchWords _ _ _)) fun l hl hv => ?_
    rw [laneVal_poisonBank]
    refine laneVal_addLanes ?_ hl hv
    rw [touchWords_pl, touchWords_pl]
    exact convDelta_congr ((touchWords_mem _ _ _).trans (touchWords_mem _ _ _)) _ _ _ _ _ _ _ _ _

theorem convLike_adds {op : Xe → Option Xe} (hop : op ∈ [opConv, opMatw]) (hz : op x = some z)
    (hab : allMasked (tokensA x ++ tokensB x) = false) (ha : allMasked (tokensA x) = false)
    (hcc : clearControl x (fld x.w 50 49) (fld x.w 48 45) (bankAt x.t (arrayBank x)) = some b) :
    AddsLanes x z (arrayBank x) b fun l =>
      convDelta x.t x.pl (opA x) (opB x) (xtAt x.pl (fld x.w 44 43)) (fld x.w 42 41) (fld x.w 40 29) (fld x.w 28 19) (l / 16) (l % 16) := by
  simp only [List.mem_cons, List.not_mem_nil, or_false] at hop
  obtain rfl | rfl := hop
  · exact convCore_adds hz hab hcc
  · unfold opMatw at hz
    dsimp only at hz
    cases hc : convCore x (allMasked (if bit x.w 18 then tokensA x else tokensA x ++ tokensB x)) with
    | none =>
      rw [hc] at hz
      cases hz
    | some y =>
      obtain ⟨hlanes, hbanks, hmem⟩ := convCore_adds hc (by split <;> simp [ha, hab]) hcc
      rw [hc] at hz
      cases hz
      have hkeep (m : Prop) [Decidable m] (o : List OutTok) (q n : Nat) :
          (if m then { touchFront y q n with out := o } else y).t.banks = y.t.banks ∧
          (if m then { touchFront y q n with out := o } else y).t.mem = y.t.mem := by
        split
        · exact ⟨touchFront_banks _ _ _, touchFront_mem _ _ _⟩
        · exact ⟨rfl, rfl⟩
      obtain ⟨hkb, hkm⟩ := hkeep (bit x.w 18 = true) _ _ _
      exact ⟨fun l hl hv => (congrArg (laneVal · l) (bankAt_congr hkb _)).trans (hlanes l hl hv),
        fun n hn => (bankAt_congr hkb n).trans (hbanks n hn), hkm.trans hmem⟩

theorem opDwconv_adds (hz : opDwconv x = some z) (hab : allMasked (tokensA x ++ tokensB x) = false)
    (hcc : clearControl x (fld x.w 50 49) (fld x.w 48 45) (bankAt x.t (arrayBank x)) = some b) :
    AddsLanes x z (arrayBank x) b fun l =>
      dwDelta x.t (opA x) (opB x) (xtAt x.pl (fld x.w 44 43)) (fld x.w 42 38) (fld x.w 37 34) (fld x.w 33 31) (fld x.w 30 21)
        (l / 16) (l % 16) := by
  unfold opDwconv at hz
  obtain rfl := bankStep_eq_some hz hcc hab
  refine addsLanes_of_setBank rfl
    (((sameWork_withCycles x _ _ _ _).trans (sameWork_touchWords _ _ _)).trans (sameWork_touchWords _ _ _)) fun l hl hv => ?_
  rw [laneVal_poisonBank]
  exact laneVal_addLanes (dwDelta_congr ((touchWords_mem _ _ _).trans (touchWords_mem _ _ _)) _ _ _ _ _ _ _ _ _) hl hv

theorem opMata_adds (hz : opMata x = some z) (hab : allMasked (tokensA x ++ tokensB x) = false)
    (hcc : clearControl x (fld x.w 50 49) (fld x.w 48 45) (bankAt x.t (arrayBank x)) = some b) :
    AddsLanes x z (arrayBank x) b (fun l =>
      mataDelta x.t (opA x) (opB x) (fld x.w 44 33) (fld x.w 32 23) (fld x.w 22 15) (l / 16) (l % 16)) ∧
    ∀ i < 16,
      let v := rowSum b i + ∑ n ∈ Finset.range (16 * (fld x.w 44 33 + 1)), mataRow x.t (opB x) (fld x.w 22 15) n i
      InI32 v → rowSum (bankAt z.t (arrayBank x)) i = v := by
  unfold opMata at hz
  obtain rfl := bankStep_eq_some hz hcc hab
  refine ⟨addsLanes_of_setBank rfl
    (((sameWork_withCycles x _ _ _ _).trans (sameWork_touchWords _ _ _)).trans (sameWork_touchWords _ _ _)) fun l hl hv => ?_,
    fun i hi hv => ?_⟩
  · rw [laneVal_poisonBank, laneVal_addRowSums]
    exact laneVal_addLanes (mataDelta_congr ((touchWords_mem _ _ _).trans (touchWords_mem _ _ _)) _ _ _ _ _ _ _) hl hv
  · dsimp only
    rw [bankAt_setBank_same, rowSum_poisonBank]
    refine rowSum_addRowSums ?_ hi hv
    rw [foldl_add_range, zero_add]
    exact Finset.sum_congr rfl fun n _ => mataRow_congr ((touchWords_mem _ _ _).trans (touchWords_mem _ _ _)) _ _ _ _

theorem opBwd_adds (hz : opBwd x = some z) (hab : allMasked (tokensA x ++ tokensB x) = false)
    (hcc : clearControl x (fld x.w 50 49) (fld x.w 48 45) (bankAt x.t (arrayBank x)) = some b) :
    AddsLanes x z (arrayBank x) b (fun l =>
      bwdDelta x.t (opA x) (opB x) (xtAt x.pl (fld x.w 44 43)) (fld x.w 42 31) (fld x.w 30 21) (l / 16) (l % 16)) ∧
    ∀ c < 16,
      let v := transSum b c + bwdSum x.t (opB x) (xtAt x.pl (fld x.w 44 43)) (fld x.w 42 31) c
      InI32 v → transSum (bankAt z.t (arrayBank x)) c = v := by
  unfold opBwd at hz
  obtain rfl := bankStep_eq_some hz hcc hab
  refine ⟨addsLanes_of_setBank rfl
    (((sameWork_withCycles x _ _ _ _).trans (sameWork_touchWords _ _ _)).trans (sameWork_touchWords _ _ _)) fun l hl hv => ?_,
    fun c hc hv => ?_⟩
  · rw [laneVal_poisonBank, laneVal_addTransSums]
    exact laneVal_addLanes (bwdDelta_congr ((touchWords_mem _ _ _).trans (touchWords_mem _ _ _)) _ _ _ _ _ _ _) hl hv
  · dsimp only
    rw [bankAt_setBank_same, transSum_poisonBank]
    exact transSum_addTransSums (bwdSum_congr ((touchWords_mem _ _ _).trans (touchWords_mem _ _ _)) _ _ _ _) hc hv

theorem opWgrad_adds (hz : opWgrad x = some z) (hab : allMasked (tokensA x ++ tokensB x) = false)
    (hcc : clearControl x (fld x.w 50 49) (fld x.w 48 45) (bankAt x.t (8 + b2n (bit x.w 51))) = some b) :
    AddsLanes x z (8 + b2n (bit x.w 51)) b (fun l =>
      wgradDelta x.t (opA x) (opB x) (fld x.w 44 33) (fld x.w 32 23) (fld x.w 22 13) (l / 16) (l % 16)) ∧
    ∀ i < 16,
      let v := rowSum b i + ∑ n ∈ Finset.range (16 * (fld x.w 44 33 + 1)),
        ((byteOf x.t (opB x) ((n * fld x.w 22 13 : Nat) : Int) i : Int) - 128)
      InI32 v → rowSum (bankAt z.t (8 + b2n (bit x.w 51))) i = v := by
  unfold opWgrad at hz
  obtain rfl := bankStep_eq_some hz hcc hab
  refine ⟨addsLanes_of_setBank rfl
    (((sameWork_withCycles x _ _ _ _).trans (sameWork_touchWords _ _ _)).trans (sameWork_touchWords _ _ _)) fun l hl hv => ?_,
    fun i hi hv => ?_⟩
  · rw [laneVal_poisonBank, laneVal_addRowSums]
    exact laneVal_addLanes (wgradDelta_congr ((touchWords_mem _ _ _).trans (touchWords_mem _ _ _)) _ _ _ _ _ _ _) hl hv
  · dsimp only
    rw [bankAt_setBank_same, rowSum_poisonBank]
    refine rowSum_addRowSums ?_ hi hv
    simp only [add_sub_assoc, foldl_add_range, zero_add, byteOf_congr ((touchWords_mem _ _ _).trans (touchWords_mem _ _ _))]
    rfl

end Ops

/-- Settles O4. -/
theorem convMatwAccumulate : Obligations.ConvMatwAccumulate := by
  intro op hop x z b hz hab ha hcc
  obtain ⟨hlanes, hrest⟩ := convLike_adds hop hz hab ha hcc
  refine ⟨fun l hl hv => ?_, hrest⟩
  rw [← convDelta_eq_sum] at hv ⊢
  exact hlanes l hl hv

/-- Settles O5: each operation's exact sum is the fold of its terms. -/
theorem otherArraySums : Obligations.OtherArraySums := by
  refine ⟨⟨fun x z b hz hab hcc => ?_, fun x z b hz hab hcc => ?_⟩, fun x z b hz hab hcc => ?_, fun x z b hz hab hcc => ?_⟩
  · obtain ⟨hlanes, hrest⟩ := opDwconv_adds hz hab hcc
    simp only [dwDelta, foldl_add_range, zero_add] at hlanes
    exact ⟨hlanes, hrest⟩
  · obtain ⟨⟨hlanes, hbanks, hmem⟩, hrows⟩ := opMata_adds hz hab hcc
    simp only [mataDelta, foldl_add_range, zero_add] at hlanes
    exact ⟨hlanes, hrows, hbanks, hmem⟩
  · obtain ⟨⟨hlanes, -, hmem⟩, hsums⟩ := opBwd_adds hz hab hcc
    simp only [bwdDelta, bwdSum, foldl_add_range, zero_add] at hlanes hsums
    exact ⟨⟨hlanes, hsums⟩, hmem⟩
  · obtain ⟨⟨hlanes, -, hmem⟩, hrows⟩ := opWgrad_adds hz hab hcc
    simp only [wgradDelta, foldl_add_range, zero_add] at hlanes
    exact ⟨hlanes, hrows, hmem⟩

theorem corrected_congr {t u : Tile} (h : u.mem = t.mem) (ob : Operand) (b : Bank) (rs : Bool) (zin : Int) (i : Nat) (v : Int) :
    corrected u ob b rs zin i v = corrected t ob b rs zin i v := by
  simp only [corrected, colSum, biasOf, a48At_congr h]

theorem imageLane_congr {t u : Tile} (h : u.mem = t.mem) (o : Operand) (base : Int) (i j : Nat) :
    imageLane u o base i j = imageLane t o base i j := a48At_congr h _ _ _

/-- Settles O6. -/
theorem zpcAccinLanes : Obligations.ZpcAccinLanes := by
  refine ⟨fun x z hz hab l hl => ?_, fun x z hz hab l hl => ?_⟩
  · intro bank v hv
    unfold opZpc at hz
    obtain rfl := accumStep_eq_some hz hab
    dsimp only
    rw [bankAt_setBank_same, laneVal_poisonBank, laneRes_poisonBank, bankAt_congr (touchWords_banks _ _ _),
      laneVal_setLanes hl, laneRes_setLanes hl] <;> simp only [corrected_congr (touchWords_mem _ _ _), touchWords_w]
    · exact ⟨rfl, rfl⟩
    · exact hv
    · exact hv
  · intro v hv
    unfold opAccin at hz
    obtain rfl := accumStep_eq_some hz hab
    dsimp only [xPoison]
    rw [bankAt_setBank_same, laneVal_poisonBank, bankAt_congr (touchWords_banks _ _ _)]
    exact laneVal_addLanes (imageLane_congr (touchWords_mem _ _ _) _ _ _ _) hl hv

end Sys2Proof.Machine
end

section
/-! SCALE and the re-run band. -/

namespace Sys2Proof.Machine

/-! Counters put back to the values of the band's mark -/

theorem restoreCounters_eq_foldl (pl : Plane) (c : Nat) (vs : List Nat) :
    restoreCounters pl c vs = vs.zipIdx.foldl (fun pl e =>
      { pl with k := Tab.set pl.k (4 * c + e.2) { counterAt pl (4 * c + e.2) with value := e.1 } }) pl := rfl

/-- A counter that no entry names keeps its value. -/
theorem counterAt_restore_of_ne (vs : List Nat) (s base n : Nat) (pl : Plane) (h : ∀ i < vs.length, n ≠ base + (s + i)) :
    counterAt ((vs.zipIdx s).foldl (fun pl e =>
      { pl with k := Tab.set pl.k (base + e.2) { counterAt pl (base + e.2) with value := e.1 } }) pl) n = counterAt pl n := by
  induction vs generalizing s pl with
  | nil => rfl
  | cons v vs ih =>
    rw [List.zipIdx_cons, List.foldl_cons, ih]
    · exact Tab.get_set_other _ _ _ (by simpa using h 0 (by simp))
    · intro i hi
      have := h (i + 1) (by simpa using hi)
      omega

/-- Each named counter has its entry's value. -/
theorem counterAt_restore (vs : List Nat) (s base i : Nat) (pl : Plane) (hi : i < vs.length) :
    (counterAt ((vs.zipIdx s).foldl (fun pl e =>
      { pl with k := Tab.set pl.k (base + e.2) { counterAt pl (base + e.2) with value := e.1 } }) pl) (base + (s + i))).value
      = vs.getD i 0 := by
  induction vs generalizing s pl i with
  | nil => exact absurd hi (by simp)
  | cons v vs ih =>
    rw [List.zipIdx_cons, List.foldl_cons]
    cases i with
    | zero =>
      rw [counterAt_restore_of_ne _ _ _ _ _ fun i _ => by omega]
      simp [counterAt]
    | succ i =>
      rw [show base + (s + (i + 1)) = base + (s + 1 + i) by omega, ih _ _ _ (by simpa using hi)]
      rfl

theorem value_restoreCounters (pl : Plane) (c : Nat) {vs : List Nat} {n : Nat} (hn : n < vs.length) :
    (counterAt (restoreCounters pl c vs) (4 * c + n)).value = vs.getD n 0 := by
  have := counterAt_restore vs 0 (4 * c) n pl hn
  rwa [Nat.zero_add] at this

theorem counterAt_restoreCounters_other (pl : Plane) {c n : Nat} {vs : List Nat} (hvs : vs.length = 4) (hn : n / 4 ≠ c) :
    counterAt (restoreCounters pl c vs) n = counterAt pl n :=
  counterAt_restore_of_ne vs 0 (4 * c) n pl fun i hi => by omega

/-! BAND and BCHK -/

@[simp] theorem touchGranule_rerun (x : Xe) (g : Nat) : (touchGranule x g).rerun = x.rerun := by
  simp only [touchGranule]
  split <;> rfl

/-- What a release leaves: the band is closed, and its held tokens are to be sent. -/
theorem bandRelease_frame (x : Xe) :
    (bandRelease x).rerun = x.rerun ∧ (bandRelease x).pl = x.pl ∧ (bandRelease x).release.length = x.ctx.holdCount ∧
    (bandRelease x).ctx.bandOpen = false ∧ (bandRelease x).ctx.wide = false ∧ (bandRelease x).ctx.satcnt = 0 ∧
    (bandRelease x).ctx.holdCount = 0 := by
  have hrerun (gs : List Nat) : ∀ y : Xe, (gs.foldl (fun x g => touchGranule x (2 * x.ctx.holdBase + g)) y).rerun = y.rerun := by
    induction gs with
    | nil => exact fun _ => rfl
    | cons g gs ih => exact fun y => (ih _).trans (touchGranule_rerun y _)
  unfold bandRelease
  dsimp only
  exact ⟨hrerun _ x, (sameWork_foldl _ (fun x g => sameWork_touchGranule x _) _ x).pl, by simp, rfl, rfl, rfl, rfl⟩

theorem opBchk_releases {x z : Xe} (hz : opBchk x = some z)
    (h : x.ctx.wide = true ∨ x.ctx.satcnt ≤ fld x.w 51 36 ∨ fld x.w 35 28 ≤ x.ctx.runs) :
    ∃ y : Xe, z = bandRelease y ∧ y.rerun = x.rerun ∧ y.pl = x.pl ∧ y.ctx = x.ctx := by
  unfold opBchk at hz
  dsimp only at hz
  split_ifs at hz with hwide hsat hruns
  · exact ⟨_, (Option.some.inj hz).symm, by simp, by simp, by simp⟩
  · exact ⟨_, (Option.some.inj hz).symm, by simp, by simp, by simp⟩
  · rcases h with h | h | h
    · exact absurd h hwide
    · exact absurd h hsat
    · omega
  · exact ⟨_, (Option.some.inj hz).symm, by simp, by simp, by simp⟩

/-- Settles O12. -/
theorem bandCheckOutcomes : Obligations.BandCheckOutcomes := by
  refine ⟨?_, fun x z hz hwide hsat hruns hk => ?_, fun x z hz h => ?_⟩
  · rintro x z ⟨⟩
    exact ⟨rfl, rfl, rfl, rfl, rfl⟩
  · rw [opBchk, if_neg (by simp [hwide]), if_neg (by omega), if_pos hruns] at hz
    cases hz
    simp only [xCnt_rerun, xCnt_ctx, xCnt_release, xCnt_pl]
    exact ⟨rfl, rfl, rfl, rfl, rfl, rfl, rfl, fun n hn => value_restoreCounters _ _ (by omega),
      fun n hn => counterAt_restoreCounters_other _ hk hn⟩
  · obtain ⟨y, rfl, hrerun, hpl, hctx⟩ := opBchk_releases hz h
    obtain ⟨h1, h2, h3, h4, h5, h6, h7⟩ := bandRelease_frame y
    exact ⟨h1.trans hrerun, h4, h5, h6, h7, by rw [h3, hctx], h2.trans hpl⟩

/-! SCALE -/

theorem regRead_factors (pl : Plane) (n : Nat) (a b : U32) :
    regRead (regWrite (regWrite pl n a) (n + 1) b) n = a ∧ regRead (regWrite (regWrite pl n a) (n + 1) b) (n + 1) = b ∧
    ∀ k, k ≠ n → k ≠ n + 1 → regRead (regWrite (regWrite pl n a) (n + 1) b) k = regRead pl k := by
  refine ⟨?_, regRead_regWrite_same _ _ _, fun k hk hk' => ?_⟩
  · rw [regRead_regWrite_other _ _ (by omega), regRead_regWrite_same]
  · rw [regRead_regWrite_other _ _ hk', regRead_regWrite_other _ _ hk]

@[simp] theorem checkScale_g (x : Xe) (iq : Nat) (r : BitVec 320) (ok : Bool) : (checkScale x iq r ok).pl.g = x.pl.g := by
  simp only [checkScale]
  split
  · rfl
  · rw [xCnt_pl]; rfl

/-- A frame's registers in a context, as SCALE sets them. -/
structure FrameSet (x : Xe) (c : Context) : Prop where
  f : c.f = (headToken x.t x.pl (wIqa x.w)).sb.f
  e : c.e = (headToken x.t x.pl (wIqa x.w)).sb.e
  stream : c.stream = stStream (headToken x.t x.pl (wIqa x.w)).data
  outTid : c.outTid = qTid (qrecBits x.t (opC x))
  stat : c.stat = 0
  any : c.any = false
  satcnt : c.satcnt = 0
  runs : c.runs = 0
  wide : c.wide = false

theorem FrameSet.orFactorFault {x y : Xe} (bad : Bool) (h : FrameSet x y.ctx) : FrameSet x (if bad then factorFault y else y).ctx := by
  obtain ⟨_, _, _, hy⟩ := factorFault_eq y
  rw [hy]
  cases bad
  · exact h
  · exact ⟨h.f, h.e, h.stream, h.outTid, h.stat, h.any, h.satcnt, h.runs, h.wide⟩

theorem orFactorFault_pl (y : Xe) (bad : Bool) : (if bad then factorFault y else y).pl = y.pl := by
  cases bad
  · rfl
  · exact factorFault_pl y

/-- The factors that a SCALE step writes. -/
def scaleFactorsOf (x : Xe) : U32 × U32 :=
  scaleFactors (fld x.w 46 44) (fld x.w 43 41) (usedScale (qrecBits x.t (opA x)) (headToken x.t x.pl (wIqa x.w)).data)
    (usedScale (qrecBits x.t (opB x)) (headToken x.t x.pl (wIqb x.w)).data)
    (if bit x.w 47 then usedScale (qrecBits x.t (opC x)) (headToken x.t x.pl (fld x.w 51 48)).data
      else qSdefault (qrecBits x.t (opC x)))

/-- Pass-through sends the token at the front of IQA. -/
theorem opScale_passes {x z : Xe} (hz : opScale x = some z) (h3 : fld x.w 46 44 = 3) :
    z.pl.g = x.pl.g ∧ FrameSet x z.ctx ∧ z.out = [moved (headToken x.t x.pl (wIqa x.w))] := by
  unfold opScale at hz
  dsimp only at hz
  rw [if_neg (by omega), if_pos h3] at hz
  obtain rfl := Option.some.inj hz
  refine ⟨?_, ⟨rfl, rfl, rfl, rfl, rfl, rfl, rfl, rfl, rfl⟩, rfl⟩
  simp [xRep, apply_ite Xe.pl, apply_ite Plane.g]

/-- The other kinds write their factors. -/
theorem opScale_writes {x z : Xe} (hz : opScale x = some z) (h3 : fld x.w 46 44 ≠ 3) : FrameSet x z.ctx ∧
    ∃ pl, pl.g = x.pl.g ∧ z.pl = regWrite (regWrite pl (wPr x.w) (scaleFactorsOf x).1) (wPr x.w + 1) (scaleFactorsOf x).2 := by
  unfold opScale at hz
  dsimp only at hz
  by_cases h4 : 4 < fld x.w 46 44
  · rw [if_pos h4] at hz
    cases hz
  · rw [if_neg h4, if_neg h3] at hz
    obtain rfl := Option.some.inj hz
    refine ⟨FrameSet.orFactorFault _ ⟨rfl, rfl, rfl, rfl, rfl, rfl, rfl, rfl, rfl⟩, _, ?_, orFactorFault_pl _ _⟩
    simp [xRep, apply_ite Xe.pl, apply_ite Plane.g]

theorem scaleFactorsOf_eq {x : Xe} (hrot : fld x.w 43 41 = 0) (hq : bit x.w 47 = false) :
    let sa := usedScale (qrecBits x.t (opA x)) (headToken x.t x.pl (wIqa x.w)).data
    let sb := usedScale (qrecBits x.t (opB x)) (headToken x.t x.pl (wIqb x.w)).data
    let so := qSdefault (qrecBits x.t (opC x))
    (fld x.w 46 44 = 0 → (scaleFactorsOf x).1 = f32Div sa so) ∧
    (fld x.w 46 44 = 1 → (scaleFactorsOf x).1 = f32Div (f32Mul sa sb) so) ∧
    (fld x.w 46 44 = 2 → (scaleFactorsOf x).1 = f32Div sa so ∧ (scaleFactorsOf x).2 = f32Div sb so) ∧
    (fld x.w 46 44 = 4 → (scaleFactorsOf x).1 = f32Div 0x3F800000 so) := by
  refine ⟨fun hk => ?_, fun hk => ?_, fun hk => ?_, fun hk => ?_⟩ <;> simp [scaleFactorsOf, scaleFactors, hrot, hq, hk]

/-- Settles O14. -/
theorem scaleSetsFrame : Obligations.ScaleSetsFrame := by
  intro x z hz
  by_cases h3 : fld x.w 46 44 = 3
  · obtain ⟨hg, ⟨h1, h2, h4, h5, h6, h7, h8, h9, h10⟩, hout⟩ := opScale_passes hz h3
    refine ⟨h1, h2, h4, h5, h6, h7, h8, h9, h10, fun _ => ⟨by rw [hout]; rfl, by rw [hout]; rfl, hg⟩, ?_, fun n _ _ => ?_⟩
    · simp [h3]
    · rw [regRead, regRead, hg]
  · obtain ⟨⟨h1, h2, h4, h5, h6, h7, h8, h9, h10⟩, pl, hg, hpl⟩ := opScale_writes hz h3
    obtain ⟨hma, hmb, hother⟩ := regRead_factors pl (wPr x.w) (scaleFactorsOf x).1 (scaleFactorsOf x).2
    rw [hpl, hma, hmb]
    refine ⟨h1, h2, h4, h5, h6, h7, h8, h9, h10, fun h => absurd h h3, fun hrot hq => scaleFactorsOf_eq hrot hq, fun n hn hn' => ?_⟩
    rw [hother n hn hn', regRead, regRead, hg]

end Sys2Proof.Machine
end

section
/-! RQ into UINT8 codes. -/

namespace Sys2Proof.Machine

/-! A payload's bytes -/

theorem leNat_div_mod (bs : List Byte) {k : Nat} (hk : k < bs.length) : leNat bs / 2 ^ (8 * k) % 2 ^ 8 = bs[k].toNat := by
  induction bs generalizing k with
  | nil => exact absurd hk (by simp)
  | cons b bs ih =>
    have hb := b.isLt
    cases k with
    | zero => simp only [leNat, List.getElem_cons_zero]; omega
    | succ k =>
      rw [show 8 * (k + 1) = 8 + 8 * k by omega, pow_add, ← Nat.div_div_eq_div_mul, leNat,
        show (b.toNat + 256 * leNat bs) / 2 ^ 8 = leNat bs by omega, ih (by simpa using hk)]
      rfl

theorem leNat_lt (bs : List Byte) : leNat bs < 256 ^ bs.length := by
  induction bs with
  | nil => simp [leNat]
  | cons b bs ih =>
    have hb := b.isLt
    rw [leNat, List.length_cons, pow_succ]
    omega

theorem payByte_payloadOf (bs : List Byte) {k : Nat} (hk : k < bs.length) (h32 : k < 32) :
    payByte (payloadOf bs) k = bs[k].toNat := by
  have hlt : leNat (bs.take 32) < 2 ^ 256 :=
    (leNat_lt _).trans_le (by
      rw [show (2 : Nat) ^ 256 = 256 ^ 32 by norm_num]
      exact Nat.pow_le_pow_right (by norm_num) (by simp))
  have hk' : k < (bs.take 32).length := by simp; omega
  rw [payByte, payloadOf, fld, nbits, BitVec.toNat_ofNat, Nat.mod_eq_of_lt hlt, show 8 * k + 7 + 1 - 8 * k = 8 by omega,
    leNat_div_mod _ hk', List.getElem_take]

theorem toNat_ofInt_clampU8 (n : Int) : ((BitVec.ofInt 8 (clampI 0 255 n)).toNat : Int) = max 0 (min 255 n) := by
  rw [BitVec.toNat_ofInt, clampI]
  omega

/-! One pixel -/

theorem opShift_zero (o : Operand) : opShift o 0 = o := by rw [opShift, add_zero]

theorem rqBounded_congr {x y : Xe} (h : SameWork x y) (p : Params) (n j : Nat) : rqBounded y p n j = rqBounded x p n j := by
  have ho : opB y = opB x := h.sameReads.opB
  have ha : opA y = opA x := h.sameReads.opA
  simp only [rqBounded, rqPixel, rqU, rqZout, bankKey, ho, ha, h.w, h.c, h.pl, bankAt_congr h.banks, corrected_congr h.mem,
    imageLane_congr h.mem]

/-- The value of one channel of one pixel before it is clamped. -/
def rqValue (x : Xe) (i j : Nat) : Int :=
  let p := paramsOf x
  let bank := bankAt x.t (bankKey x (bit x.w 51))
  let v := laneVal bank (16 * i + j)
  let cv := if bit x.w 46 then
      v - sfld x.w 42 27 * (if bit x.w 45 then rowSum bank i else colSum x.t (opB x) i) + biasOf x.t (opB x) i
    else v
  let n := scaledRounded cv p.ma (if bit x.w 47 then 0 else (xtAt x.pl (fld x.w 49 48)).xoff - 10) + p.zp
  let n := if bit x.w 24 then max n p.lo else n
  if bit x.w 23 then min n p.hi else n

theorem rqBounded_eq {x : Xe} (hsrc : bit x.w 44 = false) (homode : fld x.w 26 25 = 0) (hrot : fld x.w 22 21 ≠ 1) (j : Nat) :
    rqBounded x (paramsOf x) 0 j = (List.range 16).map fun i => rqValue x i j := by
  have hraw (f : Nat → Int) : ((List.range 16).map f).zipIdx = (List.range 16).map fun i => (f i, i) := by
    apply List.ext_getElem <;> simp
  simp only [rqBounded, rqPixel, hsrc, hrot, false_and, if_false, homode, rqZout, mul_zero, Nat.cast_zero, opShift_zero, hraw,
    Bool.false_eq_true, rqU, xtU, zero_ne_one, decide_false, Bool.bne_false, laneOf]
  cases hb : bit x.w 46 <;>
    simp only [if_true, if_false, Bool.false_eq_true, List.map_map] <;>
    refine List.map_congr_left fun i _ => ?_ <;>
    simp only [Function.comp_apply, narrow, corrected, rqValue, hb, if_true, if_false, Bool.false_eq_true]

theorem factorCheck_good {y : Xe} {m : U32} (h : badFactor m = false) : factorCheck y [m] = (y, false) := by
  simp [factorCheck, h]

/-- What RQ reads before it has a value leaves its working record. -/
theorem sameWork_rqRead (x : Xe) (c : Nat) (rs : List Nat) (keys : List Nat) (wsa wsb : List Int) :
    let x' := { x with cycles := c, banksR := rs }
    let y := if bit x.w 46 then touchWords x' (opB x') wsb else x'
    SameWork x (if bit x.w 44 then xPoison (touchWords y (opA y) wsa) y.ctx.wp
      else keys.foldl (fun x k =>
        let b := bankAt x.t k
        let bad := residueMismatch b
        xPoison (if bad then xRep x 0 0 else x) (b.poison || bad)) y) := by
  intro x' y
  have hx : SameWork x x' := sameWork_withCycles x c x.lastGroup x.banksW rs
  have hy : SameWork x y := by
    by_cases hbit : bit x.w 46 = true
    · simp only [y, if_pos hbit]
      exact hx.trans (sameWork_touchWords _ _ _)
    · simp only [y, if_neg hbit]
      exact hx
  split
  · exact (hy.trans (sameWork_touchWords _ _ _)).trans (sameWork_xPoison _ _)
  · refine hy.trans (sameWork_foldl _ (fun v k => ?_) keys y)
    dsimp only
    split
    · exact (sameWork_xRep v 0 0).trans (sameWork_xPoison _ _)
    · exact sameWork_xPoison v _

/-- RQ of one bank into UINT8 codes, from the bank's lanes to the tokens. -/
theorem opRq_uint8 {x z : Xe} (hz : opRq x = some z) (hab : allMasked (tokensA x ++ tokensB x) = false) (hpair : bit x.w 50 = false)
    (hsrc : bit x.w 44 = false) (homode : fld x.w 26 25 = 0) (hrot : fld x.w 22 21 ≠ 1) (hdst : bit x.w 43 = false)
    (hfac : badFactor (paramsOf x).ma = false) :
    (∃ wide, z.out = rqTokens 0 wide false
      ((List.range 16).map fun j => (List.range 16).map fun i => clampI 0 255 (rqValue x i j))) ∧
    z.t.mem = x.t.mem ∧ z.t.banks = x.t.banks := by
  unfold opRq at hz
  dsimp only at hz
  rw [if_neg (by omega)] at hz
  generalize hfc : factorCheck _ _ = r at hz
  rw [factorCheck_good (by exact hfac)] at hfc
  have hr : SameWork x r.1 ∧ r.2 = false := by
    rw [← hfc]
    exact ⟨sameWork_rqRead x _ _ _ _ _, rfl⟩
  obtain ⟨y, bad⟩ := r
  obtain ⟨hy, rfl⟩ := hr
  clear hfc
  obtain rfl := accumStep_eq_some hz hab
  clear hz
  simp only [hdst, hsrc, hpair, homode, Bool.false_eq_true, if_false, zero_ne_one, decide_false, Bool.false_or]
  have hpx (j : Nat) : rqBounded y (paramsOf x) 0 j = (List.range 16).map fun i => rqValue x i j := by
    rw [rqBounded_congr hy, rqBounded_eq hsrc homode hrot]
  refine ⟨⟨_, congrArg (rqTokens 0 _ false) ?_⟩, (congrArg Tile.mem ?_).trans hy.mem, (congrArg Tile.banks ?_).trans hy.banks⟩
  · rw [List.map_map]
    refine List.map_congr_left fun j _ => ?_
    simp only [Function.comp_apply, show List.range 1 = [0] from rfl, List.flatMap_singleton]
    exact (congrArg (List.map (clampI 0 255)) (hpx j)).trans (List.map_map ..)
  · split
    · rfl
    · exact statAdd_t _ _ _
  · split
    · rfl
    · exact statAdd_t _ _ _

/-- The codes of one pixel. -/
def rqRow (x : Xe) (j : Nat) : List Byte := (List.range 16).map fun i => BitVec.ofInt 8 (clampI 0 255 (rqValue x i j))

/-- Token `k` holds the codes of pixels `2 k` and `2 k + 1`. -/
theorem rqTokens_uint8 (x : Xe) (wide : Bool) {k : Nat} (hk : k < 8) :
    ((rqTokens 0 wide false ((List.range 16).map fun j => (List.range 16).map fun i => clampI 0 255 (rqValue x i j))).map
      (·.data)).getD k 0 = payloadOf (rqRow x (2 * k) ++ rqRow x (2 * k + 1)) := by
  simp only [rqTokens, zero_ne_one, if_false, OfNat.zero_ne_ofNat, Bool.false_eq_true]
  simp [List.getD_eq_getElem?_getD, hk, show 2 * k < 16 by omega, show 2 * k + 1 < 16 by omega, rqRow, Function.comp_def]

theorem payByte_rqRows (x : Xe) {i j : Nat} (hi : i < 16) :
    (payByte (payloadOf (rqRow x (2 * (j / 2)) ++ rqRow x (2 * (j / 2) + 1))) (16 * (j % 2) + i) : Int)
      = max 0 (min 255 (rqValue x i j)) := by
  rw [payByte_payloadOf _ (by simp [rqRow]; omega) (by omega), ← toNat_ofInt_clampU8]
  rcases Nat.mod_two_eq_zero_or_one j with h | h
  · rw [List.getElem_append_left (by simp [rqRow]; omega)]
    simp [rqRow, h, show 2 * (j / 2) = j by omega]
  · rw [List.getElem_append_right (by simp [rqRow]; omega)]
    simp [rqRow, h, show 2 * (j / 2) + 1 = j by omega]

/-- Settles O7. -/
theorem rqUint8Codes : Obligations.RqUint8Codes := by
  intro x z hz hab hpair hsrc homode hrot hdst hfac
  obtain ⟨⟨wide, hout⟩, hmem, hbanks⟩ := opRq_uint8 hz hab hpair hsrc homode hrot hdst hfac
  refine ⟨by rw [hout]; rfl, hmem, hbanks, fun i hi j hj => ?_⟩
  rw [hout, rqTokens_uint8 x wide (by omega)]
  exact payByte_rqRows x hi

end Sys2Proof.Machine
end

section
/-! Router flits, shuttle flits and sidebands as bits. -/

namespace Sys2Proof.Machine

theorem ofNat_eq_of_mod {w n : Nat} {x : BitVec w} (h : n % 2 ^ w = x.toNat) : BitVec.ofNat w n = x := by
  apply BitVec.eq_of_toNat_eq
  rw [BitVec.toNat_ofNat, h]

@[simp] theorem xor_zero_bits (n : Nat) {w : Nat} : Nat.xor n (0 : BitVec w).toNat = n := by
  rw [show (0 : BitVec w).toNat = 0 by simp]
  exact Nat.xor_zero n

theorem flitErr_zero (f : Flit) : flitErr f 0 = f := by
  obtain ⟨⟨data, sb⟩, shut, dest, crc⟩ := f
  have hs := sideNat_lt sb; have hd := data.isLt; have hdest := dest.isLt; have hcrc := crc.isLt
  simp only [flitErr, xor_zero_bits, flitBits, flitBody, Flit.mk.injEq, Token.mk.injEq, true_and]
  refine ⟨⟨ofNat_eq_of_mod (by omega), ?_⟩, ofNat_eq_of_mod (by omega), ofNat_eq_of_mod (by omega)⟩
  rw [show (((data.toNat * 2 ^ 32 + sideNat sb * 2 ^ 14 + dest.toNat) * 256 + crc.toNat) / 2 ^ 22 % 2 ^ 18) = sideNat sb by omega,
    sideOf_sideNat]

theorem shErr_zero (f : ShFlit) : shErr f 0 = f := by
  obtain ⟨data, sb, dest, src, stamp, typ, crc⟩ := f
  have hs := sideNat_lt sb; have hd := data.isLt; have hdest := dest.isLt; have hcrc := crc.isLt; have hsrc := src.isLt
  have hstamp := stamp.isLt; have htyp := typ.isLt
  simp only [shErr, xor_zero_bits, shBody, ShFlit.mk.injEq]
  refine ⟨ofNat_eq_of_mod (by omega), ?_, ofNat_eq_of_mod (by omega), ofNat_eq_of_mod (by omega), ofNat_eq_of_mod (by omega),
    ofNat_eq_of_mod (by omega), ofNat_eq_of_mod (by omega)⟩
  rw [show (((data.toNat * 2 ^ 64 + sideNat sb * 2 ^ 46 + dest.toNat * 2 ^ 32 + src.toNat * 2 ^ 18 + stamp.toNat * 4 + typ.toNat) *
    65536 + crc.toNat) / 2 ^ 62 % 2 ^ 18) = sideNat sb by omega, sideOf_sideNat]

/-- A flit's CRC does not cover the CRC itself. -/
theorem flitCrc_congr {f g : Flit} (h : flitBody f = flitBody g) : flitCrc f = flitCrc g := by rw [flitCrc, flitCrc, h]

theorem shCrc_congr {f g : ShFlit} (h : shBody f = shBody g) : shCrc f = shCrc g := by rw [shCrc, shCrc, h]

theorem flitGood_iff (f : Flit) : flitGood f = true ↔ flitCrc f = f.crc := decide_eq_true_iff

theorem shGood_iff (f : ShFlit) : shGood f = true ↔ shCrc f = f.crc := decide_eq_true_iff

theorem makeFlit_eq (t : Token) (shut : Bool) (dest : BitVec 14) :
    makeFlit t shut dest = ⟨t, shut, dest, flitCrc ⟨t, shut, dest, 0⟩⟩ := rfl

theorem shSeal_eq (f : ShFlit) : shSeal f = ⟨f.data, f.sb, f.dest, f.src, f.stamp, f.typ, shCrc f⟩ := rfl

theorem flitGood_makeFlit (t : Token) (shut : Bool) (dest : BitVec 14) : flitGood (makeFlit t shut dest) = true := by
  rw [makeFlit_eq, flitGood_iff]
  exact flitCrc_congr (by simp only [flitBody])

theorem shGood_shSeal (f : ShFlit) : shGood (shSeal f) = true := by
  rw [shSeal_eq, shGood_iff]
  exact shCrc_congr (by simp only [shBody])

/-- Settles O23. -/
theorem flitBitsReadBack : Obligations.FlitBitsReadBack :=
  ⟨flitErr_zero, shErr_zero, fun t shut dest => ⟨flitGood_makeFlit t shut dest, by rw [makeFlit_eq], by rw [makeFlit_eq]⟩,
    fun f => ⟨shGood_shSeal f, by rw [shSeal_eq], by rw [shSeal_eq], by rw [shSeal_eq]⟩, sideOf_sideNat⟩

end Sys2Proof.Machine
end

section
/-! Device time (R444, R445). -/

namespace Sys2Proof.Machine

/-! The rows of the time object -/

theorem size_timeRow_load : ((odInfo 0x1200 3).map (·.size)).getD 0 = 8 := by decide
theorem size_timeRow_state : ((odInfo 0x1200 4).map (·.size)).getD 0 = 1 := by decide
theorem size_timeRow_missed : ((odInfo 0x1200 5).map (·.size)).getD 0 = 4 := by decide

/-- Synchronisation states are below 256. -/
theorem odGet_timeState_put (d : Device) {v : Nat} (h : v < 256) : odGet (odPut d 0x1200 4 v) 0x1200 4 = v := by
  rw [odGet_odPut_same, size_timeRow_state]
  omega

theorem odPut_frame (d : Device) (i s v : Nat) : ∃ m, odPut d i s v = { d with od := m } := ⟨_, rfl⟩

theorem od_self_frame (d : Device) : ∃ m, d = { d with od := m } := ⟨d.od, rfl⟩

section Edge

variable {d : Device} {te : Nat}

/-- An edge while a time waits to be loaded. -/
theorem ppsAccept_load (h : odGet d 0x1200 3 ≠ 0) :
    (ppsAccept d te).berths = d.berths ∧ (ppsAccept d te).pps.missed = 0 ∧
    (ppsAccept d te).time = (odGet d 0x1200 3 + (d.time - te)) % 2 ^ 64 ∧ odGet (ppsAccept d te) 0x1200 3 = 0 ∧
    odGet (ppsAccept d te) 0x1200 4 = 1 ∧ (ppsAccept d te).pps.good = 0 := by
  rw [ppsAccept, if_pos h]
  refine ⟨rfl, rfl, rfl, ?_, odGet_timeState_put _ (by norm_num), rfl⟩
  rw [odGet_odPut_other _ _ (by norm_num), odGet_odPut_same, Nat.zero_mod]

/-- The device after an edge with no time to load, before its synchronisation state. -/
def ppsTracked (d : Device) (te : Nat) : Device :=
  let e := secondError te
  let big := decide (1000 < e) || decide (e < -1000)
  { d with
    time := if big then ((d.time : Int) - e).toNat % 2 ^ 64 else d.time
    pps := { d.pps with
      lastEdge := some (if big then (te : Int) - e else te)
      good := if decide (e ≤ 10) && decide (-10 ≤ e) then (if big then 0 else d.pps.good) + 1 else 0
      missed := 0
      slew := if big then d.pps.slew else -e
      elapsed := if big then d.pps.elapsed else 0 } }

theorem ppsAccept_track (h : odGet d 0x1200 3 = 0) :
    ppsAccept d te = if 4 ≤ (ppsTracked d te).pps.good then odPut (ppsTracked d te) 0x1200 4 2 else ppsTracked d te := by
  rw [ppsAccept, if_neg (by simpa using h)]
  unfold ppsTracked
  generalize secondError te = e
  rfl

/-- The state of synchronisation is all that four good edges add. -/
theorem ppsAccept_frame (h : odGet d 0x1200 3 = 0) : ∃ m, ppsAccept d te = { ppsTracked d te with od := m } := by
  rw [ppsAccept_track h]
  split
  · exact odPut_frame _ _ _ _
  · exact od_self_frame _

theorem big_iff {e : Int} : (decide (1000 < e) || decide (e < -1000)) = true ↔ e < -1000 ∨ 1000 < e := by
  rw [Bool.or_eq_true, decide_eq_true_iff, decide_eq_true_iff, or_comm]

theorem ppsTracked_near (h : -1000 ≤ secondError te ∧ secondError te ≤ 1000) :
    (ppsTracked d te).time = d.time ∧ (ppsTracked d te).pps.slew = -secondError te ∧ (ppsTracked d te).pps.elapsed = 0 ∧
    (ppsTracked d te).pps.lastEdge = some (te : Int) ∧
    (ppsTracked d te).pps.good = (if -10 ≤ secondError te ∧ secondError te ≤ 10 then d.pps.good + 1 else 0) := by
  have hbig : (decide (1000 < secondError te) || decide (secondError te < -1000)) = false := by
    rw [Bool.eq_false_iff, ne_eq, big_iff]
    omega
  simp only [ppsTracked, hbig, Bool.false_eq_true, if_false, true_and]
  exact if_congr (by simp [and_comm]) rfl rfl

theorem ppsTracked_far (h : secondError te < -1000 ∨ 1000 < secondError te) :
    (ppsTracked d te).time = ((d.time : Int) - secondError te).toNat % 2 ^ 64 ∧ (ppsTracked d te).pps.good = 0 ∧
    (ppsTracked d te).pps.slew = d.pps.slew := by
  have hgood : ¬ (decide (secondError te ≤ 10) && decide (-10 ≤ secondError te)) = true := by
    rw [Bool.and_eq_true, decide_eq_true_iff, decide_eq_true_iff]
    omega
  simp only [ppsTracked, big_iff.2 h, if_true, if_neg hgood, and_self]

end Edge

/-- An edge with no time to load. -/
theorem ppsAccept_tracked {d : Device} {te : Nat} {x : Int} (h : odGet d 0x1200 3 = 0) (hx : secondError te = x) :
    (ppsAccept d te).berths = d.berths ∧ (ppsAccept d te).pps.missed = 0 ∧
    (-1000 ≤ x → x ≤ 1000 → (ppsAccept d te).time = d.time ∧ (ppsAccept d te).pps.slew = -x ∧ (ppsAccept d te).pps.elapsed = 0 ∧
      (ppsAccept d te).pps.lastEdge = some (te : Int) ∧
      (ppsAccept d te).pps.good = (if -10 ≤ x ∧ x ≤ 10 then d.pps.good + 1 else 0)) ∧
    (x < -1000 ∨ 1000 < x → (ppsAccept d te).time = ((d.time : Int) - x).toNat % 2 ^ 64 ∧ (ppsAccept d te).pps.good = 0 ∧
      (ppsAccept d te).pps.slew = d.pps.slew) ∧
    (-10 ≤ x → x ≤ 10 → 3 ≤ d.pps.good → odGet (ppsAccept d te) 0x1200 4 = 2) := by
  subst hx
  obtain ⟨m, hm⟩ := ppsAccept_frame (te := te) h
  refine ⟨by rw [hm]; rfl, by rw [hm]; rfl, fun hlo hhi => ?_, fun hfar => ?_, fun hlo hhi hgood => ?_⟩
  · rw [hm]
    dsimp only
    exact ppsTracked_near ⟨hlo, hhi⟩
  · rw [hm]
    dsimp only
    exact ppsTracked_far hfar
  · obtain ⟨-, -, -, -, hcount⟩ := ppsTracked_near (d := d) (te := te) ⟨by omega, by omega⟩
    rw [if_pos ⟨hlo, hhi⟩] at hcount
    rw [ppsAccept_track h, if_pos (by omega)]
    exact odGet_timeState_put _ (by norm_num)

/-- What makes an edge one that disciplines device time. -/
theorem edgeAccepted_iff (d : Device) (samples te : Nat) :
    (odFlag d 0x1200 2 && decide (4 ≤ samples) && decide (te ≤ d.time) && (match d.pps.lastEdge with
      | none => true
      | some t => decide (t + 50000000 ≤ (te : Int)))) = true ↔
    odFlag d 0x1200 2 = true ∧ 4 ≤ samples ∧ te ≤ d.time ∧ ∀ t, d.pps.lastEdge = some t → t + 50000000 ≤ (te : Int) := by
  simp only [Bool.and_eq_true, decide_eq_true_iff, and_assoc]
  cases d.pps.lastEdge with
  | none => simp
  | some t => simp

/-- A missed edge. -/
def ppsMiss (d : Device) : Device :=
  let n := d.pps.missed + 1
  let d := odAdd { d with pps := { d.pps with missed := n } } 0x1200 5 1
  if 3 ≤ n ∧ odGet d 0x1200 4 = 2 then odPut d 0x1200 4 1 else d

theorem ppsMiss_spec (d : Device) :
    (ppsMiss d).pps.missed = d.pps.missed + 1 ∧ (ppsMiss d).time = d.time ∧
    odGet (ppsMiss d) 0x1200 5 = min (odGet d 0x1200 5 + 1) 4294967295 ∧
    odGet (ppsMiss d) 0x1200 4 = (if 3 ≤ d.pps.missed + 1 ∧ odGet d 0x1200 4 = 2 then 1 else odGet d 0x1200 4) := by
  have hstate (x : Device) : odGet (odAdd x 0x1200 5 1) 0x1200 4 = odGet x 0x1200 4 := odGet_odAdd_other x 1 (by norm_num)
  have hcount (x : Device) : odGet (odAdd x 0x1200 5 1) 0x1200 5 = min (odGet x 0x1200 5 + 1) 4294967295 := by
    rw [odGet_odAdd_same, size_timeRow_missed]
    norm_num
  unfold ppsMiss
  dsimp only
  split
  next h =>
    rw [hstate] at h
    refine ⟨rfl, rfl, ?_, ?_⟩
    · rw [odGet_odPut_other _ _ (by norm_num), hcount]; rfl
    · rw [odGet_timeState_put _ (by norm_num)]
      exact (if_pos h).symm
  next h =>
    rw [hstate] at h
    refine ⟨rfl, rfl, hcount _, ?_⟩
    rw [hstate]
    exact (if_neg h).symm

/-- Settles O46. -/
theorem deviceTime : Obligations.DeviceTime := by
  refine ⟨fun v s => ?_, fun samples te s hflag hsamples hte hlast => ?_, fun samples te s h => ?_, fun s t hflag hlast hdue => ?_⟩
  · change onDev (fun d => timeWrite d v.toNat) s = _
    rw [onDev_eq, timeWrite, Nat.mod_eq_of_lt v.isLt]
  · refine ⟨ppsAccept s.dev te.toNat, onDev_guarded_pos _ ?_, ?_⟩
    · exact (edgeAccepted_iff s.dev samples te.toNat).2 ⟨hflag, hsamples, hte, hlast⟩
    · by_cases hload : odGet s.dev 0x1200 3 = 0
      · obtain ⟨hberths, hmissed, hnear, hfar, hsync⟩ := ppsAccept_tracked hload (rfl : secondError te.toNat = _)
        exact ⟨hmissed, hberths, fun h => absurd hload h, fun _ => hnear, fun _ => hfar, fun _ => hsync⟩
      · obtain ⟨hberths, hmissed, hrest⟩ := ppsAccept_load (te := te.toNat) hload
        exact ⟨hmissed, hberths, fun _ => hrest, fun h => absurd h hload, fun h => absurd h hload, fun h => absurd h hload⟩
  · refine onDev_guarded_neg _ (Bool.eq_false_iff.2 fun hacc => ?_)
    obtain ⟨hflag, hsamples, -, hlast⟩ := (edgeAccepted_iff s.dev samples te.toNat).1 hacc
    rcases h with h | h | ⟨t, ht, hlt⟩
    · exact absurd hflag (by simp [h])
    · omega
    · have := hlast t ht
      omega
  · refine ⟨ppsMiss s.dev, onDev_guarded_pos ppsMiss ?_, ppsMiss_spec s.dev⟩
    rw [hlast, hflag]
    exact decide_eq_true hdue

end Sys2Proof.Machine
end

section
/-! Clock steps, the limiter, the voltage loop and the thermal trip (R443, R452 to R454). -/

namespace Sys2Proof.Machine

/-! Level conditions -/

/-- A level condition changes the hub alone. -/
theorem levelCondition_frame (d : Device) (source : Nat) (holds : Bool) (blame : U32) :
    ∃ h, levelCondition d source holds blame = { d with hub := h } := by
  simp only [levelCondition]
  split
  · exact ⟨_, rfl⟩
  · split
    · exact ⟨_, rfl⟩
    · exact ⟨d.hub, rfl⟩

/-- The other conditions stay as they are. -/
theorem levelCondition_level_other (d : Device) {source n : Nat} (holds : Bool) (blame : U32) (h : n ≠ source) :
    n ∈ (levelCondition d source holds blame).hub.level ↔ n ∈ d.hub.level := by
  simp only [levelCondition]
  split
  · simp [report, h]
  · split
    · simp [h]
    · rfl

section Level

variable (d : Device) (source : Nat) (holds : Bool) (blame : U32)

@[simp] theorem levelCondition_od : (levelCondition d source holds blame).od = d.od := by
  obtain ⟨h, hd⟩ := levelCondition_frame d source holds blame; rw [hd]
@[simp] theorem levelCondition_power : (levelCondition d source holds blame).power = d.power := by
  obtain ⟨h, hd⟩ := levelCondition_frame d source holds blame; rw [hd]
@[simp] theorem levelCondition_berths : (levelCondition d source holds blame).berths = d.berths := by
  obtain ⟨h, hd⟩ := levelCondition_frame d source holds blame; rw [hd]

end Level

theorem odGet_congr {d e : Device} (h : e.od = d.od) (i s : Nat) : odGet e i s = odGet d i s := by rw [odGet, odGet, h]

/-! Setpoints -/

theorem size_setpoint : ∀ b < 4, ((odInfo (0x8410 + b) 5).map (·.size)).getD 0 = 2 := by decide
theorem size_droops : ∀ b < 4, ((odInfo (0x8410 + b) 7).map (·.size)).getD 0 = 8 := by decide
theorem size_draw : ((odInfo 0x8400 5).map (·.size)).getD 0 = 4 := by decide
theorem size_overrun : ((odInfo 0x8400 7).map (·.size)).getD 0 = 4 := by decide
theorem size_mstate : ((odInfo 0x8400 8).map (·.size)).getD 0 = 1 := by decide

theorem setpointMv_bounds (d : Device) (b f : Nat) : 550 ≤ setpointMv d b f ∧ setpointMv d b f ≤ 800 := by
  simp only [setpointMv, clampI]
  omega

theorem odGet_setpoint_put (d : Device) {b v : Nat} (hb : b < 4) (hv : v ≤ 800) : odGet (odPut d (0x8410 + b) 5 v) (0x8410 + b) 5 = v := by
  rw [odGet_odPut_same, size_setpoint b hb]
  omega

/-- A setpoint does not depend on the setpoints written. -/
theorem setpointMv_odPut (d : Device) (b n f v : Nat) : setpointMv (odPut d (0x8410 + n) 5 v) b f = setpointMv d b f := by
  simp only [setpointMv, wantedMv, odGet_odPut_other d v (show 256 * (0x8410 + b) + 6 ≠ 256 * (0x8410 + n) + 5 by omega)]
  rfl

theorem setpointMv_foldl (f : Nat) (ns : List Nat) (d : Device) (b : Nat) :
    setpointMv (ns.foldl (fun d n => odPut d (0x8410 + n) 5 (setpointMv d n f)) d) b f = setpointMv d b f := by
  induction ns generalizing d with
  | nil => rfl
  | cons n ns ih => exact (ih _).trans (setpointMv_odPut _ _ _ _ _)

theorem odGet_setpoint_foldl (f : Nat) {b : Nat} (hb : b < 4) (ns : List Nat) (d : Device) :
    odGet (ns.foldl (fun d n => odPut d (0x8410 + n) 5 (setpointMv d n f)) d) (0x8410 + b) 5
      = if b ∈ ns then setpointMv d b f else odGet d (0x8410 + b) 5 := by
  induction ns generalizing d with
  | nil => simp
  | cons n ns ih =>
    rw [List.foldl_cons, ih, setpointMv_odPut]
    by_cases hns : b ∈ ns
    · rw [if_pos hns, if_pos (List.mem_cons_of_mem n hns)]
    · by_cases hn : b = n
      · subst hn
        rw [if_neg hns, if_pos List.mem_cons_self, odGet_setpoint_put d hb (setpointMv_bounds d b f).2]
      · rw [if_neg hns, if_neg (by simp [hn, hns]), odGet_odPut_other _ _ (by omega)]

theorem odGet_putSetpoints (d : Device) (f : Nat) {b : Nat} (hb : b < 4) : odGet (putSetpoints d f) (0x8410 + b) 5 = setpointMv d b f := by
  rw [putSetpoints, odGet_setpoint_foldl f hb, if_pos (List.mem_range.2 hb)]

theorem putSetpoints_frame (d : Device) (f : Nat) : ∃ m, putSetpoints d f = { d with od := m } := onlyOd_putSetpoints d f

/-- RPLL_STEP. -/
theorem rpllStep_spec (d : Device) (up : Bool) :
    (rpllStep d up).power.fR = (if up = true ∧ d.power.fR < d.power.want ∧ d.power.fR + 100 ≤ 6400 then d.power.fR + 100
      else if up = false ∧ d.power.want < d.power.fR ∧ 2500 ≤ d.power.fR then d.power.fR - 100 else d.power.fR) ∧
    (rpllStep d up).power.want = d.power.want ∧ (rpllStep d up).berths = d.berths ∧
    ((rpllStep d up).power.fR ≠ d.power.fR → ∀ b < 4, odGet (rpllStep d up) (0x8410 + b) 5 = setpointMv d b (rpllStep d up).power.fR) := by
  have hstep (f : Nat) : ({ putSetpoints d f with power := { d.power with fR := f } } : Device).berths = d.berths ∧
      ∀ b < 4, odGet { putSetpoints d f with power := { d.power with fR := f } } (0x8410 + b) 5 = setpointMv d b f := by
    obtain ⟨m, hm⟩ := putSetpoints_frame d f
    refine ⟨by rw [hm], fun b hb => ?_⟩
    exact (odGet_congr (d := putSetpoints d f) rfl _ _).trans (odGet_putSetpoints d f hb)
  simp only [rpllStep, Bool.and_eq_true, decide_eq_true_eq, Bool.not_eq_true', and_assoc]
  split
  · exact ⟨rfl, rfl, (hstep _).1, fun _ => (hstep _).2⟩
  · split
    · exact ⟨rfl, rfl, (hstep _).1, fun _ => (hstep _).2⟩
    · exact ⟨rfl, rfl, rfl, fun h => absurd rfl h⟩

/-! The limiter -/

/-- What the limiter asks for, and whether it holds f_R for heat. -/
def limiterHold (d : Device) (tj : List Int) : Bool :=
  tj.any (fun t => decide (105000 ≤ t)) || (d.power.overTemp && !tj.all (fun t => decide (t ≤ 92000)))

def limiterWant (d : Device) (p10 : Nat) (tj : List Int) : Nat :=
  if limiterHold d tj then 2400
  else if decide (1000 * effectiveW d < p10) || tj.any (fun t => decide (95000 ≤ t)) || d.power.voltReq
      || decide (odGet d 0x8400 2 < d.power.fR) then (if 2400 < d.power.fR then d.power.fR - 100 else d.power.fR)
  else if p10 + 5000 ≤ 1000 * effectiveW d ∧ tj.all (fun t => decide (t ≤ 92000)) ∧ d.power.fR + 100 ≤ odGet d 0x8400 2 then
    d.power.fR + 100
  else d.power.fR

/-- LIMITER_EVAL: what it writes. -/
theorem limiterEval_spec (d : Device) (p10 : Nat) (tj : List Int) :
    (limiterEval d p10 tj).power.fR = d.power.fR ∧ (limiterEval d p10 tj).berths = d.berths ∧
    (limiterEval d p10 tj).power.want = limiterWant d p10 tj ∧ (limiterEval d p10 tj).power.overTemp = limiterHold d tj ∧
    odGet (limiterEval d p10 tj) 0x8400 5 = p10 % 2 ^ 32 ∧
    (1000 * effectiveW d < p10 → d.power.fR = 2400 →
      odGet (limiterEval d p10 tj) 0x8400 7 = min (odGet d 0x8400 7 + 1) 4294967295) ∧
    (0x089 ∈ (limiterEval d p10 tj).hub.level ↔ tj.any (fun t => decide (105000 ≤ t)) = true) ∧
    (0x088 ∈ (limiterEval d p10 tj).hub.level ↔ tj.any (fun t => decide (95000 ≤ t)) = true) := by
  have hadd (x : Device) (m : Prop) [Decidable m] : (if m then odAdd x 0x8400 7 1 else x).berths = x.berths := by
    split <;> rfl
  have hdraw (x : Device) (m : Prop) [Decidable m] : odGet (if m then odAdd x 0x8400 7 1 else x) 0x8400 5 = odGet x 0x8400 5 := by
    split
    · exact odGet_odAdd_other _ _ (by norm_num)
    · rfl
  unfold limiterEval
  dsimp only
  refine ⟨?_, ?_, ?_, ?_, ?_, fun hover hmin => ?_, levelCondition_level _ _ _ _, ?_⟩
  · rw [levelCondition_power, levelCondition_power]
  · rw [levelCondition_berths, levelCondition_berths]
    exact hadd _ _
  · rw [levelCondition_power, levelCondition_power]
    rfl
  · rw [levelCondition_power, levelCondition_power]
    rfl
  · rw [odGet_congr (levelCondition_od _ _ _ _), odGet_congr (levelCondition_od _ _ _ _)]
    refine (odGet_odPut_other _ _ (by norm_num)).trans ?_
    rw [hdraw, odGet_odPut_same, size_draw]
    norm_num
  · rw [odGet_congr (levelCondition_od _ _ _ _), odGet_congr (levelCondition_od _ _ _ _)]
    refine (odGet_odPut_other _ _ (by norm_num)).trans ?_
    rw [if_pos ⟨decide_eq_true hover, hmin⟩, odGet_odAdd_same, size_overrun, odGet_odPut_other _ _ (by norm_num)]
    rfl
  · rw [levelCondition_level_other _ _ _ (by norm_num)]
    exact levelCondition_level _ _ _ _

section Limiter

variable {d : Device} {p10 : Nat} {tj : List Int}

theorem limiterWant_of_hot (h : ∃ t ∈ tj, 105000 ≤ t) : limiterHold d tj = true ∧ limiterWant d p10 tj = 2400 := by
  have hhold : limiterHold d tj = true := by
    simp only [limiterHold, Bool.or_eq_true, List.any_eq_true, decide_eq_true_eq]
    exact .inl h
  exact ⟨hhold, if_pos hhold⟩

theorem limiterWant_of_cool (h : ∀ t ∈ tj, t ≤ 92000) : limiterHold d tj = false ∧
    ((1000 * effectiveW d < p10 ∨ d.power.voltReq = true ∨ odGet d 0x8400 2 < d.power.fR) →
      limiterWant d p10 tj = (if 2400 < d.power.fR then d.power.fR - 100 else d.power.fR)) ∧
    (p10 + 5000 ≤ 1000 * effectiveW d → d.power.voltReq = false → d.power.fR + 100 ≤ odGet d 0x8400 2 →
      limiterWant d p10 tj = d.power.fR + 100) := by
  have hany (n : Int) (hn : 92000 < n) : tj.any (fun t => decide (n ≤ t)) = false := by
    simp only [List.any_eq_false, decide_eq_true_eq]
    intro t ht
    have := h t ht
    omega
  have hall : tj.all (fun t => decide (t ≤ 92000)) = true := by simpa [List.all_eq_true] using h
  have hhold : limiterHold d tj = false := by simp only [limiterHold, hany 105000 (by norm_num), hall]; simp
  refine ⟨hhold, fun hdown => ?_, fun hroom hvolt hmax => ?_⟩
  · simp only [limiterWant, hhold, hany 95000 (by norm_num), Bool.false_eq_true, if_false, Bool.or_false]
    rw [if_pos]
    simpa [or_assoc] using hdown
  · simp only [limiterWant, hhold, hany 95000 (by norm_num), Bool.false_eq_true, if_false, Bool.or_false, hvolt, hall]
    rw [if_neg (by simp; omega), if_pos ⟨hroom, trivial, hmax⟩]

theorem limiterWant_of_warm (hhot : ∃ t ∈ tj, 95000 ≤ t) (hnot : ∀ t ∈ tj, t < 105000) (hover : d.power.overTemp = false) :
    limiterWant d p10 tj = (if 2400 < d.power.fR then d.power.fR - 100 else d.power.fR) := by
  have hany : tj.any (fun t => decide (105000 ≤ t)) = false := by
    simp only [List.any_eq_false, decide_eq_true_eq]
    intro t ht
    have := hnot t ht
    omega
  have hwarm : tj.any (fun t => decide (95000 ≤ t)) = true := by simpa [List.any_eq_true] using hhot
  simp only [limiterWant, limiterHold, hany, hover, hwarm, Bool.false_and, Bool.or_false, Bool.false_eq_true, if_false, Bool.or_true,
    Bool.true_or, if_true]

end Limiter

/-! The voltage loop -/

/-- The correction and the count of steps above the range that a voltage loop leaves. -/
def loopCorr (d : Device) (b : Nat) (below now : Bool) : Int :=
  let c := Tab.get 0 d.power.corr b
  if now then (if below then c - 5 else c) else if !now && decide (800 ≤ wantedMv d b d.power.fR) then c else c + 5

def loopAbove (d : Device) (b : Nat) (now : Bool) : Nat :=
  if !now && decide (800 ≤ wantedMv d b d.power.fR) then Tab.get 0 d.power.above b + 1 else 0

/-- The device with the voltage loop's request for a lower f_R set where `m` holds. -/
theorem orVoltReq_frame (x : Device) (m : Prop) [Decidable m] :
    let y := if m then { x with power := { x.power with voltReq := true } } else x
    y.od = x.od ∧ y.power.fR = x.power.fR ∧ y.berths = x.berths ∧ y.power.corr = x.power.corr := by
  dsimp only
  split <;> exact ⟨rfl, rfl, rfl, rfl⟩

theorem voltageLoop_frame (d : Device) (b : Nat) (below now : Bool) :
    (∃ v, 550 ≤ v ∧ v ≤ 800 ∧ ∃ x : Device, (voltageLoop d b below now).od = (odPut x (0x8410 + b) 5 v).od) ∧
    (voltageLoop d b below now).power.fR = d.power.fR ∧ (voltageLoop d b below now).berths = d.berths ∧
    Tab.get 0 (voltageLoop d b below now).power.corr b = loopCorr d b below now ∧
    (loopAbove d b now = 100 → (voltageLoop d b below now).power.voltReq = true ∧
      (32 * b + 21) ∈ (voltageLoop d b below now).hub.level) := by
  unfold voltageLoop
  dsimp only
  refine ⟨?_, ?_, ?_, ?_, fun habove => ?_⟩
  · rw [(orVoltReq_frame _ _).1, levelCondition_od]
    exact ⟨_, (setpointMv_bounds _ _ _).1, (setpointMv_bounds _ _ _).2, _, rfl⟩
  · rw [(orVoltReq_frame _ _).2.1, levelCondition_power]
    rfl
  · rw [(orVoltReq_frame _ _).2.2.1, levelCondition_berths]
    rfl
  · rw [(orVoltReq_frame _ _).2.2.2, levelCondition_power]
    exact Tab.get_set_same _ _ _ _
  · unfold loopAbove at habove
    rw [if_pos habove]
    refine ⟨rfl, (levelCondition_level _ _ _ _).2 (decide_eq_true ?_)⟩
    exact habove.ge

theorem voltageLoop_spec (d : Device) {b : Nat} (hb : b < 4) (below now : Bool) :
    let c := Tab.get 0 d.power.corr b
    550 ≤ odGet (voltageLoop d b below now) (0x8410 + b) 5 ∧ odGet (voltageLoop d b below now) (0x8410 + b) 5 ≤ 800 ∧
    (voltageLoop d b below now).power.fR = d.power.fR ∧ (voltageLoop d b below now).berths = d.berths ∧
    (now = true → below = true → Tab.get 0 (voltageLoop d b below now).power.corr b = c - 5) ∧
    (now = true → below = false → Tab.get 0 (voltageLoop d b below now).power.corr b = c) ∧
    (now = false → wantedMv d b d.power.fR < 800 → Tab.get 0 (voltageLoop d b below now).power.corr b = c + 5) ∧
    (now = false → 800 ≤ wantedMv d b d.power.fR → Tab.get 0 d.power.above b = 99 →
      (voltageLoop d b below now).power.voltReq = true ∧ (32 * b + 21) ∈ (voltageLoop d b below now).hub.level) := by
  obtain ⟨⟨v, hlo, hhi, x, hod⟩, hfR, hberths, hcorr, habove⟩ := voltageLoop_frame d b below now
  have hv : odGet (voltageLoop d b below now) (0x8410 + b) 5 = v := by rw [odGet_congr hod, odGet_setpoint_put x hb hhi]
  refine ⟨by omega, by omega, hfR, hberths, fun hn hbl => ?_, fun hn hbl => ?_, fun hn hw => ?_, fun hn hw h99 => habove ?_⟩
  · rw [hcorr, hn, hbl]; rfl
  · rw [hcorr, hn, hbl]; rfl
  · rw [hcorr, hn, loopCorr]
    simp [hw]
  · rw [hn, loopAbove, h99]
    simp [hw]

/-- DROOP_HOLD. -/
theorem odGet_droops_add (d : Device) {b : Nat} (hb : b < 4) :
    odGet (odAdd d (0x8410 + b) 7 1) (0x8410 + b) 7 = min (odGet d (0x8410 + b) 7 + 1) 18446744073709551615 := by
  rw [odGet_odAdd_same, size_droops b hb]
  norm_num

/-- THERMAL_TRIP. -/
theorem thermalTrip_spec (d : Device) : mstate (thermalTrip d) = 5 ∧ (thermalTrip d).power.tripped = true ∧
    (thermalTrip d).power.control = false ∧ (thermalTrip d).power.fabric = false ∧ (thermalTrip d).berths = [] ∧
    faultLow (thermalTrip d) = true ∧ (thermalTrip d).time = 0 := by
  refine ⟨?_, rfl, rfl, rfl, rfl, rfl, rfl⟩
  refine (odGet_congr (d := dockState (odKeep d 0x8400 10 (min (odGet d 0x8400 10 + 1) top32))) rfl _ _).trans ?_
  rw [dockState, odGet_odPut_same, size_mstate]
  norm_num

/-- Settles O57. -/
theorem clockAndVoltage : Obligations.ClockAndVoltage := by
  refine ⟨fun up s hc hm => ?_, fun p10 tj s hc hm => ?_, fun b below now s hf hm => ?_, fun b s hf => ?_, fun s ha => ?_⟩
  · exact ⟨rpllStep s.dev up, onDev_guarded_pos _ (by simp [hc, hm]), rpllStep_spec s.dev up⟩
  · obtain ⟨hfR, hberths, hwant, hover, hdraw, hmin, hlevel9, hlevel8⟩ := limiterEval_spec s.dev p10 tj
    refine ⟨limiterEval s.dev p10 tj, onDev_guarded_pos (fun d => limiterEval d p10 tj) (by simp [hc, hm]), hfR, hberths, hdraw,
      fun hhot => ?_, fun hcool => ?_, fun hwarm hnot hold => ?_, hmin⟩
    · obtain ⟨h1, h2⟩ := limiterWant_of_hot (d := s.dev) (p10 := p10) hhot
      exact ⟨hwant.trans h2, hover.trans h1, hlevel9.2 (by simpa [List.any_eq_true] using hhot)⟩
    · obtain ⟨h1, h2, h3⟩ := limiterWant_of_cool (d := s.dev) (p10 := p10) hcool
      exact ⟨hover.trans h1, fun h => hwant.trans (h2 h), fun hr hv hx => hwant.trans (h3 hr hv hx)⟩
    · exact ⟨hwant.trans (limiterWant_of_warm hwarm hnot hold), hlevel8.2 (by simpa [List.any_eq_true] using hwarm)⟩
  · exact ⟨voltageLoop s.dev b.val below now, onDev_guarded_pos (fun d => voltageLoop d b.val below now) (by simp [hf, hm]),
      voltageLoop_spec s.dev b.isLt below now⟩
  · exact ⟨_, onDev_guarded_pos (fun d => odAdd (modBerth d b.val (fun x => { x with droopUntil := x.fclk + 32 })) (0x8410 + b.val) 7 1) hf,
      berthAt_modBerth_same s.dev b.val (fun x => { x with droopUntil := x.fclk + 32 }), odGet_droops_add _ b.isLt⟩
  · exact ⟨thermalTrip s.dev, onDev_guarded_pos _ ha, thermalTrip_spec s.dev⟩

end Sys2Proof.Machine
end

section
/-! Background work (R456, R263): a telemetry sample does not leave the berths as they were, since it moves the reference
values of the stall counters of every tile that a running image names. -/

namespace Sys2Proof.Machine

/-- A running module whose berth 0 runs slot 0, an image of one plane at position 0. -/
def sampledState : State :=
  { State.reset with dev := { State.reset.dev with
      fw := { running := true }
      od := [(256 * 0x3010 + 1, 0), (256 * 0x8400 + 8, 0)]
      berths := [(0, { slots := [(0, { image := some { planes := [(0, {})] } })] })] } }

def nineSensors : Readings := { sensors := List.replicate 9 0, inputs := [0, 0, 0], energyMj := 0 }

/-- The sample makes an entry for the tile whose stall counters it has read. -/
theorem berths_telemetry_sampledState : (telemetry sampledState.dev nineSensors).berths ≠ sampledState.dev.berths := by
  decide +kernel

/-- Refutes O58: a telemetry sample adds the stall counters of a running image's tiles to their stages' totals and stores
their new reference values in the tiles, so the berths change. -/
theorem not_backgroundWork : ¬ Obligations.BackgroundWork := by
  unfold Obligations.BackgroundWork
  intro ⟨hsample, _⟩
  obtain ⟨e, he, hberths, _⟩ := hsample nineSensors sampledState (by decide +kernel) (by decide +kernel) rfl rfl
  have hrun : exec (.telemetrySample nineSensors) sampledState
      = .next { sampledState with dev := telemetry sampledState.dev nineSensors } :=
    onDev_guarded_pos (fun d => telemetry d nineSensors) (by decide +kernel)
  have hdev : telemetry sampledState.dev nineSensors = e := by
    rw [hrun] at he; injection he with he; exact congrArg State.dev he
  exact berths_telemetry_sampledState (hdev ▸ hberths)

end Sys2Proof.Machine
end

section
/-! The canonical form of the byte memories, which every command keeps: one lemma per function of the device, in the order of the
model. -/

namespace Sys2Proof.Machine

/-- Host memory and the mailbox buffers are canonical and device time is in range, under the condition `P`; the memories of the
berths are canonical, under the condition `Q`. -/
structure Canonical (P Q : Prop) (d : Device) : Prop where
  host : P → HostMemoryWf d ∧ d.time < 2 ^ 64
  berths : Q → ∀ x ∈ d.berths, BerthMemoryWf x.2

-- The proofs below are many and short: elaborated in turn, they do not wait for one another in threads of their own.
set_option Elab.async false

variable {P Q : Prop} {d : Device}

/-! Shapes of definitions -/

/-- What changes neither host memory, mailbox, time nor berths. -/
theorem canonical_frame {e : Device} (h : Canonical P Q d) (hb : e.berths = d.berths := by rfl) (hm : e.mbx = d.mbx := by rfl)
    (ht : e.time = d.time := by rfl) (hh : e.hostMem = d.hostMem := by rfl) : Canonical P Q e := by
  obtain ⟨hhost, hberths⟩ := h
  exact ⟨by simpa only [HostMemoryWf, hm, ht, hh] using hhost, by simpa only [hb] using hberths⟩

/-- The same, as it stands where a record is written out. -/
theorem canonical_mk {links ports ends toTile spareUsed laneSwitch streams queues evqs purserEvq pendingEv quality folsa hub od flash journal sessions transfers requests responses udpOut arpOut mgmtDiscards mctpOut mctpControlOut mctpEid sfp pcie fw pps power moduleHurdles nmi stallTotals sramScrubbed hbmScrubbed armed drawn} (h : Canonical P Q d) :
    Canonical P Q { d with
      links := links
      ports := ports
      ends := ends
      toTile := toTile
      spareUsed := spareUsed
      laneSwitch := laneSwitch
      streams := streams
      queues := queues
      evqs := evqs
      purserEvq := purserEvq
      pendingEv := pendingEv
      quality := quality
      folsa := folsa
      hub := hub
      od := od
      flash := flash
      journal := journal
      sessions := sessions
      transfers := transfers
      requests := requests
      responses := responses
      udpOut := udpOut
      arpOut := arpOut
      mgmtDiscards := mgmtDiscards
      mctpOut := mctpOut
      mctpControlOut := mctpControlOut
      mctpEid := mctpEid
      sfp := sfp
      pcie := pcie
      fw := fw
      pps := pps
      power := power
      moduleHurdles := moduleHurdles
      nmi := nmi
      stallTotals := stallTotals
      sramScrubbed := sramScrubbed
      hbmScrubbed := hbmScrubbed
      armed := armed
      drawn := drawn } :=
  canonical_frame h

theorem canonical_hostMem {m : List Host.Cell} (h : Canonical P Q d) (hm : memWf d.hostMem = true → memWf m = true) :
    Canonical P Q { d with hostMem := m } :=
  ⟨fun hP => ⟨⟨hm (h.host hP).1.1, (h.host hP).1.2⟩, (h.host hP).2⟩, h.berths⟩

theorem canonical_ite {c : Prop} [Decidable c] {e : Device} (hd : Canonical P Q d) (he : Canonical P Q e) :
    Canonical P Q (if c then d else e) := by
  split
  · exact hd
  · exact he

theorem canonical_fst_ite {α : Type} {c : Prop} [Decidable c] {x y : Device × α} (hx : Canonical P Q x.1) (hy : Canonical P Q y.1) :
    Canonical P Q (if c then x else y).1 := by
  split
  · exact hx
  · exact hy

theorem canonical_foldl {α : Type} {f : Device → α → Device} {as : List α} (h : Canonical P Q d)
    (hf : ∀ d a, Canonical P Q d → Canonical P Q (f d a)) : Canonical P Q (as.foldl f d) := by
  induction as generalizing d with
  | nil => exact h
  | cons a as ih => exact ih (hf d a h)

theorem canonical_option {α : Type} {o : Option α} {k : α → Device} (h : Canonical P Q d) (hk : ∀ a, Canonical P Q (k a)) :
    Canonical P Q (match o with | none => d | some a => k a) := by
  cases o with
  | none => exact h
  | some a => exact hk a

theorem canonical_optionSome {α : Type} {o : Option α} {k : α → Device} (h : Canonical P Q d) (hk : ∀ a, Canonical P Q (k a)) :
    Canonical P Q (match o with | some a => k a | none => d) := by
  cases o with
  | none => exact h
  | some a => exact hk a

theorem canonical_list {α : Type} {as : List α} {k : α → List α → Device} (h : Canonical P Q d)
    (hk : ∀ a as, Canonical P Q (k a as)) : Canonical P Q (match as with | [] => d | a :: as => k a as) := by
  cases as with
  | nil => exact h
  | cons a as => exact hk a as

/-! Berths and tiles -/

theorem berthMemoryWf_default : BerthMemoryWf {} := ⟨rfl, by rintro t ⟨⟩⟩

theorem Canonical.berth (h : Canonical P Q d) (hQ : Q) (b : Nat) : BerthMemoryWf (berthAt d b) := by
  rw [berthAt, Tab.get_eq_find]
  cases hb : Tab.find d.berths b with
  | none => exact berthMemoryWf_default
  | some x => exact h.berths hQ _ (Tab.mem_of_find hb)

theorem Canonical.tile (h : Canonical P Q d) (hQ : Q) (b k : Nat) : memWf (tileAt d b k).mem = true := by
  rw [tileAt, Tab.get_eq_find]
  cases hk : Tab.find (berthAt d b).tiles k with
  | none => rfl
  | some t => exact (h.berth hQ b).2 _ (Tab.mem_of_find hk)

theorem canonical_setBerth {b : Nat} {x : Berth} (h : Canonical P Q d) (hx : Q → BerthMemoryWf x) :
    Canonical P Q (setBerth d b x) := by
  refine ⟨h.host, fun hQ y hy => ?_⟩
  obtain rfl | hy := Tab.mem_set hy
  · exact hx hQ
  · exact h.berths hQ y hy

theorem canonical_modBerth {b : Nat} {f : Berth → Berth} (h : Canonical P Q d)
    (hf : Q → ∀ x, BerthMemoryWf x → BerthMemoryWf (f x) := by exact fun _ _ hx => hx) : Canonical P Q (modBerth d b f) :=
  canonical_setBerth h fun hQ => hf hQ _ (h.berth hQ b)

theorem canonical_setTile {b k : Nat} {t : Tile} (h : Canonical P Q d) (ht : Q → memWf t.mem = true) :
    Canonical P Q (setTile d b k t) := by
  refine canonical_setBerth h fun hQ => ⟨(h.berth hQ b).1, fun y hy => ?_⟩
  obtain rfl | hy := Tab.mem_set hy
  · exact ht hQ
  · exact (h.berth hQ b).2 y hy

/-- A change of a tile that keeps its block memory canonical; as a rule it leaves it. -/
theorem canonical_modTile {b k : Nat} {f : Tile → Tile} (h : Canonical P Q d)
    (hf : ∀ t, memWf t.mem = true → memWf (f t).mem = true := by exact fun _ ht => ht) : Canonical P Q (modTile d b k f) :=
  canonical_setTile h fun hQ => hf _ (h.tile hQ b k)

theorem berthMemoryWf_map {x : Berth} {f : Tile → Tile} (hx : BerthMemoryWf x)
    (hf : ∀ t, memWf t.mem = true → memWf (f t).mem = true) : BerthMemoryWf { x with tiles := Tab.map f x.tiles } := by
  refine ⟨hx.1, fun y hy => ?_⟩
  obtain ⟨z, hz, rfl⟩ := List.mem_map.1 hy
  exact hf _ (hx.2 z hz)

/-! Content that is loaded into a tile or the HBM -/

theorem foldl_memWf {α β : Type} {m : β → List Host.Cell} {f : β → α → β} (hf : ∀ t a, memWf (m t) = true → memWf (m (f t a)) = true)
    {as : List α} {t : β} (ht : memWf (m t) = true) : memWf (m (as.foldl f t)) = true := by
  induction as generalizing t with
  | nil => exact ht
  | cons a as ih => exact ih (hf t a ht)

theorem ite_memWf {β : Type} {m : β → List Host.Cell} {c : Prop} [Decidable c] {t u : β} (ht : memWf (m t) = true)
    (hu : memWf (m u) = true) : memWf (m (if c then t else u)) = true := by
  split
  · exact ht
  · exact hu

section Content

variable {t : Tile} {img : Image} {k lk : Nat} (ht : memWf t.mem = true)

include ht

theorem memWf_loadBytes {a bs} : memWf (loadBytes t a bs).mem = true := memWf_memWriteBytes _ _ ht
theorem memWf_clearBytes {a e} : memWf (clearBytes t a e).mem = true := memWf_memClear _ _ ht
theorem memWf_writeBlock {bm cs} : memWf (writeBlock t bm cs).mem = true :=
  foldl_memWf (m := id) (fun _ _ hm => memWf_memWrite _ _ hm) (memWf_clearBytes ht)
theorem memWf_freshRecords {l} : memWf (freshRecords l t).mem = true :=
  foldl_memWf (m := Tile.mem) (fun _ _ hm => memWf_memWriteNat _ _ _ hm) (memWf_clearBytes ht)
theorem memWf_writeContent : memWf (writeContent img lk t).mem = true :=
  foldl_memWf (m := Tile.mem) (fun _ _ hm => ite_memWf (by exact hm) hm)
    (foldl_memWf (m := Tile.mem) (fun _ _ hm => ite_memWf (memWf_loadBytes hm) hm) ht)
theorem memWf_resetScaleTables : memWf (resetScaleTables img lk t).mem = true :=
  foldl_memWf (m := Tile.mem) (fun _ _ hm => ite_memWf (memWf_clearBytes hm) hm) ht
theorem memWf_headContent : memWf (headContent img lk t).mem = true := by
  unfold headContent
  split
  · exact ite_memWf (foldl_memWf (m := Tile.mem) (fun _ _ hm => memWf_writeBlock hm)
      (foldl_memWf (m := Tile.mem) (fun _ _ hm => memWf_freshRecords hm) ht)) ht
  · exact ht
theorem memWf_loadTile : memWf (loadTile img k lk t).mem = true := by
  unfold loadTile
  split
  · exact ht
  · exact memWf_headContent (memWf_resetScaleTables (memWf_writeContent ht))
theorem memWf_applyCopies {cs} : memWf (applyCopies cs lk t).mem = true :=
  foldl_memWf (m := Tile.mem) (fun _ _ hm => ite_memWf (memWf_writeBlock hm) hm) ht
theorem memWf_tablesFromMirror {x} : memWf (tablesFromMirror x img k lk t).mem = true :=
  foldl_memWf (m := Tile.mem) (fun _ _ hm => ite_memWf (foldl_memWf (m := Tile.mem) (fun _ _ hm => memWf_loadBytes hm) hm) hm) ht
theorem memWf_undefinedSide {a} : memWf (undefinedSide a t).mem = true :=
  foldl_memWf (m := Tile.mem) (fun _ _ hm => memWf_writeBlock hm) ht
theorem memWf_setupHead {d b spare} : memWf (setupHead d b k lk img spare t).mem = true :=
  have hp {p} : memWf (setPlane t k p).mem = true := ht
  ite_memWf (ite_memWf (memWf_undefinedSide (memWf_applyCopies hp)) (memWf_applyCopies hp)) ht

end Content

theorem memWf_portBWrite {t : Tile} {a v} (ht : memWf t.mem = true) : memWf (portBWrite t a v).1.mem = true := by
  unfold portBWrite
  refine foldl_memWf (m := fun r : Tile × List Nat => r.1.mem) (fun r i hm => ?_) (by exact ht)
  dsimp only
  split
  · exact hm
  · exact memWf_memWriteBytes _ _ hm

theorem memAbove_cells {f : Nat → Byte} {n a j : Nat} (h : j < a) :
    memAbove j (((List.range' a n).map fun i => (i, f i)).filter fun c => c.2 ≠ 0) = true := by
  induction n generalizing a with
  | zero => rfl
  | succ n ih =>
    rw [List.range'_succ, List.map_cons, List.filter_cons]
    split
    · simpa [memAbove] using h
    · exact ih (by omega)

theorem memWf_cells {f : Nat → Byte} {n a : Nat} :
    memWf (((List.range' a n).map fun i => (i, f i)).filter fun c => c.2 ≠ 0) = true := by
  induction n generalizing a with
  | zero => rfl
  | succ n ih =>
    rw [List.range'_succ, List.map_cons, List.filter_cons]
    split
    · next h => exact memWf_cons.2 ⟨by simpa [memDefault] using h, memAbove_cells (by omega), ih⟩
    · exact ih

theorem memWf_patternMem : memWf patternMem = true := by
  rw [patternMem, List.range_eq_range']
  exact memWf_cells

theorem mem_of_poolAlloc {m m' : Hbm} {bytes owner g} (h : poolAlloc m bytes owner = some (g, m')) : m'.mem = m.mem := by
  unfold poolAlloc at h
  split at h
  · cases h
    rfl
  · obtain ⟨g', -, hg⟩ := Option.map_eq_some_iff.1 h
    cases hg
    rfl

theorem mem_of_poolAllocAll {m m' : Hbm} {owner ns gs} (h : poolAllocAll m owner ns = some (gs, m')) : m'.mem = m.mem := by
  induction ns generalizing m gs with
  | nil =>
    cases h
    rfl
  | cons n ns ih =>
    unfold poolAllocAll at h
    split at h
    · cases h
    · next hg =>
      obtain ⟨p, hp, hgs⟩ := Option.map_eq_some_iff.1 h
      cases hgs
      exact (ih hp).trans (mem_of_poolAlloc hg)

/-- New contents of the HBM. -/
theorem berthMemoryWf_hbm {x : Berth} {m : Hbm} (hx : BerthMemoryWf x) (hm : memWf m.mem = true) :
    BerthMemoryWf { x with hbm := m } := ⟨hm, hx.2⟩

theorem memWf_writeEntryRows {m : Hbm} {p c u a} (hm : memWf m.mem = true) : memWf (writeEntryRows m p c u a).mem = true :=
  foldl_memWf (m := Hbm.mem) (fun _ _ hm => memWf_hbmWriteBytes _ _ _ hm) hm

theorem memWf_fillImage {m : Hbm} {img} (hm : memWf m.mem = true) : memWf (fillImage m img).mem = true :=
  foldl_memWf (m := Hbm.mem) (fun _ _ hm => foldl_memWf (m := Hbm.mem)
    (fun _ _ hm => ite_memWf (m := Hbm.mem) (memWf_memClear _ _ hm) hm) hm) hm

theorem memWf_admitLight {m : Hbm} (hm : memWf m.mem = true) : memWf (admitLight m).mem = true := by
  unfold admitLight
  split
  · exact hm
  · exact hm

/-! The functions of the device -/

theorem canonical_guarded {g : Device → Bool} {f : Device → Device} (h : Canonical P Q d)
    (hf : Canonical P Q d → Canonical P Q (f d)) : Canonical P Q (guarded g f d) := canonical_ite (hf h) h

theorem canonical_odPut {index sub v} (h : Canonical P Q d) : Canonical P Q (odPut d index sub v) := canonical_mk h
theorem canonical_odAdd {index sub n} (h : Canonical P Q d) : Canonical P Q (odAdd d index sub n) := canonical_odPut h
theorem canonical_odReset {p} (h : Canonical P Q d) : Canonical P Q (odReset p d) := canonical_mk h
theorem canonical_setSlot {b k x} (h : Canonical P Q d) : Canonical P Q (setSlot d b k x) := canonical_modBerth h
theorem canonical_setStream {n x} (h : Canonical P Q d) : Canonical P Q (setStream d n x) := canonical_mk h
theorem canonical_modStream {n f} (h : Canonical P Q d) : Canonical P Q (modStream d n f) := canonical_setStream h
theorem canonical_setPort {k x} (h : Canonical P Q d) : Canonical P Q (setPort d k x) := canonical_mk h
theorem canonical_setEnd {k x} (h : Canonical P Q d) : Canonical P Q (setEnd d k x) := canonical_mk h
theorem canonical_setLink {k x} (h : Canonical P Q d) : Canonical P Q (setLink d k x) := canonical_mk h
theorem canonical_setFolsa {p x} (h : Canonical P Q d) : Canonical P Q (setFolsa d p x) := canonical_mk h
theorem canonical_setSfp {c x} (h : Canonical P Q d) : Canonical P Q (setSfp d c x) := canonical_mk h
theorem canonical_odKeep {index sub v} (h : Canonical P Q d) : Canonical P Q (odKeep d index sub v) :=
  canonical_mk (canonical_odPut h)
theorem canonical_odStore {index sub v} (h : Canonical P Q d) : Canonical P Q (odStore d index sub v) :=
  canonical_ite (canonical_mk (canonical_odPut h)) (canonical_odPut h)
theorem canonical_report {source blame reporter info} (h : Canonical P Q d) : Canonical P Q (report d source blame reporter
    info) :=
  canonical_mk h
theorem canonical_berthReport {b i blame reporter info} (h : Canonical P Q d) : Canonical P Q (berthReport d b i blame reporter
    info) :=
  canonical_report h
theorem canonical_addDiscard {r} (h : Canonical P Q d) : Canonical P Q (addDiscard d r) :=
  canonical_ite h (canonical_odAdd (canonical_mk h))
theorem canonical_berthCount {b sub n} (h : Canonical P Q d) : Canonical P Q (berthCount d b sub n) := canonical_odAdd h
theorem canonical_setEvq {h1 q} (h : Canonical P Q d) : Canonical P Q (setEvq d h1 q) := canonical_mk h
theorem canonical_signalVector {v} (h : Canonical P Q d) : Canonical P Q (signalVector d v) :=
  canonical_ite (canonical_mk h) (canonical_ite h (canonical_mk h))
theorem canonical_evqInterrupt {h1} (h : Canonical P Q d) : Canonical P Q (evqInterrupt d h1) :=
  canonical_ite (canonical_signalVector (canonical_setEvq h)) h
theorem canonical_evqStatus {k} (h : Canonical P Q d) : Canonical P Q (evqStatus d k) :=
  canonical_ite h (canonical_hostMem h (memWf_memWriteNat _ _ _))
theorem canonical_evqWrite {k r} (h : Canonical P Q d) : Canonical P Q (evqWrite d k r) :=
  canonical_evqInterrupt (canonical_evqStatus (canonical_setEvq (canonical_hostMem h (memWf_memWriteNat _ _ _))))
theorem canonical_purserWrite {p r} (h : Canonical P Q d) : Canonical P Q (purserWrite d p r) := canonical_mk h
theorem canonical_deliver {key target info count} (h : Canonical P Q d) : Canonical P Q (deliver d key target info count) := by
  refine canonical_ite (canonical_purserWrite h) (canonical_ite h (canonical_ite (canonical_evqWrite h) ?_))
  split
  · exact canonical_mk h
  · exact canonical_ite (canonical_odAdd (canonical_mk h)) (canonical_mk h)
theorem canonical_sharedEvent {n info count} (h : Canonical P Q d) : Canonical P Q (sharedEvent d n info count) :=
  canonical_ite (canonical_deliver (canonical_odAdd h)) (canonical_odAdd h)
theorem canonical_berthEvent {b k info} (h : Canonical P Q d) : Canonical P Q (berthEvent d b k info) := canonical_sharedEvent h
theorem canonical_enterPending {h1} (h : Canonical P Q d) : Canonical P Q (enterPending d h1) := by
  unfold enterPending
  split
  · exact h
  · exact canonical_ite h (canonical_evqWrite (canonical_mk h))
theorem canonical_enterAll {n k} (h : Canonical P Q d) : Canonical P Q (enterAll n d k) := by
  induction n generalizing d with
  | zero => exact h
  | succ n ih => exact canonical_ite h (ih (canonical_enterPending h))
theorem canonical_eventDoorbell {h1 bytes w} (h : Canonical P Q d) : Canonical P Q (eventDoorbell d h1 bytes w) :=
  canonical_ite h (canonical_ite h (canonical_evqInterrupt (canonical_setEvq h)))
theorem canonical_evqEnable {h1} (h : Canonical P Q d) : Canonical P Q (evqEnable d h1) :=
  canonical_ite h (canonical_enterAll (canonical_evqStatus (canonical_setEvq (canonical_odPut h))))
theorem canonical_unmaskVector {v} (h : Canonical P Q d) : Canonical P Q (unmaskVector d v) :=
  canonical_ite (canonical_signalVector (canonical_mk (canonical_mk h))) (canonical_mk h)
theorem canonical_maskVector {v} (h : Canonical P Q d) : Canonical P Q (maskVector d v) := canonical_mk h
theorem canonical_setRing {q r} (h : Canonical P Q d) : Canonical P Q (setRing d q r) := canonical_mk h
theorem canonical_writeStatus {q} (h : Canonical P Q d) : Canonical P Q (writeStatus d q) :=
  canonical_ite h (canonical_hostMem h (memWf_memWriteNat _ _ _))
theorem canonical_dmaEntries {q pi es} (h : Canonical P Q d) : Canonical P Q (dmaEntries d q pi es) := by
  induction es generalizing d pi with
  | nil => exact h
  | cons e es ih => exact ih (canonical_hostMem h fun hm => memWf_memWrite _ _ (memWf_memWriteBytes _ _ hm))
theorem memWf_storeEntries {m : Hbm} {base ebytes n pi es} (hm : memWf m.mem = true) :
    memWf (storeEntries m base ebytes n pi es).mem = true := by
  induction es generalizing m pi with
  | nil => exact hm
  | cons e es ih => exact ih (memWf_hbmWriteBytes _ _ _ hm)
theorem canonical_hbmEntries {q pi es} (h : Canonical P Q d) : Canonical P Q (hbmEntries d q pi es) := by
  unfold hbmEntries
  exact canonical_modBerth h fun _ x hx => berthMemoryWf_hbm hx (memWf_storeEntries (memWf_storeEntries hx.1))
theorem canonical_queueEvent {q} (h : Canonical P Q d) : Canonical P Q (queueEvent d q) :=
  canonical_ite (canonical_deliver (canonical_setRing h)) h
theorem canonical_offerItem {q item key} (h : Canonical P Q d) : Canonical P Q (offerItem d q item key) := by
  unfold offerItem
  dsimp only
  generalize ringOffer _ _ _ _ _ item key = x
  obtain ⟨r, es⟩ := x
  exact canonical_ite (canonical_setRing (canonical_ite (canonical_dmaEntries h) (canonical_hbmEntries h)))
    (canonical_queueEvent (canonical_writeStatus (canonical_setRing (canonical_ite (canonical_dmaEntries h)
    (canonical_hbmEntries h)))))
theorem canonical_offerTo {q item key} (h : Canonical P Q d) : Canonical P Q (offerTo d q item key) :=
  canonical_ite (canonical_offerItem h) h
theorem canonical_discardEntries {q cause count oldest} (h : Canonical P Q d) : Canonical P Q (discardEntries d q cause count
    oldest) :=
  canonical_addDiscard h
theorem canonical_queueDiscard {q cause count} (h : Canonical P Q d) : Canonical P Q (queueDiscard d q cause count) :=
  canonical_discardEntries h
theorem canonical_flushQueue {q cause} (h : Canonical P Q d) : Canonical P Q (flushQueue d q cause) :=
  canonical_writeStatus (canonical_setRing (canonical_queueDiscard h))
theorem canonical_resetQueue {q} (h : Canonical P Q d) : Canonical P Q (resetQueue d q) :=
  canonical_report (canonical_writeStatus (canonical_setRing (canonical_discardEntries h)))
theorem canonical_badDoorbell {q} (h : Canonical P Q d) : Canonical P Q (badDoorbell d q) := canonical_setRing h
theorem canonical_queueDoorbell {q bytes w} (h : Canonical P Q d) : Canonical P Q (queueDoorbell d q bytes w) :=
  canonical_ite h (canonical_ite (canonical_badDoorbell h) (canonical_queueEvent (canonical_writeStatus (canonical_ite
    (canonical_flushQueue (canonical_setRing h)) (canonical_ite (canonical_setRing (canonical_setRing h)) (canonical_ite
    (canonical_setRing (canonical_setRing h)) (canonical_setRing h)))))))
theorem canonical_enableQueue {q} (h : Canonical P Q d) : Canonical P Q (enableQueue d q) := by
  refine canonical_ite h (canonical_ite (canonical_odPut h) (canonical_writeStatus (canonical_setRing (canonical_ite ?_
    (canonical_odPut (canonical_odPut h))))))
  have h1 {v w} := canonical_odPut (index := 0x4000 + q) (sub := 1) (v := v)
    (canonical_odPut (index := 0x4000 + q) (sub := 0x0D) (v := w) h)
  split
  · next hm =>
    exact canonical_odPut (canonical_modBerth h1 fun hQ x hx =>
      berthMemoryWf_hbm hx ((mem_of_poolAlloc hm).symm ▸ (h1.berth hQ _).1))
  · exact h1
theorem canonical_disableQueue {q} (h : Canonical P Q d) : Canonical P Q (disableQueue d q) :=
  canonical_ite (canonical_writeStatus (canonical_ite (canonical_modBerth (canonical_odPut (canonical_setRing
    (canonical_flushQueue h)))) (canonical_odPut (canonical_setRing (canonical_flushQueue h))))) h
theorem canonical_dataRead {n q len} (h : Canonical P Q d) : Canonical P Q (dataRead n d q len).1 := by
  induction n generalizing d len with
  | zero => exact h
  | succ n ih => exact canonical_fst_ite h (ih (canonical_setRing h))
theorem canonical_dataWrite {q item gap} (h : Canonical P Q d) : Canonical P Q (dataWrite d q item gap) :=
  canonical_ite (canonical_setRing (canonical_hbmEntries h)) h
theorem canonical_consumeItem {q n gap} (h : Canonical P Q d) : Canonical P Q (consumeItem d q n gap) :=
  canonical_queueEvent (canonical_writeStatus (canonical_setRing h))
theorem canonical_takeHostGaps {k q} (h : Canonical P Q d) : Canonical P Q (takeHostGaps k d q) := by
  induction k generalizing d with
  | zero => exact h
  | succ k ih => exact canonical_ite (ih (canonical_consumeItem h)) h
theorem canonical_dropHostGaps {q} (h : Canonical P Q d) : Canonical P Q (dropHostGaps d q) := canonical_takeHostGaps h
theorem canonical_setStreamState {n st} (h : Canonical P Q d) : Canonical P Q (setStreamState d n st) :=
  canonical_ite h (canonical_berthEvent (canonical_odPut h))
theorem canonical_flushInner {n kind cause r} (h : Canonical P Q d) : Canonical P Q (flushInner d n kind cause r).1 :=
  canonical_addDiscard h
theorem canonical_freeStream {n} (h : Canonical P Q d) : Canonical P Q (freeStream d n) :=
  canonical_ite (canonical_setStreamState (canonical_setStream (canonical_modBerth h))) h
theorem canonical_releaseEntry {n fc} (h : Canonical P Q d) : Canonical P Q (releaseEntry d n fc) :=
  canonical_freeStream (canonical_setStream h)
theorem canonical_dropEntry {n e} (h : Canonical P Q d) : Canonical P Q (dropEntry d n e) :=
  canonical_releaseEntry (canonical_setStream h)
theorem canonical_foldEntries {b f} (h : Canonical P Q d) (hf : ∀ d n e, Canonical P Q d → Canonical P Q (f d n e)) :
    Canonical P Q (foldEntries d b f) := canonical_foldl h fun _ _ h => canonical_foldl h fun _ _ h => hf _ _ _ h
theorem canonical_putEntry {n e} (h : Canonical P Q d) : Canonical P Q (putEntry d n e) := canonical_setStream h
theorem canonical_disposeFrames {b mode} (h : Canonical P Q d) : Canonical P Q (disposeFrames d b mode) :=
  canonical_ite (canonical_foldEntries h (fun _ _ _ h => canonical_putEntry h)) (canonical_ite (canonical_foldEntries h (fun _ _
    _ h => canonical_ite h (canonical_dropEntry h))) (canonical_modBerth (canonical_foldEntries h (fun _ _ _ h =>
    canonical_putEntry h))))
theorem canonical_releaseHeld {b} (h : Canonical P Q d) : Canonical P Q (releaseHeld d b) := by
  unfold releaseHeld
  exact canonical_modBerth (canonical_foldl h fun _ _ h => canonical_foldl h fun _ _ h => canonical_ite (canonical_addDiscard
      (canonical_dropEntry h)) h)
theorem canonical_restoreHeld {b} (h : Canonical P Q d) : Canonical P Q (restoreHeld d b) := by
  unfold restoreHeld
  exact canonical_modBerth (canonical_foldl h fun _ _ h => canonical_foldl h fun _ _ h => canonical_ite (canonical_putEntry h)
      h)
theorem canonical_loadSlotTiles {b k img} (h : Canonical P Q d) : Canonical P Q (loadSlotTiles d b k img) :=
  canonical_foldl h fun _ _ h => canonical_modTile h fun _ ht => memWf_loadTile ht
theorem canonical_mapPlanes {b k f} (h : Canonical P Q d) : Canonical P Q (mapPlanes d b k f) :=
  canonical_foldl h fun _ _ h => canonical_modTile h
theorem canonical_claimChannels {b k img} (h : Canonical P Q d) : Canonical P Q (claimChannels d b k img) :=
  canonical_foldl (canonical_mk h) fun _ _ h => canonical_setFolsa h
theorem canonical_loadFolsaTable {b p t} (h : Canonical P Q d) : Canonical P Q (loadFolsaTable d b p t) := canonical_setFolsa h
theorem canonical_putTables {b u} (h : Canonical P Q d) : Canonical P Q (putTables d b u) := canonical_modBerth (canonical_mk h)
theorem canonical_swapUnits {b} (h : Canonical P Q d) : Canonical P Q (swapUnits d b) := by
  unfold swapUnits
  split
  · exact h
  · exact canonical_modBerth (canonical_putTables h)
theorem canonical_onUnits {use b f} (h : Canonical P Q d) (hf : ∀ d, Canonical P Q d → Canonical P Q (f d)) :
    Canonical P Q (onUnits use d b f) := canonical_ite (canonical_swapUnits (hf _ (canonical_swapUnits h))) (hf _ h)
theorem canonical_byEpoch {b e f} (h : Canonical P Q d) (hf : ∀ d, Canonical P Q d → Canonical P Q (f d)) :
    Canonical P Q (byEpoch d b e f) := canonical_onUnits h hf
theorem canonical_byPlane {b k f} (h : Canonical P Q d) (hf : ∀ d, Canonical P Q d → Canonical P Q (f d)) :
    Canonical P Q (byPlane d b k f) := canonical_onUnits h hf
theorem canonical_bothUnits {b f} (h : Canonical P Q d) (hf : ∀ d, Canonical P Q d → Canonical P Q (f d)) :
    Canonical P Q (bothUnits d b f) := canonical_ite (canonical_swapUnits (hf _ (canonical_swapUnits (hf _ h)))) (hf _ h)
theorem canonical_onEngine {b e f} (h : Canonical P Q d) (hf : ∀ d, Canonical P Q d → Canonical P Q (f d)) :
    Canonical P Q (onEngine d b e f) := canonical_onUnits h hf
theorem canonical_takeIncoming {b} (h : Canonical P Q d) : Canonical P Q (takeIncoming d b) := by
  unfold takeIncoming
  split
  · exact h
  · exact canonical_modBerth (canonical_putTables h)
theorem canonical_loadShared {b k img} (h : Canonical P Q d) : Canonical P Q (loadShared d b k img) :=
  canonical_foldl (canonical_modBerth (canonical_claimChannels h)) fun _ _ h => canonical_ite (canonical_loadFolsaTable h)
    (canonical_setLink h)
theorem canonical_loadUnits {b k img} (h : Canonical P Q d) : Canonical P Q (loadUnits d b k img) :=
  canonical_loadShared (canonical_putTables h)
theorem canonical_cutQueue {b cause p q} (h : Canonical P Q d) : Canonical P Q (cutQueue b cause d p q) :=
  canonical_addDiscard h
theorem canonical_cutBand {b p x} (h : Canonical P Q d) : Canonical P Q (cutBand b d p x) :=
  canonical_ite (canonical_addDiscard h) h
theorem canonical_cutTile {b k cause key} (h : Canonical P Q d) : Canonical P Q (cutTile d b k cause key) :=
  canonical_setTile (canonical_foldl (canonical_foldl h fun _ _ h => canonical_cutQueue h) fun _ _ h => canonical_cutBand h) fun
    hQ => h.tile hQ _ _
theorem canonical_cutTokens {b cause qid ts} (h : Canonical P Q d) : Canonical P Q (cutTokens d b cause qid ts) :=
  canonical_ite h (canonical_addDiscard h)
theorem canonical_cutModuleHurdles {b k} (h : Canonical P Q d) : Canonical P Q (cutModuleHurdles d b k) := canonical_mk h
theorem canonical_cutUnits {b cause} (h : Canonical P Q d) : Canonical P Q (cutUnits d b cause) := by
  unfold cutUnits
  exact canonical_modBerth (canonical_foldl (canonical_foldl (canonical_foldl (canonical_foldl h fun _ _ h =>
      canonical_cutTokens h) fun _ _ h => canonical_setEnd h) fun _ _ h => canonical_cutTokens h) fun _ _ h => canonical_setPort
      h)
theorem canonical_cutSlot {b k cause} (h : Canonical P Q d) : Canonical P Q (cutSlot d b k cause) :=
  canonical_cutModuleHurdles (canonical_cutUnits (canonical_foldl h fun _ _ h => canonical_cutTile h))
theorem canonical_enqueueLink {key f via cls} (h : Canonical P Q d) : Canonical P Q (enqueueLink d key f via cls) :=
  canonical_ite (canonical_setLink h) (canonical_ite (canonical_setLink h) (canonical_setLink h))
theorem canonical_sendShuttle {f} (h : Canonical P Q d) : Canonical P Q (sendShuttle d f) := canonical_enqueueLink h
theorem canonical_sendLight {e src dest v} (h : Canonical P Q d) : Canonical P Q (sendLight d e src dest v) :=
  canonical_sendShuttle h
theorem canonical_sendLightBytes {src dest bs} (h : Canonical P Q d) : Canonical P Q (sendLightBytes d src dest bs) :=
  canonical_foldl h fun _ _ h => canonical_sendShuttle h
theorem canonical_pumpEnd {n k} (h : Canonical P Q d) : Canonical P Q (pumpEnd n d k) := by
  induction n generalizing d with
  | zero => exact h
  | succ n ih =>
    unfold pumpEnd
    dsimp only
    split
    · exact h
    · exact canonical_ite (ih (canonical_sendShuttle (canonical_setEnd h)))
        (canonical_ite h (ih (canonical_sendShuttle (canonical_setEnd h))))
theorem canonical_sendEnd {k ts} (h : Canonical P Q d) : Canonical P Q (sendEnd d k ts) :=
  canonical_pumpEnd (canonical_setEnd h)
theorem canonical_consumeBehind {k skip n} (h : Canonical P Q d) : Canonical P Q (consumeBehind d k skip n) :=
  canonical_ite h (canonical_sendLight (canonical_setEnd h))
theorem canonical_consumeEnd {k n} (h : Canonical P Q d) : Canonical P Q (consumeEnd d k n) := canonical_consumeBehind h
theorem canonical_noteRinged {b key k iq} (h : Canonical P Q d) : Canonical P Q (noteRinged d b key k iq) := by
  refine canonical_byPlane h (fun _ h => ?_)
  split
  · exact h
  · exact canonical_ite (canonical_setPort h) h
theorem canonical_arriveToken {b key k iq tok} (h : Canonical P Q d) : Canonical P Q (arriveToken d b key k iq tok) :=
  canonical_foldl (canonical_modBerth (canonical_setTile (canonical_noteRinged h) fun hQ =>
    memWf_portBWrite (h.tile hQ _ _))) fun _ _ h => canonical_berthReport h
theorem memWf_creditTile {k dest n} {t : Tile} (ht : memWf t.mem = true) : memWf (creditTile k dest n t).mem = true :=
  ite_memWf ht ht
theorem canonical_creditBack {b key k iq n} (h : Canonical P Q d) : Canonical P Q (creditBack d b key k iq n) := by
  refine canonical_ite h (canonical_ite (canonical_modBerth h fun _ x hx => berthMemoryWf_map hx fun _ => memWf_creditTile)
    (canonical_byPlane h (fun _ h => ?_)))
  split
  · exact h
  · exact canonical_ite (canonical_setPort h) (canonical_setPort h)
theorem canonical_popRing {b key k iq n} (h : Canonical P Q d) : Canonical P Q (popRing d b key k iq n) :=
  canonical_ite h (canonical_creditBack (canonical_modTile h))
theorem canonical_emitToken {b key k oq tok} (h : Canonical P Q d) : Canonical P Q (emitToken b key k oq d tok) :=
  canonical_ite (canonical_arriveToken (canonical_modTile h)) (canonical_modTile (canonical_modTile h))
theorem canonical_setSlotState {b k st} (h : Canonical P Q d) : Canonical P Q (setSlotState d b k st) :=
  canonical_ite h (canonical_berthEvent (canonical_odPut h))
theorem canonical_setBstate {b v} (h : Canonical P Q d) : Canonical P Q (setBstate d b v) := canonical_odPut h
theorem canonical_coStatus {b v} (h : Canonical P Q d) : Canonical P Q (coStatus d b v) := canonical_odPut h
theorem canonical_wakeBerth {b} (h : Canonical P Q d) : Canonical P Q (wakeBerth d b) := by
  refine canonical_odPut (canonical_modBerth h fun _ x hx => ⟨hx.1, ?_⟩)
  dsimp only
  split
  · intro y hy
    obtain ⟨z, hz, rfl⟩ := List.mem_map.1 hy
    exact hx.2 z hz
  · exact hx.2
theorem canonical_modAdapt {b f} (h : Canonical P Q d) : Canonical P Q (modAdapt d b f) := canonical_modBerth h
theorem canonical_showAdapt {b} (h : Canonical P Q d) : Canonical P Q (showAdapt d b) := canonical_odPut h
theorem canonical_abortTile {b key qids} (h : Canonical P Q d) : Canonical P Q (abortTile d b key qids) :=
  canonical_foldl (canonical_setTile (canonical_foldl h fun _ _ h => canonical_cutQueue h) fun hQ => h.tile hQ _ _) fun _ _ h =>
    canonical_creditBack h
theorem canonical_abortUpdate {b} (h : Canonical P Q d) : Canonical P Q (abortUpdate d b) :=
  canonical_ite h (canonical_berthEvent (canonical_showAdapt (canonical_ite (canonical_odAdd (canonical_modBerth (canonical_mk
    (canonical_foldl h fun _ _ h => canonical_abortTile h)))) (canonical_modBerth (canonical_mk (canonical_foldl h fun _ _ h =>
    canonical_abortTile h))))))
theorem canonical_beginSwitch {b k mode halted e} (h : Canonical P Q d) : Canonical P Q (beginSwitch d b k mode halted e) :=
  canonical_coStatus (canonical_abortUpdate (canonical_ite (canonical_setSlotState (canonical_setSlotState (canonical_modBerth
    (canonical_setBstate h)))) (canonical_modBerth (canonical_setBstate h))))
theorem canonical_orderly {b k} (h : Canonical P Q d) : Canonical P Q (orderly d b k) :=
  canonical_ite h (canonical_ite (canonical_coStatus (canonical_wakeBerth h)) (canonical_ite (canonical_coStatus
    (canonical_wakeBerth h)) (canonical_ite (canonical_coStatus (canonical_wakeBerth h)) (canonical_foldl (canonical_wakeBerth
    h) fun _ _ h => canonical_beginSwitch h))))
theorem canonical_cutLive {b cause} (h : Canonical P Q d) : Canonical P Q (cutLive d b cause) :=
  canonical_ite (canonical_setSlotState (canonical_cutSlot (canonical_ite (canonical_modBerth (canonical_onUnits (canonical_ite
    (canonical_cutSlot h) h) (fun _ h => canonical_cutUnits h))) (canonical_ite (canonical_cutSlot h) h)))) (canonical_ite
    (canonical_modBerth (canonical_onUnits (canonical_ite (canonical_cutSlot h) h) (fun _ h => canonical_cutUnits h)))
    (canonical_ite (canonical_cutSlot h) h))
theorem canonical_goIdle {b} (h : Canonical P Q d) : Canonical P Q (goIdle d b) :=
  canonical_showAdapt (canonical_modBerth (canonical_odPut (canonical_setBstate (canonical_ite (canonical_setSlotState h) h))))
theorem canonical_forceSwitch {b k mode halted e} (h : Canonical P Q d) : Canonical P Q (forceSwitch d b k mode halted e) :=
  canonical_ite (canonical_odPut (canonical_goIdle (canonical_disposeFrames (canonical_cutLive (canonical_abortUpdate h)))))
    (canonical_beginSwitch (canonical_modBerth (canonical_ite (canonical_setSlotState (canonical_disposeFrames
    (canonical_cutLive (canonical_abortUpdate h)))) (canonical_disposeFrames (canonical_cutLive (canonical_abortUpdate h))))))
theorem canonical_forced {b k mode halted} (h : Canonical P Q d) : Canonical P Q (forced d b k mode halted) :=
  canonical_ite h (canonical_ite (canonical_coStatus (canonical_wakeBerth h)) (canonical_ite (canonical_coStatus
    (canonical_wakeBerth h)) (canonical_ite (canonical_coStatus (canonical_wakeBerth h)) (canonical_foldl (canonical_wakeBerth
    h) fun _ _ h => canonical_forceSwitch h))))
theorem canonical_setCo {b c} (h : Canonical P Q d) : Canonical P Q (setCo d b c) := canonical_modBerth h
theorem canonical_releaseOutputs {b} (h : Canonical P Q d) : Canonical P Q (releaseOutputs d b) :=
  canonical_setCo (canonical_foldl h fun _ _ h => canonical_modTile h)
theorem memWf_stage2Tile {img k lk e} {t : Tile} (ht : memWf t.mem = true) : memWf (stage2Tile img k lk e t).mem = true :=
  ite_memWf (memWf_writeContent ht) ht
theorem canonical_releaseWrites {b} (h : Canonical P Q d) : Canonical P Q (releaseWrites d b) := by
  unfold releaseWrites
  dsimp only
  split
  · exact h
  · next img _ =>
    have h1 := canonical_foldl (as := img.planes) (f := fun d p => modTile d b (physKey d b (p.1 / 32) (p.1 % 32))
      (stage2Tile img (coOf d b).target p.1 (coOf d b).epoch)) h fun _ _ h => canonical_modTile h fun _ ht => memWf_stage2Tile ht
    exact canonical_ite (canonical_setBstate (canonical_setSlotState (canonical_odPut (canonical_odPut (canonical_setCo
      (canonical_ite (canonical_modBerth (canonical_foldl h fun _ _ h => canonical_modTile h fun _ ht => memWf_stage2Tile ht))
      (canonical_loadUnits (canonical_foldl h fun _ _ h => canonical_modTile h fun _ ht => memWf_stage2Tile ht)))))))) (canonical_setCo
      (canonical_ite (canonical_modBerth (canonical_foldl h fun _ _ h => canonical_modTile h fun _ ht => memWf_stage2Tile ht))
      (canonical_loadUnits (canonical_foldl h fun _ _ h => canonical_modTile h fun _ ht => memWf_stage2Tile ht))))
theorem canonical_sendPairs {b k} (h : Canonical P Q d) : Canonical P Q (sendPairs d b k) := by
  unfold sendPairs
  split
  · exact h
  · exact canonical_foldl h fun _ _ h => canonical_ite (canonical_setFolsa h) h
theorem canonical_completeSwitch {b} (h : Canonical P Q d) : Canonical P Q (completeSwitch d b) :=
  canonical_ite (canonical_berthEvent (canonical_odPut (canonical_goIdle h))) (canonical_ite (canonical_showAdapt
    (canonical_sendPairs (canonical_odPut (canonical_setBstate (canonical_modBerth (canonical_odPut (canonical_odPut
    (canonical_setSlotState (canonical_ite (canonical_setSlotState (canonical_mapPlanes h)) h))))))))) (canonical_berthEvent
    (canonical_showAdapt (canonical_sendPairs (canonical_odPut (canonical_setBstate (canonical_modBerth (canonical_odPut
    (canonical_odPut (canonical_setSlotState (canonical_ite (canonical_setSlotState (canonical_mapPlanes h)) h)))))))))))
theorem canonical_adoptIncoming {b k} (h : Canonical P Q d) : Canonical P Q (adoptIncoming d b k) := by
  unfold adoptIncoming
  split
  · exact canonical_loadShared (canonical_takeIncoming (canonical_modBerth h))
  · exact canonical_modBerth h
theorem canonical_releaseResets {b} (h : Canonical P Q d) : Canonical P Q (releaseResets d b) :=
  canonical_ite (canonical_modBerth (canonical_odPut (canonical_completeSwitch (canonical_setCo (canonical_adoptIncoming
    (canonical_foldl h fun _ _ h => canonical_ite h (canonical_modTile h))))))) (canonical_completeSwitch (canonical_setCo
    (canonical_adoptIncoming (canonical_foldl h fun _ _ h => canonical_ite h (canonical_modTile h)))))
theorem canonical_sendMarks {ks e new} (h : Canonical P Q d) : Canonical P Q (sendMarks d ks e new) :=
  canonical_foldl h fun _ _ h => canonical_sendEnd h
theorem canonical_switchEngines {b} (h : Canonical P Q d) : Canonical P Q (switchEngines d b) :=
  canonical_setCo (canonical_modBerth (canonical_foldl h fun _ _ h => canonical_sendMarks h))
theorem canonical_tryComplete {b} (h : Canonical P Q d) : Canonical P Q (tryComplete d b) :=
  canonical_ite (canonical_completeSwitch (canonical_ite (canonical_adoptIncoming (canonical_switchEngines h))
    (canonical_switchEngines h))) (canonical_switchEngines h)
theorem canonical_pokeSwitch {b} (h : Canonical P Q d) : Canonical P Q (pokeSwitch d b) :=
  canonical_ite (canonical_tryComplete h) h
theorem canonical_switchTile {b key} (h : Canonical P Q d) : Canonical P Q (switchTile d b key) :=
  canonical_ite (canonical_tryComplete (canonical_setCo (canonical_ite (canonical_setTile h fun hQ => h.tile hQ _ _) h))) h
theorem canonical_haltContexts {b} (h : Canonical P Q d) : Canonical P Q (haltContexts d b) := canonical_mapPlanes h
theorem canonical_haltBerth {b} (h : Canonical P Q d) : Canonical P Q (haltBerth d b) :=
  canonical_modBerth (canonical_haltContexts h)
theorem canonical_resumeBerth {b} (h : Canonical P Q d) : Canonical P Q (resumeBerth d b) := by
  unfold resumeBerth
  exact canonical_modBerth (canonical_mapPlanes h)
theorem canonical_unloadSlot {b k} (h : Canonical P Q d) : Canonical P Q (unloadSlot d b k) :=
  canonical_ite h (canonical_setSlotState (canonical_odPut (canonical_odPut (canonical_odPut (canonical_setSlot
    (canonical_modBerth h))))))
theorem canonical_feederMark {b} (h : Canonical P Q d) : Canonical P Q (feederMark d b) := by
  unfold feederMark
  exact canonical_tryComplete (canonical_setCo (canonical_modBerth (canonical_foldl (canonical_foldl (canonical_sendMarks h) fun
    _ _ h => canonical_switchTile (canonical_modTile h fun _ ht => ite_memWf ht ht)) fun _ _ h => canonical_modTile h)))
theorem canonical_refeedOutgoing {b} (h : Canonical P Q d) : Canonical P Q (refeedOutgoing d b) :=
  canonical_foldEntries h (fun _ _ _ h => canonical_ite h (canonical_putEntry h))
theorem canonical_haltCommand {b} (h : Canonical P Q d) : Canonical P Q (haltCommand d b) :=
  canonical_ite (canonical_coStatus (canonical_wakeBerth h)) (canonical_ite (canonical_coStatus (canonical_haltBerth
    (canonical_wakeBerth h))) (canonical_coStatus (canonical_wakeBerth h)))
theorem canonical_resumeFrom {b} (h : Canonical P Q d) : Canonical P Q (resumeFrom d b) :=
  canonical_setBstate (canonical_ite (canonical_restoreHeld (canonical_ite (canonical_modBerth (canonical_ite
    (canonical_resumeBerth (canonical_mapPlanes h)) (canonical_modBerth (canonical_foldl h fun _ _ h => canonical_modTile h))))
    (canonical_resumeBerth h))) (canonical_ite (canonical_modBerth (canonical_ite (canonical_resumeBerth (canonical_mapPlanes
    h)) (canonical_modBerth (canonical_foldl h fun _ _ h => canonical_modTile h)))) (canonical_resumeBerth h)))
theorem canonical_scanOut {b} (h : Canonical P Q d) : Canonical P Q (scanOut d b) := by
  unfold scanOut
  have h1 := canonical_ite (c := (berthAt d b).holdFrames = true) (canonical_releaseHeld (b := b) h) h
  generalize (if (berthAt d b).holdFrames then releaseHeld d b else d) = e at h1
  dsimp only
  split
  · exact canonical_coStatus h1
  · next m hm =>
    refine canonical_coStatus (canonical_modBerth h1 fun hQ x hx => ⟨?_, hx.2⟩)
    have he := (h1.berth hQ b).1
    split at hm
    · cases hm
      exact he
    · obtain ⟨⟨g, m'⟩, hp, rfl⟩ := Option.map_eq_some_iff.1 hm
      exact (mem_of_poolAlloc hp).symm ▸ he
theorem canonical_scanIn {b} (h : Canonical P Q d) : Canonical P Q (scanIn d b) :=
  canonical_ite (canonical_coStatus h) (canonical_coStatus (canonical_modBerth (canonical_mk (canonical_foldl h fun _ _ h =>
    canonical_modTile h fun _ _ => memWf_memOfCells _))))
theorem canonical_scanOutCommand {b} (h : Canonical P Q d) : Canonical P Q (scanOutCommand d b) :=
  canonical_ite (canonical_coStatus (canonical_wakeBerth h)) (canonical_scanOut (canonical_wakeBerth h))
theorem canonical_scanInCommand {b} (h : Canonical P Q d) : Canonical P Q (scanInCommand d b) :=
  canonical_ite (canonical_coStatus (canonical_wakeBerth h)) (canonical_scanIn (canonical_wakeBerth h))
theorem canonical_holdReleaseCommand {b} (h : Canonical P Q d) : Canonical P Q (holdReleaseCommand d b) :=
  canonical_coStatus (canonical_releaseHeld h)
theorem canonical_setCause {bits berths} (h : Canonical P Q d) : Canonical P Q (setCause d bits berths) :=
  canonical_odPut (canonical_odPut (canonical_odPut h))
theorem canonical_listRestored {i s} (h : Canonical P Q d) : Canonical P Q (listRestored d i s) :=
  canonical_odAdd (canonical_ite (canonical_odPut h) h)
theorem canonical_readFlash (h : Canonical P Q d) : Canonical P Q (readFlash d) :=
  canonical_ite (canonical_mk h) (canonical_foldl (canonical_setCause (canonical_mk h)) fun _ _ h => canonical_listRestored
    (canonical_odPut h))
theorem canonical_lossCauses {before} (h : Canonical P Q d) : Canonical P Q (lossCauses before d) :=
  canonical_ite (canonical_ite h (canonical_setCause h)) (canonical_setCause (canonical_ite h (canonical_setCause h)))
theorem canonical_resetModule {kt kr} (h : Canonical P Q d) : Canonical P Q (resetModule kt kr d) := by
  refine ⟨fun hP => ⟨⟨(h.host hP).1.1, rfl, rfl⟩, ?_⟩, fun _ => by rintro x ⟨⟩⟩
  cases kt
  · exact Nat.two_pow_pos 64
  · exact (h.host hP).2
theorem canonical_bootFirmware (h : Canonical P Q d) : Canonical P Q (bootFirmware d) := canonical_ite (canonical_mk h) h
theorem canonical_startCores (h : Canonical P Q d) : Canonical P Q (startCores d) :=
  canonical_ite (canonical_readFlash (canonical_mk h)) h
theorem canonical_setRails (h : Canonical P Q d) : Canonical P Q (setRails d) := canonical_mk h
theorem canonical_warmResetAll (h : Canonical P Q d) : Canonical P Q (warmResetAll d) :=
  canonical_startCores (canonical_bootFirmware (canonical_lossCauses (canonical_setCause (canonical_resetModule h))))
theorem canonical_perstReset (h : Canonical P Q d) : Canonical P Q (perstReset d) :=
  canonical_bootFirmware (canonical_lossCauses (canonical_setCause (canonical_mk (canonical_resetModule h))))
theorem canonical_rebuildSpares {b} (h : Canonical P Q d) : Canonical P Q (rebuildSpares d b) := by
  refine canonical_mk (canonical_foldl h fun _ _ h => ?_)
  have hm := memWf_patternMem
  revert hm
  generalize patternMem = m
  intro hm
  exact canonical_ite (canonical_berthReport (canonical_modTile (canonical_odPut h) fun _ _ => hm))
    (canonical_modTile (canonical_odPut h) fun _ _ => hm)
theorem canonical_reloadSlots {b} (h : Canonical P Q d) : Canonical P Q (reloadSlots d b) := by
  refine canonical_foldl h fun _ _ h => ?_
  split
  · exact h
  · exact canonical_foldl (canonical_loadSlotTiles h) fun _ _ h => canonical_modTile h fun _ ht => memWf_applyCopies ht
theorem canonical_closeRecord {seq f} (h : Canonical P Q d) : Canonical P Q (closeRecord d seq f) := canonical_mk h
theorem canonical_stopForReset {b} (h : Canonical P Q d) : Canonical P Q (stopForReset d b) := by
  unfold stopForReset
  exact canonical_ite (canonical_setSlotState (canonical_ite (canonical_closeRecord (canonical_foldl (canonical_disposeFrames
      (canonical_cutLive (canonical_ite (canonical_releaseHeld (canonical_abortUpdate h)) (canonical_abortUpdate h)))) fun _ _ h
      => canonical_forceSwitch h)) (canonical_foldl (canonical_disposeFrames (canonical_cutLive (canonical_ite
      (canonical_releaseHeld (canonical_abortUpdate h)) (canonical_abortUpdate h)))) fun _ _ h => canonical_forceSwitch h)))
      (canonical_ite (canonical_closeRecord (canonical_foldl (canonical_disposeFrames (canonical_cutLive (canonical_ite
      (canonical_releaseHeld (canonical_abortUpdate h)) (canonical_abortUpdate h)))) fun _ _ h => canonical_forceSwitch h))
      (canonical_foldl (canonical_disposeFrames (canonical_cutLive (canonical_ite (canonical_releaseHeld (canonical_abortUpdate
      h)) (canonical_abortUpdate h)))) fun _ _ h => canonical_forceSwitch h))
theorem canonical_berthResetAll {b} (h : Canonical P Q d) : Canonical P Q (berthResetAll d b) := by
  have hfresh (x) (hx : BerthMemoryWf x) : BerthMemoryWf (freshBerth x) := ⟨hx.1, by rintro t ⟨⟩⟩
  exact canonical_ite (canonical_foldl (canonical_odPut (canonical_setCause (canonical_setBstate (canonical_odPut (canonical_odPut
    (canonical_odPut (canonical_reloadSlots (canonical_rebuildSpares (canonical_odReset (canonical_mk (canonical_modBerth
    (canonical_stopForReset h) fun _ => hfresh))))))))))) fun _ _ h => canonical_beginSwitch h) (canonical_setCause
    (canonical_setBstate (canonical_odPut (canonical_odPut (canonical_odPut (canonical_reloadSlots (canonical_rebuildSpares
    (canonical_odReset (canonical_mk (canonical_modBerth (canonical_stopForReset h) fun _ => hfresh))))))))))
theorem canonical_dockState (h : Canonical P Q d) : Canonical P Q (dockState d) :=
  canonical_odPut (canonical_mk (canonical_resetModule h))
theorem canonical_acceptTarget {b q h3 item} (h : Canonical P Q d) : Canonical P Q (acceptTarget d b q h3 item) :=
  canonical_ite (canonical_consumeItem h) (canonical_ite (canonical_showAdapt (canonical_modAdapt (canonical_consumeItem h)))
    (canonical_odAdd (canonical_consumeItem h)))
theorem canonical_writeRecordScale {b s c} (h : Canonical P Q d) : Canonical P Q (writeRecordScale d b s c) := by
  unfold writeRecordScale
  dsimp only
  split
  · exact canonical_setTile h fun hQ => memWf_memWriteNat _ _ _ (h.tile hQ _ _)
  · exact canonical_berthReport (canonical_setTile h fun hQ => memWf_memWriteNat _ _ _ (h.tile hQ _ _))
  · exact canonical_berthReport h
theorem canonical_gradScales {b h2} (h : Canonical P Q d) : Canonical P Q (gradScales d b h2).1 :=
  canonical_foldl (canonical_foldl h fun _ _ h => canonical_foldl h fun _ _ h => canonical_writeRecordScale h) fun _ _ h =>
    canonical_modTile h
theorem canonical_layerRegisters {b h2 gs} (h : Canonical P Q d) : Canonical P Q (layerRegisters d b h2 gs) :=
  canonical_foldl h fun _ _ h => canonical_modTile h
theorem canonical_setGrads {b gs} (h : Canonical P Q d) : Canonical P Q (setGrads d b gs) := canonical_setSlot h
theorem canonical_startUpdate {b h2} (h : Canonical P Q d) : Canonical P Q (startUpdate d b h2) :=
  canonical_showAdapt (canonical_sendEnd (canonical_sendEnd (canonical_modAdapt (canonical_foldl (canonical_setGrads
    (canonical_layerRegisters (canonical_gradScales h))) fun _ _ h => canonical_modTile h fun _ ht => ite_memWf ht ht))))
theorem canonical_armHold {b g tiles} (h : Canonical P Q d) : Canonical P Q (armHold d b g tiles) :=
  canonical_foldl h fun _ _ h => canonical_modTile h
theorem canonical_updateDone {b} (h : Canonical P Q d) : Canonical P Q (updateDone d b) :=
  canonical_ite (canonical_odPut h) (canonical_ite (canonical_abortUpdate (canonical_odPut h)) (canonical_showAdapt
    (canonical_modAdapt (canonical_odPut h))))
theorem canonical_prepareSwap {b h2 e} (h : Canonical P Q d) : Canonical P Q (prepareSwap d b h2 e) :=
  canonical_showAdapt (canonical_armHold (canonical_modAdapt h))
theorem canonical_commitEpoch {b} (h : Canonical P Q d) : Canonical P Q (commitEpoch d b) := by
  unfold commitEpoch
  split
  · refine canonical_berthEvent (canonical_showAdapt (canonical_modAdapt (canonical_ite ?_ (canonical_odAdd (canonical_odAdd
        ?_)))))
    · split
      · exact canonical_odPut (canonical_odPut (canonical_odPut h))
      · exact canonical_odPut (canonical_odPut (canonical_odPut (canonical_odPut h)))
    · split
      · exact canonical_odPut (canonical_odPut (canonical_odPut h))
      · exact canonical_odPut (canonical_odPut (canonical_odPut (canonical_odPut h)))
  · exact h
theorem canonical_pauseAdapt {b} (h : Canonical P Q d) : Canonical P Q (pauseAdapt d b) :=
  canonical_showAdapt (canonical_modAdapt h)
theorem canonical_resumeAdapt {b} (h : Canonical P Q d) : Canonical P Q (resumeAdapt d b) :=
  canonical_showAdapt (canonical_modAdapt h)
theorem canonical_abortAdapt {b} (h : Canonical P Q d) : Canonical P Q (abortAdapt d b) :=
  canonical_showAdapt (canonical_abortUpdate h)
theorem canonical_loadInactive {b cs} (h : Canonical P Q d) : Canonical P Q (loadInactive d b cs) :=
  canonical_foldl h fun _ _ h => canonical_modTile h fun _ ht => memWf_writeBlock ht
theorem canonical_installEpoch {b k h3 cs} (h : Canonical P Q d) : Canonical P Q (installEpoch d b k h3 cs) :=
  canonical_prepareSwap (canonical_modAdapt (canonical_loadInactive (canonical_abortUpdate h)))
theorem canonical_rollback {b cmd} (h : Canonical P Q d) : Canonical P Q (rollback d b cmd) := by
  unfold rollback
  split
  · exact canonical_ite h (canonical_installEpoch h)
  · exact h
theorem canonical_hbmNote {b a} (h : Canonical P Q d) : Canonical P Q (hbmNote d b a) :=
  canonical_ite (canonical_berthReport (canonical_ite (canonical_berthReport h) h)) (canonical_ite (canonical_berthReport h) h)
theorem canonical_hbmRangeNote {b a n} (h : Canonical P Q d) : Canonical P Q (hbmRangeNote d b a n) :=
  canonical_foldl h fun _ _ h => canonical_hbmNote h
theorem canonical_dropInput {n} (h : Canonical P Q d) : Canonical P Q (dropInput d n) := canonical_modStream h
theorem canonical_pushPicture {n p} (h : Canonical P Q d) : Canonical P Q (pushPicture d n p) := by
  unfold pushPicture
  dsimp only
  generalize innerOffer _ _ _ _ = x
  obtain ⟨r, es⟩ := x
  exact canonical_ite (canonical_odAdd (canonical_dropInput h)) (canonical_ite (canonical_setStream h)
    (canonical_odAdd (canonical_setStream h)))
theorem canonical_skipUnit {n} (h : Canonical P Q d) : Canonical P Q (skipUnit d n) := canonical_odAdd (canonical_dropInput h)
theorem canonical_popUnit {n} (h : Canonical P Q d) : Canonical P Q (popUnit d n) := canonical_modStream h
theorem canonical_skipOverload {k n} (h : Canonical P Q d) : Canonical P Q (skipOverload k d n) := by
  induction k generalizing d with
  | zero => exact h
  | succ k ih =>
    unfold skipOverload
    dsimp only
    split
    · exact h
    · exact canonical_ite (ih (canonical_skipUnit (canonical_popUnit h))) h
theorem canonical_startDecodes {b} (h : Canonical P Q d) : Canonical P Q (startDecodes d b) := by
  refine canonical_foldl h fun _ _ h => canonical_ite h ?_
  dsimp only
  split
  · exact canonical_foldl h fun _ _ h => canonical_ite (canonical_skipOverload h) h
  · exact canonical_modStream (canonical_foldl h fun _ _ h => canonical_ite (canonical_skipOverload h) h)
theorem canonical_resetSlice {b s} (h : Canonical P Q d) : Canonical P Q (resetSlice d b s) :=
  canonical_startDecodes (canonical_foldl h fun _ _ h => canonical_modStream h)
theorem canonical_hubReport {r} (h : Canonical P Q d) : Canonical P Q (hubReport d r) := by
  refine canonical_ite (canonical_mk h) ?_
  split
  · exact canonical_mk h
  · exact canonical_mk h
theorem canonical_setRepair {b r} (h : Canonical P Q d) : Canonical P Q (setRepair d b r) := canonical_modBerth h
theorem canonical_repairState {b v} (h : Canonical P Q d) : Canonical P Q (repairState d b v) := canonical_odPut h
theorem canonical_folsaMarks {b new} (h : Canonical P Q d) : Canonical P Q (folsaMarks d b new) := by
  unfold folsaMarks
  split
  · exact h
  · exact canonical_foldl h fun _ _ h => canonical_ite h (canonical_setFolsa h)
theorem canonical_cutForRepair {b} (h : Canonical P Q d) : Canonical P Q (cutForRepair d b) :=
  canonical_disposeFrames (canonical_cutLive (canonical_folsaMarks h))
theorem canonical_restartBerth {b} (h : Canonical P Q d) : Canonical P Q (restartBerth d b) :=
  canonical_ite (canonical_repairState (canonical_setBstate (canonical_modBerth (canonical_setCo (canonical_setSlotState h)))))
    (canonical_setRepair (canonical_repairState (canonical_odPut (canonical_goIdle h))))
theorem canonical_loadPosition {b col row spare} (h : Canonical P Q d) : Canonical P Q (loadPosition d b col row spare) := by
  refine canonical_foldl h fun _ _ h => ?_
  split
  · exact h
  · exact canonical_modTile h fun _ ht => memWf_setupHead (memWf_tablesFromMirror (memWf_loadTile ht))
theorem canonical_bindSpare {b col row} (h : Canonical P Q d) : Canonical P Q (bindSpare d b col row) :=
  canonical_odAdd (canonical_modTile (canonical_modTile (canonical_odPut h)))
theorem canonical_repairFailed {seq bs} (h : Canonical P Q d) : Canonical P Q (repairFailed d seq bs) :=
  canonical_report (canonical_foldl (canonical_closeRecord h) fun _ _ h => canonical_repairState (canonical_setRepair
    (canonical_forceSwitch h)))
theorem canonical_reloadUnit {b ep} (h : Canonical P Q d) : Canonical P Q (reloadUnit d b ep) := by
  unfold reloadUnit
  split
  · exact h
  · exact canonical_ite (canonical_modBerth h) h
theorem canonical_runRepair {r bs} (h : Canonical P Q d) : Canonical P Q (runRepair d r bs) :=
  canonical_ite (canonical_repairFailed h) (canonical_ite (canonical_ite (canonical_modBerth (canonical_bindSpare (canonical_ite
    (canonical_setFolsa (canonical_foldl h fun _ _ h => canonical_ite (canonical_modBerth (canonical_repairState
    (canonical_setRepair (canonical_odPut (canonical_repairState (canonical_abortUpdate (canonical_wakeBerth h)))))))
    (canonical_cutForRepair (canonical_setRepair (canonical_odPut (canonical_repairState (canonical_abortUpdate
    (canonical_wakeBerth h)))))))) (canonical_foldl h fun _ _ h => canonical_ite (canonical_modBerth (canonical_repairState
    (canonical_setRepair (canonical_odPut (canonical_repairState (canonical_abortUpdate (canonical_wakeBerth h)))))))
    (canonical_cutForRepair (canonical_setRepair (canonical_odPut (canonical_repairState (canonical_abortUpdate
    (canonical_wakeBerth h)))))))))) (canonical_repairState (canonical_modBerth (canonical_bindSpare (canonical_ite
    (canonical_setFolsa (canonical_foldl h fun _ _ h => canonical_ite (canonical_modBerth (canonical_repairState
    (canonical_setRepair (canonical_odPut (canonical_repairState (canonical_abortUpdate (canonical_wakeBerth h)))))))
    (canonical_cutForRepair (canonical_setRepair (canonical_odPut (canonical_repairState (canonical_abortUpdate
    (canonical_wakeBerth h)))))))) (canonical_foldl h fun _ _ h => canonical_ite (canonical_modBerth (canonical_repairState
    (canonical_setRepair (canonical_odPut (canonical_repairState (canonical_abortUpdate (canonical_wakeBerth h)))))))
    (canonical_cutForRepair (canonical_setRepair (canonical_odPut (canonical_repairState (canonical_abortUpdate
    (canonical_wakeBerth h)))))))))))) (canonical_ite (canonical_ite (canonical_loadPosition (canonical_ite (canonical_setFolsa
    (canonical_foldl h fun _ _ h => canonical_ite (canonical_modBerth (canonical_repairState (canonical_setRepair
    (canonical_odPut (canonical_repairState (canonical_abortUpdate (canonical_wakeBerth h))))))) (canonical_cutForRepair
    (canonical_setRepair (canonical_odPut (canonical_repairState (canonical_abortUpdate (canonical_wakeBerth h))))))))
    (canonical_foldl h fun _ _ h => canonical_ite (canonical_modBerth (canonical_repairState (canonical_setRepair
    (canonical_odPut (canonical_repairState (canonical_abortUpdate (canonical_wakeBerth h))))))) (canonical_cutForRepair
    (canonical_setRepair (canonical_odPut (canonical_repairState (canonical_abortUpdate (canonical_wakeBerth h)))))))))
    (canonical_ite (canonical_reloadUnit (canonical_ite (canonical_setFolsa (canonical_foldl h fun _ _ h => canonical_ite
    (canonical_modBerth (canonical_repairState (canonical_setRepair (canonical_odPut (canonical_repairState
    (canonical_abortUpdate (canonical_wakeBerth h))))))) (canonical_cutForRepair (canonical_setRepair (canonical_odPut
    (canonical_repairState (canonical_abortUpdate (canonical_wakeBerth h)))))))) (canonical_foldl h fun _ _ h => canonical_ite
    (canonical_modBerth (canonical_repairState (canonical_setRepair (canonical_odPut (canonical_repairState
    (canonical_abortUpdate (canonical_wakeBerth h))))))) (canonical_cutForRepair (canonical_setRepair (canonical_odPut
    (canonical_repairState (canonical_abortUpdate (canonical_wakeBerth h))))))))) (canonical_ite (canonical_resetSlice
    (canonical_ite (canonical_setFolsa (canonical_foldl h fun _ _ h => canonical_ite (canonical_modBerth (canonical_repairState
    (canonical_setRepair (canonical_odPut (canonical_repairState (canonical_abortUpdate (canonical_wakeBerth h)))))))
    (canonical_cutForRepair (canonical_setRepair (canonical_odPut (canonical_repairState (canonical_abortUpdate
    (canonical_wakeBerth h)))))))) (canonical_foldl h fun _ _ h => canonical_ite (canonical_modBerth (canonical_repairState
    (canonical_setRepair (canonical_odPut (canonical_repairState (canonical_abortUpdate (canonical_wakeBerth h)))))))
    (canonical_cutForRepair (canonical_setRepair (canonical_odPut (canonical_repairState (canonical_abortUpdate
    (canonical_wakeBerth h))))))))) (canonical_ite (canonical_setFolsa (canonical_foldl h fun _ _ h => canonical_ite
    (canonical_modBerth (canonical_repairState (canonical_setRepair (canonical_odPut (canonical_repairState
    (canonical_abortUpdate (canonical_wakeBerth h))))))) (canonical_cutForRepair (canonical_setRepair (canonical_odPut
    (canonical_repairState (canonical_abortUpdate (canonical_wakeBerth h)))))))) (canonical_foldl h fun _ _ h => canonical_ite
    (canonical_modBerth (canonical_repairState (canonical_setRepair (canonical_odPut (canonical_repairState
    (canonical_abortUpdate (canonical_wakeBerth h))))))) (canonical_cutForRepair (canonical_setRepair (canonical_odPut
    (canonical_repairState (canonical_abortUpdate (canonical_wakeBerth h))))))))))) (canonical_foldl (canonical_ite
    (canonical_loadPosition (canonical_ite (canonical_setFolsa (canonical_foldl h fun _ _ h => canonical_ite (canonical_modBerth
    (canonical_repairState (canonical_setRepair (canonical_odPut (canonical_repairState (canonical_abortUpdate
    (canonical_wakeBerth h))))))) (canonical_cutForRepair (canonical_setRepair (canonical_odPut (canonical_repairState
    (canonical_abortUpdate (canonical_wakeBerth h)))))))) (canonical_foldl h fun _ _ h => canonical_ite (canonical_modBerth
    (canonical_repairState (canonical_setRepair (canonical_odPut (canonical_repairState (canonical_abortUpdate
    (canonical_wakeBerth h))))))) (canonical_cutForRepair (canonical_setRepair (canonical_odPut (canonical_repairState
    (canonical_abortUpdate (canonical_wakeBerth h))))))))) (canonical_ite (canonical_reloadUnit (canonical_ite
    (canonical_setFolsa (canonical_foldl h fun _ _ h => canonical_ite (canonical_modBerth (canonical_repairState
    (canonical_setRepair (canonical_odPut (canonical_repairState (canonical_abortUpdate (canonical_wakeBerth h)))))))
    (canonical_cutForRepair (canonical_setRepair (canonical_odPut (canonical_repairState (canonical_abortUpdate
    (canonical_wakeBerth h)))))))) (canonical_foldl h fun _ _ h => canonical_ite (canonical_modBerth (canonical_repairState
    (canonical_setRepair (canonical_odPut (canonical_repairState (canonical_abortUpdate (canonical_wakeBerth h)))))))
    (canonical_cutForRepair (canonical_setRepair (canonical_odPut (canonical_repairState (canonical_abortUpdate
    (canonical_wakeBerth h))))))))) (canonical_ite (canonical_resetSlice (canonical_ite (canonical_setFolsa (canonical_foldl h
    fun _ _ h => canonical_ite (canonical_modBerth (canonical_repairState (canonical_setRepair (canonical_odPut
    (canonical_repairState (canonical_abortUpdate (canonical_wakeBerth h))))))) (canonical_cutForRepair (canonical_setRepair
    (canonical_odPut (canonical_repairState (canonical_abortUpdate (canonical_wakeBerth h)))))))) (canonical_foldl h fun _ _ h
    => canonical_ite (canonical_modBerth (canonical_repairState (canonical_setRepair (canonical_odPut (canonical_repairState
    (canonical_abortUpdate (canonical_wakeBerth h))))))) (canonical_cutForRepair (canonical_setRepair (canonical_odPut
    (canonical_repairState (canonical_abortUpdate (canonical_wakeBerth h))))))))) (canonical_ite (canonical_setFolsa
    (canonical_foldl h fun _ _ h => canonical_ite (canonical_modBerth (canonical_repairState (canonical_setRepair
    (canonical_odPut (canonical_repairState (canonical_abortUpdate (canonical_wakeBerth h))))))) (canonical_cutForRepair
    (canonical_setRepair (canonical_odPut (canonical_repairState (canonical_abortUpdate (canonical_wakeBerth h))))))))
    (canonical_foldl h fun _ _ h => canonical_ite (canonical_modBerth (canonical_repairState (canonical_setRepair
    (canonical_odPut (canonical_repairState (canonical_abortUpdate (canonical_wakeBerth h))))))) (canonical_cutForRepair
    (canonical_setRepair (canonical_odPut (canonical_repairState (canonical_abortUpdate (canonical_wakeBerth h))))))))))) fun _
    _ h => canonical_restartBerth h)))
theorem canonical_startRepair {seq} (h : Canonical P Q d) : Canonical P Q (startRepair d seq) := by
  unfold startRepair
  split
  · exact h
  · exact canonical_ite (canonical_closeRecord h) (canonical_ite (canonical_mk h) (canonical_runRepair h))
theorem canonical_finishRepair {b} (h : Canonical P Q d) : Canonical P Q (finishRepair d b) := by
  refine canonical_ite (canonical_odPut (canonical_odAdd (canonical_setRepair (canonical_repairState h)))) ?_
  split
  · exact canonical_report (canonical_closeRecord (canonical_odPut (canonical_odAdd (canonical_setRepair (canonical_repairState
        h)))))
  · exact canonical_startRepair (canonical_mk (canonical_report (canonical_closeRecord (canonical_odPut (canonical_odAdd
        (canonical_setRepair (canonical_repairState h)))))))
theorem canonical_repairProgress {b} (h : Canonical P Q d) : Canonical P Q (repairProgress d b) :=
  canonical_ite (canonical_finishRepair (canonical_ite (canonical_repairState (canonical_setRepair h)) h)) (canonical_ite
    (canonical_repairState (canonical_setRepair h)) h)
theorem canonical_blockReset {blame} (h : Canonical P Q d) : Canonical P Q (blockReset d blame) :=
  canonical_ite h (canonical_ite (canonical_resetSlice h) (canonical_ite (canonical_reloadUnit h) (canonical_ite
    (canonical_resetQueue h) (canonical_ite (canonical_mk h) (canonical_berthResetAll h)))))
theorem canonical_addUncleared {source} (h : Canonical P Q d) : Canonical P Q (addUncleared d source) :=
  canonical_ite h (canonical_mk h)
theorem canonical_react {r} (h : Canonical P Q d) : Canonical P Q (react d r) :=
  canonical_ite (canonical_warmResetAll (canonical_ite (canonical_ite (canonical_blockReset (canonical_ite
    (canonical_addUncleared (canonical_ite (canonical_mk (canonical_ite (canonical_sharedEvent (canonical_ite
    (canonical_sharedEvent h) (canonical_odAdd h))) (canonical_ite (canonical_sharedEvent h) (canonical_odAdd h))))
    (canonical_ite (canonical_sharedEvent (canonical_ite (canonical_sharedEvent h) (canonical_odAdd h))) (canonical_ite
    (canonical_sharedEvent h) (canonical_odAdd h))))) (canonical_ite (canonical_mk (canonical_ite (canonical_sharedEvent
    (canonical_ite (canonical_sharedEvent h) (canonical_odAdd h))) (canonical_ite (canonical_sharedEvent h) (canonical_odAdd
    h)))) (canonical_ite (canonical_sharedEvent (canonical_ite (canonical_sharedEvent h) (canonical_odAdd h))) (canonical_ite
    (canonical_sharedEvent h) (canonical_odAdd h)))))) (canonical_ite (canonical_addUncleared (canonical_ite (canonical_mk
    (canonical_ite (canonical_sharedEvent (canonical_ite (canonical_sharedEvent h) (canonical_odAdd h))) (canonical_ite
    (canonical_sharedEvent h) (canonical_odAdd h)))) (canonical_ite (canonical_sharedEvent (canonical_ite (canonical_sharedEvent
    h) (canonical_odAdd h))) (canonical_ite (canonical_sharedEvent h) (canonical_odAdd h))))) (canonical_ite (canonical_mk
    (canonical_ite (canonical_sharedEvent (canonical_ite (canonical_sharedEvent h) (canonical_odAdd h))) (canonical_ite
    (canonical_sharedEvent h) (canonical_odAdd h)))) (canonical_ite (canonical_sharedEvent (canonical_ite (canonical_sharedEvent
    h) (canonical_odAdd h))) (canonical_ite (canonical_sharedEvent h) (canonical_odAdd h)))))) (canonical_startRepair
    (canonical_ite (canonical_blockReset (canonical_ite (canonical_addUncleared (canonical_ite (canonical_mk (canonical_ite
    (canonical_sharedEvent (canonical_ite (canonical_sharedEvent h) (canonical_odAdd h))) (canonical_ite (canonical_sharedEvent
    h) (canonical_odAdd h)))) (canonical_ite (canonical_sharedEvent (canonical_ite (canonical_sharedEvent h) (canonical_odAdd
    h))) (canonical_ite (canonical_sharedEvent h) (canonical_odAdd h))))) (canonical_ite (canonical_mk (canonical_ite
    (canonical_sharedEvent (canonical_ite (canonical_sharedEvent h) (canonical_odAdd h))) (canonical_ite (canonical_sharedEvent
    h) (canonical_odAdd h)))) (canonical_ite (canonical_sharedEvent (canonical_ite (canonical_sharedEvent h) (canonical_odAdd
    h))) (canonical_ite (canonical_sharedEvent h) (canonical_odAdd h)))))) (canonical_ite (canonical_addUncleared (canonical_ite
    (canonical_mk (canonical_ite (canonical_sharedEvent (canonical_ite (canonical_sharedEvent h) (canonical_odAdd h)))
    (canonical_ite (canonical_sharedEvent h) (canonical_odAdd h)))) (canonical_ite (canonical_sharedEvent (canonical_ite
    (canonical_sharedEvent h) (canonical_odAdd h))) (canonical_ite (canonical_sharedEvent h) (canonical_odAdd h)))))
    (canonical_ite (canonical_mk (canonical_ite (canonical_sharedEvent (canonical_ite (canonical_sharedEvent h) (canonical_odAdd
    h))) (canonical_ite (canonical_sharedEvent h) (canonical_odAdd h)))) (canonical_ite (canonical_sharedEvent (canonical_ite
    (canonical_sharedEvent h) (canonical_odAdd h))) (canonical_ite (canonical_sharedEvent h) (canonical_odAdd h)))))))))
    (canonical_ite (canonical_ite (canonical_blockReset (canonical_ite (canonical_addUncleared (canonical_ite (canonical_mk
    (canonical_ite (canonical_sharedEvent (canonical_ite (canonical_sharedEvent h) (canonical_odAdd h))) (canonical_ite
    (canonical_sharedEvent h) (canonical_odAdd h)))) (canonical_ite (canonical_sharedEvent (canonical_ite (canonical_sharedEvent
    h) (canonical_odAdd h))) (canonical_ite (canonical_sharedEvent h) (canonical_odAdd h))))) (canonical_ite (canonical_mk
    (canonical_ite (canonical_sharedEvent (canonical_ite (canonical_sharedEvent h) (canonical_odAdd h))) (canonical_ite
    (canonical_sharedEvent h) (canonical_odAdd h)))) (canonical_ite (canonical_sharedEvent (canonical_ite (canonical_sharedEvent
    h) (canonical_odAdd h))) (canonical_ite (canonical_sharedEvent h) (canonical_odAdd h)))))) (canonical_ite
    (canonical_addUncleared (canonical_ite (canonical_mk (canonical_ite (canonical_sharedEvent (canonical_ite
    (canonical_sharedEvent h) (canonical_odAdd h))) (canonical_ite (canonical_sharedEvent h) (canonical_odAdd h))))
    (canonical_ite (canonical_sharedEvent (canonical_ite (canonical_sharedEvent h) (canonical_odAdd h))) (canonical_ite
    (canonical_sharedEvent h) (canonical_odAdd h))))) (canonical_ite (canonical_mk (canonical_ite (canonical_sharedEvent
    (canonical_ite (canonical_sharedEvent h) (canonical_odAdd h))) (canonical_ite (canonical_sharedEvent h) (canonical_odAdd
    h)))) (canonical_ite (canonical_sharedEvent (canonical_ite (canonical_sharedEvent h) (canonical_odAdd h))) (canonical_ite
    (canonical_sharedEvent h) (canonical_odAdd h)))))) (canonical_startRepair (canonical_ite (canonical_blockReset
    (canonical_ite (canonical_addUncleared (canonical_ite (canonical_mk (canonical_ite (canonical_sharedEvent (canonical_ite
    (canonical_sharedEvent h) (canonical_odAdd h))) (canonical_ite (canonical_sharedEvent h) (canonical_odAdd h))))
    (canonical_ite (canonical_sharedEvent (canonical_ite (canonical_sharedEvent h) (canonical_odAdd h))) (canonical_ite
    (canonical_sharedEvent h) (canonical_odAdd h))))) (canonical_ite (canonical_mk (canonical_ite (canonical_sharedEvent
    (canonical_ite (canonical_sharedEvent h) (canonical_odAdd h))) (canonical_ite (canonical_sharedEvent h) (canonical_odAdd
    h)))) (canonical_ite (canonical_sharedEvent (canonical_ite (canonical_sharedEvent h) (canonical_odAdd h))) (canonical_ite
    (canonical_sharedEvent h) (canonical_odAdd h)))))) (canonical_ite (canonical_addUncleared (canonical_ite (canonical_mk
    (canonical_ite (canonical_sharedEvent (canonical_ite (canonical_sharedEvent h) (canonical_odAdd h))) (canonical_ite
    (canonical_sharedEvent h) (canonical_odAdd h)))) (canonical_ite (canonical_sharedEvent (canonical_ite (canonical_sharedEvent
    h) (canonical_odAdd h))) (canonical_ite (canonical_sharedEvent h) (canonical_odAdd h))))) (canonical_ite (canonical_mk
    (canonical_ite (canonical_sharedEvent (canonical_ite (canonical_sharedEvent h) (canonical_odAdd h))) (canonical_ite
    (canonical_sharedEvent h) (canonical_odAdd h)))) (canonical_ite (canonical_sharedEvent (canonical_ite (canonical_sharedEvent
    h) (canonical_odAdd h))) (canonical_ite (canonical_sharedEvent h) (canonical_odAdd h))))))))
theorem canonical_writeRecords {rs} (h : Canonical P Q d) : Canonical P Q (writeRecords d rs) :=
  canonical_odAdd (canonical_mk h)
theorem canonical_closeStorm (h : Canonical P Q d) : Canonical P Q (closeStorm d) := by
  unfold closeStorm
  split
  · exact canonical_mk h
  · exact canonical_foldl (canonical_foldl (canonical_writeRecords h) fun _ _ h => canonical_odAdd h) fun _ _ h =>
        canonical_react h
theorem canonical_resumeCommand {b} (h : Canonical P Q d) : Canonical P Q (resumeCommand d b) :=
  canonical_ite (canonical_coStatus (canonical_wakeBerth h)) (canonical_ite (canonical_coStatus (canonical_resumeFrom
    (canonical_wakeBerth h))) (canonical_ite (canonical_finishRepair (canonical_coStatus (canonical_resumeFrom
    (canonical_wakeBerth h)))) (canonical_ite (canonical_repairState (canonical_cutForRepair (canonical_coStatus
    (canonical_resumeFrom (canonical_wakeBerth h))))) (canonical_restartBerth (canonical_cutForRepair (canonical_coStatus
    (canonical_resumeFrom (canonical_wakeBerth h))))))))
theorem canonical_reactionWrite {src w} (h : Canonical P Q d) : Canonical P Q (reactionWrite d src w) :=
  canonical_ite h (canonical_odStore h)
theorem canonical_clearSources {v} (h : Canonical P Q d) : Canonical P Q (clearSources d v) := canonical_mk h
theorem canonical_testEnter {role auth v} (h : Canonical P Q d) : Canonical P Q (testEnter d role auth v) :=
  canonical_ite (canonical_report (canonical_odPut h)) h
theorem canonical_injectionArm {i} (h : Canonical P Q d) : Canonical P Q (injectionArm d i) := canonical_ite (canonical_mk h) h
theorem canonical_injectionDisarm {i} (h : Canonical P Q d) : Canonical P Q (injectionDisarm d i) := canonical_mk h
theorem canonical_inject {src target detail} (h : Canonical P Q d) : Canonical P Q (inject d src target detail) :=
  canonical_ite (canonical_mk (canonical_modTile h)) (canonical_ite (canonical_mk (canonical_modTile h)) (canonical_ite
    (canonical_mk (canonical_modTile h)) (canonical_ite (canonical_mk (canonical_modTile h)) (canonical_ite (canonical_mk
    (canonical_modBerth h)) (canonical_ite (canonical_mk (canonical_modBerth h)) (canonical_ite (canonical_mk (canonical_setRing
    h)) (canonical_mk h)))))))
theorem canonical_injectionFire {i} (h : Canonical P Q d) : Canonical P Q (injectionFire d i) := by
  unfold injectionFire
  split
  · exact h
  · exact canonical_ite h (canonical_inject (canonical_mk (canonical_odAdd h)))
theorem canonical_selfTestDone {pass} (h : Canonical P Q d) : Canonical P Q (selfTestDone d pass) :=
  canonical_ite (canonical_ite (canonical_foldl (canonical_setCause (canonical_mk (canonical_mk (canonical_foldl h fun _ _ h =>
    canonical_rebuildSpares h)))) fun _ _ h => canonical_listRestored h) (canonical_mk (canonical_foldl h fun _ _ h =>
    canonical_rebuildSpares h))) (canonical_report (canonical_mk h))
theorem canonical_holdBerth {b} (h : Canonical P Q d) : Canonical P Q (holdBerth d b) := canonical_odPut (canonical_modBerth h)
theorem canonical_dozeBerth {b} (h : Canonical P Q d) : Canonical P Q (dozeBerth d b) :=
  canonical_odPut (canonical_modBerth h fun _ _ hx => ⟨hx.1, (berthMemoryWf_map (f := dozeTile) hx fun _ ht => ht).2⟩)
theorem canonical_moor (h : Canonical P Q d) : Canonical P Q (moor d) :=
  canonical_odPut (canonical_mk (canonical_odPut (canonical_setFolsa (canonical_odPut (canonical_setFolsa (canonical_foldl
    (canonical_odReset h) fun _ _ h => canonical_odPut (canonical_modBerth h fun _ _ hx => ⟨hx.1, by rintro t ⟨⟩⟩)))))))
theorem canonical_rewriteSlots (h : Canonical P Q d) : Canonical P Q (rewriteSlots d) :=
  canonical_foldl h fun _ _ h => canonical_ite (canonical_setSlotState h) h
theorem canonical_leaveMoor (h : Canonical P Q d) : Canonical P Q (leaveMoor d) :=
  canonical_rewriteSlots (canonical_setCause (canonical_mk (canonical_setRails (canonical_odPut (canonical_foldl h fun _ _ h =>
    canonical_odPut (canonical_modBerth h))))))
theorem canonical_time {n : Nat} {pps : Pps} {power : Power} (h : Canonical P Q d) (hn : d.time < 2 ^ 64 → n < 2 ^ 64) :
    Canonical P Q { d with time := n, pps := pps, power := power } :=
  ⟨fun hP => ⟨(h.host hP).1, hn (h.host hP).2⟩, h.berths⟩
theorem canonical_leaveDock (h : Canonical P Q d) : Canonical P Q (leaveDock d) := by
  have h1 {pps power} := canonical_time (n := 0) (pps := pps) (power := power)
    (canonical_setRails (canonical_odPut (index := 0x8400) (sub := 8) (v := 0) h)) fun _ => Nat.two_pow_pos 64
  exact canonical_ite (canonical_ite (canonical_setCause (canonical_startCores h1)) (canonical_setCause (canonical_setCause
    (canonical_startCores h1)))) (canonical_setCause (canonical_ite (canonical_setCause (canonical_startCores h1))
    (canonical_setCause (canonical_setCause (canonical_startCores h1)))))
theorem canonical_mpowerActive (h : Canonical P Q d) : Canonical P Q (mpowerActive d) :=
  canonical_ite (canonical_leaveMoor h) (canonical_leaveDock h)
theorem canonical_moorRestored (h : Canonical P Q d) : Canonical P Q (moorRestored d) := by
  refine canonical_mk (canonical_foldl h fun _ _ h => canonical_foldl (canonical_reloadSlots h) fun _ _ h => canonical_ite ?_ h)
  split
  · exact h
  · exact canonical_setSlotState (canonical_foldl h fun _ _ h => canonical_modTile h fun _ ht => memWf_tablesFromMirror ht)
theorem canonical_putSetpoints {f} (h : Canonical P Q d) : Canonical P Q (putSetpoints d f) :=
  canonical_foldl h fun _ _ h => canonical_odPut h
theorem canonical_rpllStep {up} (h : Canonical P Q d) : Canonical P Q (rpllStep d up) :=
  canonical_ite (canonical_mk (canonical_putSetpoints h)) (canonical_ite (canonical_mk (canonical_putSetpoints h)) h)
theorem canonical_levelCondition {source holds blame} (h : Canonical P Q d) : Canonical P Q (levelCondition d source holds
    blame) :=
  canonical_ite (canonical_report (canonical_mk h)) (canonical_ite (canonical_mk h) h)
theorem canonical_limiterEval {p10 tj} (h : Canonical P Q d) : Canonical P Q (limiterEval d p10 tj) :=
  canonical_levelCondition (canonical_levelCondition (canonical_mk (canonical_odPut (canonical_ite (canonical_odAdd
    (canonical_odPut h)) (canonical_odPut h)))))
theorem canonical_voltageLoop {b marginBelow marginNow} (h : Canonical P Q d) : Canonical P Q (voltageLoop d b marginBelow
    marginNow) :=
  canonical_ite (canonical_mk (canonical_levelCondition (canonical_odPut (canonical_mk h)))) (canonical_levelCondition
    (canonical_odPut (canonical_mk h)))
theorem canonical_thermalTrip (h : Canonical P Q d) : Canonical P Q (thermalTrip d) :=
  canonical_mk (canonical_dockState (canonical_odKeep h))
theorem canonical_addStalls {b lk stages} (h : Canonical P Q d) : Canonical P Q (addStalls d b lk stages) :=
  canonical_setTile (canonical_mk h) fun hQ => h.tile hQ _ _
theorem canonical_telemetry {r} (h : Canonical P Q d) : Canonical P Q (telemetry d r) := by
  refine canonical_foldl (canonical_odAdd (canonical_foldl (canonical_foldl h fun _ _ h => canonical_ite (canonical_odPut h) h)
      fun _ _ h => canonical_ite (canonical_odPut h) h)) fun _ _ h => canonical_ite ?_ h
  split
  · exact h
  · exact canonical_foldl h fun _ _ h => canonical_addStalls h
theorem canonical_sramScrub {b key g} (h : Canonical P Q d) : Canonical P Q (sramScrub d b key g) := by
  refine canonical_ite (canonical_mk (canonical_ite h ?_)) (canonical_odAdd (canonical_mk (canonical_ite h ?_)))
  · split
    · exact h
    · exact canonical_berthReport (canonical_setTile h fun hQ => h.tile hQ _ _)
    · exact canonical_berthReport h
  · split
    · exact h
    · exact canonical_berthReport (canonical_setTile h fun hQ => h.tile hQ _ _)
    · exact canonical_berthReport h
theorem canonical_patrolScrub {b a} (h : Canonical P Q d) : Canonical P Q (patrolScrub d b a) :=
  canonical_ite (canonical_mk (canonical_modBerth (canonical_hbmNote h))) (canonical_odAdd (canonical_mk (canonical_modBerth
    (canonical_hbmNote h))))
theorem canonical_portSend {c f} (h : Canonical P Q d) : Canonical P Q (portSend d c f) := canonical_setSfp h
theorem canonical_finishUnit {n marker} (h : Canonical P Q d) : Canonical P Q (finishUnit d n marker) := by
  unfold finishUnit
  dsimp only
  split
  · exact h
  · next a _ =>
    generalize innerOffer _ _ _ _ = x
    obtain ⟨r, es⟩ := x
    exact canonical_startDecodes (canonical_ite (canonical_odAdd (canonical_setStream h)) (canonical_modBerth
      (canonical_setStream h) fun _ _ hx => berthMemoryWf_hbm hx (memWf_storeEntries hx.1)))
theorem canonical_assemble {n arrival p} (h : Canonical P Q d) : Canonical P Q (assemble d n arrival p) := by
  have h1 := canonical_ite (c := ((streamAt d n).au.any fun a => a.rtpts ≠ p.ts) = true) (canonical_finishUnit (n := n)
    (marker := false) (canonical_modStream (n := n) (f := fun st => { st with au := st.au.map (fun a =>
      { a with partly := a.partly || st.lost }) }) h)) h
  have h2 {st} := canonical_setStream (n := n) (x := st) h1
  unfold assemble
  exact canonical_ite (canonical_finishUnit h2) h2
theorem canonical_drainWindow {k n} (h : Canonical P Q d) : Canonical P Q (drainWindow k d n) := by
  induction k generalizing d with
  | zero => exact h
  | succ k ih =>
    unfold drainWindow
    dsimp only
    split
    · exact h
    · exact canonical_ite (ih (canonical_ite (canonical_assemble (canonical_setStream h)) (canonical_setStream h))) h
theorem canonical_resolveGap {n} (h : Canonical P Q d) : Canonical P Q (resolveGap d n) := by
  unfold resolveGap
  dsimp only
  split
  · exact canonical_drainWindow (canonical_modStream (canonical_odAdd h))
  · exact h
theorem canonical_flushWindow {k n} (h : Canonical P Q d) : Canonical P Q (flushWindow k d n) := by
  induction k generalizing d with
  | zero => exact h
  | succ k ih => exact canonical_ite h (ih (canonical_resolveGap h))
theorem canonical_newSsrc {n ssrc} (h : Canonical P Q d) : Canonical P Q (newSsrc d n ssrc) := by
  unfold newSsrc
  exact canonical_modStream (canonical_finishUnit (canonical_modStream (canonical_flushWindow h)))
theorem canonical_depacketise {c n p} (h : Canonical P Q d) : Canonical P Q (depacketise d c n p) :=
  canonical_ite (canonical_odAdd h) (canonical_ite (canonical_odAdd (canonical_ite (canonical_ite (canonical_odAdd h)
    (canonical_odAdd (canonical_odAdd h))) (canonical_ite (canonical_modStream (canonical_ite (canonical_odAdd h)
    (canonical_odAdd (canonical_odAdd h)))) (canonical_newSsrc (canonical_ite (canonical_odAdd h) (canonical_odAdd
    (canonical_odAdd h))))))) (canonical_ite (canonical_resolveGap (canonical_drainWindow (canonical_setStream (canonical_ite
    (canonical_ite (canonical_odAdd h) (canonical_odAdd (canonical_odAdd h))) (canonical_ite (canonical_modStream (canonical_ite
    (canonical_odAdd h) (canonical_odAdd (canonical_odAdd h)))) (canonical_newSsrc (canonical_ite (canonical_odAdd h)
    (canonical_odAdd (canonical_odAdd h))))))))) (canonical_drainWindow (canonical_setStream (canonical_ite (canonical_ite
    (canonical_odAdd h) (canonical_odAdd (canonical_odAdd h))) (canonical_ite (canonical_modStream (canonical_ite
    (canonical_odAdd h) (canonical_odAdd (canonical_odAdd h)))) (canonical_newSsrc (canonical_ite (canonical_odAdd h)
    (canonical_odAdd (canonical_odAdd h))))))))))
theorem canonical_takeDatagram {c tags src dst dport body rtp} (h : Canonical P Q d) : Canonical P Q (takeDatagram d c tags src
    dst dport body rtp) := by
  unfold takeDatagram
  dsimp only
  split
  · split
    · exact canonical_depacketise h
    · exact canonical_odAdd h
  · split
    · exact canonical_ite (canonical_offerTo h) (canonical_odAdd h)
    · exact canonical_odAdd h
theorem canonical_receiveFrame {c f} (h : Canonical P Q d) : Canonical P Q (receiveFrame d c f) := by
  refine canonical_ite (canonical_odAdd (canonical_odAdd h)) ?_
  split
  · exact canonical_ite (canonical_portSend (canonical_odAdd h)) (canonical_odAdd (canonical_odAdd h))
  · exact canonical_ite (canonical_portSend (canonical_odAdd h)) (canonical_odAdd (canonical_odAdd h))
  · exact canonical_ite (canonical_odAdd (canonical_odAdd h)) (canonical_foldl (canonical_odAdd h) fun _ _ h =>
        canonical_portSend h)
  · exact canonical_odAdd (canonical_odAdd h)
  · exact canonical_odAdd (canonical_odAdd h)
  · exact canonical_ite (canonical_odAdd (canonical_odAdd h)) (canonical_ite (canonical_odAdd (canonical_odAdd h))
        (canonical_takeDatagram (canonical_odAdd h)))
theorem canonical_anchorWrite {n v} (h : Canonical P Q d) : Canonical P Q (anchorWrite d n v) :=
  canonical_modStream (canonical_odPut h)
theorem canonical_applyDecode {n a o} (h : Canonical P Q d) : Canonical P Q (applyDecode d n a o) :=
  canonical_foldl (canonical_odAdd (canonical_foldl (canonical_setStream h) fun _ _ h => canonical_berthReport h)) fun _ _ h =>
    canonical_pushPicture h
theorem canonical_decodeUnit {n a} (h : Canonical P Q d) : Canonical P Q (decodeUnit d n a) :=
  canonical_ite (canonical_skipUnit h) (canonical_ite (canonical_skipUnit (canonical_setStreamState (canonical_modStream h)))
    (canonical_ite (canonical_applyDecode (canonical_ite (canonical_setStreamState h) h)) (canonical_skipUnit
    (canonical_modStream (canonical_ite (canonical_setStreamState h) h)))))
theorem canonical_decodeComplete {b s} (h : Canonical P Q d) : Canonical P Q (decodeComplete d b s) := by
  unfold decodeComplete
  split
  · exact h
  · refine canonical_ite (canonical_startDecodes ?_) (canonical_startDecodes (canonical_startDecodes ?_))
    · split
      · exact canonical_modStream h
      · exact canonical_ite (canonical_decodeUnit (canonical_popUnit (canonical_modStream h))) (canonical_modStream h)
    · split
      · exact canonical_modStream h
      · exact canonical_ite (canonical_decodeUnit (canonical_popUnit (canonical_modStream h))) (canonical_modStream h)
theorem canonical_rawDescriptor {n v} (h : Canonical P Q d) : Canonical P Q (rawDescriptor d n v) :=
  canonical_ite (canonical_consumeItem h) (canonical_ite (canonical_odAdd (canonical_consumeItem h)) (canonical_modStream h))
theorem canonical_enableStream {n} (h : Canonical P Q d) : Canonical P Q (enableStream d n) := by
  have h1 := canonical_ite (c := strmBerth d n < 4 ∧ bpstate d (strmBerth d n) = 2) (canonical_wakeBerth (b := strmBerth d n) h) h
  unfold enableStream
  dsimp only
  generalize (if strmBerth d n < 4 ∧ bpstate d (strmBerth d n) = 2 then wakeBerth d (strmBerth d n) else d) = e at h1 ⊢
  refine canonical_ite h1 (canonical_ite (canonical_odPut h1) (canonical_ite (canonical_setStreamState (canonical_odPut
    (canonical_odStore h1))) ?_))
  split
  · exact h1
  · next hm =>
    exact canonical_setStreamState (canonical_foldl (canonical_odPut (canonical_odStore (canonical_setStream (canonical_modBerth h1
      fun hQ _ hx => berthMemoryWf_hbm hx ((mem_of_poolAllocAll hm).symm ▸ (h1.berth hQ _).1))))) fun _ _ h => canonical_portSend h)
theorem canonical_leaveGroups {n} (h : Canonical P Q d) : Canonical P Q (leaveGroups d n) :=
  canonical_foldl h fun _ _ h => canonical_ite h (canonical_portSend h)
theorem canonical_disableStream {n} (h : Canonical P Q d) : Canonical P Q (disableStream d n) :=
  canonical_ite (canonical_odStore h) (canonical_freeStream (canonical_setStreamState (canonical_odStore (canonical_modStream
    (canonical_flushInner (canonical_flushInner (canonical_leaveGroups h)))))))
theorem canonical_emptySlot {b k} (h : Canonical P Q d) : Canonical P Q (emptySlot d b k) :=
  canonical_setSlotState (canonical_odPut (canonical_odPut (canonical_odPut (canonical_setSlot (canonical_modBerth h)))))
theorem canonical_abortEffect {t} (h : Canonical P Q d) : Canonical P Q (abortEffect d t) := by
  refine canonical_ite h ?_
  split
  · exact canonical_listRestored (canonical_setCause (canonical_ite (canonical_emptySlot h) h))
  · exact canonical_odPut (canonical_mk h)
  · exact canonical_modBerth h
  · exact h
theorem canonical_dropTransfer {index sub} (h : Canonical P Q d) : Canonical P Q (dropTransfer d index sub) := canonical_mk h
theorem canonical_abortTransfer {t} (h : Canonical P Q d) : Canonical P Q (abortTransfer d t) :=
  canonical_abortEffect (canonical_dropTransfer h)
theorem canonical_abortTransfers {p} (h : Canonical P Q d) : Canonical P Q (abortTransfers p d) :=
  canonical_foldl h fun _ _ h => canonical_abortTransfer h
theorem canonical_closeSession {sid} (h : Canonical P Q d) : Canonical P Q (closeSession d sid) :=
  canonical_abortTransfers (canonical_mk h)
theorem canonical_mbx {m : Mailbox} {pcie requests responses journal sessions streams} (h : Canonical P Q d)
    (hm : HostMemoryWf d → memWf m.req = true ∧ memWf m.resp = true) : Canonical P Q { d with
      mbx := m, pcie := pcie, requests := requests, responses := responses, journal := journal, sessions := sessions, streams := streams } :=
  ⟨fun hP => ⟨⟨(h.host hP).1.1, hm (h.host hP).1⟩, (h.host hP).2⟩, h.berths⟩
theorem canonical_functionReset {bits} (h : Canonical P Q d) : Canonical P Q (functionReset d bits) :=
  canonical_setCause (canonical_mbx (canonical_abortTransfers h) fun _ => ⟨rfl, rfl⟩)
theorem canonical_perstAll (h : Canonical P Q d) : Canonical P Q (perstAll d) :=
  canonical_ite (canonical_mk (canonical_setRails (canonical_perstReset h))) (canonical_setRails (canonical_perstReset h))
theorem canonical_sampleStraps {straps testEn} (h : Canonical P Q d) : Canonical P Q (sampleStraps d straps testEn) :=
  canonical_mk h
theorem canonical_powerOn {straps testEn} (h : Canonical P Q d) : Canonical P Q (powerOn d straps testEn) :=
  canonical_startCores (canonical_setRails (canonical_bootFirmware (canonical_lossCauses (canonical_setCause
    (canonical_sampleStraps (canonical_mk (canonical_resetModule h)))))))
theorem canonical_powerDown {auxLost} (h : Canonical P Q d) : Canonical P Q (powerDown d auxLost) :=
  canonical_ite (canonical_mk (canonical_resetModule h)) (canonical_ite (canonical_mk h) (canonical_mk (canonical_dockState h)))
theorem canonical_slotValid (h : Canonical P Q d) : Canonical P Q (slotValid d) :=
  canonical_ite (canonical_startCores (canonical_mk (canonical_setRails (canonical_mk h)))) (canonical_setRails (canonical_mk
    h))
theorem canonical_cableLoss (h : Canonical P Q d) : Canonical P Q (cableLoss d) :=
  canonical_setRails (canonical_mk (canonical_ite (canonical_foldl h fun _ _ h => canonical_forceSwitch (canonical_wakeBerth h))
    (canonical_odAdd (canonical_report (canonical_mk (canonical_foldl h fun _ _ h => canonical_forceSwitch (canonical_wakeBerth
    h)))))))
theorem canonical_cableRead {mv s0 s1} (h : Canonical P Q d) : Canonical P Q (cableRead d mv s0 s1) :=
  canonical_setRails (canonical_mk (canonical_ite (canonical_cableLoss h) h))
theorem canonical_sfpInsert {c rate} (h : Canonical P Q d) : Canonical P Q (sfpInsert d c rate) :=
  canonical_ite (canonical_odAdd (canonical_setSfp h)) (canonical_setSfp h)
theorem canonical_signalPending (h : Canonical P Q d) : Canonical P Q (signalPending d) :=
  canonical_foldl h fun _ _ h => canonical_signalVector (canonical_mk h)
theorem canonical_busMaster {on} (h : Canonical P Q d) : Canonical P Q (busMaster d on) :=
  canonical_ite (canonical_foldl (canonical_foldl (canonical_signalPending (canonical_mk h)) fun _ _ h => canonical_enterAll
    (canonical_evqStatus h)) fun _ _ h => canonical_writeStatus h) (canonical_mk (canonical_mk h))
theorem canonical_timeWrite {v} (h : Canonical P Q d) : Canonical P Q (timeWrite d v) :=
  canonical_odPut (canonical_time h fun _ => Nat.mod_lt _ (Nat.two_pow_pos 64))
theorem canonical_ppsAccept {te} (h : Canonical P Q d) : Canonical P Q (ppsAccept d te) := by
  have hmod (n : Nat) : n % 2 ^ 64 < 2 ^ 64 := Nat.mod_lt _ (Nat.two_pow_pos 64)
  have h1 {n : Nat} {c : Prop} [Decidable c] {pps} :=
    canonical_time (n := if c then n % 2 ^ 64 else d.time) (pps := pps) (power := d.power) h fun ht => by
      split
      · exact hmod n
      · exact ht
  exact canonical_ite (canonical_odPut (canonical_odPut (canonical_time h fun _ => hmod _)))
    (canonical_ite (canonical_odPut h1) h1)
theorem canonical_causeClear {v} (h : Canonical P Q d) : Canonical P Q (causeClear d v) :=
  canonical_ite (canonical_foldl (canonical_odPut (canonical_ite (canonical_odPut (canonical_odPut h)) (canonical_odPut h))) fun
    _ _ h => canonical_odPut h) (canonical_ite (canonical_odPut (canonical_odPut h)) (canonical_odPut h))
theorem canonical_restoreDefaults (h : Canonical P Q d) : Canonical P Q (restoreDefaults d) :=
  canonical_setCause (canonical_mk (canonical_foldl h fun _ _ h => canonical_disableStream h))
theorem canonical_feedStripe {b n u ep e replay s} (h : Canonical P Q d) : Canonical P Q (feedStripe d b n u ep e replay s) :=
    by
  refine canonical_sendEnd (canonical_foldl ?_ fun _ _ h => canonical_hbmRangeNote h)
  split
  · exact canonical_sendEnd h
  · exact canonical_sendEnd (canonical_sendEnd h)
theorem canonical_feedEntry {b n u e replay} (h : Canonical P Q d) : Canonical P Q (feedEntry d b n u e replay) :=
  canonical_ite (canonical_setCo (canonical_modBerth (canonical_foldl (canonical_foldl (canonical_putEntry h) fun _ _ h =>
    canonical_modBerth h) fun _ _ h => canonical_feedStripe h))) (canonical_modBerth (canonical_foldl (canonical_foldl
    (canonical_putEntry h) fun _ _ h => canonical_modBerth h) fun _ _ h => canonical_feedStripe h))
theorem canonical_feedNew {b n u p} (h : Canonical P Q d) : Canonical P Q (feedNew d b n u p) :=
  canonical_feedEntry (canonical_odAdd (canonical_setStream (canonical_modBerth h fun _ _ hx =>
    berthMemoryWf_hbm hx (memWf_writeEntryRows (memWf_hbmWriteBytes _ _ _ hx.1)))))
theorem canonical_feedReplay {b n u e} (h : Canonical P Q d) : Canonical P Q (feedReplay d b n u e) :=
  canonical_feedEntry (canonical_ite (canonical_odPut (canonical_setRepair (canonical_ite (canonical_odAdd h) h)))
    (canonical_ite (canonical_odAdd h) h))
theorem canonical_feederFrame {b} (h : Canonical P Q d) : Canonical P Q (feederFrame d b) := by
  refine canonical_repairProgress ?_
  split
  · exact canonical_feedReplay h
  · split
    · exact canonical_feedNew h
    · exact h
theorem canonical_offerRecord {h1 header body} (h : Canonical P Q d) : Canonical P Q (offerRecord d h1 header body) :=
  canonical_offerTo h
theorem canonical_stripeDone {n fc stripe stripes} (h : Canonical P Q d) : Canonical P Q (stripeDone d n fc stripe stripes) :=
    by
  refine canonical_ite (canonical_releaseEntry h) ?_
  split
  · exact h
  · exact canonical_putEntry h
theorem canonical_resultFrame {b} (h : Canonical P Q d) : Canonical P Q (resultFrame d b) := by
  unfold resultFrame
  dsimp only
  split
  · exact h
  · exact canonical_pokeSwitch (canonical_repairProgress (canonical_stripeDone (canonical_consumeEnd (canonical_consumeEnd
        (canonical_mk (canonical_offerRecord (canonical_foldl h fun _ _ h => canonical_offerRecord h)))))))
theorem canonical_tapScaleToken {b k} (h : Canonical P Q d) : Canonical P Q (tapScaleToken d b k) := by
  unfold tapScaleToken
  split
  · exact h
  · exact canonical_ite (canonical_consumeEnd (canonical_modBerth h)) h
theorem canonical_featureItem {b t} (h : Canonical P Q d) : Canonical P Q (featureItem d b t) := by
  unfold featureItem
  split
  · exact canonical_ite (canonical_offerTo (canonical_modBerth (canonical_modBerth (canonical_consumeEnd
        (canonical_tapScaleToken h))))) (canonical_modBerth (canonical_consumeEnd (canonical_tapScaleToken h)))
theorem canonical_cropMarks {b k} (h : Canonical P Q d) : Canonical P Q (cropMarks d b k) :=
  canonical_ite (canonical_pokeSwitch (canonical_setCo (canonical_sendMarks (canonical_setEnd h)))) h
theorem canonical_cropGather {b k} (h : Canonical P Q d) : Canonical P Q (cropGather d b k) := by
  unfold cropGather
  split
  · exact h
  · refine canonical_sendEnd ?_
    split
    · exact canonical_foldl (canonical_sendEnd (canonical_consumeEnd h)) fun _ _ h => canonical_hbmRangeNote h
    · exact canonical_sendEnd (canonical_consumeEnd h)
theorem canonical_takeFlit {b x} (h : Canonical P Q d) : Canonical P Q (takeFlit d b x) := by
  unfold takeFlit
  split
  · exact canonical_modTile h
  · exact canonical_modTile (canonical_mk h)
  · exact h
theorem canonical_failFlit {t src} (h : Canonical P Q d) : Canonical P Q (failFlit d t src) := by
  unfold failFlit
  split
  · exact canonical_ite (canonical_berthReport (canonical_modTile (canonical_modTile h))) (canonical_modTile (canonical_modTile
        h))
  · exact canonical_ite (canonical_berthReport (canonical_modTile (canonical_modTile h))) (canonical_modTile (canonical_modTile
        h))
  · exact canonical_modTile h
theorem canonical_staleDiscard {b qid qkind f} (h : Canonical P Q d) : Canonical P Q (staleDiscard d b qid qkind f) :=
  canonical_addDiscard (canonical_odAdd h)
theorem canonical_deliverTile {b key f} (h : Canonical P Q d) : Canonical P Q (deliverTile d b key f) := by
  unfold deliverTile
  dsimp only
  split
  · exact canonical_arriveToken h
  · exact canonical_staleDiscard h
theorem canonical_enterStation {b f} (h : Canonical P Q d) : Canonical P Q (enterStation d b f) :=
  canonical_byEpoch h (fun _ h => canonical_ite (canonical_staleDiscard h) (canonical_ite (canonical_ite (canonical_setPort h)
    (canonical_setPort h)) (canonical_sendShuttle h)))
theorem canonical_queueFlit {t o f} (h : Canonical P Q d) : Canonical P Q (queueFlit d t o f) := canonical_modTile h
theorem canonical_routeFlit {t p f} (h : Canonical P Q d) : Canonical P Q (routeFlit d t p f) := by
  unfold routeFlit
  split
  · exact canonical_queueFlit h
  · exact canonical_ite (canonical_enterStation h) (canonical_ite (canonical_deliverTile h) (canonical_queueFlit h))
theorem canonical_servePort {t p} (h : Canonical P Q d) : Canonical P Q (servePort d t p) := by
  unfold servePort
  split
  · exact h
  · exact canonical_modTile h
theorem canonical_flitReceive {t p err} (h : Canonical P Q d) : Canonical P Q (flitReceive d t p err) := by
  unfold flitReceive
  dsimp only
  split
  · exact h
  · exact canonical_ite (canonical_failFlit h) (canonical_ite h (canonical_routeFlit (canonical_takeFlit (canonical_servePort
        h))))
theorem canonical_freePlace {w} (h : Canonical P Q d) : Canonical P Q (freePlace d w) := canonical_ite h (canonical_setLink h)
theorem canonical_sendFlow {key tg lent} (h : Canonical P Q d) : Canonical P Q (sendFlow d key tg lent) := by
  unfold sendFlow
  dsimp only
  split
  · exact h
  · exact canonical_freePlace (canonical_setLink h)
theorem canonical_sendSlot {key} (h : Canonical P Q d) : Canonical P Q (sendSlot d key) := by
  unfold sendSlot
  dsimp only
  split
  · exact canonical_setLink h
  · exact canonical_sendFlow h
  · exact canonical_sendFlow h
  · split
    · exact h
    · exact canonical_freePlace (canonical_setLink h)
  · split
    · exact h
    · exact canonical_freePlace (canonical_setLink h)
  · exact h
theorem canonical_modFin {pk f} (h : Canonical P Q d) : Canonical P Q (modFin d pk f) := canonical_setPort h
theorem canonical_sequenceFault {pk} (h : Canonical P Q d) : Canonical P Q (sequenceFault d pk) :=
  canonical_berthReport (canonical_modFin h)
theorem canonical_toTileFlit {pk t} (h : Canonical P Q d) : Canonical P Q (toTileFlit d pk t) := canonical_mk h
theorem canonical_dropUnit {pk} (h : Canonical P Q d) : Canonical P Q (dropUnit d pk) := by
  unfold dropUnit
  exact canonical_modFin (canonical_ite (canonical_sequenceFault h) h)
theorem canonical_receiveUnit {pk f} (h : Canonical P Q d) : Canonical P Q (receiveUnit d pk f) :=
  canonical_ite (canonical_toTileFlit h) (canonical_ite (canonical_dropUnit h) (canonical_setPort (canonical_toTileFlit h)))
theorem canonical_creditStation {pk n} (h : Canonical P Q d) : Canonical P Q (creditStation d pk n) := by
  unfold creditStation
  exact canonical_modBerth h fun _ _ hx => berthMemoryWf_map hx fun _ ht => ite_memWf ht ht
theorem canonical_deliverStation {f} (h : Canonical P Q d) : Canonical P Q (deliverStation d f) :=
  canonical_ite (canonical_ite (canonical_staleDiscard h) h) (canonical_ite (canonical_ite (canonical_receiveUnit h)
    (canonical_toTileFlit h)) (canonical_ite h (canonical_ite (canonical_modFin h) (canonical_creditStation h))))
theorem canonical_deliverFolsa {p f} (h : Canonical P Q d) : Canonical P Q (deliverFolsa d p f) := by
  unfold deliverFolsa
  dsimp only
  split
  · exact h
  · exact canonical_ite h (canonical_ite (canonical_setFolsa h) (canonical_setFolsa h))
theorem canonical_deliverUnit {f} (h : Canonical P Q d) : Canonical P Q (deliverUnit d f) :=
  canonical_ite (canonical_deliverFolsa h) (canonical_ite (canonical_ite (canonical_staleDiscard h) (canonical_ite
    (canonical_pokeSwitch (canonical_ite (canonical_cropMarks (canonical_setEnd h)) (canonical_setEnd h))) (canonical_setEnd
    h))) (canonical_ite (canonical_pumpEnd (canonical_setEnd h)) h))
theorem canonical_deliverFlit {f} (h : Canonical P Q d) : Canonical P Q (deliverFlit d f) :=
  canonical_byEpoch h (fun _ h => canonical_ite (canonical_deliverStation h) (canonical_deliverUnit h))
theorem canonical_laneFail {from1 n} (h : Canonical P Q d) : Canonical P Q (laneFail d from1 n) :=
  canonical_ite (canonical_report (canonical_setLink h)) (canonical_report (canonical_mk (canonical_setLink (canonical_setLink
    h))))
theorem canonical_failShuttle {l} (h : Canonical P Q d) : Canonical P Q (failShuttle d l) := by
  unfold failShuttle
  split
  · exact canonical_ite (canonical_laneFail (canonical_setLink h)) (canonical_setLink h)
  · exact canonical_ite (canonical_report (canonical_setLink (canonical_setLink h))) (canonical_setLink h)
theorem canonical_passFlit {key f cls} (h : Canonical P Q d) : Canonical P Q (passFlit d key f cls) := by
  unfold passFlit
  split
  · exact canonical_enqueueLink (canonical_setLink h)
  · exact canonical_deliverFlit (canonical_freePlace (canonical_setLink h))
theorem canonical_shuttleReceive {l err} (h : Canonical P Q d) : Canonical P Q (shuttleReceive d l err) := by
  unfold shuttleReceive
  split
  · exact h
  · exact canonical_ite (canonical_passFlit h) (canonical_failShuttle h)
theorem canonical_spareTrained {n} (h : Canonical P Q d) : Canonical P Q (spareTrained d n) :=
  canonical_mk (canonical_setLink (canonical_setLink h))
theorem canonical_forwardCredits {pk} (h : Canonical P Q d) : Canonical P Q (forwardCredits d pk) :=
  canonical_ite (canonical_sendLight (canonical_setPort h)) h
theorem canonical_forwardUnit {pk} (h : Canonical P Q d) : Canonical P Q (forwardUnit d pk) :=
  canonical_foldl (canonical_modFin h) fun _ _ h => canonical_sendShuttle h
theorem canonical_forwardMark {pk} (h : Canonical P Q d) : Canonical P Q (forwardMark d pk) := by
  unfold forwardMark
  dsimp only
  split
  · exact h
  · exact canonical_ite (canonical_sendShuttle (canonical_modFin h)) h
theorem canonical_linkForward {pk} (h : Canonical P Q d) : Canonical P Q (linkForward d pk) :=
  canonical_ite (canonical_forwardMark (canonical_ite (canonical_forwardUnit h) h)) h
theorem canonical_sendFreed {pk} (h : Canonical P Q d) : Canonical P Q (sendFreed d pk) :=
  canonical_ite (canonical_sendLight (canonical_modFin h)) h
theorem canonical_acceptFreed {pk v} (h : Canonical P Q d) : Canonical P Q (acceptFreed d pk v) :=
  canonical_ite (canonical_ite (canonical_setPort (canonical_modFin h)) (canonical_creditStation (canonical_setPort
    (canonical_modFin h)))) (canonical_modFin h)
theorem canonical_takeFreed {pk} (h : Canonical P Q d) : Canonical P Q (takeFreed d pk) := by
  unfold takeFreed
  dsimp only
  split
  · exact h
  · exact canonical_ite (canonical_acceptFreed (canonical_modFin h)) h
theorem canonical_ledgerTick (h : Canonical P Q d) : Canonical P Q (ledgerTick d) :=
  canonical_mk (canonical_ite (canonical_foldl h fun _ _ h => canonical_berthCount h) h)
theorem canonical_imbalance {time source blame info counters} (h : Canonical P Q d) : Canonical P Q (imbalance d time source
    blame info counters) :=
  canonical_ite (canonical_mk h) (canonical_mk h)
theorem canonical_checkLoop {time l} (h : Canonical P Q d) : Canonical P Q (checkLoop time d l) :=
  canonical_ite h (canonical_imbalance h)
theorem canonical_checkRing {time r} (h : Canonical P Q d) : Canonical P Q (checkRing time d r) :=
  canonical_ite h (canonical_ite (canonical_imbalance h) (canonical_imbalance h))
theorem canonical_ledgerCheck (h : Canonical P Q d) : Canonical P Q (ledgerCheck d) := by
  unfold ledgerCheck
  split
  · exact h
  · exact canonical_mk (canonical_foldl (canonical_foldl h fun _ _ h => canonical_checkLoop h) fun _ _ h => canonical_checkRing
        h)
theorem canonical_setFState {p v} (h : Canonical P Q d) : Canonical P Q (setFState d p v) := canonical_odPut h
theorem canonical_modFolsa {p f} (h : Canonical P Q d) : Canonical P Q (modFolsa d p f) := canonical_setFolsa h
theorem canonical_enableFolsa {p} (h : Canonical P Q d) : Canonical P Q (enableFolsa d p) :=
  canonical_ite h (canonical_setFState (canonical_setFolsa (canonical_odStore h)))
theorem canonical_disableFolsa {p} (h : Canonical P Q d) : Canonical P Q (disableFolsa d p) :=
  canonical_setFState (canonical_modFolsa (canonical_odStore h))
theorem canonical_failFrame {p later} (h : Canonical P Q d) : Canonical P Q (failFrame d p later) :=
  canonical_ite h (canonical_odAdd (canonical_setFolsa h))
theorem canonical_remoteNotice {p b new} (h : Canonical P Q d) : Canonical P Q (remoteNotice d p b new) :=
  canonical_report (canonical_modFolsa h)
theorem canonical_channelToken {bs p k ch tok} (h : Canonical P Q d) : Canonical P Q (channelToken bs p d k ch tok) :=
  canonical_ite (canonical_staleDiscard h) (canonical_ite (canonical_ite (canonical_sendShuttle h) (canonical_remoteNotice h))
    (canonical_ite (canonical_modFolsa (canonical_ite (canonical_odAdd (canonical_sequenceFault h)) h)) (canonical_sendShuttle
    (canonical_modFolsa (canonical_ite (canonical_odAdd (canonical_sequenceFault h)) h)))))
theorem canonical_controlRecord {p r} (h : Canonical P Q d) : Canonical P Q (controlRecord d p r) := canonical_modFolsa h
theorem canonical_takeSlots {p bs} (h : Canonical P Q d) : Canonical P Q (takeSlots d p bs) :=
  canonical_foldl h fun _ _ h => canonical_ite (canonical_controlRecord h) (canonical_ite (canonical_channelToken h) h)
theorem canonical_folsaFrame {p bs} (h : Canonical P Q d) : Canonical P Q (folsaFrame d p bs) :=
  canonical_ite (canonical_failFrame h) (canonical_ite (canonical_ite (canonical_modFolsa h) (canonical_failFrame
    (canonical_modFolsa h))) (canonical_ite (canonical_takeSlots (canonical_setFolsa (canonical_modFolsa h)))
    (canonical_failFrame (canonical_modFolsa h))))
theorem canonical_sendSems {p} (h : Canonical P Q d) : Canonical P Q (sendSems d p) := canonical_modFolsa h
theorem canonical_sendAllPairs (h : Canonical P Q d) : Canonical P Q (sendAllPairs d) :=
  canonical_foldl h fun _ _ h => canonical_foldl h fun _ _ h => canonical_ite (canonical_sendPairs h) h
theorem canonical_linkUp {p v r} (h : Canonical P Q d) : Canonical P Q (linkUp d p v r) :=
  canonical_sendAllPairs (canonical_ite (canonical_sendSems (canonical_modFolsa (canonical_odPut (canonical_odPut
    (canonical_odPut (canonical_setFState h)))))) (canonical_modFolsa (canonical_odPut (canonical_odPut (canonical_odPut
    (canonical_setFState h))))))
theorem canonical_helloDone {p r} (h : Canonical P Q d) : Canonical P Q (helloDone d p r) :=
  canonical_ite (canonical_odPut (canonical_setFState h)) (canonical_linkUp h)
theorem canonical_takeSem {p r} (h : Canonical P Q d) : Canonical P Q (takeSem d p r) :=
  canonical_ite h (canonical_sendLight (canonical_ite (canonical_modFolsa (canonical_ite h (canonical_imbalance h)))
    (canonical_ite h (canonical_imbalance h))))
theorem canonical_linkDown {p} (h : Canonical P Q d) : Canonical P Q (linkDown d p) :=
  canonical_report (canonical_odAdd (canonical_setFState (canonical_modFolsa h)))
theorem canonical_holdTimeout {p} (h : Canonical P Q d) : Canonical P Q (holdTimeout d p) := by
  unfold holdTimeout
  exact canonical_modFolsa (canonical_foldl h fun _ _ h => canonical_ite (canonical_foldl h fun _ _ h => canonical_forceSwitch
      h) h)
theorem canonical_dropEpochs {b k} (h : Canonical P Q d) : Canonical P Q (dropEpochs d b k) := canonical_modBerth h
theorem canonical_enterWriting {img b k bs} (h : Canonical P Q d) : Canonical P Q (enterWriting img d b k bs) := by
  unfold enterWriting
  split
  · exact h
  · next hm =>
    exact canonical_setSlotState (canonical_setCause (canonical_odPut (canonical_odPut (canonical_odPut (canonical_setSlot
      (canonical_modBerth (canonical_ite (canonical_listRestored (canonical_setCause (canonical_dropEpochs h)))
      (canonical_dropEpochs h)) fun hQ _ hx => berthMemoryWf_hbm hx (memWf_fillImage ((mem_of_poolAllocAll hm).symm ▸
        (h.berth hQ b).1))))))))
theorem canonical_checkDone {img b k} (h : Canonical P Q d) : Canonical P Q (checkDone img d b k) := by
  unfold checkDone
  dsimp only
  split
  · exact canonical_enterWriting h
  · exact canonical_setSlotState (canonical_odPut (canonical_odPut (canonical_odPut h)))
theorem canonical_writeDone {b k} (h : Canonical P Q d) : Canonical P Q (writeDone d b k) := by
  unfold writeDone
  split
  · exact h
  · exact canonical_sendPairs (canonical_setSlotState (canonical_loadSlotTiles h))
theorem canonical_beginImage {b k} (h : Canonical P Q d) : Canonical P Q (beginImage d b k) :=
  canonical_setSlotState (canonical_odPut (canonical_odPut (canonical_odPut (canonical_setSlot (canonical_foldl
    (canonical_modBerth h) fun _ _ h => canonical_modTile h)))))
theorem canonical_storeImage {b k bs} (h : Canonical P Q d) : Canonical P Q (storeImage d b k bs) :=
  canonical_setSlotState (canonical_setSlot (canonical_modBerth h fun _ _ hx =>
    berthMemoryWf_hbm hx (memWf_hbmWriteBytes _ _ _ hx.1)))
theorem canonical_fwMark (h : Canonical P Q d) : Canonical P Q (fwMark d) := canonical_mk h
theorem canonical_fwUnmark (h : Canonical P Q d) : Canonical P Q (fwUnmark d) := canonical_mk h
theorem canonical_fwCommand {cmd} (h : Canonical P Q d) : Canonical P Q (fwCommand d cmd) :=
  canonical_ite (canonical_fwMark h) (canonical_ite (canonical_warmResetAll (canonical_fwMark h)) (canonical_fwUnmark h))
theorem canonical_portRefresh {c} (h : Canonical P Q d) : Canonical P Q (portRefresh d c) := canonical_setSfp h
theorem canonical_portReports {c} (h : Canonical P Q d) : Canonical P Q (portReports d c) :=
  canonical_foldl h fun _ _ h => canonical_portSend h
theorem canonical_portWrite {c s v} (h : Canonical P Q d) : Canonical P Q (portWrite d c s v).1 :=
  canonical_ite (canonical_portReports (canonical_portRefresh (canonical_odStore h))) (canonical_portRefresh (canonical_odStore
    h))
theorem canonical_streamWrite {n s v} (h : Canonical P Q d) : Canonical P Q (streamWrite d n s v).1 :=
  canonical_fst_ite (canonical_fst_ite (canonical_disableStream h) (canonical_fst_ite h (canonical_enableStream h)))
    (canonical_fst_ite h (canonical_fst_ite (canonical_anchorWrite h) (canonical_odStore h)))
theorem canonical_coResult {b} (h : Canonical P Q d) : Canonical P Q (coResult b d).1 := h
theorem canonical_changeoverWrite {b v} (h : Canonical P Q d) : Canonical P Q (changeoverWrite d b v).1 :=
  canonical_fst_ite h (canonical_fst_ite h (canonical_coResult (canonical_ite (canonical_orderly h) (canonical_forced h))))
theorem canonical_scanWriteCommand {b v} (h : Canonical P Q d) : Canonical P Q (scanWriteCommand d b v).1 :=
  canonical_coResult (canonical_ite (canonical_haltCommand h) (canonical_ite (canonical_resumeCommand h) (canonical_ite
    (canonical_scanOutCommand h) (canonical_ite (canonical_scanInCommand h) (canonical_holdReleaseCommand h)))))
theorem canonical_slotWrite {b k} (h : Canonical P Q d) : Canonical P Q (slotWrite d b k).1 :=
  canonical_fst_ite h (canonical_fst_ite (canonical_unloadSlot (canonical_wakeBerth h)) h)
theorem canonical_queueWrite {q s v} (h : Canonical P Q d) : Canonical P Q (queueWrite d q s v).1 :=
  canonical_fst_ite (canonical_fst_ite (canonical_disableQueue h) (canonical_fst_ite h (canonical_enableQueue h)))
    (canonical_fst_ite (canonical_flushQueue h) (canonical_fst_ite h (canonical_fst_ite (canonical_queueEvent (canonical_odStore
    h)) (canonical_fst_ite h (canonical_odStore h)))))
theorem canonical_evqWriteField {h1 s v} (h : Canonical P Q d) : Canonical P Q (evqWriteField d h1 s v).1 :=
  canonical_fst_ite (canonical_fst_ite (canonical_odPut h) (canonical_evqEnable h)) (canonical_fst_ite h (canonical_fst_ite h
    (canonical_odStore h)))
theorem canonical_mpowerWrite {v} (h : Canonical P Q d) : Canonical P Q (mpowerWrite d v).1 :=
  canonical_fst_ite (canonical_fst_ite h (canonical_fst_ite (canonical_mpowerActive h) h)) (canonical_fst_ite (canonical_ite
    (canonical_moor h) (canonical_dockState h)) h)
theorem canonical_bpowerWrite {b v} (h : Canonical P Q d) : Canonical P Q (bpowerWrite d b v).1 :=
  canonical_fst_ite (canonical_fst_ite (canonical_holdBerth h) h) (canonical_fst_ite (canonical_fst_ite (canonical_dozeBerth h)
    h) (canonical_fst_ite (canonical_ite h (canonical_wakeBerth h)) h))
theorem canonical_adaptCommand {b v} (h : Canonical P Q d) : Canonical P Q (adaptCommand d b v).1 :=
  canonical_fst_ite (canonical_pauseAdapt h) (canonical_fst_ite (canonical_resumeAdapt h) (canonical_fst_ite
    (canonical_abortAdapt h) (canonical_fst_ite h (canonical_fst_ite h (canonical_fst_ite h (canonical_rollback h))))))
theorem canonical_adaptWrite {b s v} (h : Canonical P Q d) : Canonical P Q (adaptWrite d b s v).1 :=
  canonical_fst_ite (canonical_adaptCommand h) (canonical_fst_ite h (canonical_fst_ite (canonical_showAdapt (canonical_odStore
    h)) (canonical_odStore h)))
theorem canonical_folsaWrite {p s v} (h : Canonical P Q d) : Canonical P Q (folsaWrite d p s v).1 :=
  canonical_fst_ite (canonical_ite (canonical_enableFolsa h) (canonical_disableFolsa h)) (canonical_odStore h)
theorem canonical_injectionWrite {i s v} (h : Canonical P Q d) : Canonical P Q (injectionWrite d i s v).1 :=
  canonical_fst_ite (canonical_fst_ite (canonical_injectionDisarm h) (canonical_fst_ite h (canonical_injectionArm h)))
    (canonical_fst_ite h (canonical_odStore h))
theorem canonical_writeObject {auth role i s v} (h : Canonical P Q d) : Canonical P Q (writeObject d auth role i s v).1 := by
  unfold writeObject
  split
  · exact canonical_fst_ite (canonical_causeClear h) (canonical_odStore h)
  · exact canonical_restoreDefaults h
  · exact canonical_fst_ite (canonical_fwCommand h) h
  · exact canonical_fst_ite (canonical_mk h) (canonical_odStore h)
  · exact canonical_fst_ite (canonical_timeWrite h) (canonical_odStore h)
  · exact canonical_portWrite h
  · exact canonical_fst_ite (canonical_odStore h) h
  · exact canonical_fst_ite h (canonical_streamWrite h)
  · exact canonical_slotWrite h
  · exact canonical_fst_ite (canonical_changeoverWrite h) (canonical_fst_ite (canonical_scanWriteCommand h) (canonical_odStore
        h))
  · exact canonical_fst_ite (canonical_berthResetAll (canonical_wakeBerth h)) h
  · exact canonical_queueWrite h
  · exact canonical_fst_ite h (canonical_reactionWrite h)
  · exact canonical_fst_ite (canonical_fst_ite (canonical_clearSources h) h) (canonical_odStore h)
  · exact canonical_fst_ite (canonical_odStore h) h
  · exact canonical_evqWriteField h
  · exact canonical_fst_ite (canonical_mpowerWrite h) (canonical_fst_ite h (canonical_odStore h))
  · exact canonical_fst_ite (canonical_bpowerWrite h) (canonical_odStore h)
  · exact canonical_mk h
  · exact canonical_adaptWrite h
  · exact canonical_folsaWrite h
  · exact canonical_fst_ite h (canonical_testEnter h)
  · exact canonical_injectionWrite h
  · exact canonical_odStore h
theorem canonical_modSession {sid f} (h : Canonical P Q d) : Canonical P Q (modSession d sid f) := canonical_mk h
theorem canonical_tagFailed {s} (h : Canonical P Q d) : Canonical P Q (tagFailed d s) :=
  canonical_ite (canonical_closeSession (canonical_odAdd h)) (canonical_modSession (canonical_odAdd h))
theorem canonical_sendReply {r bs} (h : Canonical P Q d) : Canonical P Q (sendReply d r bs) := by
  unfold sendReply
  split
  · exact canonical_ite (canonical_mk h) h
  · exact canonical_mk h
  · exact canonical_mk h
theorem canonical_deliverReply {r bs} (h : Canonical P Q d) : Canonical P Q (deliverReply d r bs) :=
  canonical_sendReply (canonical_ite h (canonical_modSession h))
theorem canonical_conclude {before r status payload} (h : Canonical P Q d) :
    Canonical P Q (conclude before d r status payload) := canonical_ite (canonical_mk h) (canonical_deliverReply h)
theorem canonical_popRequest {tr} (h : Canonical P Q d) : Canonical P Q (popRequest d tr) := canonical_mk h
theorem canonical_execute {run r} (h : Canonical P Q d) (hrun : Canonical P Q (run d r).1) : Canonical P Q (execute run d r) :=
  canonical_ite (canonical_conclude h) (canonical_ite (canonical_conclude h) (canonical_conclude hrun))
/-- The device that a verdict leaves. -/
def Verdict.dev : Verdict → Device
  | .drop d | .again d _ | .answer d _ | .go d _ => d
theorem verdict_dev_ite {c : Prop} [Decidable c] {v w : Verdict} (hv : Canonical P Q v.dev) (hw : Canonical P Q w.dev) :
    Canonical P Q (if c then v else w).dev := by
  split
  · exact hv
  · exact hw
theorem canonical_admitSession {r s} (h : Canonical P Q d) : Canonical P Q (admitSession d r s).dev :=
  verdict_dev_ite (canonical_tagFailed h) (verdict_dev_ite (canonical_modSession (canonical_modSession h))
    (verdict_dev_ite (verdict_dev_ite (canonical_modSession h) (canonical_modSession h)) (canonical_odAdd (canonical_modSession h))))
theorem canonical_vetRequest {r} (h : Canonical P Q d) : Canonical P Q (vetRequest d r).dev := by
  refine verdict_dev_ite ?_ (verdict_dev_ite h (verdict_dev_ite h (verdict_dev_ite h (verdict_dev_ite h (verdict_dev_ite h h)))))
  split
  · exact h
  · exact verdict_dev_ite (canonical_admitSession h) h
theorem canonical_serve {tr msg op run} (hrun : ∀ d r, Canonical P Q d → Canonical P Q (run d r).1) (h : Canonical P Q d) :
    Canonical P Q (serve tr msg op run d) := by
  unfold serve
  split
  · exact h
  · next r _ =>
    refine canonical_ite (canonical_sendReply h) (canonical_ite h ?_)
    have hv := canonical_vetRequest (r := r) (canonical_popRequest (tr := tr) h)
    dsimp only
    generalize vetRequest (popRequest d tr) r = v at hv
    cases v
    · exact canonical_ite (canonical_mbx hv fun hm => hm.2) hv
    · exact canonical_sendReply hv
    · exact canonical_conclude hv
    · exact canonical_execute hv (hrun _ _ hv)
theorem canonical_runRead {r} (h : Canonical P Q d) : Canonical P Q (runRead d r).1 := by
  unfold runRead
  split
  · exact canonical_fst_ite h (canonical_fst_ite h (canonical_fst_ite h h))
theorem canonical_runWrite {r} (h : Canonical P Q d) : Canonical P Q (runWrite d r).1 :=
  canonical_fst_ite h (canonical_fst_ite h (canonical_fst_ite h (canonical_fst_ite h (canonical_fst_ite h
    (canonical_writeObject h)))))
theorem canonical_runInfo {r} (h : Canonical P Q d) : Canonical P Q (runInfo d r).1 := by
  unfold runInfo
  split
  · exact canonical_fst_ite h (canonical_fst_ite h h)
theorem canonical_runOpen {r} (h : Canonical P Q d) : Canonical P Q (runOpen d r).1 :=
  canonical_fst_ite h (canonical_fst_ite h (canonical_fst_ite h (canonical_fst_ite h (canonical_mk h))))
theorem canonical_runClose {r} (h : Canonical P Q d) : Canonical P Q (runClose d r).1 :=
  canonical_fst_ite h (canonical_fst_ite h (canonical_closeSession h))
theorem canonical_setTransfer {x} (h : Canonical P Q d) : Canonical P Q (setTransfer d x) := canonical_mk h
theorem canonical_imageStart {b k} (h : Canonical P Q d) : Canonical P Q (imageStart d b k).1 :=
  canonical_fst_ite (canonical_odPut h) (canonical_fst_ite h (canonical_wakeBerth h))
theorem canonical_scanArea {b} (h : Canonical P Q d) : Canonical P Q (scanArea d b).1 := by
  refine canonical_fst_ite h (canonical_fst_ite h ?_)
  split
  · exact h
  · next m hm =>
    have hw (hQ : Q) : memWf m.mem = true := (congrArg memWf (mem_of_poolAlloc hm)).trans (h.berth hQ b).1
    dsimp only
    exact canonical_modBerth h fun hQ _ hx => ⟨hw hQ, hx.2⟩
theorem canonical_writeStart {i} (h : Canonical P Q d) : Canonical P Q (writeStart d i).1 := by
  unfold writeStart
  split
  · exact canonical_imageStart h
  · exact canonical_odPut (canonical_mk h)
  · exact canonical_scanArea h
  · exact canonical_fst_ite h h
  · exact h
theorem canonical_runSegInit {r} (h : Canonical P Q d) : Canonical P Q (runSegInit d r).1 :=
  canonical_fst_ite h (canonical_fst_ite h (canonical_fst_ite h (canonical_fst_ite (canonical_mk h) (canonical_fst_ite h
    (canonical_fst_ite h (canonical_fst_ite h (canonical_fst_ite (canonical_writeStart h) (canonical_mk (canonical_writeStart h)))))))))
theorem canonical_appendItems {q n es e k} (h : Canonical P Q d) (hx : appendItems q n d es = some (e, k)) :
    Canonical P Q e := by
  induction n generalizing d es e k with
  | zero =>
    cases hx
    exact h
  | succ n ih =>
    unfold appendItems at hx
    split at hx
    · cases hx
      exact h
    · split at hx
      · split at hx
        · cases hx
        · next hy =>
          cases hx
          exact ih (canonical_dataWrite h) hy
      · cases hx
theorem canonical_dataSegment {t bs x} (h : Canonical P Q d) (hx : dataSegment d t bs = some x) : Canonical P Q x.1 := by
  unfold dataSegment at hx
  dsimp only at hx
  split at hx
  · cases hx
  · next hy =>
    cases hx
    exact canonical_appendItems h hy
theorem canonical_scanSegment {b off bs} (h : Canonical P Q d) : Canonical P Q (scanSegment d b off bs) := by
  unfold scanSegment
  exact canonical_modBerth (canonical_ite (canonical_releaseHeld h) h)
theorem canonical_segmentEffect {t bs x} (h : Canonical P Q d) (hx : segmentEffect d t bs = some x) : Canonical P Q x.1 := by
  unfold segmentEffect at hx
  split at hx
  · dsimp only at hx
    split at hx
    · split at hx
      · cases hx
      · cases hx
        exact canonical_beginImage h
    · cases hx
      exact h
  · split at hx
    · cases hx
      exact canonical_scanSegment h
    · cases hx
  · split at hx
    · exact canonical_dataSegment h hx
    · cases hx
  · cases hx
    exact h
theorem canonical_segRead {r t} (h : Canonical P Q d) : Canonical P Q (segRead d r t).1 :=
  canonical_fst_ite h (canonical_fst_ite (canonical_setTransfer (canonical_dataRead h)) (canonical_fst_ite h (canonical_setTransfer h)))
theorem canonical_segWrite {r t} (h : Canonical P Q d) : Canonical P Q (segWrite d r t).1 := by
  refine canonical_fst_ite h (canonical_fst_ite h ?_)
  split
  · exact h
  · next hx => exact canonical_setTransfer (canonical_segmentEffect h hx)
theorem canonical_runSegData {r} (h : Canonical P Q d) : Canonical P Q (runSegData d r).1 := by
  unfold runSegData
  split
  · refine canonical_fst_ite h ?_
    split
    · exact h
    · exact canonical_fst_ite h (canonical_fst_ite (canonical_segWrite h) (canonical_segRead h))
theorem canonical_firmwareEnd {bs} (h : Canonical P Q d) : Canonical P Q (firmwareEnd d bs) := canonical_odPut (canonical_mk h)
theorem canonical_snapshotEnd {b bs} (h : Canonical P Q d) : Canonical P Q (snapshotEnd d b bs).1 := by
  unfold snapshotEnd
  split
  · exact canonical_fst_ite h (canonical_fst_ite h (canonical_installEpoch h))
  · exact h
theorem canonical_writeEnd {t} (h : Canonical P Q d) : Canonical P Q (writeEnd d t).1 := by
  unfold writeEnd
  split
  · exact canonical_storeImage h
  · exact canonical_firmwareEnd h
  · exact canonical_snapshotEnd h
  · exact h
theorem canonical_runSegEnd {r} (h : Canonical P Q d) : Canonical P Q (runSegEnd d r).1 := by
  refine canonical_fst_ite h ?_
  split
  · exact h
  · exact canonical_fst_ite (canonical_abortTransfer h) (canonical_fst_ite (canonical_abortTransfer h) (canonical_fst_ite
      (canonical_dropTransfer h) (canonical_fst_ite (canonical_dropTransfer (canonical_writeEnd h)) (canonical_abortTransfer h))))
theorem canonical_runSegAbort {r} (h : Canonical P Q d) : Canonical P Q (runSegAbort d r).1 := by
  unfold runSegAbort
  split
  · refine canonical_fst_ite h (canonical_fst_ite h ?_)
    split
    · exact h
    · exact canonical_abortTransfer h
theorem canonical_addressChanged {key} (h : Canonical P Q d) : Canonical P Q (addressChanged d key) :=
  canonical_ite (canonical_foldl h fun _ _ h => canonical_closeSession h) (canonical_ite (canonical_foldl h fun _ _ h =>
    canonical_closeSession h) h)
theorem canonical_commitRecord {e} (h : Canonical P Q d) : Canonical P Q (commitRecord d e) := by
  refine canonical_ite (canonical_ite (canonical_addressChanged (canonical_odPut ?_)) (canonical_odPut ?_)) ?_
  · split
    · exact canonical_mk h
    · exact canonical_deliverReply (canonical_mk h)
  · split
    · exact canonical_mk h
    · exact canonical_deliverReply (canonical_mk h)
  · split
    · exact canonical_mk h
    · exact canonical_deliverReply (canonical_mk h)
theorem canonical_mailboxSubmit (h : Canonical P Q d) : Canonical P Q (mailboxSubmit d) :=
  canonical_ite (canonical_sendReply (canonical_mbx h fun hm => hm.2)) (canonical_mk (canonical_mbx h fun hm => hm.2))
theorem canonical_mailboxControl {w} (h : Canonical P Q d) : Canonical P Q (mailboxControl d w) :=
  canonical_ite (canonical_mbx h fun hm => hm.2) (canonical_ite (canonical_odAdd (canonical_mbx h fun hm => hm.2))
    (canonical_mailboxSubmit (canonical_mbx h fun hm => hm.2)))
theorem canonical_mailboxDone {bs} (h : Canonical P Q d) : Canonical P Q (mailboxDone d bs) := by
  have hm := memWf_memWriteBytes 0 bs memWf_nil
  exact canonical_ite (canonical_signalVector (canonical_mbx h fun hd => ⟨hd.2.1, hm⟩)) (canonical_mbx h fun hd => ⟨hd.2.1, hm⟩)
theorem canonical_msixWrite {off bytes v} (h : Canonical P Q d) : Canonical P Q (msixWrite d off bytes v) := by
  unfold msixWrite
  dsimp only
  split
  · exact canonical_ite (canonical_mk h) h
  · exact canonical_maskVector (canonical_ite (canonical_mk h) h)
  · exact canonical_unmaskVector (canonical_ite (canonical_mk h) h)
theorem canonical_registerWrite {off bytes v} (h : Canonical P Q d) : Canonical P Q (registerWrite d off bytes v) :=
  canonical_ite (canonical_ite (canonical_mailboxControl h) h) (canonical_ite (canonical_ite (canonical_mbx h fun hm =>
    ⟨memWf_memWriteBytes _ _ hm.2.1, hm.2.2⟩) h) (canonical_ite (canonical_msixWrite h) (canonical_ite (canonical_queueDoorbell h)
    (canonical_ite (canonical_eventDoorbell h) h))))
theorem canonical_mgmtDatagram {g} (h : Canonical P Q d) : Canonical P Q (mgmtDatagram d g) := by
  unfold mgmtDatagram
  split
  · exact canonical_ite (canonical_mk h) (canonical_mk h)
  · exact canonical_ite (canonical_ite (canonical_sendReply h) (canonical_mk h)) (canonical_mk h)
theorem canonical_bootAgain (h : Canonical P Q d) : Canonical P Q (bootAgain d) :=
  canonical_ite (canonical_startCores (canonical_bootFirmware h)) (canonical_odPut (canonical_startCores (canonical_mk h)))
theorem canonical_seCommit {x g th pc} (h : Canonical P Q d) : Canonical P Q (seCommit d x g th pc) := by
  unfold seCommit
  exact canonical_modBerth (canonical_modBerth h)
theorem canonical_opSeta {x e} (h : Canonical P Q d) (he : opSeta d x = some e) : Canonical P Q e := by
  cases he
  exact canonical_seCommit h
theorem canonical_opAdda {x e} (h : Canonical P Q d) (he : opAdda d x = some e) : Canonical P Q e := by
  cases he
  exact canonical_seCommit h
theorem canonical_opSets {x e} (h : Canonical P Q d) (he : opSets d x = some e) : Canonical P Q e := by
  cases he
  exact canonical_seCommit h
theorem canonical_opNexts {x e} (h : Canonical P Q d) (he : opNexts d x = some e) : Canonical P Q e := by
  cases he
  exact canonical_seCommit h
theorem canonical_opLoop {x e} (h : Canonical P Q d) (he : opLoop d x = some e) : Canonical P Q e := by
  cases he
  exact canonical_seCommit h
theorem canonical_opEndl {x e} (h : Canonical P Q d) (he : opEndl d x = some e) : Canonical P Q e := by
  cases he
  exact canonical_seCommit h
theorem canonical_strideFault {x} (h : Canonical P Q d) : Canonical P Q (strideFault d x) := canonical_berthReport h
theorem canonical_takeCredits {pk n} (h : Canonical P Q d) : Canonical P Q (takeCredits d pk n) := canonical_setEnd h
theorem canonical_sendTaken {pk ts} (h : Canonical P Q d) : Canonical P Q (sendTaken d pk ts) :=
  canonical_foldl h fun _ _ h => canonical_sendShuttle (canonical_setEnd h)
theorem canonical_overtakeReads {x} (h : Canonical P Q d) : Canonical P Q (overtakeReads d x) := canonical_modBerth h
theorem canonical_opRd {x e} (h : Canonical P Q d) (he : opRd d x = some e) : Canonical P Q e := by
  unfold opRd at he
  split at he
  · cases he
  · dsimp only at he
    split at he
    · cases he
      exact canonical_seCommit (canonical_modBerth (canonical_overtakeReads (canonical_takeCredits h)))
    · cases he
      exact canonical_seCommit (canonical_sendTaken (canonical_strideFault (canonical_takeCredits h)))
theorem canonical_claimTokens {pk n} (h : Canonical P Q d) : Canonical P Q (claimTokens d pk n) := canonical_setEnd h
theorem canonical_opWr {x e} (h : Canonical P Q d) (he : opWr d x = some e) : Canonical P Q e := by
  unfold opWr at he
  dsimp only at he
  split at he
  · cases he
    exact canonical_seCommit (canonical_modBerth (canonical_claimTokens (canonical_overtakeReads h)))
  · cases he
    exact canonical_seCommit (canonical_strideFault (canonical_consumeBehind (canonical_overtakeReads h)))
theorem canonical_opPad {x e} (h : Canonical P Q d) (he : opPad d x = some e) : Canonical P Q e := by
  unfold opPad at he
  split at he
  · cases he
  · cases he
    exact canonical_seCommit (canonical_ite (canonical_sendTaken (canonical_takeCredits h))
      (canonical_sendTaken (canonical_strideFault (canonical_takeCredits h))))
theorem canonical_opTake {x e} (h : Canonical P Q d) (he : opTake d x = some e) : Canonical P Q e := by
  cases he
  exact canonical_seCommit h
theorem canonical_opPost {x e} (h : Canonical P Q d) (he : opPost d x = some e) : Canonical P Q e := by
  cases he
  exact canonical_seCommit h
theorem canonical_opFence {x e} (h : Canonical P Q d) (he : opFence d x = some e) : Canonical P Q e := by
  cases he
  exact canonical_seCommit h
theorem canonical_opEndp {x e} (h : Canonical P Q d) (he : opEndp d x = some e) : Canonical P Q e := by
  cases he
  exact canonical_pokeSwitch (canonical_seCommit h)
theorem canonical_wrAcknowledge {b e} (h : Canonical P Q d) : Canonical P Q (wrAcknowledge d b e) := canonical_modBerth h
theorem canonical_leaveBuffer {b e q} (h : Canonical P Q d) : Canonical P Q (leaveBuffer d b e q) := by
  refine canonical_onEngine h (fun _ h => ?_)
  split
  · exact h
  · exact canonical_ite (canonical_consumeEnd (canonical_setEnd h)) h
theorem canonical_pacerGrant {b} (h : Canonical P Q d) : Canonical P Q (pacerGrant d b) := by
  have hput {e : Device} {m : Hbm} (he : Canonical P Q e) (hm : Q → memWf m.mem = true) :
      Canonical P Q (modBerth e b (fun x => { x with hbm := m })) :=
    canonical_modBerth he fun hQ _ hx => berthMemoryWf_hbm hx (hm hQ)
  have hb (hQ : Q) := (h.berth hQ b).1
  refine canonical_ite (hput h fun hQ => memWf_admitLight (hb hQ)) ?_
  split
  · exact hput (canonical_leaveBuffer h) hb
  · exact hput h fun hQ => ite_memWf (memWf_admitLight (hb hQ)) (hb hQ)
theorem canonical_modFr {b e pt t} (h : Canonical P Q d) : Canonical P Q (modFr d b e pt t) := canonical_modBerth h
theorem canonical_finishRead {b t} (h : Canonical P Q d) : Canonical P Q (finishRead d b t) :=
  canonical_onEngine h (fun _ h => canonical_sendTaken (canonical_ite (canonical_modFr (canonical_modBerth (canonical_foldl h
    fun _ _ h => canonical_hbmNote h))) (canonical_modBerth (canonical_foldl h fun _ _ h => canonical_hbmNote h))))
theorem canonical_finishWrite {b t} (h : Canonical P Q d) : Canonical P Q (finishWrite d b t) :=
  canonical_modBerth h fun _ _ hx => ⟨foldl_memWf (m := Hbm.mem) (fun _ _ hm => memWf_hbmWriteToken _ _ _ hm) hx.1, hx.2⟩
theorem canonical_finishLight {b r} (h : Canonical P Q d) : Canonical P Q (finishLight d b r) :=
  canonical_ite (canonical_modBerth (canonical_hbmRangeNote h) fun _ _ hx => ⟨memWf_hbmWriteBytes _ _ _ hx.1, hx.2⟩)
    (canonical_sendLightBytes (canonical_modBerth (canonical_hbmRangeNote h)))
theorem canonical_hbmComplete {b} (h : Canonical P Q d) : Canonical P Q (hbmComplete d b) := by
  unfold hbmComplete
  dsimp only
  split
  · exact h
  · split
    · exact canonical_finishLight (canonical_modBerth h)
    · split
      · exact canonical_modBerth h
      · exact canonical_ite (canonical_finishWrite (canonical_modBerth h)) (canonical_finishRead (canonical_modBerth h))
theorem canonical_hurdleStart {b scope hid} (h : Canonical P Q d) : Canonical P Q (hurdleStart d b scope hid) := by
  unfold hurdleStart
  split
  · exact canonical_mk h
  · exact canonical_modBerth h
  · exact canonical_modBerth h
theorem canonical_stepEffects {b key x} (h : Canonical P Q d) : Canonical P Q (stepEffects d b key x) := by
  unfold stepEffects
  exact canonical_modBerth (canonical_foldl (canonical_foldl (canonical_foldl h fun _ _ h => canonical_berthReport h) fun _ _ h
      => canonical_berthCount h) fun _ _ h => canonical_odAdd h)
theorem canonical_popHeld {b key hmask} (h : Canonical P Q d) : Canonical P Q (popHeld d b key hmask) :=
  canonical_foldl h fun _ _ h => canonical_ite (canonical_popRing (canonical_modTile h)) h
theorem canonical_retireQueue {b key k f iq n} (h : Canonical P Q d) : Canonical P Q (retireQueue d b key k f iq n) :=
  canonical_ite (canonical_setTile h fun hQ => h.tile hQ _ _) (canonical_popRing h)
theorem canonical_finishStep {b key f} (h : Canonical P Q d) : Canonical P Q (finishStep d b key f) :=
  canonical_ite (canonical_retireQueue (canonical_retireQueue (canonical_retireQueue (canonical_modTile h))))
    (canonical_berthCount (canonical_retireQueue (canonical_retireQueue (canonical_retireQueue (canonical_modTile h)))))
theorem memWf_holdTokens {x : Xe} {ts} (hx : memWf x.t.mem = true) : memWf (holdTokens x ts).t.mem = true := by
  unfold holdTokens
  refine foldl_memWf (m := fun x : Xe => x.t.mem) (fun x t hm => ?_) hx
  dsimp only
  exact memWf_writePart _ _ _ (memWf_writeWord _ _ _ (memWf_writeWord _ _ _ hm))
theorem canonical_emissions {b key k q} {ts : List Token} (h : Canonical P Q d) :
    Canonical P Q (ts.foldl (emitToken b key k q) d) := canonical_foldl h fun _ _ h => canonical_emitToken h
theorem canonical_commitStep {b key u x0 x} (h : Canonical P Q d) (hx : Q → memWf x.t.mem = true) :
    Canonical P Q (commitStep d b key u x0 x) := by
  unfold commitStep
  dsimp only
  generalize hy : (if toHold x then holdTokens { x with ctx := { x.ctx with holdOq := wOq x.w } } (sealTokens x) else x) = y
  have hyw (hQ : Q) : memWf y.t.mem = true := by
    rw [← hy]
    exact ite_memWf (m := fun x : Xe => x.t.mem) (memWf_holdTokens (hx hQ)) (hx hQ)
  generalize hz : (if y.rerun then { y with pl := rewindHeld y.pl x0.ctx.hmask } else y) = z
  have hzw (hQ : Q) : memWf z.t.mem = true := by
    rw [← hz]
    exact ite_memWf (m := fun x : Xe => x.t.mem) (hyw hQ) (hyw hQ)
  have h1 := canonical_stepEffects (b := b) (key := key) (x := z) (canonical_setTile (b := b) (k := key)
    (t := issuedTile x0 z u (berthAt d b).fclk (berthAt d b).cto) h hzw)
  have h2 {c : Prop} [Decidable c] {k q} {ts : List Token} := canonical_ite (c := c) h1
    (canonical_emissions (b := b) (key := key) (k := k) (q := q) (ts := ts) h1)
  have h3 {c e : Prop} [Decidable c] [Decidable e] {k q k' q' hmask} {ts ts' : List Token} := canonical_ite (c := e)
    (canonical_popHeld (b := b) (key := key) (hmask := hmask) (canonical_emissions (b := b) (key := key) (k := k') (q := q') (ts := ts')
      (h2 (c := c) (k := k) (q := q) (ts := ts))))
    (canonical_emissions (b := b) (key := key) (k := k') (q := q') (ts := ts') (h2 (c := c) (k := k) (q := q) (ts := ts)))
  exact canonical_ite (canonical_hurdleStart h3) (canonical_ite (canonical_finishStep h3) h3)
theorem canonical_noteState {b key c st} (h : Canonical P Q d) : Canonical P Q (noteState d b key c st) := canonical_modTile h
theorem canonical_setHurdle {b scope hid h4} (h : Canonical P Q d) : Canonical P Q (setHurdle d b scope hid h4) := by
  unfold setHurdle
  split
  · exact canonical_mk h
  · exact canonical_modBerth h
theorem canonical_hurdlePort {core scope hid} (h : Canonical P Q d) : Canonical P Q (hurdlePort d core scope hid) := by
  unfold hurdlePort
  split
  · exact h
  · exact canonical_ite (canonical_hurdleStart (canonical_setHurdle h)) h
  · exact canonical_ite (canonical_hurdleStart (canonical_setHurdle h)) h
theorem canonical_releaseHurdle {scope hid b} (h : Canonical P Q d) : Canonical P Q (releaseHurdle d scope hid b) := by
  have hswap {cto} {t : Tile} (ht : memWf t.mem = true) : memWf (swapTile cto t).mem = true := ite_memWf ht ht
  exact canonical_setHurdle (canonical_foldl h fun _ _ h => canonical_foldl (canonical_modTile h fun _ ht =>
    ite_memWf (hswap ht) ht) fun _ _ h => canonical_finishStep h)
theorem canonical_hurdleWork {b scope hid} (h : Canonical P Q d) : Canonical P Q (hurdleWork d b scope hid) := by
  unfold hurdleWork
  split
  · exact h
  · exact canonical_ite (canonical_updateDone h) (canonical_ite (canonical_commitEpoch h) h)
theorem canonical_hurdleComplete {b scope hid} (h : Canonical P Q d) : Canonical P Q (hurdleComplete d b scope hid) :=
  canonical_hurdleWork (canonical_foldl h fun _ _ h => canonical_releaseHurdle h)
theorem canonical_hurdleTimeout {b scope hid} (h : Canonical P Q d) : Canonical P Q (hurdleTimeout d b scope hid) := by
  unfold hurdleTimeout
  dsimp only
  split
  · exact canonical_berthReport (canonical_setHurdle h)
  · exact canonical_ite (canonical_abortUpdate (canonical_berthReport (canonical_setHurdle h)))
      (canonical_berthReport (canonical_setHurdle h))
theorem canonical_watchEnds {b} (h : Canonical P Q d) : Canonical P Q (watchEnds d b) :=
  canonical_bothUnits h (fun _ h => canonical_mk h)
theorem canonical_contextTimeout {t c q} (h : Canonical P Q d) : Canonical P Q (contextTimeout d t c q) :=
  canonical_ite (canonical_modTile (canonical_berthReport h)) h
theorem canonical_restartEnd {pk} (h : Canonical P Q d) : Canonical P Q (restartEnd d pk) := canonical_setEnd h
theorem canonical_unitTimeout {pk ep} (h : Canonical P Q d) : Canonical P Q (unitTimeout d pk ep) :=
  canonical_ite (canonical_restartEnd (canonical_berthReport h)) h
theorem canonical_senderTimeout {pk} (h : Canonical P Q d) : Canonical P Q (senderTimeout d pk) :=
  canonical_ite (canonical_setPort (canonical_berthReport h)) h
theorem canonical_creditTimeout {who q} (h : Canonical P Q d) : Canonical P Q (creditTimeout d who q) := by
  unfold creditTimeout
  split
  · exact canonical_contextTimeout h
  · exact canonical_onEngine h (fun _ h => canonical_ite (canonical_unitTimeout h) h)
  · exact canonical_bothUnits h (fun _ h => canonical_ite (canonical_unitTimeout h) h)
  · exact canonical_bothUnits h (fun _ h => canonical_senderTimeout h)
theorem chargeIdle_mem {b key n fclk} {t : Tile} : (chargeIdle d b key n fclk t).mem = t.mem := by
  induction n generalizing fclk t with
  | zero => rfl
  | succ n ih =>
    rw [chargeIdle, ih]
    split <;> rfl
theorem memWf_tickTile {b n key} {t : Tile} (ht : memWf t.mem = true) : memWf (tickTile d b n key t).mem = true := by
  have hc {m fclk} : memWf (chargeIdle d b key m fclk t).mem = true := chargeIdle_mem.symm ▸ ht
  unfold tickTile
  exact ite_memWf (ite_memWf hc hc) (foldl_memWf (m := Tile.mem) (f := charge n) (fun _ _ hm => hm) ht)
theorem canonical_tickBerth {b} (h : Canonical P Q d) : Canonical P Q (tickBerth d b) := by
  refine canonical_ite h (canonical_watchEnds (canonical_setBerth h fun hQ => ⟨(h.berth hQ b).1, fun y hy => ?_⟩))
  obtain ⟨z, hz, rfl⟩ := List.mem_map.1 hy
  exact memWf_tickTile ((h.berth hQ b).2 z hz)
theorem canonical_tickTime (h : Canonical P Q d) : Canonical P Q (tickTime d) :=
  canonical_time h fun _ => Nat.mod_lt _ (Nat.two_pow_pos 64)
theorem canonical_tick (h : Canonical P Q d) : Canonical P Q (tick d) :=
  canonical_ite (canonical_foldl (canonical_tickTime h) fun _ _ h => canonical_tickBerth h) h

end Sys2Proof.Machine
end


section
/-! Commands as functions of the state: each one answers a state with the same queue of waiting commands, and what it may do to the
module is what its effect on the device may do. -/

namespace Sys2Proof.Machine

-- Many short proofs: elaborated in turn, they do not wait for one another in threads of their own.
set_option Elab.async false

/-- The command `f` leaves the queue of waiting commands alone and takes the module to one that `R` allows. -/
def Takes (R : Device → Device → Prop) (f : State → Host.Outcome State Fault Refusal) : Prop :=
  ∀ s t, f s = .next t → t.pending = s.pending ∧ R s.dev t.dev

variable {R : Device → Device → Prop}

theorem takes_onDev {f : Device → Device} (h : ∀ d, R d (f d)) : Takes R (onDev f) := by
  rintro s t ⟨⟩
  exact ⟨rfl, h s.dev⟩

theorem takes_guarded {p : Device → Bool} {f : Device → Device} (hrefl : ∀ d, R d d) (h : ∀ d, p d = true → R d (f d)) :
    Takes R (onDev (guarded p f)) :=
  takes_onDev fun d => by
    by_cases hp : p d = true
    · rw [guarded_pos f hp]
      exact h d hp
    · rw [guarded_neg f (by simpa using hp)]
      exact hrefl d

/-- A step command enters the hold's hurdle, waits or issues. -/
theorem takes_stepCommand {o : Nat} {u : ExecUnit} {mode ready : Xe → Bool} {op : Xe → Option Xe} {t : TileId} {c : Fin 4}
    (hrefl : ∀ d, R d d) (hhurdle : ∀ d b key n hid, R d (hurdleStart (noteState d b key n .hurdle) b .berth hid))
    (hwait : ∀ d b key n, R d (noteState d b key n .wait))
    (hissue : ∀ d b key n z, op (stepOf d b key n) = some z → R d (commitStep d b key u (stepOf d b key n) z)) :
    Takes R (stepCommand o u mode ready op t c) := by
  intro s s' h
  obtain rfl | ⟨-, rfl⟩ | rfl | ⟨z, hz, -, -, -, -, -, -, -, -, -, rfl⟩ := stepCommand_next h
  · exact ⟨rfl, hrefl _⟩
  · exact ⟨rfl, hhurdle _ _ _ _ _⟩
  · exact ⟨rfl, hwait _ _ _ _⟩
  · exact ⟨rfl, hissue _ _ _ _ z hz⟩

/-- A stride instruction acts on the running configuration, or between two exchanges of the configurations. -/
theorem takes_strideCommand {o : Nat} {ready : Device → Se → Bool} {act : Device → Se → Option Device} {b e pt : Nat}
    (hrefl : ∀ d, R d d) (htrans : ∀ {d d' d''}, R d d' → R d' d'' → R d d'') (hswap : ∀ d, R d (swapUnits d b))
    (hact : ∀ d d', act d (seOf d b e pt) = some d' → R d d') : Takes R (strideCommand o ready act b e pt) := by
  have hissue : Takes R (issueStride o ready act b e pt) := by
    intro s s' h
    obtain rfl | ⟨d, -, -, -, hd, rfl⟩ := issueStride_next h
    · exact ⟨rfl, hrefl _⟩
    · exact ⟨rfl, hact _ _ hd⟩
  intro s s' h
  obtain ⟨-, h⟩ | ⟨-, t, ht, rfl⟩ := engineSide_next h
  · exact hissue s s' h
  · obtain ⟨hpending, hR⟩ := hissue _ _ ht
    exact ⟨hpending, htrans (hswap s.dev) (htrans hR (hswap t.dev))⟩

/-- A light request faults, or joins its controller's queue. -/
theorem takes_lightRequest (b : Fin 4) (r : LightReq) (hrefl : ∀ d, R d d)
    (h : ∀ d, R d (modBerth d b.val (fun x => { x with hbm := { x.hbm with lightQ := x.hbm.lightQ ++ [r] } }))) :
    Takes R (exec (.lightRequest b r)) := by
  change Takes R (execLightRequest b r)
  by_cases hr : 12884901888 ≤ r.addr
  · intro s t ht
    simp [execLightRequest, hr] at ht
  · have heq : execLightRequest b r = onDev _ := funext fun s => if_neg hr
    exact heq ▸ takes_guarded hrefl fun d _ => h d


/-- A command that keeps the byte memories canonical. -/
abbrev Keeps (P Q : Prop) (d e : Device) : Prop := Canonical P Q d → Canonical P Q e

section Keeps

variable {P Q : Prop}

theorem keeps_onDev {f : Device → Device} (h : ∀ d, Canonical P Q d → Canonical P Q (f d)) : Takes (Keeps P Q) (onDev f) :=
  takes_onDev h

theorem stepOf_mem (d : Device) (b key n : Nat) : (stepOf d b key n).t.mem = (tileAt d b key).mem :=
  (sameWork_readPopped _).mem

/-- An operation keeps the block memory of its tile canonical. -/
def OpKeeps (op : Xe → Option Xe) : Prop := ∀ x, Answers (fun z => memWf x.t.mem = true → memWf z.t.mem = true) (op x)

theorem opKeeps_of_storesNothing {op : Xe → Option Xe} (h : ∀ x, StoresNothing x (op x)) : OpKeeps op :=
  fun x z hz hx => (congrArg memWf (h x z hz)).trans hx

theorem opKeeps_of_storesIn {op : Xe → Option Xe} {A : Xe → Nat → Prop} (h : ∀ x, StoresIn (A x) x (op x)) : OpKeeps op :=
  fun x z hz hx => (h x z hz hx).1

theorem keeps_stepCommand {o : Nat} {u : ExecUnit} {mode ready : Xe → Bool} {op : Xe → Option Xe} {t : TileId} {c : Fin 4}
    (hop : OpKeeps op) : Takes (Keeps P Q) (stepCommand o u mode ready op t c) :=
  takes_stepCommand (fun _ h => h) (fun _ _ _ _ _ h => canonical_hurdleStart (canonical_noteState h))
    (fun _ _ _ _ h => canonical_noteState h)
    (fun d b key n z hz h => canonical_commitStep h fun hQ =>
      hop _ z hz ((congrArg memWf (stepOf_mem d b key n)).trans (h.tile hQ b key)))

theorem keeps_strideCommand {o : Nat} {ready : Device → Se → Bool} {act : Device → Se → Option Device} {b e pt : Nat}
    (hact : ∀ {d x e}, Canonical P Q d → act d x = some e → Canonical P Q e) :
    Takes (Keeps P Q) (strideCommand o ready act b e pt) :=
  takes_strideCommand (fun _ h => h) (fun h k hd => k (h hd)) (fun _ h => canonical_swapUnits h)
    (fun _ _ ha h => hact h ha)

/-! Tile steps -/

theorem keeps_execNop {t c} : Takes (Keeps P Q) (execNop t c) :=
  keeps_stepCommand (opKeeps_of_storesNothing storesNothing_opNop)
theorem keeps_execWait {t c} : Takes (Keeps P Q) (execWait t c) :=
  keeps_stepCommand (opKeeps_of_storesNothing storesNothing_opNop)
theorem keeps_execHurdle {t c} : Takes (Keeps P Q) (execHurdle t c) :=
  keeps_stepCommand (opKeeps_of_storesNothing storesNothing_opHurdle)
theorem keeps_execBand {t c} : Takes (Keeps P Q) (execBand t c) :=
  keeps_stepCommand (opKeeps_of_storesNothing storesNothing_opBand)
theorem keeps_execBchk {t c} : Takes (Keeps P Q) (execBchk t c) :=
  keeps_stepCommand (opKeeps_of_storesNothing storesNothing_opBchk)
theorem keeps_execScale {t c} : Takes (Keeps P Q) (execScale t c) :=
  keeps_stepCommand (opKeeps_of_storesNothing storesNothing_opScale)
theorem keeps_execStatSend {t c} : Takes (Keeps P Q) (execStatSend t c) :=
  keeps_stepCommand (opKeeps_of_storesNothing storesNothing_opStatSend)
theorem keeps_execStatUpdate {t c} : Takes (Keeps P Q) (execStatUpdate t c) :=
  keeps_stepCommand (opKeeps_of_storesIn storesIn_opStatUpdate)
theorem keeps_execSemit {t c} : Takes (Keeps P Q) (execSemit t c) :=
  keeps_stepCommand (opKeeps_of_storesNothing storesNothing_opSemit)
theorem keeps_execSend {t c} : Takes (Keeps P Q) (execSend t c) :=
  keeps_stepCommand (opKeeps_of_storesNothing storesNothing_opSend)
theorem keeps_execCopy {t c} : Takes (Keeps P Q) (execCopy t c) := keeps_stepCommand (opKeeps_of_storesIn storesIn_opCopy)
theorem keeps_execPass {t c} : Takes (Keeps P Q) (execPass t c) :=
  keeps_stepCommand (opKeeps_of_storesNothing storesNothing_opPass)
theorem keeps_execConv {t c} : Takes (Keeps P Q) (execConv t c) :=
  keeps_stepCommand (opKeeps_of_storesNothing storesNothing_opConv)
theorem keeps_execMatw {t c} : Takes (Keeps P Q) (execMatw t c) :=
  keeps_stepCommand (opKeeps_of_storesNothing storesNothing_opMatw)
theorem keeps_execDwconv {t c} : Takes (Keeps P Q) (execDwconv t c) :=
  keeps_stepCommand (opKeeps_of_storesNothing storesNothing_opDwconv)
theorem keeps_execMata {t c} : Takes (Keeps P Q) (execMata t c) :=
  keeps_stepCommand (opKeeps_of_storesNothing storesNothing_opMata)
theorem keeps_execSpec {t c} : Takes (Keeps P Q) (execSpec t c) := keeps_stepCommand (opKeeps_of_storesIn storesIn_opSpec)
theorem keeps_execZpc {t c} : Takes (Keeps P Q) (execZpc t c) :=
  keeps_stepCommand (opKeeps_of_storesNothing storesNothing_opZpc)
theorem keeps_execRq {t c} : Takes (Keeps P Q) (execRq t c) := keeps_stepCommand (opKeeps_of_storesIn storesIn_opRq)
theorem keeps_execAccin {t c} : Takes (Keeps P Q) (execAccin t c) :=
  keeps_stepCommand (opKeeps_of_storesNothing storesNothing_opAccin)
theorem keeps_execAccout {t c} : Takes (Keeps P Q) (execAccout t c) := keeps_stepCommand (opKeeps_of_storesIn storesIn_opAccout)
theorem keeps_execRotw {t c} : Takes (Keeps P Q) (execRotw t c) := keeps_stepCommand (opKeeps_of_storesIn storesIn_opRotw)
theorem keeps_execTfn {t c} : Takes (Keeps P Q) (execTfn t c) :=
  keeps_stepCommand (opKeeps_of_storesNothing storesNothing_opTfn)
theorem keeps_execElt {t c} : Takes (Keeps P Q) (execElt t c) :=
  keeps_stepCommand (opKeeps_of_storesNothing storesNothing_opElt)
theorem keeps_execPoolMax {t c} : Takes (Keeps P Q) (execPoolMax t c) :=
  keeps_stepCommand (opKeeps_of_storesNothing storesNothing_opPoolMax)
theorem keeps_execPoolAverage {t c} : Takes (Keeps P Q) (execPoolAverage t c) :=
  keeps_stepCommand (opKeeps_of_storesNothing storesNothing_opPoolAverage)
theorem keeps_execGpoolMaxAccumulate {t c} : Takes (Keeps P Q) (execGpoolMaxAccumulate t c) :=
  keeps_stepCommand (opKeeps_of_storesNothing fun x => storesNothing_gpoolAccumulate x _)
theorem keeps_execGpoolSumAccumulate {t c} : Takes (Keeps P Q) (execGpoolSumAccumulate t c) :=
  keeps_stepCommand (opKeeps_of_storesNothing fun x => storesNothing_gpoolAccumulate x _)
theorem keeps_execGpoolEmitMax {t c} : Takes (Keeps P Q) (execGpoolEmitMax t c) :=
  keeps_stepCommand (opKeeps_of_storesNothing storesNothing_opGpoolEmitMax)
theorem keeps_execGpoolEmitAverage {t c} : Takes (Keeps P Q) (execGpoolEmitAverage t c) :=
  keeps_stepCommand (opKeeps_of_storesNothing storesNothing_opGpoolEmitAvg)
theorem keeps_execResize {t c} : Takes (Keeps P Q) (execResize t c) :=
  keeps_stepCommand (opKeeps_of_storesNothing storesNothing_opResize)
theorem keeps_execSoftmax {t c} : Takes (Keeps P Q) (execSoftmax t c) :=
  keeps_stepCommand (opKeeps_of_storesNothing storesNothing_opSoftmax)
theorem keeps_execLnorm {t c} : Takes (Keeps P Q) (execLnorm t c) :=
  keeps_stepCommand (opKeeps_of_storesNothing storesNothing_opLnorm)
theorem keeps_execXformFr {t c} : Takes (Keeps P Q) (execXformFr t c) :=
  keeps_stepCommand (opKeeps_of_storesIn storesIn_opXformFr)
theorem keeps_execXformFs {t c} : Takes (Keeps P Q) (execXformFs t c) :=
  keeps_stepCommand (opKeeps_of_storesIn fun x => storesIn_xformBlock x _ _)
theorem keeps_execXformIs {t c} : Takes (Keeps P Q) (execXformIs t c) :=
  keeps_stepCommand (opKeeps_of_storesIn fun x => storesIn_xformBlock x _ _)
theorem keeps_execXformIc {t c} : Takes (Keeps P Q) (execXformIc t c) :=
  keeps_stepCommand (opKeeps_of_storesIn storesIn_opXformIc)
theorem keeps_execSteer {t c} : Takes (Keeps P Q) (execSteer t c) :=
  keeps_stepCommand (opKeeps_of_storesNothing storesNothing_opSteer)
theorem keeps_execMerge {t c} : Takes (Keeps P Q) (execMerge t c) :=
  keeps_stepCommand (opKeeps_of_storesNothing storesNothing_opMerge)
theorem keeps_execSelect {t c} : Takes (Keeps P Q) (execSelect t c) := keeps_stepCommand (opKeeps_of_storesIn storesIn_opSelect)
theorem keeps_execCrop {t c} : Takes (Keeps P Q) (execCrop t c) :=
  keeps_stepCommand (opKeeps_of_storesNothing storesNothing_opCrop)
theorem keeps_execBwd {t c} : Takes (Keeps P Q) (execBwd t c) :=
  keeps_stepCommand (opKeeps_of_storesNothing storesNothing_opBwd)
theorem keeps_execWgrad {t c} : Takes (Keeps P Q) (execWgrad t c) :=
  keeps_stepCommand (opKeeps_of_storesNothing storesNothing_opWgrad)
theorem keeps_execOpt {t c} : Takes (Keeps P Q) (execOpt t c) := keeps_stepCommand (opKeeps_of_storesIn storesIn_opOpt)
theorem keeps_execOptFin {t c} : Takes (Keeps P Q) (execOptFin t c) := keeps_stepCommand (opKeeps_of_storesIn storesIn_opOptFin)
theorem keeps_execLossCe {t c} : Takes (Keeps P Q) (execLossCe t c) :=
  keeps_stepCommand (op := opLossCe) (opKeeps_of_storesNothing storesNothing_opLossCe)
theorem keeps_execLossBce {t c} : Takes (Keeps P Q) (execLossBce t c) :=
  keeps_stepCommand (op := opLossBce) (opKeeps_of_storesNothing storesNothing_opLossBce)
theorem keeps_execLossSmoothL1 {t c} : Takes (Keeps P Q) (execLossSmoothL1 t c) :=
  keeps_stepCommand (opKeeps_of_storesNothing storesNothing_opLossSmoothL1)
theorem keeps_execLossDrain {t c} : Takes (Keeps P Q) (execLossDrain t c) :=
  keeps_stepCommand (opKeeps_of_storesNothing storesNothing_opLossDrain)

/-! Stride instructions -/

theorem keeps_execSeta {b e pt} : Takes (Keeps P Q) (execSeta b e pt) := keeps_strideCommand canonical_opSeta
theorem keeps_execAdda {b e pt} : Takes (Keeps P Q) (execAdda b e pt) := keeps_strideCommand canonical_opAdda
theorem keeps_execSets {b e pt} : Takes (Keeps P Q) (execSets b e pt) := keeps_strideCommand canonical_opSets
theorem keeps_execNexts {b e pt} : Takes (Keeps P Q) (execNexts b e pt) := keeps_strideCommand canonical_opNexts
theorem keeps_execLoop {b e pt} : Takes (Keeps P Q) (execLoop b e pt) := keeps_strideCommand canonical_opLoop
theorem keeps_execEndl {b e pt} : Takes (Keeps P Q) (execEndl b e pt) := keeps_strideCommand canonical_opEndl
theorem keeps_execRd {b e pt} : Takes (Keeps P Q) (execRd b e pt) := keeps_strideCommand canonical_opRd
theorem keeps_execWr {b e pt} : Takes (Keeps P Q) (execWr b e pt) := keeps_strideCommand canonical_opWr
theorem keeps_execPad {b e pt} : Takes (Keeps P Q) (execPad b e pt) := keeps_strideCommand canonical_opPad
theorem keeps_execTake {b e pt} : Takes (Keeps P Q) (execTake b e pt) := keeps_strideCommand canonical_opTake
theorem keeps_execPost {b e pt} : Takes (Keeps P Q) (execPost b e pt) := keeps_strideCommand canonical_opPost
theorem keeps_execFence {b e pt} : Takes (Keeps P Q) (execFence b e pt) := keeps_strideCommand canonical_opFence
theorem keeps_execEndp {b e pt} : Takes (Keeps P Q) (execEndp b e pt) := keeps_strideCommand canonical_opEndp

/-! The other commands act on the device -/

theorem keeps_execStepComplete {t c u} : Takes (Keeps P Q) (execStepComplete t c u) := by
  refine keeps_onDev fun _ h => ?_
  dsimp only
  split
  · exact h
  · exact canonical_ite (canonical_finishStep h) h
theorem keeps_execSequencerWatchdog {t c u} : Takes (Keeps P Q) (execSequencerWatchdog t c u) := by
  refine keeps_onDev fun _ h => ?_
  dsimp only
  split
  · exact h
  · exact canonical_berthReport (canonical_modTile h)
theorem keeps_execRerunAck {t c} : Takes (Keeps P Q) (execRerunAck t c) :=
  keeps_onDev fun _ h => canonical_ite (canonical_modTile (canonical_modBerth h)) h
theorem keeps_execFlitReceive {t p err} : Takes (Keeps P Q) (execFlitReceive t p err) :=
  keeps_onDev fun _ h => canonical_guarded h fun h => canonical_flitReceive h
theorem takeCredit_mem (cto oq : Nat) (t : Tile) : (takeCredit cto oq t).mem = t.mem := by
  unfold takeCredit
  split <;> rfl
theorem keeps_execCreditReceive {t oq} : Takes (Keeps P Q) (execCreditReceive t oq) :=
  keeps_onDev fun _ h => canonical_guarded h fun h => canonical_modBerth (canonical_modTile h fun _ ht =>
    (congrArg memWf (takeCredit_mem _ _ _)).trans ht)
theorem noteMark_mem (t : Tile) (f : Flit) : (noteMark t f).mem = t.mem := by
  unfold noteMark
  split <;> rfl
theorem keeps_execEpochMarkReceive {t p} : Takes (Keeps P Q) (execEpochMarkReceive t p) := by
  refine keeps_onDev fun _ h => ?_
  dsimp only
  split
  · exact h
  · exact canonical_ite (canonical_modTile (canonical_takeFlit h) fun _ ht => (congrArg memWf (noteMark_mem _ _)).trans ht) h
theorem keeps_execHurdlePortWrite {core scope hid} : Takes (Keeps P Q) (execHurdlePortWrite core scope hid) :=
  keeps_onDev fun _ h => canonical_hurdlePort h
theorem keeps_execHurdleComplete {b scope hid} : Takes (Keeps P Q) (execHurdleComplete b scope hid) :=
  keeps_onDev fun _ h => canonical_guarded h fun h => canonical_hurdleComplete h
theorem keeps_execHurdleTimeout {b scope hid} : Takes (Keeps P Q) (execHurdleTimeout b scope hid) :=
  keeps_onDev fun _ h => canonical_guarded h fun h => canonical_hurdleTimeout h
theorem keeps_execShuttleSlotSend {l} : Takes (Keeps P Q) (execShuttleSlotSend l) :=
  keeps_onDev fun _ h => canonical_guarded h fun h => canonical_setLink (canonical_sendSlot h)
theorem keeps_execShuttleFlitReceive {l err} : Takes (Keeps P Q) (execShuttleFlitReceive l err) :=
  keeps_onDev fun _ h => canonical_guarded h fun h => canonical_shuttleReceive h
theorem keeps_execGangwaySpareTrained {fromDie1 n} : Takes (Keeps P Q) (execGangwaySpareTrained fromDie1 n) :=
  keeps_onDev fun _ h => canonical_guarded h fun h => canonical_spareTrained h
theorem keeps_execStationCreditForward {b s p} : Takes (Keeps P Q) (execStationCreditForward b s p) :=
  keeps_onDev fun _ h => canonical_bothUnits h (fun _ h => canonical_forwardCredits h)
theorem keeps_execLinkUnitForward {b s p} : Takes (Keeps P Q) (execLinkUnitForward b s p) :=
  keeps_onDev fun _ h => canonical_bothUnits h (fun _ h => canonical_linkForward h)
theorem keeps_execLinkFreedSend {b s p} : Takes (Keeps P Q) (execLinkFreedSend b s p) :=
  keeps_onDev fun _ h => canonical_bothUnits h (fun _ h => canonical_sendFreed h)
theorem keeps_execLinkFreedAccept {b s p} : Takes (Keeps P Q) (execLinkFreedAccept b s p) :=
  keeps_onDev fun _ h => canonical_bothUnits h (fun _ h => canonical_takeFreed h)
theorem keeps_execTimetableSwitch {l} : Takes (Keeps P Q) (execTimetableSwitch l) := by
  refine keeps_onDev fun _ h => ?_
  dsimp only
  split
  · exact h
  · exact canonical_ite (canonical_setLink h) h
theorem keeps_execLedgerTick : Takes (Keeps P Q) (execLedgerTick) :=
  keeps_onDev fun _ h => canonical_guarded h fun h => canonical_ledgerTick h
theorem keeps_execLedgerCheck : Takes (Keeps P Q) (execLedgerCheck) := keeps_onDev fun _ h => canonical_ledgerCheck h
theorem keeps_execWrAcknowledge {b e} : Takes (Keeps P Q) (execWrAcknowledge b e) :=
  keeps_onDev fun _ h => canonical_guarded h fun h => canonical_wrAcknowledge h
theorem keeps_execPacerGrant {b} : Takes (Keeps P Q) (execPacerGrant b) :=
  keeps_onDev fun _ h => canonical_guarded h fun h => canonical_pacerGrant h
theorem keeps_execHbmAccessComplete {b} : Takes (Keeps P Q) (execHbmAccessComplete b) :=
  keeps_onDev fun _ h => canonical_guarded h fun h => canonical_hbmComplete h
theorem keeps_execEthFrameReceive {port f} : Takes (Keeps P Q) (execEthFrameReceive port f) :=
  keeps_onDev fun _ h => canonical_guarded h fun h => canonical_receiveFrame h
theorem keeps_execReorderTimeout {n} : Takes (Keeps P Q) (execReorderTimeout n) :=
  keeps_onDev fun _ h => canonical_guarded h fun h => canonical_resolveGap h
theorem keeps_execDecodeComplete {b slice} : Takes (Keeps P Q) (execDecodeComplete b slice) :=
  keeps_onDev fun _ h => canonical_decodeComplete h
theorem keeps_execDecodeSliceTimeout {b slice} : Takes (Keeps P Q) (execDecodeSliceTimeout b slice) := by
  refine keeps_onDev fun _ h => ?_
  split
  · exact h
  · split
    · exact h
    · exact canonical_ite (canonical_berthReport h) h
theorem keeps_execFeederFrameStart {b} : Takes (Keeps P Q) (execFeederFrameStart b) :=
  keeps_onDev fun _ h => canonical_guarded h fun h => canonical_onUnits h (fun _ h => canonical_feederFrame h)
theorem keeps_execRawDescriptor {n desc} : Takes (Keeps P Q) (execRawDescriptor n desc) :=
  keeps_onDev fun _ h => canonical_guarded h fun h => canonical_rawDescriptor h
theorem keeps_execRawCopyComplete {n pic} : Takes (Keeps P Q) (execRawCopyComplete n pic) := by
  refine keeps_onDev fun _ h => ?_
  split
  · exact h
  · exact canonical_consumeItem (canonical_pushPicture (canonical_setStreamState (canonical_modStream h)))
theorem keeps_execCropGather {b} : Takes (Keeps P Q) (execCropGather b) := by
  refine keeps_onDev fun _ h => canonical_onUnits h (fun _ h => ?_)
  split
  · exact h
  · exact canonical_cropMarks (canonical_cropGather h)
theorem keeps_execResultFrame {b} : Takes (Keeps P Q) (execResultFrame b) :=
  keeps_onDev fun _ h => canonical_onUnits h (fun _ h => canonical_guarded h fun h => canonical_resultFrame h)
theorem keeps_execFeatureItem {b} : Takes (Keeps P Q) (execFeatureItem b) := by
  refine keeps_onDev fun _ h => canonical_onUnits h (fun _ h => ?_)
  split
  · exact h
  · exact canonical_pokeSwitch (canonical_featureItem h)
theorem keeps_execRerunPost {b} : Takes (Keeps P Q) (execRerunPost b) := by
  refine keeps_onDev fun _ h => ?_
  split
  · exact h
  · exact canonical_modBerth (canonical_mk h)
theorem keeps_execQueuePointerMismatch {q} : Takes (Keeps P Q) (execQueuePointerMismatch q) :=
  keeps_onDev fun _ h => canonical_guarded h fun h => canonical_resetQueue h
theorem keeps_execQueueDoorbellPointer {q bytes w} : Takes (Keeps P Q) (execQueueDoorbellPointer q bytes w) :=
  keeps_onDev fun _ h => canonical_queueDoorbell h
theorem keeps_execQueueDoorbellArm {q bytes w} : Takes (Keeps P Q) (execQueueDoorbellArm q bytes w) :=
  keeps_onDev fun _ h => canonical_queueDoorbell h
theorem keeps_execQueueDoorbellFlush {q bytes w} : Takes (Keeps P Q) (execQueueDoorbellFlush q bytes w) :=
  keeps_onDev fun _ h => canonical_queueDoorbell h
theorem keeps_execQueueFlushCommand {q} : Takes (Keeps P Q) (execQueueFlushCommand q) :=
  keeps_onDev fun _ h => canonical_flushQueue h
theorem keeps_execQueueEnable {q} : Takes (Keeps P Q) (execQueueEnable q) := keeps_onDev fun _ h => canonical_enableQueue h
theorem keeps_execQueueDisable {q} : Takes (Keeps P Q) (execQueueDisable q) := keeps_onDev fun _ h => canonical_disableQueue h
theorem keeps_execQueueDataRead {q len} : Takes (Keeps P Q) (execQueueDataRead q len) :=
  keeps_onDev fun _ h => canonical_guarded h fun h => canonical_dataRead h
theorem keeps_execQueueDataWrite {q item gap} : Takes (Keeps P Q) (execQueueDataWrite q item gap) :=
  keeps_onDev fun _ h => canonical_dataWrite h
theorem keeps_execEventOccurrence {src info} : Takes (Keeps P Q) (execEventOccurrence src info) := by
  refine keeps_onDev fun _ h => ?_
  split
  · exact canonical_sharedEvent h
  · exact canonical_deliver h
  · exact canonical_ite (canonical_deliver h) h
theorem keeps_execEventPendingEnter {h} : Takes (Keeps P Q) (execEventPendingEnter h) :=
  keeps_onDev fun _ h => canonical_enterPending h
theorem keeps_execEventDoorbellCi {h bytes w} : Takes (Keeps P Q) (execEventDoorbellCi h bytes w) :=
  keeps_onDev fun _ h => canonical_eventDoorbell h
theorem keeps_execEventDoorbellArm {h bytes w} : Takes (Keeps P Q) (execEventDoorbellArm h bytes w) :=
  keeps_onDev fun _ h => canonical_eventDoorbell h
theorem keeps_execEventQueueEnable {h} : Takes (Keeps P Q) (execEventQueueEnable h) :=
  keeps_onDev fun _ h => canonical_evqEnable h
theorem keeps_execMbxGo {w} : Takes (Keeps P Q) (execMbxGo w) :=
  keeps_onDev fun _ h => canonical_guarded h fun h => canonical_mailboxControl h
theorem keeps_execMbxDoneClear {w} : Takes (Keeps P Q) (execMbxDoneClear w) :=
  keeps_onDev fun _ h => canonical_guarded h fun h => canonical_mailboxControl h
theorem keeps_execMbxResponseDone : Takes (Keeps P Q) (execMbxResponseDone) := by
  refine keeps_onDev fun _ h => ?_
  split
  · exact h
  · exact canonical_ite (canonical_mailboxDone h) h
theorem keeps_execRegisterWrite {off bytes v} : Takes (Keeps P Q) (execRegisterWrite off bytes v) :=
  keeps_onDev fun _ h => canonical_guarded h fun h => canonical_registerWrite h
theorem keeps_execRead {tr msg} : Takes (Keeps P Q) (execRead tr msg) :=
  keeps_onDev fun _ h => canonical_serve (fun _ _ h => canonical_runRead h) h
theorem keeps_execWrite {tr msg} : Takes (Keeps P Q) (execWrite tr msg) :=
  keeps_onDev fun _ h => canonical_serve (fun _ _ h => canonical_runWrite h) h
theorem keeps_execSegInit {tr msg} : Takes (Keeps P Q) (execSegInit tr msg) :=
  keeps_onDev fun _ h => canonical_serve (fun _ _ h => canonical_runSegInit h) h
theorem keeps_execSegData {tr msg} : Takes (Keeps P Q) (execSegData tr msg) :=
  keeps_onDev fun _ h => canonical_serve (fun _ _ h => canonical_runSegData h) h
theorem keeps_execSegEnd {tr msg} : Takes (Keeps P Q) (execSegEnd tr msg) :=
  keeps_onDev fun _ h => canonical_serve (fun _ _ h => canonical_runSegEnd h) h
theorem keeps_execSegAbort {tr msg} : Takes (Keeps P Q) (execSegAbort tr msg) :=
  keeps_onDev fun _ h => canonical_serve (fun _ _ h => canonical_runSegAbort h) h
theorem keeps_execSegTransferTimeout {index sub} : Takes (Keeps P Q) (execSegTransferTimeout index sub) := by
  refine keeps_onDev fun _ h => ?_
  split
  · exact h
  · exact canonical_ite (canonical_abortTransfer h) h
theorem keeps_execOpen {tr msg} : Takes (Keeps P Q) (execOpen tr msg) :=
  keeps_onDev fun _ h => canonical_serve (fun _ _ h => canonical_runOpen h) h
theorem keeps_execClose {tr msg} : Takes (Keeps P Q) (execClose tr msg) :=
  keeps_onDev fun _ h => canonical_serve (fun _ _ h => canonical_runClose h) h
theorem keeps_execInfo {tr msg} : Takes (Keeps P Q) (execInfo tr msg) :=
  keeps_onDev fun _ h => canonical_serve (fun _ _ h => canonical_runInfo h) h
theorem keeps_execSessionIdleTimeout {sid} : Takes (Keeps P Q) (execSessionIdleTimeout sid) :=
  keeps_onDev fun _ h => canonical_guarded h fun h => canonical_closeSession h
theorem keeps_execMctpControl {c} : Takes (Keeps P Q) (execMctpControl c) := by
  refine keeps_onDev fun _ h => canonical_guarded h fun h => canonical_mk ?_
  split
  · exact canonical_mk h
  · exact h
theorem keeps_execMgmtDatagram {d} : Takes (Keeps P Q) (execMgmtDatagram d) :=
  keeps_onDev fun _ h => canonical_guarded h fun h => canonical_mgmtDatagram h
theorem keeps_execJournalCommit : Takes (Keeps P Q) (execJournalCommit) := by
  refine keeps_onDev fun _ h => ?_
  split
  · exact h
  · exact canonical_commitRecord (canonical_mk h)
theorem keeps_execFwBootNext : Takes (Keeps P Q) (execFwBootNext) :=
  keeps_onDev fun _ h => canonical_guarded h fun h => canonical_fwCommand h
theorem keeps_execFwBootWarm : Takes (Keeps P Q) (execFwBootWarm) :=
  keeps_onDev fun _ h => canonical_guarded h fun h => canonical_fwCommand h
theorem keeps_execFwCancel : Takes (Keeps P Q) (execFwCancel) :=
  keeps_onDev fun _ h => canonical_guarded h fun h => canonical_fwCommand h
theorem keeps_execBootReadyTimeout : Takes (Keeps P Q) (execBootReadyTimeout) :=
  keeps_onDev fun _ h => canonical_guarded h fun h => canonical_bootAgain h
theorem keeps_execRestoreDefaults : Takes (Keeps P Q) (execRestoreDefaults) :=
  keeps_onDev fun _ h => canonical_restoreDefaults h
theorem keeps_execDefaultsCauseClear {v} : Takes (Keeps P Q) (execDefaultsCauseClear v) :=
  keeps_onDev fun _ h => canonical_causeClear h
theorem keeps_execTimeWrite {v} : Takes (Keeps P Q) (execTimeWrite v) := keeps_onDev fun _ h => canonical_timeWrite h
theorem keeps_execPpsEdge {samples te} : Takes (Keeps P Q) (execPpsEdge samples te) :=
  keeps_onDev fun _ h => canonical_guarded h fun h => canonical_ppsAccept h
theorem keeps_execPpsMissed : Takes (Keeps P Q) (execPpsMissed) :=
  keeps_onDev fun _ h => canonical_guarded h fun h => canonical_ite (canonical_odPut (canonical_odAdd (canonical_mk h)))
    (canonical_odAdd (canonical_mk h))
theorem keeps_execAnchorWrite {n v} : Takes (Keeps P Q) (execAnchorWrite n v) := keeps_onDev fun _ h => canonical_anchorWrite h
theorem keeps_execStreamEnable {n} : Takes (Keeps P Q) (execStreamEnable n) :=
  keeps_onDev fun _ h => canonical_guarded h fun h => canonical_enableStream h
theorem keeps_execStreamDisable {n} : Takes (Keeps P Q) (execStreamDisable n) :=
  keeps_onDev fun _ h => canonical_disableStream h
theorem keeps_execImageLoadCheckDone {b k} : Takes (Keeps P Q) (execImageLoadCheckDone b k) :=
  keeps_onDev fun _ h => canonical_guarded h fun h => canonical_checkDone h
theorem keeps_execSlotWriteDone {b k} : Takes (Keeps P Q) (execSlotWriteDone b k) :=
  keeps_onDev fun _ h => canonical_guarded h fun h => canonical_writeDone h
theorem keeps_execSlotUnload {b k} : Takes (Keeps P Q) (execSlotUnload b k) :=
  keeps_onDev fun _ h => canonical_unloadSlot (canonical_wakeBerth h)
theorem keeps_execChangeoverOrderly {b k} : Takes (Keeps P Q) (execChangeoverOrderly b k) :=
  keeps_onDev fun _ h => canonical_orderly h
theorem keeps_execChangeoverForcedRefeed {b k halted} : Takes (Keeps P Q) (execChangeoverForcedRefeed b k halted) :=
  keeps_onDev fun _ h => canonical_forced h
theorem keeps_execChangeoverForcedDrop {b k halted} : Takes (Keeps P Q) (execChangeoverForcedDrop b k halted) :=
  keeps_onDev fun _ h => canonical_forced h
theorem keeps_execChangeoverForcedHold {b k halted} : Takes (Keeps P Q) (execChangeoverForcedHold b k halted) :=
  keeps_onDev fun _ h => canonical_forced h
theorem keeps_execChangeoverStop {b mode} : Takes (Keeps P Q) (execChangeoverStop b mode) :=
  keeps_onDev fun _ h => canonical_ite (canonical_orderly h) (canonical_forced h)
theorem keeps_execReleaseStageOutputs {b} : Takes (Keeps P Q) (execReleaseStageOutputs b) :=
  keeps_onDev fun _ h => canonical_guarded h fun h => canonical_releaseOutputs h
theorem keeps_execReleaseStageWriteEnables {b} : Takes (Keeps P Q) (execReleaseStageWriteEnables b) :=
  keeps_onDev fun _ h => canonical_guarded h fun h => canonical_releaseWrites h
theorem keeps_execReleaseStageResets {b} : Takes (Keeps P Q) (execReleaseStageResets b) :=
  keeps_onDev fun _ h => canonical_guarded h fun h => canonical_releaseResets h
theorem keeps_execFeederEpochMark {b} : Takes (Keeps P Q) (execFeederEpochMark b) :=
  keeps_onDev fun _ h => canonical_guarded h fun h => canonical_feederMark h
theorem sendOq_mem (t : Tile) (p : Plane) (q : Nat) (tok : Token) : (sendOq t p q tok).mem = t.mem := rfl
theorem memWf_drainContext {new c} {t : Tile} (ht : memWf t.mem = true) : memWf (drainContext new t c).mem = true := by
  unfold drainContext
  exact foldl_memWf (m := Tile.mem) (fun _ _ hm => (congrArg memWf (sendOq_mem _ _ _ _)).trans hm) ht
theorem keeps_execContextDrained {t c} : Takes (Keeps P Q) (execContextDrained t c) :=
  keeps_onDev fun _ h => canonical_guarded h fun h => canonical_switchTile (canonical_modTile h fun _ => memWf_drainContext)
theorem keeps_execChangeoverTimeout {b} : Takes (Keeps P Q) (execChangeoverTimeout b) :=
  keeps_onDev fun _ h => canonical_guarded h fun h => canonical_coStatus (canonical_ite (canonical_completeSwitch
    (canonical_berthEvent (canonical_refeedOutgoing (canonical_cutUnits (canonical_foldl h fun _ _ h => canonical_cutTile h)))))
    (canonical_setCo (canonical_setSlotState (canonical_berthEvent (canonical_refeedOutgoing (canonical_cutUnits
    (canonical_foldl h fun _ _ h => canonical_cutTile h)))))))
theorem keeps_execHalt {b} : Takes (Keeps P Q) (execHalt b) := keeps_onDev fun _ h => canonical_haltCommand h
theorem keeps_execHaltComplete {b} : Takes (Keeps P Q) (execHaltComplete b) :=
  keeps_onDev fun _ h => canonical_guarded h fun h => canonical_setBstate (canonical_haltContexts h)
theorem keeps_execResume {b} : Takes (Keeps P Q) (execResume b) := keeps_onDev fun _ h => canonical_resumeCommand h
theorem keeps_execScanOut {b} : Takes (Keeps P Q) (execScanOut b) := keeps_onDev fun _ h => canonical_scanOutCommand h
theorem keeps_execScanIn {b} : Takes (Keeps P Q) (execScanIn b) := keeps_onDev fun _ h => canonical_scanInCommand h
theorem keeps_execHoldRelease {b} : Takes (Keeps P Q) (execHoldRelease b) :=
  keeps_onDev fun _ h => canonical_holdReleaseCommand h
theorem keeps_execBerthReset {b} : Takes (Keeps P Q) (execBerthReset b) :=
  keeps_onDev fun _ h => canonical_guarded h fun h => canonical_berthResetAll (canonical_wakeBerth h)
theorem keeps_execTargetItemAccept {b item} : Takes (Keeps P Q) (execTargetItemAccept b item) := by
  refine keeps_onDev fun _ h => ?_
  split
  · exact h
  · exact canonical_ite (canonical_acceptTarget (canonical_ite (canonical_dropHostGaps h) h)) (canonical_ite
        (canonical_dropHostGaps h) h)
theorem keeps_execUpdateStart {b} : Takes (Keeps P Q) (execUpdateStart b) := by
  refine keeps_onDev fun _ h => ?_
  split
  · exact h
  · exact canonical_ite (canonical_startUpdate h) h
theorem keeps_execBudgetRefill {t} : Takes (Keeps P Q) (execBudgetRefill t) :=
  keeps_onDev fun _ h => canonical_ite (canonical_modTile h) h
theorem keeps_execEpochSnapshotDone {b} : Takes (Keeps P Q) (execEpochSnapshotDone b) := by
  refine keeps_onDev fun _ h => ?_
  split
  · exact h
  · exact canonical_ite (canonical_prepareSwap h) h
theorem keeps_execEntryTilesHeld {b} : Takes (Keeps P Q) (execEntryTilesHeld b) := by
  refine keeps_onDev fun _ h => ?_
  split
  · exact h
  · exact canonical_ite (canonical_modAdapt (canonical_armHold h)) h
theorem keeps_execAdaptPause {b} : Takes (Keeps P Q) (execAdaptPause b) := keeps_onDev fun _ h => canonical_pauseAdapt h
theorem keeps_execAdaptResume {b} : Takes (Keeps P Q) (execAdaptResume b) := keeps_onDev fun _ h => canonical_resumeAdapt h
theorem keeps_execRollbackOne {b} : Takes (Keeps P Q) (execRollbackOne b) := keeps_onDev fun _ h => canonical_rollback h
theorem keeps_execRollbackZero {b} : Takes (Keeps P Q) (execRollbackZero b) := keeps_onDev fun _ h => canonical_rollback h
theorem keeps_execRollbackTo {b} : Takes (Keeps P Q) (execRollbackTo b) := keeps_onDev fun _ h => canonical_rollback h
theorem keeps_execAdaptAbort {b} : Takes (Keeps P Q) (execAdaptAbort b) := keeps_onDev fun _ h => canonical_abortAdapt h
theorem keeps_execFolsaEnable {p} : Takes (Keeps P Q) (execFolsaEnable p) := keeps_onDev fun _ h => canonical_enableFolsa h
theorem keeps_execFolsaTrained {p} : Takes (Keeps P Q) (execFolsaTrained p) :=
  keeps_onDev fun _ h => canonical_guarded h fun h => canonical_modFolsa (canonical_setFState h)
theorem keeps_execFolsaFrameSend {p} : Takes (Keeps P Q) (execFolsaFrameSend p) :=
  keeps_onDev fun _ h => canonical_guarded h fun h => canonical_modFolsa h
theorem keeps_execFolsaFrameReceive {p bytes} : Takes (Keeps P Q) (execFolsaFrameReceive p bytes) :=
  keeps_onDev fun _ h => canonical_guarded h fun h => canonical_folsaFrame h
theorem keeps_execHello {p} : Takes (Keeps P Q) (execHello p) := by
  refine keeps_onDev fun _ h => ?_
  dsimp only
  split
  · exact h
  · exact canonical_ite (canonical_helloDone (canonical_setFolsa h)) h
theorem keeps_execSem {p} : Takes (Keeps P Q) (execSem p) := by
  refine keeps_onDev fun _ h => ?_
  dsimp only
  split
  · exact h
  · exact canonical_takeSem (canonical_setFolsa h)
theorem keeps_execPair {p} : Takes (Keeps P Q) (execPair p) := by
  refine keeps_onDev fun _ h => ?_
  dsimp only
  split
  · exact h
  · exact canonical_setFolsa h
theorem keeps_execFolsaLinkDown {p cause} : Takes (Keeps P Q) (execFolsaLinkDown p cause) :=
  keeps_onDev fun _ h => canonical_guarded h fun h => canonical_linkDown h
theorem keeps_execLinkHoldTimeout {p} : Takes (Keeps P Q) (execLinkHoldTimeout p) :=
  keeps_onDev fun _ h => canonical_guarded h fun h => canonical_holdTimeout h
theorem keeps_execFaultReport : Takes (Keeps P Q) (execFaultReport) := by
  refine keeps_onDev fun _ h => ?_
  split
  · exact h
  · exact canonical_hubReport (canonical_mk h)
theorem keeps_execStormClose : Takes (Keeps P Q) (execStormClose) :=
  keeps_onDev fun _ h => canonical_guarded h fun h => canonical_closeStorm h
theorem keeps_execCreditTimeout {who q} : Takes (Keeps P Q) (execCreditTimeout who q) :=
  keeps_onDev fun _ h => canonical_guarded h fun h => canonical_creditTimeout h
theorem keeps_execPurserWatchdog {core} : Takes (Keeps P Q) (execPurserWatchdog core) :=
  keeps_onDev fun _ h => canonical_report h
theorem keeps_execSpareLoadDone {b col} : Takes (Keeps P Q) (execSpareLoadDone b col) := by
  refine keeps_onDev fun _ h => canonical_guarded h fun h => canonical_ite (canonical_modBerth (canonical_loadPosition h)) ?_
  split
  · exact canonical_restartBerth (canonical_modBerth (canonical_loadPosition h))
  · exact canonical_foldl (canonical_modBerth (canonical_loadPosition h)) fun _ _ h => canonical_restartBerth h
theorem keeps_execReactionWrite {src v} : Takes (Keeps P Q) (execReactionWrite src v) :=
  keeps_onDev fun _ h => canonical_reactionWrite h
theorem keeps_execClear {v} : Takes (Keeps P Q) (execClear v) := keeps_onDev fun _ h => canonical_clearSources h
theorem keeps_execTestEnter {role auth v} : Takes (Keeps P Q) (execTestEnter role auth v) :=
  keeps_onDev fun _ h => canonical_testEnter h
theorem keeps_execInjectionArm {i} : Takes (Keeps P Q) (execInjectionArm i) := keeps_onDev fun _ h => canonical_injectionArm h
theorem keeps_execInjectionDisarm {i} : Takes (Keeps P Q) (execInjectionDisarm i) :=
  keeps_onDev fun _ h => canonical_injectionDisarm h
theorem keeps_execInjectionFire {i} : Takes (Keeps P Q) (execInjectionFire i) :=
  keeps_onDev fun _ h => canonical_injectionFire h
theorem keeps_execTestEnFall : Takes (Keeps P Q) (execTestEnFall) := keeps_onDev fun _ h => canonical_mk h
theorem keeps_execSelfTestComplete {pass} : Takes (Keeps P Q) (execSelfTestComplete pass) :=
  keeps_onDev fun _ h => canonical_guarded h fun h => canonical_selfTestDone h
theorem keeps_execBpowerHold {b} : Takes (Keeps P Q) (execBpowerHold b) :=
  keeps_onDev fun _ h => canonical_guarded h fun h => canonical_holdBerth h
theorem keeps_execBpowerDoze {b} : Takes (Keeps P Q) (execBpowerDoze b) :=
  keeps_onDev fun _ h => canonical_guarded h fun h => canonical_dozeBerth h
theorem keeps_execBpowerActive {b} : Takes (Keeps P Q) (execBpowerActive b) :=
  keeps_onDev fun _ h => canonical_guarded h fun h => canonical_wakeBerth h
theorem keeps_execAutoHoldIdle {b} : Takes (Keeps P Q) (execAutoHoldIdle b) :=
  keeps_onDev fun _ h => canonical_guarded h fun h => canonical_holdBerth h
theorem keeps_execHoldWake {b} : Takes (Keeps P Q) (execHoldWake b) :=
  keeps_onDev fun _ h => canonical_guarded h fun h => canonical_wakeBerth h
theorem keeps_execMpowerMoor : Takes (Keeps P Q) (execMpowerMoor) :=
  keeps_onDev fun _ h => canonical_guarded h fun h => canonical_moor h
theorem keeps_execMpowerDock : Takes (Keeps P Q) (execMpowerDock) :=
  keeps_onDev fun _ h => canonical_guarded h fun h => canonical_dockState h
theorem keeps_execMpowerActive : Takes (Keeps P Q) (execMpowerActive) :=
  keeps_onDev fun _ h => canonical_guarded h fun h => canonical_mpowerActive h
theorem keeps_execMoorRestoreDone : Takes (Keeps P Q) (execMoorRestoreDone) :=
  keeps_onDev fun _ h => canonical_guarded h fun h => canonical_moorRestored h
theorem keeps_execRpllStep {up} : Takes (Keeps P Q) (execRpllStep up) :=
  keeps_onDev fun _ h => canonical_guarded h fun h => canonical_rpllStep h
theorem keeps_execLimiterEval {p10 tj} : Takes (Keeps P Q) (execLimiterEval p10 tj) :=
  keeps_onDev fun _ h => canonical_guarded h fun h => canonical_limiterEval h
theorem keeps_execVoltageLoop {b marginBelow marginNow} : Takes (Keeps P Q) (execVoltageLoop b marginBelow marginNow) :=
  keeps_onDev fun _ h => canonical_guarded h fun h => canonical_voltageLoop h
theorem keeps_execDroopHold {b} : Takes (Keeps P Q) (execDroopHold b) :=
  keeps_onDev fun _ h => canonical_guarded h fun h => canonical_odAdd (canonical_modBerth h)
theorem keeps_execThermalTrip : Takes (Keeps P Q) (execThermalTrip) :=
  keeps_onDev fun _ h => canonical_guarded h fun h => canonical_thermalTrip h
theorem keeps_execCableSenseRead {mv sense0 sense1} : Takes (Keeps P Q) (execCableSenseRead mv sense0 sense1) :=
  keeps_onDev fun _ h => canonical_guarded h fun h => canonical_cableRead h
theorem keeps_execCableLoss : Takes (Keeps P Q) (execCableLoss) :=
  keeps_onDev fun _ h => canonical_guarded h fun h => canonical_cableLoss h
theorem keeps_execPowerOn {straps testEn} : Takes (Keeps P Q) (execPowerOn straps testEn) :=
  keeps_onDev fun _ h => canonical_powerOn h
theorem keeps_execPowerDown {auxLost} : Takes (Keeps P Q) (execPowerDown auxLost) :=
  keeps_onDev fun _ h => canonical_powerDown h
theorem keeps_execPerst : Takes (Keeps P Q) (execPerst) :=
  keeps_onDev fun _ h => canonical_guarded h fun h => canonical_perstAll h
theorem keeps_execHot : Takes (Keeps P Q) (execHot) := keeps_onDev fun _ h => canonical_functionReset h
theorem keeps_execFlr : Takes (Keeps P Q) (execFlr) := keeps_onDev fun _ h => canonical_functionReset h
theorem keeps_execWarmReset : Takes (Keeps P Q) (execWarmReset) :=
  keeps_onDev fun _ h => canonical_guarded h fun h => canonical_warmResetAll h
theorem keeps_execBusMasterEnableChange {on} : Takes (Keeps P Q) (execBusMasterEnableChange on) :=
  keeps_onDev fun _ h => canonical_busMaster h
theorem keeps_execRailOutOfWindow {rail} : Takes (Keeps P Q) (execRailOutOfWindow rail) :=
  keeps_onDev fun _ h => canonical_guarded h fun h => canonical_report h
theorem keeps_execSfpModuleInsert {c rate} : Takes (Keeps P Q) (execSfpModuleInsert c rate) :=
  keeps_onDev fun _ h => canonical_sfpInsert h
theorem keeps_execSfpModuleRemove {c} : Takes (Keeps P Q) (execSfpModuleRemove c) := keeps_onDev fun _ h => canonical_setSfp h
theorem keeps_execSfpTxFault {c} : Takes (Keeps P Q) (execSfpTxFault c) := keeps_onDev fun _ h => canonical_setSfp h
theorem keeps_execTelemetrySample {r} : Takes (Keeps P Q) (execTelemetrySample r) :=
  keeps_onDev fun _ h => canonical_guarded h fun h => canonical_telemetry h
theorem keeps_execSramScrub {t granule} : Takes (Keeps P Q) (execSramScrub t granule) :=
  keeps_onDev fun _ h => canonical_guarded h fun h => canonical_sramScrub h
theorem keeps_execHbmPatrolScrub {b token} : Takes (Keeps P Q) (execHbmPatrolScrub b token) :=
  keeps_onDev fun _ h => canonical_guarded h fun h => canonical_patrolScrub h
theorem keeps_execSensorCalibration {sensor offset} : Takes (Keeps P Q) (execSensorCalibration sensor offset) :=
  keeps_onDev fun _ h => canonical_ite (canonical_report h) h
theorem keeps_execAgeingGuardband {b below} : Takes (Keeps P Q) (execAgeingGuardband b below) :=
  keeps_onDev fun _ h => canonical_guarded h fun h => canonical_odKeep h
theorem keeps_execMsiXVectorUnmask {v} : Takes (Keeps P Q) (execMsiXVectorUnmask v) :=
  keeps_onDev fun _ h => canonical_unmaskVector h
theorem keeps_execPerstNRise {straps testEn} : Takes (Keeps P Q) (execPerstNRise straps testEn) :=
  keeps_onDev fun _ h => canonical_guarded h fun h => canonical_startCores (canonical_mk (canonical_sampleStraps h))
theorem keeps_execSlot12vValid : Takes (Keeps P Q) (execSlot12vValid) := keeps_onDev fun _ h => canonical_slotValid h
theorem keeps_execSfpPortLinkChange {c up} : Takes (Keeps P Q) (execSfpPortLinkChange c up) :=
  keeps_onDev fun _ h => canonical_guarded h fun h => canonical_setSfp h
theorem keeps_execFolsaCableInserted {p} : Takes (Keeps P Q) (execFolsaCableInserted p) :=
  keeps_onDev fun _ h => canonical_setFolsa h
theorem keeps_execLightRequest {b r} : Takes (Keeps P Q) (execLightRequest b r) :=
  takes_lightRequest b r (fun _ h => h) fun _ h => canonical_modBerth h

/-- Every command. -/
theorem keeps_exec (c : Instr) : Takes (Keeps P Q) (exec c) :=
  match c with
  | .nop _ _ => keeps_execNop
  | .stepComplete _ _ _ => keeps_execStepComplete
  | .sequencerWatchdog _ _ _ => keeps_execSequencerWatchdog
  | .wait _ _ => keeps_execWait
  | .hurdle _ _ => keeps_execHurdle
  | .band _ _ => keeps_execBand
  | .bchk _ _ => keeps_execBchk
  | .rerunAck _ _ => keeps_execRerunAck
  | .scale _ _ => keeps_execScale
  | .statSend _ _ => keeps_execStatSend
  | .statUpdate _ _ => keeps_execStatUpdate
  | .semit _ _ => keeps_execSemit
  | .send _ _ => keeps_execSend
  | .copy _ _ => keeps_execCopy
  | .pass _ _ => keeps_execPass
  | .conv _ _ => keeps_execConv
  | .matw _ _ => keeps_execMatw
  | .dwconv _ _ => keeps_execDwconv
  | .mata _ _ => keeps_execMata
  | .spec _ _ => keeps_execSpec
  | .zpc _ _ => keeps_execZpc
  | .rq _ _ => keeps_execRq
  | .accin _ _ => keeps_execAccin
  | .accout _ _ => keeps_execAccout
  | .rotw _ _ => keeps_execRotw
  | .tfn _ _ => keeps_execTfn
  | .elt _ _ => keeps_execElt
  | .poolMax _ _ => keeps_execPoolMax
  | .poolAverage _ _ => keeps_execPoolAverage
  | .gpoolMaxAccumulate _ _ => keeps_execGpoolMaxAccumulate
  | .gpoolSumAccumulate _ _ => keeps_execGpoolSumAccumulate
  | .gpoolEmitMax _ _ => keeps_execGpoolEmitMax
  | .gpoolEmitAverage _ _ => keeps_execGpoolEmitAverage
  | .resize _ _ => keeps_execResize
  | .softmax _ _ => keeps_execSoftmax
  | .lnorm _ _ => keeps_execLnorm
  | .xformFr _ _ => keeps_execXformFr
  | .xformFs _ _ => keeps_execXformFs
  | .xformIs _ _ => keeps_execXformIs
  | .xformIc _ _ => keeps_execXformIc
  | .steer _ _ => keeps_execSteer
  | .merge _ _ => keeps_execMerge
  | .select _ _ => keeps_execSelect
  | .crop _ _ => keeps_execCrop
  | .bwd _ _ => keeps_execBwd
  | .wgrad _ _ => keeps_execWgrad
  | .opt _ _ => keeps_execOpt
  | .optFin _ _ => keeps_execOptFin
  | .lossCe _ _ => keeps_execLossCe
  | .lossBce _ _ => keeps_execLossBce
  | .lossSmoothL1 _ _ => keeps_execLossSmoothL1
  | .lossDrain _ _ => keeps_execLossDrain
  | .flitReceive _ _ _ => keeps_execFlitReceive
  | .creditReceive _ _ => keeps_execCreditReceive
  | .epochMarkReceive _ _ => keeps_execEpochMarkReceive
  | .hurdlePortWrite _ _ _ => keeps_execHurdlePortWrite
  | .hurdleComplete _ _ _ => keeps_execHurdleComplete
  | .hurdleTimeout _ _ _ => keeps_execHurdleTimeout
  | .shuttleSlotSend _ => keeps_execShuttleSlotSend
  | .shuttleFlitReceive _ _ => keeps_execShuttleFlitReceive
  | .gangwaySpareTrained _ _ => keeps_execGangwaySpareTrained
  | .stationCreditForward _ _ _ => keeps_execStationCreditForward
  | .linkUnitForward _ _ _ => keeps_execLinkUnitForward
  | .linkFreedSend _ _ _ => keeps_execLinkFreedSend
  | .linkFreedAccept _ _ _ => keeps_execLinkFreedAccept
  | .timetableSwitch _ => keeps_execTimetableSwitch
  | .ledgerTick => keeps_execLedgerTick
  | .ledgerCheck => keeps_execLedgerCheck
  | .seta _ _ _ => keeps_execSeta
  | .adda _ _ _ => keeps_execAdda
  | .sets _ _ _ => keeps_execSets
  | .nexts _ _ _ => keeps_execNexts
  | .loop _ _ _ => keeps_execLoop
  | .endl _ _ _ => keeps_execEndl
  | .rd _ _ _ => keeps_execRd
  | .wr _ _ _ => keeps_execWr
  | .wrAcknowledge _ _ => keeps_execWrAcknowledge
  | .pad _ _ _ => keeps_execPad
  | .take _ _ _ => keeps_execTake
  | .post _ _ _ => keeps_execPost
  | .fence _ _ _ => keeps_execFence
  | .endp _ _ _ => keeps_execEndp
  | .pacerGrant _ => keeps_execPacerGrant
  | .hbmAccessComplete _ => keeps_execHbmAccessComplete
  | .lightRequest _ _ => keeps_execLightRequest
  | .ethFrameReceive _ _ => keeps_execEthFrameReceive
  | .reorderTimeout _ => keeps_execReorderTimeout
  | .decodeComplete _ _ => keeps_execDecodeComplete
  | .decodeSliceTimeout _ _ => keeps_execDecodeSliceTimeout
  | .feederFrameStart _ => keeps_execFeederFrameStart
  | .rawDescriptor _ _ => keeps_execRawDescriptor
  | .rawCopyComplete _ _ => keeps_execRawCopyComplete
  | .cropGather _ => keeps_execCropGather
  | .resultFrame _ => keeps_execResultFrame
  | .featureItem _ => keeps_execFeatureItem
  | .rerunPost _ => keeps_execRerunPost
  | .queuePointerMismatch _ => keeps_execQueuePointerMismatch
  | .queueDoorbellPointer _ _ _ => keeps_execQueueDoorbellPointer
  | .queueDoorbellArm _ _ _ => keeps_execQueueDoorbellArm
  | .queueDoorbellFlush _ _ _ => keeps_execQueueDoorbellFlush
  | .queueFlushCommand _ => keeps_execQueueFlushCommand
  | .queueEnable _ => keeps_execQueueEnable
  | .queueDisable _ => keeps_execQueueDisable
  | .queueDataRead _ _ => keeps_execQueueDataRead
  | .queueDataWrite _ _ _ => keeps_execQueueDataWrite
  | .eventOccurrence _ _ => keeps_execEventOccurrence
  | .eventPendingEnter _ => keeps_execEventPendingEnter
  | .eventDoorbellCi _ _ _ => keeps_execEventDoorbellCi
  | .eventDoorbellArm _ _ _ => keeps_execEventDoorbellArm
  | .eventQueueEnable _ => keeps_execEventQueueEnable
  | .mbxGo _ => keeps_execMbxGo
  | .mbxDoneClear _ => keeps_execMbxDoneClear
  | .mbxResponseDone => keeps_execMbxResponseDone
  | .registerWrite _ _ _ => keeps_execRegisterWrite
  | .read _ _ => keeps_execRead
  | .write _ _ => keeps_execWrite
  | .segInit _ _ => keeps_execSegInit
  | .segData _ _ => keeps_execSegData
  | .segEnd _ _ => keeps_execSegEnd
  | .segAbort _ _ => keeps_execSegAbort
  | .segTransferTimeout _ _ => keeps_execSegTransferTimeout
  | .open _ _ => keeps_execOpen
  | .close _ _ => keeps_execClose
  | .info _ _ => keeps_execInfo
  | .sessionIdleTimeout _ => keeps_execSessionIdleTimeout
  | .mctpControl _ => keeps_execMctpControl
  | .mgmtDatagram _ => keeps_execMgmtDatagram
  | .journalCommit => keeps_execJournalCommit
  | .fwBootNext => keeps_execFwBootNext
  | .fwBootWarm => keeps_execFwBootWarm
  | .fwCancel => keeps_execFwCancel
  | .bootReadyTimeout => keeps_execBootReadyTimeout
  | .restoreDefaults => keeps_execRestoreDefaults
  | .defaultsCauseClear _ => keeps_execDefaultsCauseClear
  | .timeWrite _ => keeps_execTimeWrite
  | .ppsEdge _ _ => keeps_execPpsEdge
  | .ppsMissed => keeps_execPpsMissed
  | .anchorWrite _ _ => keeps_execAnchorWrite
  | .streamEnable _ => keeps_execStreamEnable
  | .streamDisable _ => keeps_execStreamDisable
  | .imageLoadCheckDone _ _ => keeps_execImageLoadCheckDone
  | .slotWriteDone _ _ => keeps_execSlotWriteDone
  | .slotUnload _ _ => keeps_execSlotUnload
  | .changeoverOrderly _ _ => keeps_execChangeoverOrderly
  | .changeoverForcedRefeed _ _ _ => keeps_execChangeoverForcedRefeed
  | .changeoverForcedDrop _ _ _ => keeps_execChangeoverForcedDrop
  | .changeoverForcedHold _ _ _ => keeps_execChangeoverForcedHold
  | .changeoverStop _ _ => keeps_execChangeoverStop
  | .releaseStageOutputs _ => keeps_execReleaseStageOutputs
  | .releaseStageWriteEnables _ => keeps_execReleaseStageWriteEnables
  | .releaseStageResets _ => keeps_execReleaseStageResets
  | .feederEpochMark _ => keeps_execFeederEpochMark
  | .contextDrained _ _ => keeps_execContextDrained
  | .changeoverTimeout _ => keeps_execChangeoverTimeout
  | .halt _ => keeps_execHalt
  | .haltComplete _ => keeps_execHaltComplete
  | .resume _ => keeps_execResume
  | .scanOut _ => keeps_execScanOut
  | .scanIn _ => keeps_execScanIn
  | .holdRelease _ => keeps_execHoldRelease
  | .berthReset _ => keeps_execBerthReset
  | .targetItemAccept _ _ => keeps_execTargetItemAccept
  | .updateStart _ => keeps_execUpdateStart
  | .budgetRefill _ => keeps_execBudgetRefill
  | .epochSnapshotDone _ => keeps_execEpochSnapshotDone
  | .entryTilesHeld _ => keeps_execEntryTilesHeld
  | .adaptPause _ => keeps_execAdaptPause
  | .adaptResume _ => keeps_execAdaptResume
  | .rollbackOne _ => keeps_execRollbackOne
  | .rollbackZero _ => keeps_execRollbackZero
  | .rollbackTo _ => keeps_execRollbackTo
  | .adaptAbort _ => keeps_execAdaptAbort
  | .folsaEnable _ => keeps_execFolsaEnable
  | .folsaTrained _ => keeps_execFolsaTrained
  | .folsaFrameSend _ => keeps_execFolsaFrameSend
  | .folsaFrameReceive _ _ => keeps_execFolsaFrameReceive
  | .hello _ => keeps_execHello
  | .sem _ => keeps_execSem
  | .pair _ => keeps_execPair
  | .folsaLinkDown _ _ => keeps_execFolsaLinkDown
  | .linkHoldTimeout _ => keeps_execLinkHoldTimeout
  | .faultReport => keeps_execFaultReport
  | .stormClose => keeps_execStormClose
  | .creditTimeout _ _ => keeps_execCreditTimeout
  | .purserWatchdog _ => keeps_execPurserWatchdog
  | .spareLoadDone _ _ => keeps_execSpareLoadDone
  | .reactionWrite _ _ => keeps_execReactionWrite
  | .clear _ => keeps_execClear
  | .testEnter _ _ _ => keeps_execTestEnter
  | .injectionArm _ => keeps_execInjectionArm
  | .injectionDisarm _ => keeps_execInjectionDisarm
  | .injectionFire _ => keeps_execInjectionFire
  | .testEnFall => keeps_execTestEnFall
  | .selfTestComplete _ => keeps_execSelfTestComplete
  | .bpowerHold _ => keeps_execBpowerHold
  | .bpowerDoze _ => keeps_execBpowerDoze
  | .bpowerActive _ => keeps_execBpowerActive
  | .autoHoldIdle _ => keeps_execAutoHoldIdle
  | .holdWake _ => keeps_execHoldWake
  | .mpowerMoor => keeps_execMpowerMoor
  | .mpowerDock => keeps_execMpowerDock
  | .mpowerActive => keeps_execMpowerActive
  | .moorRestoreDone => keeps_execMoorRestoreDone
  | .rpllStep _ => keeps_execRpllStep
  | .limiterEval _ _ => keeps_execLimiterEval
  | .voltageLoop _ _ _ => keeps_execVoltageLoop
  | .droopHold _ => keeps_execDroopHold
  | .thermalTrip => keeps_execThermalTrip
  | .cableSenseRead _ _ _ => keeps_execCableSenseRead
  | .cableLoss => keeps_execCableLoss
  | .powerOn _ _ => keeps_execPowerOn
  | .powerDown _ => keeps_execPowerDown
  | .perst => keeps_execPerst
  | .hot => keeps_execHot
  | .flr => keeps_execFlr
  | .warmReset => keeps_execWarmReset
  | .busMasterEnableChange _ => keeps_execBusMasterEnableChange
  | .railOutOfWindow _ => keeps_execRailOutOfWindow
  | .sfpModuleInsert _ _ => keeps_execSfpModuleInsert
  | .sfpModuleRemove _ => keeps_execSfpModuleRemove
  | .sfpTxFault _ => keeps_execSfpTxFault
  | .telemetrySample _ => keeps_execTelemetrySample
  | .sramScrub _ _ => keeps_execSramScrub
  | .hbmPatrolScrub _ _ => keeps_execHbmPatrolScrub
  | .sensorCalibration _ _ => keeps_execSensorCalibration
  | .ageingGuardband _ _ => keeps_execAgeingGuardband
  | .msiXVectorUnmask _ => keeps_execMsiXVectorUnmask
  | .perstNRise _ _ => keeps_execPerstNRise
  | .slot12vValid => keeps_execSlot12vValid
  | .sfpPortLinkChange _ _ => keeps_execSfpPortLinkChange
  | .folsaCableInserted _ => keeps_execFolsaCableInserted

end Keeps

/-- Every command leaves the queue of waiting commands to the step. -/
theorem exec_pending {c : Instr} {s t : State} (h : exec c s = .next t) : t.pending = s.pending :=
  (keeps_exec (P := False) (Q := False) c s t h).1

/-- A step keeps the byte memories canonical. -/
theorem canonical_step {P Q : Prop} {s t : State} (hs : Canonical P Q s.dev) (h : step s = .next t) : Canonical P Q t.dev := by
  rw [step] at h
  split at h
  · cases h
    exact canonical_tick hs
  · exact (keeps_exec _ _ _ h).2 hs

/-- Settles O39. -/
theorem commandsStayWellFormed : Obligations.CommandsStayWellFormed := by
  refine ⟨fun c s t h => exec_pending h, fun s t hwf h c hc => ?_⟩
  rw [step] at h
  split at h
  next hp =>
    cases h
    exact hwf c hc
  next c' cs hp =>
    rw [exec_pending h] at hc
    exact hwf c (hp ▸ List.mem_cons_of_mem _ hc)

/-- Settles O40, whatever the memories of the berths hold. -/
theorem hostMemoryAndTimeKept : Obligations.HostMemoryAndTimeKept := by
  intro s t hwf ht h
  exact (canonical_step (P := True) (Q := False) ⟨fun _ => ⟨hwf, ht⟩, False.elim⟩ h).host trivial

/-- Settles O41, whatever host memory holds. -/
theorem berthMemoryKept : Obligations.BerthMemoryKept := by
  intro s t hwf h
  exact (canonical_step (P := False) (Q := True) ⟨False.elim, fun _ => hwf⟩ h).berths trivial

end Sys2Proof.Machine
end

section
/-! The timetable switch of a shared link (R227). A search of a table ends at the first key behind the one sought: in a flow table
that is out of order, an entry becomes visible once the switch has taken away the entries that hid it. -/

namespace Sys2Proof.Machine

/-- A gangway lane whose flow table is out of order: the entry at 5 stands behind the one at 100, where a search for 5 ends.
Berth 1, to which key 100 belongs, has a timetable waiting. -/
def disorderedLink : Link := { flows := [(100, {}), (5, {})], nextTt := [(1, [], [])] }

def disorderedState : State :=
  { State.reset with dev := { State.reset.dev with
      power := { fabric := true }
      od := [(256 * 0x8400 + 8, 0)]
      links := [(linkKey (.lane false 0), disorderedLink)] } }

/-- A waiting timetable comes into force at a lap start of a live link that holds no data flit of an earlier epoch (R227). -/
theorem exec_timetableSwitch {l : LinkDir} {s : State} {n : Nat × Tab Nat × Tab FlowEntry}
    {rest : List (Nat × Tab Nat × Tab FlowEntry)} (hn : (linkAt s.dev (linkKey l)).nextTt = n :: rest)
    (hlap : (linkAt s.dev (linkKey l)).lap = 0) (hclear : linkClear s.dev (linkAt s.dev (linkKey l)) n.1 = true)
    (hlive : linkLive s.dev l = true) : exec (.timetableSwitch l) s =
      .next { s with dev := setLink s.dev (linkKey l) (switchTable (linkKey l) (linkAt s.dev (linkKey l)) n) } := by
  change execTimetableSwitch l s = _
  simp only [execTimetableSwitch, onDev_eq, hn, hlap, hclear, hlive, decide_true, Bool.and_self, if_true]

/-- Refutes O21: the flow entry 5 of berth 0, hidden before the switch, is found after it. -/
theorem not_timetableSwitches : ¬ Obligations.TimetableSwitches := by
  unfold Obligations.TimetableSwitches
  intro h
  have hclear : linkClear disorderedState.dev disorderedLink 1 = true := by decide +kernel
  have hlive : linkLive disorderedState.dev (.lane false 0) = true := by decide +kernel
  obtain ⟨d, hd, ⟨-, -, -, -, -, -, hflows⟩, -⟩ :=
    h (.lane false 0) disorderedState (1, [], []) [] rfl rfl hclear hlive (by decide)
  rw [exec_timetableSwitch (n := (1, [], [])) rfl rfl hclear hlive] at hd
  injection hd with hd
  have h5 := hflows (by decide) 5 (by decide)
  have he : setLink disorderedState.dev 200 (switchTable 200 disorderedLink (1, [], [])) = d :=
    congrArg State.dev hd
  rw [← he] at h5
  exact absurd h5 (by decide +kernel)

end Sys2Proof.Machine
end

section
/-! Events and hardware queues (R366 to R386): what a delivery, a status write and a flush leave as they were, and what each
command of the queue records, doorbells and event queues does. -/

namespace Sys2Proof.Machine

/-! Frames -/

/-- Host event queues, pending records, purser queues, PCIe vectors, host memory and counters alone differ. -/
def OnlyEvents (d e : Device) : Prop :=
  ∃ o m q p v u, e = { d with od := o, hostMem := m, evqs := q, pendingEv := p, pcie := v, purserEvq := u }

theorem OnlyEvents.refl (d : Device) : OnlyEvents d d := ⟨_, _, _, _, _, _, rfl⟩

theorem OnlyEvents.trans {d e f : Device} : OnlyEvents d e → OnlyEvents e f → OnlyEvents d f := by
  rintro ⟨_, _, _, _, _, _, rfl⟩ ⟨_, _, _, _, _, _, rfl⟩
  exact ⟨_, _, _, _, _, _, rfl⟩

theorem OnlyEvents.ringOf {d e : Device} (h : OnlyEvents d e) (n : Nat) : ringOf e n = ringOf d n := by
  obtain ⟨_, _, _, _, _, _, rfl⟩ := h
  rfl

theorem OnlyEvents.berths {d e : Device} (h : OnlyEvents d e) : e.berths = d.berths := by
  obtain ⟨_, _, _, _, _, _, rfl⟩ := h
  rfl

theorem signalVector_frame (d : Device) (v : Nat) : ∃ p, signalVector d v = { d with pcie := p } := by
  rw [signalVector]
  split
  · exact ⟨_, rfl⟩
  · split
    · exact ⟨d.pcie, rfl⟩
    · exact ⟨_, rfl⟩

/-- An interrupt clears ARM of its own event queue and signals a vector; it changes nothing else (R385). -/
theorem evqInterrupt_frame (d : Device) (h : Nat) :
    ∃ p a, evqInterrupt d h = { setEvq d h { evqAt d h with arm := a } with pcie := p } ∨ evqInterrupt d h = d := by
  simp only [evqInterrupt]
  split
  · obtain ⟨p, hp⟩ := signalVector_frame (setEvq d h { evqAt d h with arm := false }) h
    exact ⟨p, false, .inl hp⟩
  · exact ⟨d.pcie, false, .inr rfl⟩

theorem evqStatus_frame (d : Device) (h : Nat) : ∃ m, evqStatus d h = { d with hostMem := m } := by
  simp only [evqStatus]
  split
  · exact ⟨d.hostMem, rfl⟩
  · exact ⟨_, rfl⟩

theorem onlyEvents_evqInterrupt (d : Device) (h : Nat) : OnlyEvents d (evqInterrupt d h) := by
  obtain ⟨p, a, he | he⟩ := evqInterrupt_frame d h <;> rw [he]
  · exact ⟨_, _, _, _, _, _, rfl⟩
  · exact .refl d

theorem onlyEvents_evqStatus (d : Device) (h : Nat) : OnlyEvents d (evqStatus d h) := by
  obtain ⟨m, hm⟩ := evqStatus_frame d h
  rw [hm]
  exact ⟨_, _, _, _, _, _, rfl⟩

theorem onlyEvents_evqWrite (d : Device) (h : Nat) (r : BitVec 128) : OnlyEvents d (evqWrite d h r) := by
  rw [evqWrite]
  refine .trans (.trans ?_ (onlyEvents_evqStatus _ h)) (onlyEvents_evqInterrupt _ h)
  exact ⟨_, _, _, _, _, _, rfl⟩

theorem onlyEvents_deliver (d : Device) (key target info count : Nat) : OnlyEvents d (deliver d key target info count) := by
  unfold deliver
  split
  · exact ⟨_, _, _, _, _, _, rfl⟩
  · split
    · exact .refl d
    · dsimp only
      split
      · exact onlyEvents_evqWrite _ _ _
      · split
        · exact ⟨_, _, _, _, _, _, rfl⟩
        · split <;> exact ⟨_, _, _, _, _, _, rfl⟩

/-! Event queues -/

theorem evqAt_evqInterrupt (d : Device) (h : Nat) :
    (evqAt (evqInterrupt d h) h).pi = (evqAt d h).pi ∧ (evqAt (evqInterrupt d h) h).ci = (evqAt d h).ci ∧
      (evqAt (evqInterrupt d h) h).slots = (evqAt d h).slots := by
  obtain ⟨p, a, he | he⟩ := evqInterrupt_frame d h <;> rw [he]
  · generalize hx : ({ evqAt d h with arm := a } : EventQueue) = x
    have : evqAt { setEvq d h x with pcie := p } h = x := evqAt_setEvq_same d h x
    rw [this, ← hx]
    exact ⟨rfl, rfl, rfl⟩
  · exact ⟨rfl, rfl, rfl⟩

theorem evqInterrupt_parts (d : Device) (h : Nat) : (evqInterrupt d h).pendingEv = d.pendingEv ∧ (evqInterrupt d h).od = d.od ∧
    (evqInterrupt d h).berths = d.berths := by
  obtain ⟨p, a, he | he⟩ := evqInterrupt_frame d h <;> rw [he] <;> exact ⟨rfl, rfl, rfl⟩

/-- An armed interrupt is the only thing that moves a vector: with nothing unread there is none (R385). -/
theorem evqInterrupt_of_read {d : Device} {h : Nat} (he : (evqAt d h).pi = (evqAt d h).ci) : evqInterrupt d h = d := by
  simp [evqInterrupt, he]

/-- A record written into a host event queue stands in the entry at PI, and PI moves on (R384). -/
theorem evqAt_evqWrite (d : Device) (h : Nat) (r : BitVec 128) :
    (evqAt (evqWrite d h r) h).pi = (evqAt d h).pi + 1 ∧ (evqAt (evqWrite d h r) h).ci = (evqAt d h).ci ∧
      (evqAt (evqWrite d h r) h).slots = Tab.set (evqAt d h).slots ((evqAt d h).pi.toNat % evqEntries d h) r := by
  rw [evqWrite]
  generalize he : setEvq _ _ _ = e
  have hq : evqAt e h = { evqAt d h with pi := (evqAt d h).pi + 1, slots := Tab.set (evqAt d h).slots ((evqAt d h).pi.toNat % evqEntries d h) r } := by
    rw [← he]
    exact evqAt_setEvq_same _ _ _
  obtain ⟨m, hm⟩ := evqStatus_frame e h
  obtain ⟨hpi, hci, hsl⟩ := evqAt_evqInterrupt (evqStatus e h) h
  have hs : evqAt (evqStatus e h) h = evqAt e h := by rw [hm]; rfl
  rw [hpi, hci, hsl, hs, hq]
  exact ⟨rfl, rfl, rfl⟩

theorem pendingEv_evqWrite (d : Device) (h : Nat) (r : BitVec 128) : (evqWrite d h r).pendingEv = d.pendingEv := by
  rw [evqWrite]
  rw [(evqInterrupt_parts _ h).1]
  generalize he : setEvq _ _ _ = e
  obtain ⟨m, hm⟩ := evqStatus_frame e h
  rw [hm, ← he]
  rfl

/-- Fullness of a host event queue is read from its record, its ENABLE and ENTRIES, and bus mastering. -/
theorem evqFull_odAdd (d : Device) {i sub n h : Nat} (hi : i < 0x8180) (hs : sub < 256) : evqFull (odAdd d i sub n) h = evqFull d h := by
  have h1 : odGet (odAdd d i sub n) (0x8180 + h) 1 = odGet d (0x8180 + h) 1 := odGet_odAdd_other d n (by omega)
  have h3 : odGet (odAdd d i sub n) (0x8180 + h) 3 = odGet d (0x8180 + h) 3 := odGet_odAdd_other d n (by omega)
  simp only [evqFull, evqEnabled, odFlag, evqEntries, h1, h3]
  rfl

theorem evqEntries_odAdd (d : Device) {i sub n h : Nat} (hi : i < 0x8180) (hs : sub < 256) :
    evqEntries (odAdd d i sub n) h = evqEntries d h := odGet_odAdd_other d n (by omega)

/-- An occurrence of a shared source counts it, and is delivered where its routing entry says so (R381). -/
theorem sharedEvent_eq (d : Device) (n info count : Nat) :
    sharedEvent d n info count =
      if odGet d (0x8100 + n / 128) (n % 128 + 1) / 32768 % 2 = 1
      then deliver (odAdd d (0x8110 + n / 128) (n % 128 + 1) 1) n (odGet d (0x8100 + n / 128) (n % 128 + 1) % 256) info count
      else odAdd d (0x8110 + n / 128) (n % 128 + 1) 1 := by
  have : odGet (odAdd d (0x8110 + n / 128) (n % 128 + 1) 1) (0x8100 + n / 128) (n % 128 + 1)
      = odGet d (0x8100 + n / 128) (n % 128 + 1) := odGet_odAdd_other d 1 (by omega)
  simp only [sharedEvent, this]

/-- A delivery to a host event queue with room is a record written into it (R383). -/
theorem deliver_room {d : Device} {key h info count : Nat} (hh : h < 32) (hf : evqFull d h = false) :
    deliver d key (16 + h) info count = evqWrite d h (eventRecord (eventClass key) (eventNumber key) info count d.time) := by
  have h1 : ¬ 16 + h < 6 := by omega
  have h2 : ¬ (16 + h < 0x10 ∨ 0x2F < 16 + h) := by omega
  have h3 : 16 + h - 0x10 = h := by omega
  simp only [deliver, h1, h2, h3, hf, if_false, Bool.not_false, if_true]

/-- A delivery to a full host event queue opens a pending record where its source has none (R383). -/
theorem deliver_pending {d : Device} {key h info count : Nat} (hh : h < 32) (hf : evqFull d h = true)
    (hn : Tab.find d.pendingEv key = none) : deliver d key (16 + h) info count =
      { d with pendingEv := Tab.set d.pendingEv key { time := d.time, info := BitVec.ofNat 32 info, count := count, target := 16 + h } } := by
  have h1 : ¬ 16 + h < 6 := by omega
  have h2 : ¬ (16 + h < 0x10 ∨ 0x2F < 16 + h) := by omega
  have h3 : 16 + h - 0x10 = h := by omega
  simp only [deliver, h1, h2, h3, hf, hn, if_false, Bool.not_true, Bool.false_eq_true]

theorem size_evqEnable {h : Nat} (hh : h < 32) : ((odInfo (0x8180 + h) 1).map (·.size)).getD 0 = 1 := by
  interval_cases h <;> decide

/-- A doorbell that names no early pointer moves CI where it says so and sets ARM where it says so (R384). -/
theorem eventDoorbell_eq {d : Device} {h : Nat} {w : U64} (hf : firmwareReady d = true) (he : evqEnabled d h = true)
    (hci : bit w 32 = true →
      ((evqAt d h).pi - BitVec.ofNat 32 (fld w 31 0)).toNat ≤ ((evqAt d h).pi - (evqAt d h).ci).toNat) :
    eventDoorbell d h 8 w = evqInterrupt (setEvq d h { evqAt d h with
      ci := if bit w 32 then BitVec.ofNat 32 (fld w 31 0) else (evqAt d h).ci
      arm := (evqAt d h).arm || bit w 62 }) h := by
  have hearly : (bit w 32 && decide (((evqAt d h).pi - (evqAt d h).ci).toNat <
      ((evqAt d h).pi - BitVec.ofNat 32 (fld w 31 0)).toNat)) = false := by
    cases hb : bit w 32
    · rfl
    · simpa using hci hb
  simp only [eventDoorbell, hf, he, hearly, ne_eq, not_true_eq_false, decide_false, Bool.not_true, Bool.or_self,
    Bool.false_eq_true, if_false]

/-- ENABLE of an event queue with nothing pending empties it and shows its status (R384). -/
theorem evqEnable_eq {d : Device} {h : Nat} (he : evqEnabled d h = false) (hn : isPow2 (evqEntries d h) = true)
    (hb : odGet d (0x8180 + h) 2 % min (16 * evqEntries d h) 4096 = 0) (hp : d.pendingEv = []) :
    evqEnable d h = evqStatus (setEvq (odPut d (0x8180 + h) 1 1) h
      { evqAt d h with pi := 0, ci := 0, arm := false, slots := [] }) h := by
  simp only [evqEnable, he, hn, hb, ne_eq, not_true_eq_false, decide_false, Bool.not_true, Bool.or_self, Bool.false_eq_true, if_false]
  change enterAll d.pendingEv.length _ h = _
  rw [hp]
  rfl

theorem signalVector_open {d : Device} {v : Nat} (hu : v ∈ d.pcie.unmasked) (hb : d.pcie.busMaster = true) :
    signalVector d v = { d with pcie := { d.pcie with signalled := d.pcie.signalled ++ [v] } } := by
  simp only [signalVector, List.contains_iff_mem.mpr hu, hb, Bool.and_self, if_true]

/-- A vector held pending is signalled as it is unmasked, and is pending no longer (R385). -/
theorem unmaskVector_pending {d : Device} {v : Nat} (hv : v ∈ d.pcie.pending) (hb : d.pcie.busMaster = true) :
    ∃ u, v ∈ u ∧ unmaskVector d v = { d with pcie := { d.pcie with
      unmasked := u, pending := d.pcie.pending.filter (· ≠ v), signalled := d.pcie.signalled ++ [v] } } := by
  refine ⟨if d.pcie.unmasked.contains v then d.pcie.unmasked else d.pcie.unmasked ++ [v], ?_, ?_⟩
  · split
    · exact List.contains_iff_mem.mp ‹_›
    · simp
  · rw [unmaskVector]
    simp only [List.contains_iff_mem.mpr hv, hb, Bool.and_self, if_true]
    rw [signalVector_open _ rfl]
    dsimp only
    split
    · exact List.contains_iff_mem.mp ‹_›
    · simp

/-! Settling O36 -/

theorem exec_eventOccurrence_shared (n : Fin 1024) (info : U32) (s : State) : exec (.eventOccurrence (.shared n) info) s =
    .next { s with dev := sharedEvent s.dev n.val info.toNat 1 } := by
  change execEventOccurrence (.shared n) info s = _
  rw [execEventOccurrence, onDev_eq]

/-- A shared source routed to host event queue h is counted and delivered there. -/
theorem sharedEvent_routed {d : Device} {n h info : Nat} (hh : h < 32)
    (hr : odGet d (0x8100 + n / 128) (n % 128 + 1) = 0x8010 + h) :
    sharedEvent d n info 1 = deliver (odAdd d (0x8110 + n / 128) (n % 128 + 1) 1) n (16 + h) info 1 := by
  have h1 : (0x8010 + h) / 32768 % 2 = 1 := by omega
  have h2 : (0x8010 + h) % 256 = 16 + h := by omega
  rw [sharedEvent_eq d, hr, if_pos h1, h2]

theorem exec_eventDoorbell {cmd : Fin 32 → Nat → U64 → Instr} (hc : cmd = .eventDoorbellCi ∨ cmd = .eventDoorbellArm) (h : Fin 32)
    (bytes : Nat) (w : U64) (s : State) : exec (cmd h bytes w) s = .next { s with dev := eventDoorbell s.dev h.val bytes w } := by
  obtain rfl | rfl := hc
  · change execEventDoorbellCi h bytes w s = _
    rw [execEventDoorbellCi, onDev_eq]
  · change execEventDoorbellArm h bytes w s = _
    rw [execEventDoorbellArm, onDev_eq]

/-- Settles O36: an occurrence is delivered as a record or a pending record; doorbells, enable and unmask act on their own queue
or vector. -/
theorem eventCommands : Obligations.EventCommands := by
  unfold Obligations.EventCommands
  refine ⟨fun n info s hr => ?_, fun n h info s hr hf => ?_, fun n h info s hr hf hn => ?_, fun h s key p hp hf => ?_,
    fun cmd hc h w s hf he => ⟨fun _ hci => ?_, fun hb ha hq => ?_⟩, fun h s he hn hb hp => ?_, fun v s hv hb => ?_⟩
  case _ => rw [exec_eventOccurrence_shared, sharedEvent_eq _, if_neg (by omega)]
  case _ =>
    refine ⟨_, exec_eventOccurrence_shared n info s, ?_⟩
    have hf' : evqFull (odAdd s.dev (0x8110 + n.val / 128) (n.val % 128 + 1) 1) h.val = false := by
      rw [evqFull_odAdd _ (by omega) (by omega), hf]
    rw [sharedEvent_routed h.isLt hr, deliver_room h.isLt hf']
    generalize hd : odAdd s.dev (0x8110 + n.val / 128) (n.val % 128 + 1) 1 = d
    have hq : evqAt d h.val = evqAt s.dev h.val := by rw [← hd]; rfl
    have hent : evqEntries d h.val = evqEntries s.dev h.val := by rw [← hd]; exact evqEntries_odAdd _ (by omega) (by omega)
    have hkey : eventClass n.val = 0 ∧ eventNumber n.val = n.val := by
      have := n.isLt
      constructor
      · rw [eventClass, if_neg (by omega), if_neg (by omega)]
      · rw [eventNumber, if_neg (by omega), if_neg (by omega)]
    obtain ⟨hpi, hci, hsl⟩ := evqAt_evqWrite d h.val (eventRecord (eventClass n.val) (eventNumber n.val) info.toNat 1 d.time)
    rw [hpi, hci, hsl, hq, hent, Tab.get_set_same, hkey.1, hkey.2, pendingEv_evqWrite, (onlyEvents_evqWrite _ _ _).berths, ← hd]
    exact ⟨rfl, rfl, rfl, rfl, rfl⟩
  case _ =>
    refine ⟨_, exec_eventOccurrence_shared n info s, ?_⟩
    have hf' : evqFull (odAdd s.dev (0x8110 + n.val / 128) (n.val % 128 + 1) 1) h.val = true := by
      rw [evqFull_odAdd _ (by omega) (by omega), hf]
    rw [sharedEvent_routed h.isLt hr, deliver_pending h.isLt hf' hn]
    refine ⟨(Tab.find_set_same _ _ _).trans ?_, rfl, rfl⟩
    rw [BitVec.ofNat_toNat, BitVec.setWidth_eq]
    rfl
  case _ =>
    have he : exec (.eventPendingEnter h) s = .next { s with dev := enterPending s.dev h.val } := by
      change execEventPendingEnter h s = _
      rw [execEventPendingEnter, onDev_eq]
    refine ⟨_, he, ?_⟩
    simp only [enterPending, hp, hf, Bool.false_eq_true, if_false]
    obtain ⟨hpi, -, hsl⟩ := evqAt_evqWrite { s.dev with pendingEv := Tab.erase s.dev.pendingEv key } h.val
      (eventRecord (eventClass key) (eventNumber key) p.info.toNat p.count p.time)
    rw [hpi, hsl, pendingEv_evqWrite]
    exact ⟨rfl, rfl, Tab.get_set_same _ _ _ _⟩
  case _ =>
    refine ⟨_, exec_eventDoorbell hc h 8 w s, ?_⟩
    rw [eventDoorbell_eq hf he (fun _ => hci)]
    generalize hx : ({ evqAt s.dev h.val with ci := _, arm := _ } : EventQueue) = x
    obtain ⟨hpi, hci', -⟩ := evqAt_evqInterrupt (setEvq s.dev h.val x) h.val
    obtain ⟨-, hod, hbe⟩ := evqInterrupt_parts (setEvq s.dev h.val x) h.val
    rw [hpi, hci', hod, hbe, evqAt_setEvq_same, ← hx]
    exact ⟨if_pos ‹_›, rfl, rfl, rfl⟩
  case _ =>
    refine ⟨_, exec_eventDoorbell hc h 8 w s, ?_⟩
    rw [eventDoorbell_eq hf he (by simp [hb]), hb, ha, evqInterrupt_of_read (by rw [evqAt_setEvq_same]; exact hq), evqAt_setEvq_same,
      Bool.or_true]
    exact ⟨rfl, rfl⟩
  case _ =>
    have hx : exec (.eventQueueEnable h) s = .next { s with dev := evqEnable s.dev h.val } := by
      change execEventQueueEnable h s = _
      rw [execEventQueueEnable, onDev_eq]
    refine ⟨_, hx, ?_⟩
    rw [evqEnable_eq he hn hb hp]
    generalize ({ evqAt s.dev h.val with pi := 0, ci := 0, arm := false, slots := [] } : EventQueue) = x
    obtain ⟨m, hm⟩ := evqStatus_frame (setEvq (odPut s.dev (0x8180 + h.val) 1 1) h.val x) h.val
    rw [hm]
    refine ⟨?_, evqAt_setEvq_same _ _ _⟩
    have h1 : odGet (odPut s.dev (0x8180 + h.val) 1 1) (0x8180 + h.val) 1 = 1 := by
      rw [odGet_odPut_same, size_evqEnable h.isLt]
      rfl
    change decide (odGet (odPut s.dev (0x8180 + h.val) 1 1) (0x8180 + h.val) 1 % 2 = 1) = true
    rw [h1]
    rfl
  case _ =>
    have hx : exec (.msiXVectorUnmask v) s = .next { s with dev := unmaskVector s.dev v.val } := by
      change execMsiXVectorUnmask v s = _
      rw [execMsiXVectorUnmask, onDev_eq]
    obtain ⟨u, hu, he⟩ := unmaskVector_pending hv hb
    refine ⟨_, hx, ?_⟩
    rw [he]
    exact ⟨rfl, by simp, hu, rfl⟩

end Sys2Proof.Machine
end

section
/-! Hardware queues (R365 to R377): doorbells, flushes, resets, ENABLE, DATA, and the ledger tests of a ring. -/

namespace Sys2Proof.Machine

/-! Frames -/

@[simp] theorem qDir_setRing (d : Device) (k n : Nat) (r : Ring) : qDir (setRing d k r) n = qDir d n := rfl

theorem writeStatus_frame (d : Device) (q : Nat) : ∃ m, writeStatus d q = { d with hostMem := m } := by
  simp only [writeStatus]
  split
  · exact ⟨d.hostMem, rfl⟩
  · exact ⟨_, rfl⟩

theorem ringOf_writeStatus (d : Device) (q n : Nat) : ringOf (writeStatus d q) n = ringOf d n := by
  obtain ⟨m, hm⟩ := writeStatus_frame d q
  rw [hm]
  rfl

theorem berths_writeStatus (d : Device) (q : Nat) : (writeStatus d q).berths = d.berths := by
  obtain ⟨m, hm⟩ := writeStatus_frame d q
  rw [hm]

theorem queues_writeStatus (d : Device) (q : Nat) : (writeStatus d q).queues = d.queues := by
  obtain ⟨m, hm⟩ := writeStatus_frame d q
  rw [hm]

theorem od_writeStatus (d : Device) (q : Nat) : (writeStatus d q).od = d.od := by
  obtain ⟨m, hm⟩ := writeStatus_frame d q
  rw [hm]

theorem queueEvent_cases (d : Device) (q : Nat) : queueEvent d q =
    deliver (setRing d q { ringOf d q with arm := false }) (65536 + q) (0x10 + qf d q 0x0A) q 1 ∨ queueEvent d q = d := by
  unfold queueEvent
  exact ite_eq_or_eq _ _ _

/-- A queue event clears ARM of its own ring, and changes no other ring and no berth (R386). -/
theorem queueEvent_rings (d : Device) (q : Nat) : (∃ a, ringOf (queueEvent d q) q = { ringOf d q with arm := a }) ∧
    (∀ n, n ≠ q → ringOf (queueEvent d q) n = ringOf d n) ∧ (queueEvent d q).berths = d.berths := by
  obtain he | he := queueEvent_cases d q <;> rw [he]
  · have h := onlyEvents_deliver (setRing d q { ringOf d q with arm := false }) (65536 + q) (0x10 + qf d q 0x0A) q 1
    refine ⟨⟨false, ?_⟩, fun n hn => ?_, ?_⟩
    · rw [h.ringOf, ringOf_setRing_same]
    · rw [h.ringOf, ringOf_setRing_other _ _ hn]
    · rw [h.berths, setRing_berths]
  · exact ⟨⟨_, rfl⟩, fun _ _ => rfl, rfl⟩

/-- What makes an armed queue's event due (R386). -/
def eventDue (d : Device) (q : Nat) : Prop :=
  if qDir d q = 0 then (ringOf d q).pi ≠ (ringOf d q).ci else qEntries d q / 2 ≤ qEntries d q - 1 - ringHeld (ringOf d q)

theorem queueEvent_of_not_due {d : Device} {q : Nat} (h : ¬ eventDue d q) : queueEvent d q = d := by
  unfold eventDue at h
  unfold queueEvent
  refine if_neg fun hc => ?_
  rw [Bool.and_eq_true, Bool.and_eq_true] at hc
  obtain ⟨⟨-, hdue⟩, -⟩ := hc
  split at h
  · rw [if_pos ‹_›] at hdue
    exact h (of_decide_eq_true hdue)
  · rw [if_neg ‹_›] at hdue
    exact h (of_decide_eq_true hdue)

/-- A ring after a flush (R372): everything up to PI is passed and counted, and FEPOCH moves on. -/
def flushedRing (r : Ring) : Ring :=
  setCi { r with flushed := satAdd top64 r.flushed (ringHeld r), fepoch := r.fepoch + 1, slots := [] } r.pi

theorem discardEntries_frame (d : Device) (q cause count : Nat) (oldest : U32) :
    ∃ m l, discardEntries d q cause count oldest = { d with od := m, hub := { d.hub with discards := l } } := by
  rw [discardEntries]
  exact addDiscard_frame d _

theorem flushQueue_frame (d : Device) (q cause : Nat) : ∃ o l m,
    flushQueue d q cause = { setRing d q (flushedRing (ringOf d q)) with od := o, hub := { d.hub with discards := l }, hostMem := m } := by
  obtain ⟨o, l, hd⟩ := discardEntries_frame d q cause (ringHeld (ringOf d q)) (ringOf d q).ci
  rw [flushQueue, queueDiscard, hd]
  generalize he : setRing _ _ _ = e
  obtain ⟨m, hm⟩ := writeStatus_frame e q
  rw [hm, ← he]
  exact ⟨o, l, m, rfl⟩

theorem flushQueue_parts (d : Device) (q cause : Nat) : ringOf (flushQueue d q cause) q = flushedRing (ringOf d q) ∧
    (flushQueue d q cause).berths = d.berths := by
  obtain ⟨o, l, m, he⟩ := flushQueue_frame d q cause
  rw [he]
  exact ⟨ringOf_setRing_same d q _, rfl⟩

/-! Doorbells -/

theorem exec_queueDoorbell {cmd : Fin 16384 → Nat → U64 → Instr}
    (hc : cmd = .queueDoorbellPointer ∨ cmd = .queueDoorbellArm ∨ cmd = .queueDoorbellFlush) (q : Fin 16384) (bytes : Nat) (w : U64)
    (s : State) : exec (cmd q bytes w) s = .next { s with dev := queueDoorbell s.dev q.val bytes w } := by
  obtain rfl | rfl | rfl := hc
  · change execQueueDoorbellPointer q bytes w s = _
    rw [execQueueDoorbellPointer, onDev_eq]
  · change execQueueDoorbellArm q bytes w s = _
    rw [execQueueDoorbellArm, onDev_eq]
  · change execQueueDoorbellFlush q bytes w s = _
    rw [execQueueDoorbellFlush, onDev_eq]

/-- The ring with ARM set where the doorbell asks for it. -/
def armedRing (r : Ring) (w : U64) : Ring := { r with arm := r.arm || bit w 62 }

/-- A pointer that the doorbell's queue can take (R369). -/
def pointerFits (d : Device) (q : Nat) (w : U64) : Prop :=
  if qDir d q = 0 then (BitVec.ofNat 32 (fld w 31 0) - (ringOf d q).ci).toNat ≤ ringHeld (ringOf d q)
  else (BitVec.ofNat 32 (fld w 31 0) - (ringOf d q).pi).toNat ≤ qEntries d q - 1 - ringHeld (ringOf d q)

/-- What a doorbell's update leaves to be shown and signalled. -/
def doorbellUpdate (d : Device) (q : Nat) (w : U64) : Device :=
  let r := armedRing (ringOf d q) w
  let ptr : U32 := BitVec.ofNat 32 (fld w 31 0)
  if bit w 63 then flushQueue (setRing d q r) q 0
  else if bit w 32 && decide (qDir d q = 0) then
    setRing (setRing d q r) q (setCi { r with conse := inc32 r.conse (ptr - (ringOf d q).ci).toNat } ptr)
  else if bit w 32 then setRing (setRing d q r) q (setPi { r with pube := inc32 r.pube (ptr - (ringOf d q).pi).toNat } ptr)
  else setRing d q r

/-- A doorbell that is good makes its update, shows it and raises the queue's event (R369, R386). -/
theorem queueDoorbell_good {d : Device} {q : Nat} {w : U64} (hf : firmwareReady d = true) (he : (ringOf d q).enabled = true)
    (hw : fld w 47 40 = (ringOf d q).fepoch.toNat) (hp : bit w 32 = true → bit w 63 = false → pointerFits d q w) :
    queueDoorbell d q 8 w = queueEvent (writeStatus (doorbellUpdate d q w) q) q := by
  have hbad : (decide ((8 : Nat) ≠ 8) || !(ringOf d q).enabled || decide (fld w 47 40 ≠ (ringOf d q).fepoch.toNat) ||
      (bit w 32 && !bit w 63 && decide ((if qDir d q = 0 then ringHeld (ringOf d q) else qEntries d q - 1 - ringHeld (ringOf d q)) <
        if qDir d q = 0 then (BitVec.ofNat 32 (fld w 31 0) - (ringOf d q).ci).toNat
        else (BitVec.ofNat 32 (fld w 31 0) - (ringOf d q).pi).toNat))) = false := by
    simp only [he, hw, ne_eq, not_true_eq_false, decide_false, Bool.not_true, Bool.or_self, Bool.false_or]
    unfold pointerFits at hp
    cases h32 : bit w 32 <;> cases h63 : bit w 63 <;> simp only [Bool.false_and, Bool.and_false, Bool.not_true, Bool.not_false, Bool.true_and]
    have := hp h32 h63
    split at this
    · simpa [*] using this
    · simpa [*] using this
  unfold queueDoorbell
  dsimp only
  rw [if_neg (by simp [hf]), if_neg (by rw [hbad]; exact Bool.false_ne_true)]
  unfold doorbellUpdate
  congr 2
  by_cases hd : qDir d q = 0 <;> cases h63 : bit w 63 <;> cases h32 : bit w 32 <;> simp [hd, armedRing]

/-- A doorbell that is narrow, for a disabled queue, of another FEPOCH, or with a pointer that does not fit is counted alone (R369). -/
theorem queueDoorbell_bad {d : Device} {q bytes : Nat} {w : U64} (hf : firmwareReady d = true)
    (h : bytes ≠ 8 ∨ (ringOf d q).enabled = false ∨ fld w 47 40 ≠ (ringOf d q).fepoch.toNat) :
    queueDoorbell d q bytes w = badDoorbell d q := by
  unfold queueDoorbell
  dsimp only
  rw [if_neg (by simp [hf]), if_pos]
  obtain h | h | h := h <;> simp [h]

/-- The pointer doorbell of a DIR 0 queue moves CI. -/
theorem doorbellUpdate_consume {d : Device} {q : Nat} {w : U64} (h32 : bit w 32 = true) (h63 : bit w 63 = false) (hq : qDir d q = 0) :
    doorbellUpdate d q w = setRing (setRing d q (armedRing (ringOf d q) w)) q (setCi { armedRing (ringOf d q) w with
      conse := inc32 (ringOf d q).conse (BitVec.ofNat 32 (fld w 31 0) - (ringOf d q).ci).toNat } (BitVec.ofNat 32 (fld w 31 0))) := by
  simp [doorbellUpdate, h32, h63, hq, armedRing]

/-- The pointer doorbell of a DIR 1 queue moves PI. -/
theorem doorbellUpdate_produce {d : Device} {q : Nat} {w : U64} (h32 : bit w 32 = true) (h63 : bit w 63 = false) (hq : qDir d q = 1) :
    doorbellUpdate d q w = setRing (setRing d q (armedRing (ringOf d q) w)) q (setPi { armedRing (ringOf d q) w with
      pube := inc32 (ringOf d q).pube (BitVec.ofNat 32 (fld w 31 0) - (ringOf d q).pi).toNat } (BitVec.ofNat 32 (fld w 31 0))) := by
  simp [doorbellUpdate, h32, h63, hq, armedRing]

theorem inc32_toNat (x y : U32) : inc32 x y.toNat = x + y := by
  rw [inc32, BitVec.ofNat_toNat, BitVec.setWidth_eq]

/-- After its update a doorbell writes the status block and raises the event, which touch ARM of the queue's ring alone. -/
theorem rings_shown {d : Device} {q : Nat} {r : Ring} (x : Device) (hx : x = setRing d q r) :
    (∃ a, ringOf (queueEvent (writeStatus x q) q) q = { r with arm := a }) ∧
      (∀ n, n ≠ q → ringOf (queueEvent (writeStatus x q) q) n = ringOf d n) ∧ (queueEvent (writeStatus x q) q).berths = d.berths := by
  subst hx
  obtain ⟨⟨a, ha⟩, ho, hb⟩ := queueEvent_rings (writeStatus (setRing d q r) q) q
  refine ⟨⟨a, ?_⟩, fun n hn => ?_, ?_⟩
  · rw [ha, ringOf_writeStatus, ringOf_setRing_same]
  · rw [ho n hn, ringOf_writeStatus, ringOf_setRing_other _ _ hn]
  · rw [hb, berths_writeStatus, setRing_berths]

/-- Settles O34: a good doorbell moves its own pointer, flushes or arms; another one is counted. -/
theorem queueDoorbells : Obligations.QueueDoorbells := by
  unfold Obligations.QueueDoorbells
  intro cmd hc q bytes w s hf
  refine ⟨fun hg h32 h63 hq hp => ?_, fun hg h32 h63 hq hp => ?_, fun hg h63 => ?_, fun hg h32 h63 h62 hdue => ?_, fun hb => ?_⟩
  case _ =>
    obtain ⟨rfl, he, hw⟩ := hg
    refine ⟨_, exec_queueDoorbell hc q 8 w s, ?_⟩
    rw [queueDoorbell_good hf he hw (fun _ _ => by rw [pointerFits, if_pos hq]; exact hp), doorbellUpdate_consume h32 h63 hq]
    obtain ⟨⟨a, ha⟩, ho, hbe⟩ := rings_shown _ (rfl : setRing (setRing s.dev q.val (armedRing (ringOf s.dev q.val) w)) q.val _ = _)
    refine ⟨?_, fun n hn => (ho n hn).trans (ringOf_setRing_other _ _ hn), hbe⟩
    rw [ha, inc32_toNat]
    exact ⟨rfl, rfl, rfl, rfl, rfl, rfl⟩
  case _ =>
    obtain ⟨rfl, he, hw⟩ := hg
    refine ⟨_, exec_queueDoorbell hc q 8 w s, ?_⟩
    rw [queueDoorbell_good hf he hw (fun _ _ => by rw [pointerFits, if_neg (by omega)]; exact hp), doorbellUpdate_produce h32 h63 hq]
    obtain ⟨⟨a, ha⟩, ho, hbe⟩ := rings_shown _ (rfl : setRing (setRing s.dev q.val (armedRing (ringOf s.dev q.val) w)) q.val _ = _)
    refine ⟨?_, fun n hn => (ho n hn).trans (ringOf_setRing_other _ _ hn), hbe⟩
    rw [ha, inc32_toNat]
    exact ⟨rfl, rfl, rfl, rfl, rfl⟩
  case _ =>
    obtain ⟨rfl, he, hw⟩ := hg
    refine ⟨_, exec_queueDoorbell hc q 8 w s, ?_⟩
    rw [queueDoorbell_good hf he hw (by simp [h63]), doorbellUpdate, if_pos h63]
    obtain ⟨⟨a, ha⟩, -, hbe⟩ := queueEvent_rings (writeStatus (flushQueue (setRing s.dev q.val (armedRing (ringOf s.dev q.val) w)) q.val 0) q.val) q.val
    obtain ⟨hr, hfb⟩ := flushQueue_parts (setRing s.dev q.val (armedRing (ringOf s.dev q.val) w)) q.val 0
    rw [ha, hbe, ringOf_writeStatus, berths_writeStatus, hr, hfb, ringOf_setRing_same]
    exact ⟨⟨rfl, rfl, rfl, rfl⟩, rfl⟩
  case _ =>
    obtain ⟨rfl, he, hw⟩ := hg
    refine ⟨_, exec_queueDoorbell hc q 8 w s, ?_⟩
    have hu : doorbellUpdate s.dev q.val w = setRing s.dev q.val { ringOf s.dev q.val with arm := true } := by
      simp [doorbellUpdate, h32, h63, h62, armedRing]
    have hnd : ¬ eventDue (writeStatus (setRing s.dev q.val { ringOf s.dev q.val with arm := true }) q.val) q.val := by
      have hdir : qDir (writeStatus (setRing s.dev q.val { ringOf s.dev q.val with arm := true }) q.val) q.val = qDir s.dev q.val := by
        obtain ⟨m, hm⟩ := writeStatus_frame (setRing s.dev q.val { ringOf s.dev q.val with arm := true }) q.val
        rw [hm]
        rfl
      have hn : qEntries (writeStatus (setRing s.dev q.val { ringOf s.dev q.val with arm := true }) q.val) q.val = qEntries s.dev q.val := by
        obtain ⟨m, hm⟩ := writeStatus_frame (setRing s.dev q.val { ringOf s.dev q.val with arm := true }) q.val
        rw [hm]
        rfl
      rw [eventDue, hdir, hn, ringOf_writeStatus, ringOf_setRing_same]
      split at hdue
      · rw [if_pos ‹_›]
        exact not_not.mpr hdue
      · rw [if_neg ‹_›]
        exact not_le.mpr hdue
    rw [queueDoorbell_good hf he hw (by simp [h32]), hu, queueEvent_of_not_due hnd, ringOf_writeStatus, ringOf_setRing_same,
      berths_writeStatus, od_writeStatus]
    exact ⟨rfl, rfl, rfl⟩
  case _ => rw [exec_queueDoorbell hc, queueDoorbell_bad hf hb]; rfl

end Sys2Proof.Machine
end

section
/-! Hardware queue commands (R371 to R377): flush, reset, ENABLE, DISABLE and DATA, and the ledger tests that an offer keeps. -/

namespace Sys2Proof.Machine

/-! Object dictionary: ENABLE and CHECK of a queue record -/

theorem odKind_queue {q : Nat} (hq : q < 16384) : odKind (0x4000 + q) = some .queue := by
  unfold odKind
  repeat rw [if_neg (by omega)]
  rw [if_pos (by omega)]

theorem size_queueRow {q : Nat} (hq : q < 16384) (s : Nat) :
    ((odInfo (0x4000 + q) s).map (·.size)).getD 0 = ((odRow .queue s).map (·.size)).getD 0 := by
  simp only [odInfo, odKind_queue hq, Option.bind_some]

theorem odGet_queueRow_put {q s v : Nat} (d : Device) (hq : q < 16384) (hs : ((odRow .queue s).map (·.size)).getD 0 = 1) (hv : v < 256) :
    odGet (odPut d (0x4000 + q) s v) (0x4000 + q) s = v := by
  rw [odGet_odPut_same, size_queueRow hq, hs]
  exact Nat.mod_eq_of_lt hv

theorem queueCheck_lt (d : Device) (q : Nat) : queueCheck d q < 4 := by
  unfold queueCheck
  dsimp only
  repeat' split
  all_goals omega

/-! Reset -/

/-- A queue reset zeroes the pointers and their copies, counts itself and reports source 0x086 (R373). -/
theorem resetQueue_parts (d : Device) (q : Nat) : ∃ x : Report,
    ((ringOf (resetQueue d q) q).pi = 0 ∧ (ringOf (resetQueue d q) q).ci = 0 ∧ (ringOf (resetQueue d q) q).piCopy = 0 ∧
      (ringOf (resetQueue d q) q).ciCopy = 0 ∧ (ringOf (resetQueue d q) q).fepoch = (ringOf d q).fepoch + 1 ∧
      (ringOf (resetQueue d q) q).resets = (ringOf d q).resets + 1) ∧
    (resetQueue d q).hub.reports = d.hub.reports ++ [x] ∧ x.source = 0x086 ∧ x.blame = tag 8 0 q := by
  rw [resetQueue]
  generalize (if (ringOf d q).pi = (ringOf d q).piCopy then _ else _) = oldest
  generalize ((ringOf d q).pube - _ - _).toNat = n
  obtain ⟨o, l, hd⟩ := discardEntries_frame d q 6 n oldest
  rw [hd]
  generalize hr : setCi _ 0 = r
  generalize he : setRing _ q r = e
  obtain ⟨m, hm⟩ := writeStatus_frame e q
  have hq : ringOf e q = r := by rw [← he]; exact ringOf_setRing_same _ _ _
  have hring : ringOf (report (writeStatus e q) 0x086 (tag 8 0 q) (tag 8 0 q) q) q = r := by
    rw [ringOf_report, ringOf_writeStatus, hq]
  rw [hring, hm, ← he]
  exact ⟨_, by rw [← hr]; exact ⟨rfl, rfl, rfl, rfl, rfl, rfl⟩, rfl, rfl, rfl⟩

/-! ENABLE and DISABLE -/

theorem enableQueue_refused {d : Device} {q : Nat} (he : (ringOf d q).enabled = false) (hc : queueCheck d q ≠ 0) :
    enableQueue d q = odPut d (0x4000 + q) 0x0D (queueCheck d q) := by
  unfold enableQueue
  dsimp only
  rw [if_neg (by rw [he]; exact Bool.false_ne_true), if_pos hc]

/-- An ENABLE that passes its checks clears pointers and counters under the next FEPOCH (R376). -/
theorem enableQueue_good {d : Device} {q : Nat} (hq : q < 16384) (he : (ringOf d q).enabled = false) (hc : queueCheck d q = 0) :
    ringOf (enableQueue d q) q = { enabled := true, fepoch := (ringOf d q).fepoch + 1, gaps := (ringOf d q).gaps } ∧
      odGet (enableQueue d q) (0x4000 + q) 1 = 1 ∧ odGet (enableQueue d q) (0x4000 + q) 0x0D = 0 := by
  have hx : ∃ x : Device, (odGet x (0x4000 + q) 1 = 1 ∧ odGet x (0x4000 + q) 0x0D = 0) ∧ enableQueue d q =
      writeStatus (setRing x q { enabled := true, fepoch := (ringOf d q).fepoch + 1, gaps := (ringOf d q).gaps }) q := by
    have h1 : odGet (odPut (odPut d (0x4000 + q) 0x0D 0) (0x4000 + q) 1 1) (0x4000 + q) 1 = 1 :=
      odGet_queueRow_put _ hq (by decide) (by omega)
    have h13 : odGet (odPut (odPut d (0x4000 + q) 0x0D 0) (0x4000 + q) 1 1) (0x4000 + q) 0x0D = 0 :=
      (odGet_odPut_other _ _ (by omega)).trans (odGet_queueRow_put _ hq (by decide) (by omega))
    unfold enableQueue
    dsimp only
    rw [if_neg (by rw [he]; exact Bool.false_ne_true), if_neg (not_not.mpr hc)]
    refine ⟨_, ?_, rfl⟩
    split
    · split
      · exact ⟨(odGet_odPut_other _ _ (by omega)).trans h1, (odGet_odPut_other _ _ (by omega)).trans h13⟩
      · exact ⟨h1, h13⟩
    · exact ⟨h1, h13⟩
  obtain ⟨x, ⟨h1, h13⟩, hx⟩ := hx
  rw [hx]
  refine ⟨by rw [ringOf_writeStatus, ringOf_setRing_same], ?_⟩
  generalize hy : setRing _ _ _ = y
  obtain ⟨m, hm⟩ := writeStatus_frame y q
  rw [hm, ← hy]
  exact ⟨h1, h13⟩

/-- A DISABLE flushes and closes the queue (R376). -/
theorem disableQueue_parts {d : Device} {q : Nat} (hq : q < 16384) (he : (ringOf d q).enabled = true) :
    ringOf (disableQueue d q) q = { flushedRing (ringOf d q) with enabled := false } ∧ odGet (disableQueue d q) (0x4000 + q) 1 = 0 := by
  have hx : ∃ x : Device, (ringOf x q = { flushedRing (ringOf d q) with enabled := false } ∧ odGet x (0x4000 + q) 1 = 0) ∧
      disableQueue d q = writeStatus x q := by
    have h0 : ringOf (odPut (setRing (flushQueue d q 5) q { ringOf (flushQueue d q 5) q with enabled := false }) (0x4000 + q) 1 0) q =
        { flushedRing (ringOf d q) with enabled := false } := by
      rw [ringOf_odPut, ringOf_setRing_same, (flushQueue_parts d q 5).1]
    have h1 : odGet (odPut (setRing (flushQueue d q 5) q { ringOf (flushQueue d q 5) q with enabled := false }) (0x4000 + q) 1 0)
        (0x4000 + q) 1 = 0 := odGet_queueRow_put _ hq (by decide) (by omega)
    rw [disableQueue, if_pos he]
    refine ⟨_, ?_, rfl⟩
    split
    · exact ⟨h0, h1⟩
    · exact ⟨h0, h1⟩
  obtain ⟨x, ⟨h0, h1⟩, hx⟩ := hx
  rw [hx, ringOf_writeStatus]
  obtain ⟨m, hm⟩ := writeStatus_frame x q
  rw [hm]
  exact ⟨h0, h1⟩

/-! DATA -/

theorem firstItem_ne_nil (r : Ring) {entries n : Nat} (hn : 0 < n) (i : Nat) : firstItem r entries n i ≠ [] := by
  cases n with
  | zero => omega
  | succ n =>
    rw [firstItem]
    split <;> exact List.cons_ne_nil _ _

/-- Entries read from an HBM queue are at least as many bytes, their flags, as entries. -/
theorem length_readEntries_pos (d : Device) (q : Nat) {fls : List Nat} (h : fls ≠ []) : 0 < (readEntries d q fls).length := by
  obtain ⟨x, xs, rfl⟩ := List.exists_cons_of_ne_nil h
  simp [readEntries, List.zipIdx_cons]

/-- With no byte left to fill, a read of DATA takes nothing. -/
theorem dataRead_zero (n : Nat) (d : Device) (q : Nat) : (dataRead n d q 0).1 = d := by
  cases n with
  | zero => rfl
  | succ n =>
    rw [dataRead]
    by_cases hz : ringHeld (ringOf d q) = 0
    · rw [if_pos (.inl hz)]
    · rw [if_pos (.inr (.inl (length_readEntries_pos d q (firstItem_ne_nil _ (by omega) 0))))]

/-- A ring whose oldest `n` entries have been taken. -/
def takenRing (r : Ring) (n : Nat) : Ring := setCi { r with conse := inc32 r.conse n } (r.ci + BitVec.ofNat 32 n)

/-- A read of DATA as long as the first whole item takes that item (R377). -/
theorem dataRead_first {d : Device} {q n : Nat} (hn : 0 < n) (hheld : 0 < ringHeld (ringOf d q)) :
    (dataRead n d q (readEntries d q (firstItem (ringOf d q) (qEntries d q) (ringHeld (ringOf d q)) 0)).length).1 =
      setRing d q (takenRing (ringOf d q) (firstItem (ringOf d q) (qEntries d q) (ringHeld (ringOf d q)) 0).length) := by
  have hne := firstItem_ne_nil (ringOf d q) (entries := qEntries d q) hheld 0
  obtain ⟨n, rfl⟩ := Nat.exists_eq_add_one.mpr hn
  rw [dataRead, if_neg]
  · dsimp only
    rw [Nat.sub_self]
    exact dataRead_zero n _ q
  · simp only [not_or, lt_irrefl, not_false_eq_true, List.isEmpty_iff, true_and]
    exact ⟨by omega, hne⟩

/-- Publishing moves PI and PUBE by the entries published, and leaves what the ring counts otherwise. -/
theorem ringPublish_eq (entries : Nat) (keep : Bool) (key : Nat) (es : List (Nat × List Byte)) (r : Ring) :
    ∃ p s, ringPublish r entries keep key es =
      { r with pi := r.pi + BitVec.ofNat 32 es.length, piCopy := p, pube := r.pube + BitVec.ofNat 32 es.length, slots := s } := by
  induction es generalizing r with
  | nil => exact ⟨r.piCopy, r.slots, by simp [ringPublish]⟩
  | cons e es ih =>
    obtain ⟨fl, bs⟩ := e
    rw [ringPublish]
    obtain ⟨p, s, hp⟩ := ih (setPi { r with
      slots := Tab.set r.slots (r.pi.toNat % entries) (fl + 8 * key, if keep then bs else []), pube := r.pube + 1 } (r.pi + 1))
    have hone : ∀ x : U32, x + 1 + BitVec.ofNat 32 es.length = x + BitVec.ofNat 32 (es.length + 1) := by
      intro x
      rw [BitVec.ofNat_add, BitVec.add_assoc, BitVec.add_comm 1]
      rfl
    refine ⟨p, s, ?_⟩
    rw [hp]
    simp only [setPi, hone, List.length_cons]

theorem dataWrite_good {d : Device} {q : Nat} {item : List Byte} {gap : Bool} (he : (ringOf d q).enabled = true) (hl : qLoc d q = 1)
    (hd : qDir d q = 1) (hroom : (itemEntries (qBytes d q) item).length ≤ qEntries d q - 1 - ringHeld (ringOf d q)) :
    ∃ (es : List (Nat × List Byte)) (m : Tab Berth), es.length = (itemEntries (qBytes d q) item).length ∧
      dataWrite d q item gap = setRing { d with berths := m } q (ringPublish (ringOf d q) (qEntries d q) false 0 es) := by
  unfold dataWrite
  dsimp only
  generalize hes : (if gap then (itemEntries (qBytes d q) item).map (fun e => (7, e.2)) else itemEntries (qBytes d q) item) = es
  have hlen : es.length = (itemEntries (qBytes d q) item).length := by
    rw [← hes]
    split
    · exact List.length_map _
    · rfl
  rw [if_pos (by simp [he, hl, hd, hlen, hroom])]
  exact ⟨es, _, hlen, rfl⟩

/-! The ledger tests of a ring -/

theorem ringHolds_iff (l : RingLatch) : ringHolds l = true ↔
    l.ring.iseq = BitVec.ofNat 32 l.ring.items + BitVec.ofNat 32 l.ring.dropped ∧
      l.ring.pube - l.ring.conse - BitVec.ofNat 32 l.ring.flushed = l.ring.pi - l.ring.ci ∧
      (l.ring.pi - l.ring.ci).toNat + 1 ≤ l.entries := by
  simp [ringHolds, and_assoc]

theorem satAdd_one {top n : Nat} (h : n < top) : satAdd top n 1 = n + 1 := by
  rw [satAdd]
  omega

theorem itemEntries_ne_nil {ebytes : Nat} {item : List Byte} (hb : 0 < ebytes) (hi : item ≠ []) : itemEntries ebytes item ≠ [] := by
  have hlen : 0 < item.length := List.length_pos_of_ne_nil hi
  have : 0 < (item.length + ebytes - 1) / ebytes := Nat.div_pos (by omega) hb
  rw [itemEntries]
  simp only [ne_eq, List.map_eq_nil_iff, List.range_eq_nil]
  omega

/-- What an accepted offer fills stays within the ring. -/
theorem held_add_le {p c : U32} {n e : Nat} (he : e ≤ 65536) (h : (p - c).toNat + 1 ≤ e) (hn : n ≤ e - 1 - (p - c).toNat) :
    (p + BitVec.ofNat 32 n - c).toNat + 1 ≤ e := by
  have hsum : p + BitVec.ofNat 32 n - c = (p - c) + BitVec.ofNat 32 n := by ring
  have hof : (BitVec.ofNat 32 n).toNat = n := by
    rw [BitVec.toNat_ofNat]
    exact Nat.mod_eq_of_lt (by omega)
  rw [hsum, BitVec.toNat_add_of_lt (by rw [hof]; omega), hof]
  omega

/-- Offers and publication in terms of the ledger: an accepted item counts once and publishes all it should, a dropped one counts
once and publishes nothing. -/
theorem ringHolds_offer {l : RingLatch} {ebytes : Nat} {up room keep : Bool} {item : List Byte} {key : U64} (hb : 0 < ebytes)
    (hi : item ≠ []) (hl : ringHolds l = true) (hn : l.entries ≤ 65536) (hit : l.ring.items < top64) (hdr : l.ring.dropped < top64) :
    let o := ringOffer l.ring l.entries ebytes up room item key
    let r' := ringPublish o.1 l.entries keep key.toNat o.2
    ringHolds { l with ring := r' } = true ∧ r'.ci = l.ring.ci ∧ r'.iseq = l.ring.iseq + 1 ∧
    (o.2 = [] → r'.pi = l.ring.pi ∧ r'.dropped = l.ring.dropped + 1) ∧
    (o.2 ≠ [] → r'.gaps = [] ∧ r'.items = l.ring.items + 1) := by
  obtain ⟨hseq, hpub, hheld⟩ := (ringHolds_iff l).mp hl
  have hne := itemEntries_ne_nil hb hi
  unfold ringOffer
  dsimp only
  split
  case isTrue hc =>
    simp only [Bool.and_eq_true, decide_eq_true_eq] at hc
    obtain ⟨-, hroom⟩ := hc
    generalize hes : l.ring.gaps.map (gapEntry ebytes) ++ itemEntries ebytes item = es
    have hlen : es.length ≤ l.entries - 1 - (l.ring.pi - l.ring.ci).toNat := by
      rw [← hes, List.length_append, List.length_map]
      exact le_of_eq_of_le (Nat.add_comm _ _) hroom
    have hes' : es ≠ [] := by
      rw [← hes]
      simp [hne]
    generalize hr : ({ l.ring with iseq := _, items := _, gaps := _ } : Ring) = r
    obtain ⟨p, s, hp⟩ := ringPublish_eq l.entries keep key.toNat es r
    rw [hp, ringHolds_iff, ← hr]
    refine ⟨⟨?_, ?_, held_add_le hn hheld hlen⟩, rfl, rfl, fun h => absurd h hes', fun _ => ⟨rfl, satAdd_one hit⟩⟩
    · dsimp only
      rw [satAdd_one hit, hseq, BitVec.ofNat_add]
      change _ = _ + 1 + _
      ring
    · dsimp only
      linear_combination hpub
  case isFalse =>
    rw [ringPublish, ringHolds_iff]
    refine ⟨⟨?_, hpub, hheld⟩, rfl, rfl, fun _ => ⟨rfl, satAdd_one hdr⟩, fun h => absurd rfl h⟩
    dsimp only
    rw [satAdd_one hdr, hseq, BitVec.ofNat_add]
    change _ = _ + (_ + 1)
    ring

/-! Settling O35 -/

/-- Settles O35: flush, reset, ENABLE, DISABLE and DATA act on their own ring, and an offer keeps the ledger tests of its ring. -/
theorem queueCommandsAndRings : Obligations.QueueCommandsAndRings := by
  unfold Obligations.QueueCommandsAndRings
  refine ⟨fun q s => ⟨?_, fun hm => ?_, fun he hc => ?_, fun he hc => ?_, fun he => ?_, fun len hl hd hheld _ hlen => ?_,
    fun item gap he hl hd hroom => ?_⟩, fun l ebytes up room keep item key hb hi hl hn hit hdr => ringHolds_offer hb hi hl hn hit hdr⟩
  case _ =>
    have hx : exec (.queueFlushCommand q) s = .next { s with dev := flushQueue s.dev q.val 0 } := by
      change execQueueFlushCommand q s = _
      rw [execQueueFlushCommand, onDev_eq]
    obtain ⟨hr, hbe⟩ := flushQueue_parts s.dev q.val 0
    exact ⟨_, hx, by rw [hr]; exact ⟨rfl, rfl, rfl, hbe⟩⟩
  case _ =>
    have hx : exec (.queuePointerMismatch q) s = .next { s with dev := resetQueue s.dev q.val } := by
      change execQueuePointerMismatch q s = _
      rw [execQueuePointerMismatch, onDev_eq, guarded, if_pos (by simpa using hm)]
    obtain ⟨x, ⟨hpi, hci, hpc, hcc, hf, hre⟩, hrep, hsrc, hbl⟩ := resetQueue_parts s.dev q.val
    exact ⟨_, x, hx, hpi, hci, hpc, hcc, hf, hre, hrep, hsrc, hbl⟩
  case _ =>
    have hx : exec (.queueEnable q) s = .next { s with dev := enableQueue s.dev q.val } := by
      change execQueueEnable q s = _
      rw [execQueueEnable, onDev_eq]
    exact ⟨_, hx, enableQueue_good q.isLt he hc⟩
  case _ =>
    have hx : exec (.queueEnable q) s = .next { s with dev := enableQueue s.dev q.val } := by
      change execQueueEnable q s = _
      rw [execQueueEnable, onDev_eq]
    refine ⟨_, hx, ?_⟩
    rw [enableQueue_refused he hc]
    exact ⟨odGet_queueRow_put _ q.isLt (by decide) (Nat.lt_trans (queueCheck_lt _ _) (by omega)), rfl, rfl⟩
  case _ =>
    have hx : exec (.queueDisable q) s = .next { s with dev := disableQueue s.dev q.val } := by
      change execQueueDisable q s = _
      rw [execQueueDisable, onDev_eq]
    obtain ⟨hr, h0⟩ := disableQueue_parts q.isLt he
    exact ⟨_, hx, by rw [hr]; exact ⟨rfl, rfl, rfl, rfl, h0⟩⟩
  case _ =>
    have hx : exec (.queueDataRead q len) s = .next { s with dev := (dataRead (ringHeld (ringOf s.dev q.val)) s.dev q.val len).1 } := by
      change execQueueDataRead q len s = _
      rw [execQueueDataRead, onDev_eq, guarded, if_pos (by simp [hl, hd])]
    refine ⟨_, hx, ?_⟩
    rw [hlen, dataRead_first hheld hheld, ringOf_setRing_same]
    exact ⟨rfl, rfl, rfl, rfl, rfl⟩
  case _ =>
    have hx : exec (.queueDataWrite q item gap) s = .next { s with dev := dataWrite s.dev q.val item gap } := by
      change execQueueDataWrite q item gap s = _
      rw [execQueueDataWrite, onDev_eq]
    refine ⟨_, hx, ?_⟩
    obtain ⟨es, m, hlen, hw⟩ := dataWrite_good (gap := gap) he hl hd hroom
    obtain ⟨p, sl, hp⟩ := ringPublish_eq (qEntries s.dev q.val) false 0 es (ringOf s.dev q.val)
    rw [hw, ringOf_setRing_same, hp, ← hlen]
    exact ⟨rfl, rfl, rfl, rfl⟩

end Sys2Proof.Machine
end

section
/-! Resets (R403, R404, R457 to R462): the causes that they set, what the start of the cores reads from flash, and what each reset
takes and keeps. -/

namespace Sys2Proof.Machine

/-! Causes (R404) -/

theorem size_cause : ((odInfo 0x1010 1).map (·.size)).getD 0 = 4 := by decide

/-- A cause bit is set by the causes named and stays where it was set. -/
theorem testBit_setCause (d : Device) (bits berths : Nat) {j : Nat} (hj : j < 32) :
    (odGet (setCause d bits berths) 0x1010 1).testBit j = ((odGet d 0x1010 1).testBit j || bits.testBit j) := by
  have h : odGet (setCause d bits berths) 0x1010 1 = Nat.lor (odGet d 0x1010 1) bits % 2 ^ 32 := by
    rw [setCause, odGet_odPut_other _ _ (by omega), odGet_odPut_other _ _ (by omega), odGet_odPut_same, size_cause]
    norm_num
  rw [h, Nat.testBit_mod_two_pow, decide_eq_true hj, Bool.true_and]
  exact Nat.testBit_or _ _ _

theorem odGet_setCause_other (d : Device) (bits berths : Nat) {i s : Nat} (h : 256 * i + s < 256 * 0x1010 ∨ 256 * 0x1011 ≤ 256 * i + s) :
    odGet (setCause d bits berths) i s = odGet d i s := by
  rw [setCause, odGet_odPut_other _ _ (by omega), odGet_odPut_other _ _ (by omega), odGet_odPut_other _ _ (by omega)]

/-- The record of restored objects is written at its own values alone. -/
theorem odGet_listRestored (d : Device) (i s : Nat) {j t : Nat} (h : 256 * j + t ≠ 256 * 0x1010 + 4)
    (h' : 256 * j + t < 256 * 0x1011 ∨ 256 * 0x1012 ≤ 256 * j + t) : odGet (listRestored d i s) j t = odGet d j t := by
  rw [listRestored]
  rw [odGet_odAdd_other _ _ h]
  split
  · exact odGet_odPut_other _ _ (by omega)
  · rfl

/-! The start of the cores (R403) -/

/-- The keys whose records a start finds damaged. -/
def damagedKeys (d : Device) : List Nat :=
  (d.flash.filter (fun e => classP e.1 && Config.flashDamaged e.1 d.drawn)).map (·.1)

theorem classP_of_damaged {d : Device} {k : Nat} (h : k ∈ damagedKeys d) : classP k = true := by
  obtain ⟨e, he, rfl⟩ := List.mem_map.mp h
  have := (List.mem_filter.mp he).2
  rw [Bool.and_eq_true] at this
  exact this.1

/-- Returning damaged objects to their defaults leaves every value that is not of class P and not in the record of restored objects. -/
theorem odGet_foldl_restore {i s : Nat} (hc : classP (256 * i + s) = false) (h : 256 * i + s ≠ 256 * 0x1010 + 4)
    (h' : 256 * i + s < 256 * 0x1011 ∨ 256 * 0x1012 ≤ 256 * i + s) (ks : List Nat) (hk : ∀ k ∈ ks, classP k = true) (d : Device) :
    odGet (ks.foldl (fun d k => listRestored (odPut d (k / 256) (k % 256) (odDefault (k / 256) (k % 256))) (k / 256) (k % 256)) d) i s =
      odGet d i s := by
  induction ks generalizing d with
  | nil => rfl
  | cons k ks ih =>
    rw [List.foldl_cons, ih (fun k hk' => hk k (List.mem_cons_of_mem _ hk')), odGet_listRestored _ _ _ h h']
    refine odGet_odPut_other _ _ fun he => ?_
    have hke : k = 256 * i + s := by omega
    rw [← hke, hk k List.mem_cons_self] at hc
    exact absurd hc (by decide)

theorem readFlash_eq (d : Device) : readFlash d =
    if (damagedKeys d).isEmpty then
      { d with flash := d.flash.filter (fun e => !(damagedKeys d).contains e.1), drawn := d.drawn + 1 }
    else (damagedKeys d).foldl
      (fun d k => listRestored (odPut d (k / 256) (k % 256) (odDefault (k / 256) (k % 256))) (k / 256) (k % 256))
      (setCause { d with flash := d.flash.filter (fun e => !(damagedKeys d).contains e.1), drawn := d.drawn + 1 } 256 0) := rfl

theorem flash_readFlash (d : Device) : (readFlash d).flash = d.flash.filter (fun e => !(damagedKeys d).contains e.1) := by
  obtain ⟨e, -, he⟩ := readFlash_frame d
  rw [he]
  rfl

/-- The flash after a start of the cores: as it was, but for the damaged records of class P. -/
theorem flashKept_readFlash (d : Device) : FlashKept d.drawn d.flash (readFlash d).flash := by
  rw [flash_readFlash]
  refine .inr (List.filter_congr fun e he => ?_)
  by_cases hd : (classP e.1 && Config.flashDamaged e.1 d.drawn) = true
  · have : e.1 ∈ damagedKeys d := List.mem_map_of_mem (List.mem_filter.mpr ⟨he, hd⟩)
    rw [List.contains_iff_mem.mpr this, hd]
  · have : ¬ (damagedKeys d).contains e.1 = true := by
      intro hc
      obtain ⟨x, hx, hxe⟩ := List.mem_map.mp (List.contains_iff_mem.mp hc)
      have := (List.mem_filter.mp hx).2
      rw [hxe] at this
      exact hd this
    rw [Bool.not_eq_true] at this hd
    rw [this, hd]

theorem flashKept_refl (n : Nat) (l : List (Nat × Nat)) : FlashKept n l l := .inl rfl

/-- A value that is no kept object's, no cause and no record of restored objects stays through a start of the cores. -/
theorem odGet_readFlash_other (d : Device) {i s : Nat} (hc : classP (256 * i + s) = false)
    (h : 256 * i + s < 256 * 0x1010 ∨ 256 * 0x1012 ≤ 256 * i + s) : odGet (readFlash d) i s = odGet d i s := by
  rw [readFlash_eq]
  split
  · rfl
  · rw [odGet_foldl_restore hc (by omega) (by omega) _ (fun k hk => classP_of_damaged hk), odGet_setCause_other _ _ _ (by omega)]
    rfl

/-- A start keeps every cause, and sets cause 8 where it discards a record. -/
theorem cause_readFlash (d : Device) : (∀ j < 32, (odGet d 0x1010 1).testBit j = true → (odGet (readFlash d) 0x1010 1).testBit j = true) ∧
    (∀ x ∈ d.flash, x ∉ (readFlash d).flash → (odGet (readFlash d) 0x1010 1).testBit 8 = true) := by
  by_cases hbad : (damagedKeys d).isEmpty = true
  · have hnil : damagedKeys d = [] := List.isEmpty_iff.mp hbad
    refine ⟨fun j _ hb => ?_, fun x hx hn => absurd ?_ hn⟩
    · rw [readFlash_eq, if_pos hbad]
      exact hb
    · rw [flash_readFlash, hnil]
      exact List.mem_filter.mpr ⟨hx, rfl⟩
  · have hset : odGet (readFlash d) 0x1010 1 = odGet (setCause { d with
        flash := d.flash.filter (fun e => !(damagedKeys d).contains e.1), drawn := d.drawn + 1 } 256 0) 0x1010 1 := by
      rw [readFlash_eq, if_neg hbad]
      exact odGet_foldl_restore (by decide) (by decide) (by decide) _ (fun k hk => classP_of_damaged hk) _
    rw [hset]
    refine ⟨fun j hj hb => ?_, fun _ _ _ => ?_⟩
    · rw [testBit_setCause _ _ _ hj]
      exact Bool.or_eq_true_iff.mpr (.inl hb)
    · rw [testBit_setCause _ _ _ (by omega)]
      exact Bool.or_eq_true_iff.mpr (.inr (by decide))

/-- A start of the cores changes object values, flash, drawn values, the firmware's state and the link of the PCIe function alone. -/
theorem startCores_frame (d : Device) : ∃ o f n w u,
    startCores d = { d with od := o, flash := f, drawn := n, fw := w, pcie := { d.pcie with up := u } } := by
  rw [startCores]
  split
  · obtain ⟨e, ⟨o, rfl⟩, he⟩ := readFlash_frame { d with fw := { d.fw with running := true, fwstate := 1, bootAt := d.time }, pcie := { d.pcie with up := true } }
    rw [he]
    exact ⟨_, _, _, _, _, rfl⟩
  · exact ⟨d.od, d.flash, d.drawn, d.fw, d.pcie.up, rfl⟩

theorem startCores_keeps (d : Device) : FlashKept d.drawn d.flash (startCores d).flash ∧
    (∀ j < 32, (odGet d 0x1010 1).testBit j = true → (odGet (startCores d) 0x1010 1).testBit j = true) ∧
    (∀ x ∈ d.flash, x ∉ (startCores d).flash → (odGet (startCores d) 0x1010 1).testBit 8 = true) ∧
    mstate (startCores d) = mstate d := by
  rw [startCores]
  split
  · generalize he : ({ d with fw := _, pcie := _ } : Device) = e
    have hod : e.od = d.od ∧ e.flash = d.flash ∧ e.drawn = d.drawn := by
      rw [← he]
      exact ⟨rfl, rfl, rfl⟩
    obtain ⟨ho, hf, hn⟩ := hod
    rw [← hf, ← hn]
    have hg : ∀ i s, odGet e i s = odGet d i s := odGet_congr ho
    have hm : odGet (readFlash e) 0x8400 8 = odGet e 0x8400 8 := odGet_readFlash_other e (by decide) (by decide)
    exact ⟨flashKept_readFlash e, fun j hj hb => (cause_readFlash e).1 j hj (by rw [hg]; exact hb), (cause_readFlash e).2,
      hm.trans (hg _ _)⟩
  · exact ⟨flashKept_refl _ _, fun _ _ h => h, fun x hx hn => absurd hx hn, rfl⟩

/-! The resets -/

theorem testBit_lossCauses (before d : Device) {j : Nat} (hj : j < 32) (h : (odGet d 0x1010 1).testBit j = true) :
    (odGet (lossCauses before d) 0x1010 1).testBit j = true := by
  have hset : ∀ (x : Device) (bits berths : Nat), (odGet x 0x1010 1).testBit j = true →
      (odGet (setCause x bits berths) 0x1010 1).testBit j = true := by
    intro x bits berths hx
    rw [testBit_setCause _ _ _ hj, hx, Bool.true_or]
  rw [lossCauses]
  split
  · split
    · exact h
    · exact hset _ _ _ h
  · split
    · exact hset _ _ _ h
    · exact hset _ _ _ (hset _ _ _ h)

theorem onlyOd_lossCauses (before d : Device) : OnlyOd d (lossCauses before d) := by
  rw [lossCauses]
  split
  · split
    · exact .refl d
    · exact onlyOd_setCause d _ _
  · split
    · exact onlyOd_setCause d _ _
    · exact (onlyOd_setCause d _ _).trans (onlyOd_setCause _ _ _)

theorem bootFirmware_frame (d : Device) : ∃ a t, bootFirmware d = { d with fw := { d.fw with active := a, tries := t } } := by
  rw [bootFirmware]
  split
  · exact ⟨_, _, rfl⟩
  · exact ⟨d.fw.active, d.fw.tries, rfl⟩

theorem exec_powerOn (straps : BitVec 3) (testEn : Bool) (s : State) :
    exec (.powerOn straps testEn) s = .next { s with dev := powerOn s.dev straps testEn } := by
  change execPowerOn straps testEn s = _
  rw [execPowerOn, onDev_eq]

/-- The module as 3.3VAUX rises: all but flash starts anew (R478). -/
def freshModule (d : Device) (straps : BitVec 3) (testEn : Bool) : Device :=
  let d' := resetModule false false d
  sampleStraps { d' with
    pcie := {}
    mctpEid := 0
    power :=
      { aux := true
        slot12 := d.power.slot12
        cableMv := d.power.cableMv
        sense0 := d.power.sense0
        sense1 := d.power.sense1
        perstLow := d.power.perstLow
        fR := 2400
        want := 2400 } } straps testEn

theorem powerOn_eq (d : Device) (straps : BitVec 3) (testEn : Bool) : powerOn d straps testEn =
    startCores (setRails (bootFirmware (lossCauses d (setCause (freshModule d straps testEn) 1 0)))) := rfl

theorem odGet_setRails (d : Device) (i s : Nat) : odGet (setRails d) i s = odGet d i s := rfl

theorem odGet_bootFirmware (d : Device) (i s : Nat) : odGet (bootFirmware d) i s = odGet d i s := by
  obtain ⟨a, t, h⟩ := bootFirmware_frame d
  rw [h]
  rfl

/-- The causes of a reset and the try of a marked bank change object values and the boot bank alone. -/
theorem boot_frame (before x : Device) (bits berths : Nat) : ∃ o a t,
    bootFirmware (lossCauses before (setCause x bits berths)) = { x with od := o, fw := { x.fw with active := a, tries := t } } := by
  obtain ⟨o, ho⟩ := (onlyOd_setCause x bits berths).trans (onlyOd_lossCauses before _)
  rw [ho]
  obtain ⟨a, t, h⟩ := bootFirmware_frame { x with od := o }
  exact ⟨o, a, t, h⟩

theorem testBit_boot (before x : Device) (bits berths : Nat) {j : Nat} (hj : j < 32) (hb : bits.testBit j = true) :
    (odGet (bootFirmware (lossCauses before (setCause x bits berths))) 0x1010 1).testBit j = true := by
  rw [odGet_bootFirmware]
  refine testBit_lossCauses _ _ hj ?_
  rw [testBit_setCause _ _ _ hj, hb, Bool.or_true]

/-- What power on takes and keeps (R478). -/
theorem powerOn_spec (d : Device) (straps : BitVec 3) (testEn : Bool) :
    let e := powerOn d straps testEn
    (odGet e 0x1010 1).testBit 0 = true ∧ e.time = 0 ∧ FlashKept d.drawn d.flash e.flash ∧
      (∀ x ∈ d.flash, x ∉ e.flash → (odGet e 0x1010 1).testBit 8 = true) ∧
      e.berths = [] ∧ e.streams = [] ∧ e.queues = [] ∧ e.sessions = [] ∧ e.hub = {} ∧ e.power.fR = 2400 ∧
      e.power.aux = true ∧ e.power.bid = straps.toNat ∧ e.power.testEn = testEn ∧ e.power.tripped = false := by
  rw [powerOn_eq]
  have hbit := testBit_boot d (freshModule d straps testEn) 1 0 (j := 0) (by omega) (by decide)
  obtain ⟨o, a, t, hb⟩ := boot_frame d (freshModule d straps testEn) 1 0
  generalize bootFirmware _ = y at hbit hb ⊢
  obtain ⟨hkept, hbits, h8, -⟩ := startCores_keeps (setRails y)
  obtain ⟨o', f, n, w, u, hs⟩ := startCores_frame (setRails y)
  refine ⟨hbits 0 (by omega) hbit, ?_, ?_, ?_, ?_⟩
  · rw [hs, hb]; rfl
  · rw [hb] at hkept ⊢; exact hkept
  · rw [hb] at h8 ⊢; exact h8
  · rw [hs, hb]
    exact ⟨rfl, rfl, rfl, rfl, rfl, rfl, rfl, rfl, rfl, rfl⟩

/-- What a WARM reset takes and keeps (R457). -/
theorem warmResetAll_spec (d : Device) :
    let e := warmResetAll d
    (odGet e 0x1010 1).testBit 3 = true ∧ e.time = d.time ∧
      FlashKept d.drawn d.flash e.flash ∧ (∀ x ∈ d.flash, x ∉ e.flash → (odGet e 0x1010 1).testBit 8 = true) ∧
      e.berths = [] ∧ e.streams = [] ∧ e.queues = [] ∧ e.sessions = [] ∧ e.hub = {} ∧
      e.hostMem = d.hostMem ∧ e.pcie.busMaster = d.pcie.busMaster := by
  rw [warmResetAll]
  have hbit := testBit_boot d (resetModule true true d) 8 0 (j := 3) (by omega) (by decide)
  obtain ⟨o, a, t, hb⟩ := boot_frame d (resetModule true true d) 8 0
  generalize bootFirmware _ = y at hbit hb ⊢
  obtain ⟨hkept, hbits, h8, -⟩ := startCores_keeps y
  obtain ⟨o', f, n, w, u, hs⟩ := startCores_frame y
  refine ⟨hbits 3 (by omega) hbit, ?_, ?_, ?_, ?_⟩
  · rw [hs, hb]; rfl
  · rw [hb] at hkept ⊢; exact hkept
  · rw [hb] at h8 ⊢; exact h8
  · rw [hs, hb]
    exact ⟨rfl, rfl, rfl, rfl, rfl, rfl, rfl⟩

/-- The module under PERST: the PCIe function is reset, PERST_N is low, a thermal trip ends (R450, R454). -/
def perstModule (d : Device) : Device :=
  let d' := resetModule true false d
  { d' with pcie := {}, power := { d'.power with tripped := false, perstLow := true } }

theorem perstReset_eq (d : Device) : perstReset d = bootFirmware (lossCauses d (setCause (perstModule d) 2 0)) := rfl

theorem perstAll_frame (d : Device) : ∃ f w, perstAll d = { setRails (perstReset d) with power :=
    { (setRails (perstReset d)).power with fR := f, want := w } } := by
  rw [perstAll]
  split
  · exact ⟨_, _, rfl⟩
  · exact ⟨(setRails (perstReset d)).power.fR, (setRails (perstReset d)).power.want, rfl⟩

/-- What PERST takes and keeps (R457). -/
theorem perstAll_spec (d : Device) :
    let e := perstAll d
    (odGet e 0x1010 1).testBit 1 = true ∧ e.pcie = {} ∧ e.power.perstLow = true ∧ e.power.tripped = false ∧ e.time = d.time ∧
      e.flash = d.flash ∧ e.berths = [] ∧ e.sessions = [] ∧ e.hub = {} ∧ e.fw.running = false := by
  have hbit := testBit_boot d (perstModule d) 2 0 (j := 1) (by omega) (by decide)
  obtain ⟨f, w, hp⟩ := perstAll_frame d
  rw [hp, perstReset_eq]
  obtain ⟨o, a, t, hb⟩ := boot_frame d (perstModule d) 2 0
  generalize bootFirmware _ = y at hbit hb ⊢
  refine ⟨hbit, ?_⟩
  rw [hb]
  exact ⟨rfl, rfl, rfl, rfl, rfl, rfl, rfl, rfl, rfl⟩

/-! HOT and FLR -/

theorem up_signalVector (d : Device) (v : Nat) : (signalVector d v).pcie.up = d.pcie.up := by
  rw [signalVector]
  split
  · rfl
  · split <;> rfl

theorem up_evqInterrupt (d : Device) (h : Nat) : (evqInterrupt d h).pcie.up = d.pcie.up := by
  rw [evqInterrupt]
  split
  · exact up_signalVector _ _
  · rfl

theorem up_evqWrite (d : Device) (h : Nat) (r : BitVec 128) : (evqWrite d h r).pcie.up = d.pcie.up := by
  rw [evqWrite]
  refine (up_evqInterrupt _ _).trans ?_
  generalize he : setEvq _ _ _ = e
  obtain ⟨m, hm⟩ := evqStatus_frame e h
  rw [hm, ← he]
  rfl

theorem up_deliver (d : Device) (key target info count : Nat) : (deliver d key target info count).pcie.up = d.pcie.up := by
  unfold deliver
  split
  · rfl
  · split
    · rfl
    · dsimp only
      split
      · exact up_evqWrite _ _ _
      · split
        · rfl
        · split <;> rfl

theorem onlyEvents_sharedEvent (d : Device) (n info count : Nat) : OnlyEvents d (sharedEvent d n info count) := by
  rw [sharedEvent]
  split
  · exact .trans ⟨_, _, _, _, _, _, rfl⟩ (onlyEvents_deliver (odAdd d _ _ _) _ _ _ _)
  · exact ⟨_, _, _, _, _, _, rfl⟩

theorem up_sharedEvent (d : Device) (n info count : Nat) : (sharedEvent d n info count).pcie.up = d.pcie.up := by
  rw [sharedEvent]
  split
  · exact up_deliver _ _ _ _ _
  · rfl

/-- What the end of a transfer leaves as it was: flash, queues, sessions, transfers, time, tiles and the link of the PCIe function. -/
def KeepsModule (d e : Device) : Prop :=
  e.flash = d.flash ∧ e.queues = d.queues ∧ e.sessions = d.sessions ∧ e.transfers = d.transfers ∧ e.time = d.time ∧
    e.pcie.up = d.pcie.up ∧ ∀ b, (berthAt e b).tiles = (berthAt d b).tiles

theorem KeepsModule.refl (d : Device) : KeepsModule d d := ⟨rfl, rfl, rfl, rfl, rfl, rfl, fun _ => rfl⟩

theorem KeepsModule.trans {d e f : Device} : KeepsModule d e → KeepsModule e f → KeepsModule d f := by
  rintro ⟨h1, h2, h3, h4, h5, h6, h7⟩ ⟨k1, k2, k3, k4, k5, k6, k7⟩
  exact ⟨k1.trans h1, k2.trans h2, k3.trans h3, k4.trans h4, k5.trans h5, k6.trans h6, fun b => (k7 b).trans (h7 b)⟩

theorem keepsModule_onlyOd {d e : Device} (h : OnlyOd d e) : KeepsModule d e := by
  obtain ⟨o, rfl⟩ := h
  exact .refl d

theorem keepsModule_modBerth {d : Device} {b : Nat} {f : Berth → Berth} (hf : (f (berthAt d b)).tiles = (berthAt d b).tiles) :
    KeepsModule d (modBerth d b f) := by
  refine ⟨rfl, rfl, rfl, rfl, rfl, rfl, fun n => ?_⟩
  by_cases hn : n = b
  · subst hn
    rw [modBerth, berthAt_setBerth_same]
    exact hf
  · rw [modBerth, berthAt_setBerth_other _ _ hn]

theorem keepsModule_sharedEvent (d : Device) (n info count : Nat) : KeepsModule d (sharedEvent d n info count) := by
  have hup := up_sharedEvent d n info count
  obtain ⟨o, m, q, p, v, u, he⟩ := onlyEvents_sharedEvent d n info count
  rw [he] at hup ⊢
  exact ⟨rfl, rfl, rfl, rfl, rfl, hup, fun _ => rfl⟩

theorem keepsModule_setSlotState (d : Device) (b k st : Nat) : KeepsModule d (setSlotState d b k st) := by
  rw [setSlotState]
  split
  · exact .refl d
  · exact (keepsModule_onlyOd (onlyOd_odPut d _ _ _)).trans (keepsModule_sharedEvent _ _ _ _)

theorem keepsModule_emptySlot (d : Device) (b k : Nat) : KeepsModule d (emptySlot d b k) := by
  rw [emptySlot]
  refine .trans ?_ (keepsModule_setSlotState _ _ _ _)
  refine .trans (.trans ?_ (keepsModule_modBerth (f := fun x => { x with slots := Tab.set x.slots k {} }) rfl))
    (keepsModule_onlyOd (((onlyOd_odPut _ _ _ _).trans (onlyOd_odPut _ _ _ _)).trans (onlyOd_odPut _ _ _ _)))
  exact keepsModule_modBerth rfl

theorem keepsModule_abortEffect (d : Device) (t : SegTransfer) : KeepsModule d (abortEffect d t) := by
  unfold abortEffect
  split
  · exact .refl d
  · split
    · refine .trans ?_ (keepsModule_onlyOd ((onlyOd_setCause _ _ _).trans (onlyOd_listRestored _ _ _)))
      split
      · exact keepsModule_emptySlot _ _ _
      · exact .refl d
    · exact ⟨rfl, rfl, rfl, rfl, rfl, rfl, fun _ => rfl⟩
    · exact keepsModule_modBerth rfl
    · exact .refl d

/-- What the abort of transfers leaves as it was; of the transfers, it leaves none that was to be aborted. -/
theorem abortTransfers_foldl (ts : List SegTransfer) (d : Device) :
    KeepsModule { d with transfers := (ts.foldl abortTransfer d).transfers } (ts.foldl abortTransfer d) ∧
      ∀ x ∈ (ts.foldl abortTransfer d).transfers, x ∈ d.transfers ∧ x ∉ ts := by
  induction ts generalizing d with
  | nil => exact ⟨.refl d, fun x hx => ⟨hx, List.not_mem_nil⟩⟩
  | cons t ts ih =>
    obtain ⟨hk, hx⟩ := ih (abortTransfer d t)
    obtain ⟨h1, h2, h3, h4, h5, h6, h7⟩ := keepsModule_abortEffect (dropTransfer d t.index t.sub) t
    rw [List.foldl_cons]
    refine ⟨?_, fun x hm => ?_⟩
    · obtain ⟨k1, k2, k3, k4, k5, k6, k7⟩ := hk
      exact ⟨k1.trans h1, k2.trans h2, k3.trans h3, rfl, k5.trans h5, k6.trans h6, fun b => (k7 b).trans (h7 b)⟩
    · obtain ⟨hin, hnot⟩ := hx x hm
      have hin' : x ∈ (dropTransfer d t.index t.sub).transfers := by
        rw [← h4]
        exact hin
      obtain ⟨hd, hne⟩ := List.mem_filter.mp hin'
      refine ⟨hd, fun hc => ?_⟩
      rcases List.mem_cons.mp hc with rfl | hc
      · simp at hne
      · exact hnot hc

/-- HOT and FLR before their cause is set: the PCIe function and the mailbox alone return to reset. -/
def functionCleared (d : Device) : Device :=
  { d with
    pcie := { up := d.pcie.up }
    mbx := {}
    requests := Tab.erase d.requests 0
    responses := Tab.erase d.responses 0
    journal := d.journal.map (fun e => if e.reply.any (fun r => decide (r.1.tr = .mailbox)) then { e with reply := none } else e)
    sessions := d.sessions.filter (fun s => s.tr ≠ .mailbox)
    streams := Tab.map (fun (s : Stream) => { s with raw := none }) d.streams }

theorem functionReset_eq (d : Device) (bits : Nat) : functionReset d bits =
    setCause (functionCleared ((d.transfers.filter (fun t => t.tr = .mailbox)).foldl abortTransfer d)) bits 0 := rfl

/-- What HOT and FLR take and keep (R457). -/
theorem functionReset_spec (d : Device) (bits : Nat) {j : Nat} (hj : j < 32) (hb : bits.testBit j = true) :
    let e := functionReset d bits
    (odGet e 0x1010 1).testBit j = true ∧ e.mbx = {} ∧
      e.pcie = { up := d.pcie.up } ∧ (∀ x ∈ e.sessions, x.tr ≠ .mailbox) ∧ (∀ x ∈ e.transfers, x.tr ≠ .mailbox) ∧
      (∀ x ∈ d.sessions, x.tr ≠ .mailbox → x ∈ e.sessions) ∧ (∀ n, (streamAt e n).raw = none) ∧ e.time = d.time ∧
      e.flash = d.flash ∧ e.queues = d.queues ∧ ∀ b, (berthAt e b).tiles = (berthAt d b).tiles := by
  obtain ⟨⟨hfl, hq, hse, -, hti, hup, hbe⟩, htr⟩ := abortTransfers_foldl (d.transfers.filter (fun t => t.tr = .mailbox)) d
  rw [functionReset_eq]
  generalize (d.transfers.filter (fun t => t.tr = .mailbox)).foldl abortTransfer d = x at hfl hq hse hti hup hbe htr ⊢
  have hbit : (odGet (setCause (functionCleared x) bits 0) 0x1010 1).testBit j = true := by
    rw [testBit_setCause _ _ _ hj, hb, Bool.or_true]
  refine ⟨hbit, rfl, ?_, fun y hy => ?_, fun y hy hm => ?_, fun y hy hn => ?_, fun n => ?_, hti, hfl, hq, hbe⟩
  · exact congrArg (fun u => ({ up := u } : Pcie)) hup
  · exact of_decide_eq_true (List.mem_filter.mp hy).2
  · obtain ⟨hin, hnot⟩ := htr y hy
    exact hnot (List.mem_filter.mpr ⟨hin, decide_eq_true hm⟩)
  · refine List.mem_filter.mpr ⟨?_, decide_eq_true hn⟩
    rw [hse]
    exact hy
  · exact congrArg Stream.raw (Tab.get_map (fun (s : Stream) => { s with raw := none }) ({} : Stream) x.streams n)

/-! Power down, and settling O60 -/

theorem mstate_dockState (d : Device) : mstate (dockState d) = 5 := by
  rw [dockState, mstate, odGet_odPut_same, size_mstate]
  norm_num

theorem exec_functionReset {i : Instr} {bits : Nat} (h : i = .hot ∧ bits = 4 ∨ i = .flr ∧ bits = 16) (s : State) :
    exec i s = .next { s with dev := functionReset s.dev bits } := by
  obtain ⟨rfl, rfl⟩ | ⟨rfl, rfl⟩ := h
  · change execHot s = _
    rw [execHot, onDev_eq]
  · change execFlr s = _
    rw [execFlr, onDev_eq]

theorem exec_powerDown (auxLost : Bool) (s : State) : exec (.powerDown auxLost) s = .next { s with dev := powerDown s.dev auxLost } := by
  change execPowerDown auxLost s = _
  rw [execPowerDown, onDev_eq]

/-- Settles O60: each reset sets its cause and takes and keeps what Table 18-7 says. -/
theorem moduleResets : Obligations.ModuleResets := by
  unfold Obligations.ModuleResets
  refine ⟨fun straps testEn s => ⟨_, exec_powerOn straps testEn s, powerOn_spec s.dev straps testEn⟩,
    fun s => ⟨⟨_, exec_powerDown true s, rfl, rfl, rfl, rfl, rfl, rfl, rfl⟩, fun hm => ⟨_, exec_powerDown false s, ?_⟩, fun hm => ?_⟩,
    fun s => ⟨fun ha => ⟨perstAll s.dev, ?_, perstAll_spec s.dev⟩, fun ha => ?_, fun ha hm => ⟨warmResetAll s.dev, ?_, warmResetAll_spec s.dev⟩,
      fun hm => ?_⟩, fun p hp s => ?_⟩
  case _ =>
    rw [powerDown, if_neg Bool.false_ne_true, if_neg hm]
    exact ⟨mstate_dockState s.dev, rfl, rfl, rfl, rfl⟩
  case _ => rw [exec_powerDown, powerDown, if_neg Bool.false_ne_true, if_pos hm]
  case _ =>
    change execPerst s = _
    rw [execPerst, onDev_eq, guarded, if_pos ha]
  case _ =>
    change execPerst s = _
    rw [execPerst, onDev_eq, guarded, if_neg (by rw [ha]; exact Bool.false_ne_true)]
  case _ =>
    change execWarmReset s = _
    rw [execWarmReset, onDev_eq, guarded, if_pos (by simp [ha, hm])]
  case _ =>
    change execWarmReset s = _
    rw [execWarmReset, onDev_eq, guarded, if_neg (by simp [hm])]
  case _ =>
    obtain rfl | rfl : p = (Instr.hot, 2) ∨ p = (Instr.flr, 4) := by simpa using hp
    · exact ⟨_, exec_functionReset (.inl ⟨rfl, rfl⟩) s, functionReset_spec s.dev 4 (by decide) (by decide)⟩
    · exact ⟨_, exec_functionReset (.inr ⟨rfl, rfl⟩) s, functionReset_spec s.dev 16 (by decide) (by decide)⟩

end Sys2Proof.Machine
end

section
/-! Power states (R447 to R450, Table 18-3, Table 18-7): HOLD, DOZE and WAKE of a berth, MOOR and DOCK of the module. -/

namespace Sys2Proof.Machine

/-! What events leave of the object dictionary -/

theorem od_signalVector (d : Device) (v : Nat) : (signalVector d v).od = d.od := by
  obtain ⟨p, hp⟩ := signalVector_frame d v
  rw [hp]

theorem od_evqWrite (d : Device) (h : Nat) (r : BitVec 128) : (evqWrite d h r).od = d.od := by
  rw [evqWrite]
  refine (evqInterrupt_parts _ _).2.1.trans ?_
  generalize he : setEvq _ _ _ = e
  obtain ⟨m, hm⟩ := evqStatus_frame e h
  rw [hm, ← he]
  rfl

/-- A delivery counts lost occurrences in the overflow counters alone (0x8120 to 0x8127). -/
theorem odGet_deliver (d : Device) (key target info count : Nat) {i s : Nat}
    (h : 256 * i + s < 256 * 0x8120 ∨ 256 * 0x8128 ≤ 256 * i + s) : odGet (deliver d key target info count) i s = odGet d i s := by
  unfold deliver
  split
  · rfl
  · split
    · rfl
    · dsimp only
      split
      · exact odGet_congr (od_evqWrite _ _ _) _ _
      · split
        · rfl
        · split
          · exact odGet_odAdd_other _ _ (by omega)
          · rfl

/-- An occurrence of a shared source changes occurrence and overflow counters alone. -/
theorem odGet_sharedEvent (d : Device) {n : Nat} (info count : Nat) (hn : n < 1024) {i s : Nat}
    (h : 256 * i + s < 256 * 0x8110 ∨ 256 * 0x8128 ≤ 256 * i + s) : odGet (sharedEvent d n info count) i s = odGet d i s := by
  have hadd : odGet (odAdd d (0x8110 + n / 128) (n % 128 + 1) 1) i s = odGet d i s := odGet_odAdd_other _ _ (by omega)
  rw [sharedEvent]
  split
  · rw [odGet_deliver _ _ _ _ _ (by omega), hadd]
  · exact hadd

/-! Slot states -/

theorem size_slotState : ∀ i < 16, ((odInfo (0x3000 + i) 2).map (·.size)).getD 0 = 1 := by decide

/-- A slot state set in a berth is what is read there; every other value outside the event counters stays. -/
theorem odGet_setSlotState_other (d : Device) {b k st : Nat} (hb : b < 4) {i s : Nat}
    (hne : 256 * i + s ≠ 256 * (0x3000 + 4 * b + k) + 2) (h : 256 * i + s < 256 * 0x8110 ∨ 256 * 0x8128 ≤ 256 * i + s) :
    odGet (setSlotState d b k st) i s = odGet d i s := by
  rw [setSlotState]
  split
  · rfl
  · rw [berthEvent, odGet_sharedEvent _ _ _ (by omega) h, odGet_odPut_other _ _ hne]

theorem slotState_setSlotState_same (d : Device) {b k st : Nat} (hb : b < 4) (hk : k < 4) (hst : st < 256) :
    slotState (setSlotState d b k st) b k = st := by
  rw [setSlotState]
  split
  · assumption
  · rw [slotState, berthEvent, odGet_sharedEvent _ _ _ (by omega) (by omega), odGet_odPut_same,
      show 0x3000 + 4 * b + k = 0x3000 + (4 * b + k) by omega, size_slotState _ (by omega)]
    exact Nat.mod_eq_of_lt (by omega)

theorem onlyEvents_setSlotState (d : Device) (b k st : Nat) : OnlyEvents d (setSlotState d b k st) := by
  rw [setSlotState]
  split
  · exact .refl d
  · exact .trans ⟨_, _, _, _, _, _, rfl⟩ (onlyEvents_sharedEvent (odPut d (0x3000 + 4 * b + k) 2 st) _ _ _)

theorem OnlyEvents.power {d e : Device} (h : OnlyEvents d e) : e.power = d.power := by
  obtain ⟨_, _, _, _, _, _, rfl⟩ := h
  rfl

theorem OnlyEvents.slotAt {d e : Device} (h : OnlyEvents d e) (b k : Nat) : slotAt e b k = slotAt d b k := by
  obtain ⟨_, _, _, _, _, _, rfl⟩ := h
  rfl

/-! HOLD, DOZE and WAKE -/

theorem size_bpstate : ∀ b < 4, ((odInfo (0x8410 + b) 1).map (·.size)).getD 0 = 1 := by decide

theorem bpstate_put (d : Device) {b v : Nat} (hb : b < 4) (hv : v < 256) : bpstate (odPut d (0x8410 + b) 1 v) b = v := by
  rw [bpstate, odGet_odPut_same, size_bpstate b hb]
  exact Nat.mod_eq_of_lt (by omega)

theorem berthLive_of_bpstate {d : Device} {b : Nat} (h : bpstate d b ≠ 0) : berthLive d b = false := by
  simp [berthLive, h]

/-- An entry of a table mapped with its key: the image of the entry, or the default of both tables. -/
theorem Tab.get_mapKeyed {α : Type} (e : α) (g : Nat → α → α) (m : Tab α) (k : Nat) :
    Tab.get e (List.map (fun p => (p.1, g p.1 p.2)) m) k = g k (Tab.get e m k) ∨
      Tab.get e (List.map (fun p => (p.1, g p.1 p.2)) m) k = e ∧ Tab.get e m k = e := by
  induction m with
  | nil => exact .inr ⟨rfl, rfl⟩
  | cons p m ih =>
    obtain ⟨j, v⟩ := p
    simp only [List.map_cons, Tab.get]
    split
    · rename_i hj
      subst hj
      exact .inl rfl
    · split
      · exact .inr ⟨rfl, rfl⟩
      · exact ih

/-- HOLD (R447). -/
theorem holdBerth_spec (d : Device) {b : Nat} (hb : b < 4) : bpstate (holdBerth d b) b = 1 ∧ berthLive (holdBerth d b) b = false ∧
    berthAt (holdBerth d b) b = { berthAt d b with clocksOff := true } ∧ bstate (holdBerth d b) b = bstate d b := by
  have hp : bpstate (holdBerth d b) b = 1 := bpstate_put _ hb (by omega)
  refine ⟨hp, berthLive_of_bpstate (by omega), ?_, odGet_odPut_other _ _ (by omega)⟩
  rw [holdBerth, berthAt_odPut, berthAt_modBerth_same]

/-- DOZE (R448). -/
theorem dozeBerth_spec (d : Device) {b : Nat} (hb : b < 4) : bpstate (dozeBerth d b) b = 2 ∧ berthLive (dozeBerth d b) b = false ∧
    (berthAt (dozeBerth d b) b).hbm.selfRefresh = true ∧ (berthAt (dozeBerth d b) b).hbm.mem = (berthAt d b).hbm.mem ∧
    (berthAt (dozeBerth d b) b).slots = (berthAt d b).slots ∧
    ∀ k, (tileAt (dozeBerth d b) b k).mem = (tileAt d b k).mem ∧ (tileAt (dozeBerth d b) b k).banks = [] := by
  have hp : bpstate (dozeBerth d b) b = 2 := bpstate_put _ hb (by omega)
  have hx : berthAt (dozeBerth d b) b = { berthAt d b with
      clocksOff := true
      tiles := Tab.map dozeTile (berthAt d b).tiles
      hbm := { (berthAt d b).hbm with selfRefresh := true } } := by
    rw [dozeBerth, berthAt_odPut, berthAt_modBerth_same]
  refine ⟨hp, berthLive_of_bpstate (by omega), by rw [hx], by rw [hx], by rw [hx], fun k => ?_⟩
  rw [tileAt, hx, tileAt]
  obtain h | ⟨h, h0⟩ := Tab.get_mapKeyed ({} : Tile) (fun _ => dozeTile) (berthAt d b).tiles k
  · exact ⟨(congrArg Tile.mem h).trans rfl, (congrArg Tile.banks h).trans rfl⟩
  · exact ⟨(congrArg Tile.mem h).trans (congrArg Tile.mem h0).symm, congrArg Tile.banks h⟩

/-- WAKE (R447, R448). -/
theorem wakeBerth_spec (d : Device) {b : Nat} (hb : b < 4) : bpstate (wakeBerth d b) b = 0 ∧
    (berthAt (wakeBerth d b) b).clocksOff = false ∧ (berthAt (wakeBerth d b) b).hbm.selfRefresh = false ∧
    ∀ k, (tileAt (wakeBerth d b) b k).mem = (tileAt d b k).mem := by
  have hp : bpstate (wakeBerth d b) b = 0 := bpstate_put _ hb (by omega)
  have hx : berthAt (wakeBerth d b) b = { berthAt d b with
      clocksOff := false
      idleSince := d.time
      hbm := { (berthAt d b).hbm with selfRefresh := false }
      tiles := if bpstate d b = 2 then
          List.map (fun (p : Nat × Tile) => (p.1, { p.2 with retention := decide (p.1 % 32 = 20) && !spareUsed d b (p.1 / 32) })) (berthAt d b).tiles
        else (berthAt d b).tiles } := by
    rw [wakeBerth, berthAt_odPut, berthAt_modBerth_same]
  refine ⟨hp, by rw [hx], by rw [hx], fun k => ?_⟩
  rw [tileAt, hx, tileAt]
  dsimp only
  split
  · obtain h | ⟨h, h0⟩ := Tab.get_mapKeyed ({} : Tile)
      (fun i t => { t with retention := decide (i % 32 = 20) && !spareUsed d b (i / 32) }) (berthAt d b).tiles k
    · exact (congrArg Tile.mem h).trans rfl
    · exact (congrArg Tile.mem h).trans (congrArg Tile.mem h0).symm
  · rfl

/-! Work done berth by berth -/

/-- A fold whose steps each change one reading, by the same function, changes every reading of its list by that function. -/
theorem read_foldl {α β : Type} {R : β → Nat → α} {g : α → α} {step : β → Nat → β} {bs : List Nat}
    (hs : ∀ d, ∀ b ∈ bs, R (step d b) b = g (R d b)) (ho : ∀ d, ∀ b ∈ bs, ∀ n ∈ bs, n ≠ b → R (step d b) n = R d n)
    (hnd : bs.Nodup) (d : β) {n : Nat} (hn : n ∈ bs) : R (bs.foldl step d) n = g (R d n) := by
  have hkeep : ∀ (as : List Nat) (d : β), (∀ b ∈ as, b ∈ bs) → n ∉ as → R (as.foldl step d) n = R d n := by
    intro as
    induction as with
    | nil => exact fun _ _ _ => rfl
    | cons a as ih =>
      intro d hin hna
      rw [List.foldl_cons, ih _ (fun b hb => hin b (List.mem_cons_of_mem _ hb)) (fun h => hna (List.mem_cons_of_mem _ h))]
      exact ho d a (hin a List.mem_cons_self) n hn (fun h => hna (h ▸ List.mem_cons_self))
  obtain ⟨pre, post, hpp⟩ := List.append_of_mem hn
  have hpre : n ∉ pre := by
    intro h
    rw [hpp] at hnd
    exact (List.nodup_append.mp hnd).2.2 n h n List.mem_cons_self rfl
  have hpost : n ∉ post := by
    intro h
    rw [hpp] at hnd
    exact (List.nodup_cons.mp (List.nodup_append.mp hnd).2.1).1 h
  have hsub : ∀ b ∈ pre ++ n :: post, b ∈ bs := fun b hb => hpp ▸ hb
  rw [show bs.foldl step d = post.foldl step (step (pre.foldl step d) n) by rw [hpp, List.foldl_append, List.foldl_cons]]
  rw [hkeep post _ (fun b hb => hsub b (by simp [hb])) hpost, hs _ n hn, hkeep pre d (fun b hb => hsub b (by simp [hb])) hpre]

/-- A fold whose steps leave a reading alone leaves it alone. -/
theorem keep_foldl {α β γ : Type} {R : β → α} {step : β → γ → β} {bs : List γ} (ho : ∀ d, ∀ b ∈ bs, R (step d b) = R d) (d : β) :
    R (bs.foldl step d) = R d := by
  induction bs generalizing d with
  | nil => rfl
  | cons b bs ih =>
    rw [List.foldl_cons, ih (fun d x hx => ho d x (List.mem_cons_of_mem _ hx)), ho d b List.mem_cons_self]

/-! MOOR (R449) -/

/-- What MOOR leaves of a berth: HBM in self-refresh, slots, adaptation, scan area and mirrors. -/
def mooredBerth (x : Berth) : Berth :=
  { hbm := { x.hbm with selfRefresh := true, transfers := [], admission := [], lightQ := [] }
    slots := x.slots
    adapt := x.adapt
    scan := x.scan
    mirror := x.mirror
    clocksOff := true }

def moorBerth (d : Device) (b : Nat) : Device := odPut (modBerth d b mooredBerth) (0x8410 + b) 1 2

def moorPort (d : Device) (p : Nat) : Device :=
  odPut (setFolsa d p { cable := (folsaAt d p).cable, firstPeer := (folsaAt d p).firstPeer }) (0x8900 + p) 2
    (if odFlag d (0x8900 + p) 1 then 1 else 0)

/-- The module with its berths moored and its Folsa ports down. -/
def mooredBerths (d : Device) : Device :=
  moorPort (moorPort ((List.range 4).foldl moorBerth (odReset (fun _ _ r => decide (r.cls = 3) && decide (r.acc = 1)) d)) 0) 1

theorem moor_eq (d : Device) : moor d = odPut { mooredBerths d with
    links := []
    ports := []
    ends := []
    toTile := []
    streams := Tab.map (fun (st : Stream) => { st with anchor := (0, 0), heldAnchors := [] }) (mooredBerths d).streams
    sfp := Tab.map (fun (p : SfpPort) => { p with link := false, txDisable := true }) (mooredBerths d).sfp
    sessions := (mooredBerths d).sessions.filter (fun s => s.tr ≠ .udp)
    armed := []
    power := { (mooredBerths d).power with
      fabric := false
      savedRate := (mooredBerths d).power.fR } } 0x8400 8 2 := rfl

theorem nodup_range4 : (List.range 4).Nodup := List.nodup_range

theorem berthAt_mooredBerths (d : Device) {b : Nat} (hb : b < 4) : berthAt (mooredBerths d) b = mooredBerth (berthAt d b) := by
  have h := read_foldl (R := berthAt) (g := mooredBerth) (step := moorBerth) (bs := List.range 4)
    (fun d b _ => berthAt_modBerth_same d b _) (fun d b _ n _ hne => berthAt_modBerth_other d _ hne) nodup_range4
    (odReset (fun _ _ r => decide (r.cls = 3) && decide (r.acc = 1)) d) (List.mem_range.mpr hb)
  exact h

theorem bpstate_mooredBerths (d : Device) {b : Nat} (hb : b < 4) : bpstate (mooredBerths d) b = 2 := by
  have h := read_foldl (R := bpstate) (g := fun _ => 2) (step := moorBerth) (bs := List.range 4)
    (fun d b hb => bpstate_put _ (List.mem_range.mp hb) (by omega)) (fun d b _ n _ hne => odGet_odPut_other _ _ (by omega)) nodup_range4
    (odReset (fun _ _ r => decide (r.cls = 3) && decide (r.acc = 1)) d) (List.mem_range.mpr hb)
  rw [mooredBerths, bpstate, moorPort, moorPort, odGet_odPut_other _ _ (by omega)]
  exact (odGet_odPut_other _ _ (by omega)).trans h

theorem mooredBerths_keeps (d : Device) : (mooredBerths d).flash = d.flash ∧ (mooredBerths d).time = d.time ∧
    (mooredBerths d).power = d.power := by
  have h1 := keep_foldl (R := Device.flash) (step := moorBerth) (bs := List.range 4) (fun _ _ _ => rfl)
    (odReset (fun _ _ r => decide (r.cls = 3) && decide (r.acc = 1)) d)
  have h2 := keep_foldl (R := Device.time) (step := moorBerth) (bs := List.range 4) (fun _ _ _ => rfl)
    (odReset (fun _ _ r => decide (r.cls = 3) && decide (r.acc = 1)) d)
  have h3 := keep_foldl (R := Device.power) (step := moorBerth) (bs := List.range 4) (fun _ _ _ => rfl)
    (odReset (fun _ _ r => decide (r.cls = 3) && decide (r.acc = 1)) d)
  exact ⟨h1, h2, h3⟩

/-- MOOR (R449). -/
theorem moor_spec (d : Device) : mstate (moor d) = 2 ∧ (moor d).power.fabric = false ∧
    (moor d).power.savedRate = d.power.fR ∧ (moor d).links = [] ∧ (moor d).ports = [] ∧ (moor d).flash = d.flash ∧ (moor d).time = d.time ∧
      ∀ b < 4, bpstate (moor d) b = 2 ∧ (berthAt (moor d) b).tiles = [] ∧ (berthAt (moor d) b).hbm.mem = (berthAt d b).hbm.mem ∧
        (berthAt (moor d) b).slots = (berthAt d b).slots ∧ (berthAt (moor d) b).adapt = (berthAt d b).adapt ∧
        (berthAt (moor d) b).mirror = (berthAt d b).mirror := by
  obtain ⟨hf, ht, hp⟩ := mooredBerths_keeps d
  refine ⟨?_, rfl, congrArg Power.fR hp, rfl, rfl, hf, ht, fun b hb => ⟨?_, ?_⟩⟩
  · rw [moor_eq, mstate, odGet_odPut_same, size_mstate]
    norm_num
  · rw [moor_eq]
    exact (odGet_odPut_other _ _ (by omega)).trans (bpstate_mooredBerths d hb)
  · have hx : berthAt (moor d) b = mooredBerth (berthAt d b) := berthAt_mooredBerths d hb
    rw [hx]
    exact ⟨rfl, rfl, rfl, rfl, rfl⟩

/-! The way back (R449, R450) -/

theorem odGet_moduleActive (d : Device) : mstate (odPut d 0x8400 8 0) = 0 := by
  rw [mstate, odGet_odPut_same, size_mstate]
  norm_num

/-- Waking one berth from MOOR. -/
def unmooredBerth (x : Berth) : Berth := { x with clocksOff := false, hbm := { x.hbm with selfRefresh := false } }
def unmoor (d : Device) (b : Nat) : Device := odPut (modBerth d b unmooredBerth) (0x8410 + b) 1 0

/-- The module as it leaves MOOR, before its slots are written again. -/
def unmoored (d : Device) : Device :=
  let d := setRails (odPut ((List.range 4).foldl unmoor d) 0x8400 8 0)
  setCause { d with power := { d.power with
    fR := d.power.savedRate
    want := d.power.savedRate
    leavingMoor := true } } 128 0

def rewriteSlot (d : Device) (i : Nat) : Device :=
  if slotState d (i / 4) (i % 4) = 4 then setSlotState d (i / 4) (i % 4) 3 else d

theorem leaveMoor_eq (d : Device) : leaveMoor d = (List.range 16).foldl rewriteSlot (unmoored d) := rfl

theorem rewriteSlot_cases (d : Device) (i : Nat) : rewriteSlot d i = setSlotState d (i / 4) (i % 4) 3 ∨ rewriteSlot d i = d := ite_eq_or_eq _ _ _

/-- Writing the slots again leaves every value outside slot states and event counters. -/
theorem odGet_rewriteSlot (d : Device) {n : Nat} (hn : n < 16) {i s : Nat} (hne : 256 * i + s ≠ 256 * (0x3000 + n) + 2)
    (h : 256 * i + s < 256 * 0x8110 ∨ 256 * 0x8128 ≤ 256 * i + s) : odGet (rewriteSlot d n) i s = odGet d i s := by
  obtain he | he := rewriteSlot_cases d n
  · rw [he, odGet_setSlotState_other d (by omega) (by omega) h]
  · rw [he]

theorem odGet_leaveMoor (d : Device) {i s : Nat} (hne : 256 * i + s < 256 * 0x3000 ∨ 256 * 0x3010 ≤ 256 * i + s)
    (h : 256 * i + s < 256 * 0x8110 ∨ 256 * 0x8128 ≤ 256 * i + s) : odGet (leaveMoor d) i s = odGet (unmoored d) i s := by
  rw [leaveMoor_eq]
  refine keep_foldl (R := fun d => odGet d i s) (fun d n hn => odGet_rewriteSlot d (List.mem_range.mp hn) ?_ h) _
  have := List.mem_range.mp hn
  omega

theorem slotState_leaveMoor (d : Device) {b k : Nat} (hb : b < 4) (hk : k < 4) :
    slotState (leaveMoor d) b k = if slotState (unmoored d) b k = 4 then 3 else slotState (unmoored d) b k := by
  have h := read_foldl (R := fun d i => slotState d (i / 4) (i % 4)) (g := fun v => if v = 4 then 3 else v) (step := rewriteSlot)
    (bs := List.range 16) (fun d i hi => ?_) (fun d i hi n hn hne => ?_) List.nodup_range (unmoored d)
    (n := 4 * b + k) (List.mem_range.mpr (by omega))
  · rw [leaveMoor_eq]
    have h1 : (4 * b + k) / 4 = b := by omega
    have h2 : (4 * b + k) % 4 = k := by omega
    simpa only [h1, h2] using h
  · have := List.mem_range.mp hi
    rw [rewriteSlot]
    split
    · rw [slotState_setSlotState_same _ (by omega) (by omega) (by omega)]
    · rfl
  · have := List.mem_range.mp hi
    exact odGet_rewriteSlot d (List.mem_range.mp hi) (by omega) (by have := List.mem_range.mp hn; omega)

theorem berths_leaveMoor (d : Device) : (leaveMoor d).berths = (unmoored d).berths := by
  rw [leaveMoor_eq]
  refine keep_foldl (R := Device.berths) (fun d n _ => ?_) _
  obtain he | he := rewriteSlot_cases d n <;> rw [he]
  exact (onlyEvents_setSlotState _ _ _ _).berths

theorem power_leaveMoor (d : Device) : (leaveMoor d).power = (unmoored d).power := by
  rw [leaveMoor_eq]
  refine keep_foldl (R := Device.power) (fun d n _ => ?_) _
  obtain he | he := rewriteSlot_cases d n <;> rw [he]
  exact (onlyEvents_setSlotState _ _ _ _).power

theorem odGet_unmoored (d : Device) {i s : Nat} (h : 256 * i + s < 256 * 0x1010 ∨ 256 * 0x1011 ≤ 256 * i + s)
    (h8 : 256 * i + s ≠ 256 * 0x8400 + 8) : odGet (unmoored d) i s = odGet ((List.range 4).foldl unmoor d) i s := by
  rw [unmoored, odGet_setCause_other _ _ _ h]
  exact odGet_odPut_other _ _ h8

theorem berthAt_leaveMoor (d : Device) {b : Nat} (hb : b < 4) : berthAt (leaveMoor d) b = unmooredBerth (berthAt d b) := by
  have h := read_foldl (R := berthAt) (g := unmooredBerth) (step := unmoor) (bs := List.range 4)
    (fun d b _ => berthAt_modBerth_same d b _) (fun d b _ n _ hne => berthAt_modBerth_other d _ hne) nodup_range4 d (List.mem_range.mpr hb)
  rw [berthAt, berths_leaveMoor]
  exact h

/-- The exit from MOOR (R449, Table 18-3). -/
theorem leaveMoor_spec (d : Device) : mstate (leaveMoor d) = 0 ∧ (leaveMoor d).power.fR = d.power.savedRate ∧
    (leaveMoor d).power.leavingMoor = true ∧ (odGet (leaveMoor d) 0x1010 1).testBit 7 = true ∧
    (∀ b < 4, bpstate (leaveMoor d) b = 0 ∧ (berthAt (leaveMoor d) b).clocksOff = false ∧
      (berthAt (leaveMoor d) b).hbm.mem = (berthAt d b).hbm.mem ∧
      ∀ k < 4, slotState (leaveMoor d) b k = (if slotState d b k = 4 then 3 else slotState d b k)) := by
  have hpow : ((List.range 4).foldl unmoor d).power = d.power := keep_foldl (R := Device.power) (step := unmoor) (fun _ _ _ => rfl) d
  refine ⟨?_, ?_, ?_, ?_, fun b hb => ⟨?_, ?_, ?_, fun k hk => ?_⟩⟩
  · rw [mstate, odGet_leaveMoor d (by omega) (by omega), unmoored, odGet_setCause_other _ _ _ (by omega)]
    exact odGet_moduleActive _
  · rw [power_leaveMoor]
    exact (rfl : _ = ((List.range 4).foldl unmoor d).power.savedRate).trans (congrArg Power.savedRate hpow)
  · rw [power_leaveMoor]
    rfl
  · rw [odGet_leaveMoor d (by omega) (by omega), unmoored, testBit_setCause _ _ _ (by omega)]
    exact Bool.or_eq_true_iff.mpr (.inr (by decide))
  · rw [bpstate, odGet_leaveMoor d (by omega) (by omega), odGet_unmoored d (by omega) (by omega)]
    exact read_foldl (R := bpstate) (g := fun _ => 0) (fun d b hb => bpstate_put _ (List.mem_range.mp hb) (by omega))
      (fun d b _ n _ hne => odGet_odPut_other _ _ (by omega)) nodup_range4 d (List.mem_range.mpr hb)
  · rw [berthAt_leaveMoor d hb]
    rfl
  · rw [berthAt_leaveMoor d hb]
    rfl
  · have hs : slotState (unmoored d) b k = slotState d b k := by
      rw [slotState, odGet_unmoored d (by omega) (by omega)]
      exact keep_foldl (R := fun d => odGet d (0x3000 + 4 * b + k) 2) (step := unmoor) (fun d n hn => odGet_odPut_other _ _ (by omega)) d
    rw [slotState_leaveMoor d hb hk, hs]

theorem setCause_keeps (d : Device) (bits berths : Nat) : (setCause d bits berths).flash = d.flash ∧
    (setCause d bits berths).power = d.power ∧ (setCause d bits berths).time = d.time ∧ (setCause d bits berths).fw = d.fw ∧
    mstate (setCause d bits berths) = mstate d := ⟨rfl, rfl, rfl, rfl, odGet_setCause_other _ _ _ (by omega)⟩

/-- The module as it leaves DOCK, before its cores start: the control domain is powered, f_R is 2,400 MHz. -/
def undocked (d : Device) : Device :=
  let x := setRails (odPut d 0x8400 8 0)
  { x with time := 0, power := { x.power with fR := 2400, want := 2400 } }

/-- A cause where the event lost something. -/
def noteLoss (d : Device) (bits lost : Nat) : Device := if lost = 0 then d else setCause d bits lost

theorem noteLoss_keeps (d : Device) (bits lost : Nat) : (noteLoss d bits lost).flash = d.flash ∧
    (noteLoss d bits lost).power = d.power ∧ (noteLoss d bits lost).time = d.time ∧ (noteLoss d bits lost).fw = d.fw ∧
    mstate (noteLoss d bits lost) = mstate d ∧
    ∀ j < 32, (odGet d 0x1010 1).testBit j = true → (odGet (noteLoss d bits lost) 0x1010 1).testBit j = true := by
  rw [noteLoss]
  split
  · exact ⟨rfl, rfl, rfl, rfl, rfl, fun _ _ h => h⟩
  · obtain ⟨h1, h2, h3, h4, h5⟩ := setCause_keeps d bits lost
    refine ⟨h1, h2, h3, h4, h5, fun j hj h => ?_⟩
    rw [testBit_setCause _ _ _ hj, h, Bool.true_or]

theorem leaveDock_eq (d : Device) : leaveDock d =
    noteLoss (noteLoss (setCause (startCores (undocked d)) 128 0) 2048 d.power.lostSlots) 4096 d.power.lostEpochs := rfl

/-- The exit from DOCK (R450, R462). -/
theorem leaveDock_spec (d : Device) (ht : d.power.slot12 = true) (ha : d.power.aux = true) :
    mstate (leaveDock d) = 0 ∧ (leaveDock d).power.fR = 2400 ∧ (leaveDock d).power.control = true ∧
      (leaveDock d).time = 0 ∧ (odGet (leaveDock d) 0x1010 1).testBit 7 = true ∧ FlashKept d.drawn d.flash (leaveDock d).flash ∧
      (d.power.perstLow = false → (leaveDock d).fw.running = true ∧ (leaveDock d).fw.fwstate = 1) := by
  have hm : mstate (undocked d) = 0 := odGet_moduleActive d
  have hctl : (undocked d).power.control = true := by
    change (d.power.aux && d.power.slot12 && decide (mstate (odPut d 0x8400 8 0) = 0)) = true
    rw [ha, ht, odGet_moduleActive]
    rfl
  obtain ⟨hkept, -, -, hmst⟩ := startCores_keeps (undocked d)
  obtain ⟨o, f, n, w, u, hs⟩ := startCores_frame (undocked d)
  have hpow : (startCores (undocked d)).power = (undocked d).power ∧ (startCores (undocked d)).time = 0 := by
    rw [hs]
    exact ⟨rfl, rfl⟩
  have hfw : d.power.perstLow = false → (startCores (undocked d)).fw.running = true ∧ (startCores (undocked d)).fw.fwstate = 1 := by
    intro hp
    have haux : (undocked d).power.aux = true := ha
    have hpl : (undocked d).power.perstLow = false := hp
    rw [startCores, haux, hctl, hpl, hm]
    obtain ⟨e, ⟨o, he⟩, hr⟩ := readFlash_frame { undocked d with
      fw := { (undocked d).fw with running := true, fwstate := 1, bootAt := (undocked d).time }
      pcie := { (undocked d).pcie with up := true } }
    rw [if_pos (by rfl), hr, he]
    exact ⟨rfl, rfl⟩
  obtain ⟨c1, c2, c3, c4, c5⟩ := setCause_keeps (startCores (undocked d)) 128 0
  have hbit : (odGet (setCause (startCores (undocked d)) 128 0) 0x1010 1).testBit 7 = true := by
    rw [testBit_setCause _ _ _ (by omega)]
    exact Bool.or_eq_true_iff.mpr (.inr (by decide))
  rw [leaveDock_eq]
  generalize setCause (startCores (undocked d)) 128 0 = x at c1 c2 c3 c4 c5 hbit ⊢
  obtain ⟨n1, n2, n3, n4, n5, n6⟩ := noteLoss_keeps x 2048 d.power.lostSlots
  obtain ⟨k1, k2, k3, k4, k5, k6⟩ := noteLoss_keeps (noteLoss x 2048 d.power.lostSlots) 4096 d.power.lostEpochs
  rw [k1, n1, c1, k2, n2, c2, hpow.1, k3, n3, c3, hpow.2, k4, n4, c4, k5, n5, c5, hmst]
  exact ⟨hm, rfl, hctl, rfl, k6 7 (by omega) (n6 7 (by omega) hbit), hkept, hfw⟩

/-! MOOR_RESTORE_DONE (Table 18-3) -/

theorem slotAt_modTile (d : Device) (b key : Nat) (f : Tile → Tile) (c k : Nat) : slotAt (modTile d b key f) c k = slotAt d c k := by
  by_cases hc : c = b
  · subst hc
    rw [slotAt, modTile, setTile, berthAt_modBerth_same]
    rfl
  · rw [slotAt, modTile, setTile, berthAt_modBerth_other _ _ hc]
    rfl

/-- The state of a slot, and whether it holds an image. -/
def slotView (d : Device) (b k : Nat) : Nat × Bool := (slotState d b k, (slotAt d b k).image.isSome)

theorem slotView_modTile (d : Device) (b key : Nat) (f : Tile → Tile) (c k : Nat) : slotView (modTile d b key f) c k = slotView d c k := by
  rw [slotView, slotAt_modTile]
  rfl

theorem slotView_foldl_modTile {α : Type} (as : List α) (b : Nat) (key : Device → α → Nat) (f : Device → α → Tile → Tile) (d : Device) (c k : Nat) :
    slotView (as.foldl (fun d a => modTile d b (key d a) (f d a)) d) c k = slotView d c k :=
  keep_foldl (R := fun d => slotView d c k) (fun d _ _ => slotView_modTile d b _ _ c k) d

theorem slotView_reloadSlots (d : Device) (b c k : Nat) : slotView (reloadSlots d b) c k = slotView d c k := by
  rw [reloadSlots]
  refine keep_foldl (R := fun d => slotView d c k) (fun d j _ => ?_) d
  split
  · rfl
  · dsimp only
    rw [slotView_foldl_modTile, loadSlotTiles, slotView_foldl_modTile]

theorem slotView_power (d : Device) (p : Power) (b k : Nat) : slotView { d with power := p } b k = slotView d b k := rfl

theorem slotView_setSlotState_other (d : Device) {b k st : Nat} (hb : b < 4) {c n : Nat} (hc : c < 4) (hn : n < 4) (hk : k < 4)
    (h : c ≠ b ∨ n ≠ k) : slotView (setSlotState d b k st) c n = slotView d c n := by
  rw [slotView, slotView, (onlyEvents_setSlotState d b k st).slotAt, slotState, odGet_setSlotState_other d hb (by omega) (by omega)]
  rfl

/-- What MOOR_RESTORE_DONE makes of a slot: one in WRITING that holds an image is LOADED. -/
def restoredView (v : Nat × Bool) : Nat × Bool := (if v.1 = 3 ∧ v.2 = true then 4 else v.1, v.2)

/-- Device y is x with the slots of the list `ks` of berth b restored. -/
def SlotsRestored (b : Nat) (ks : List Nat) (x y : Device) : Prop :=
  ∀ c < 4, ∀ k < 4, slotView y c k = if c = b ∧ k ∈ ks then restoredView (slotView x c k) else slotView x c k

theorem restoredView_of_writing {v : Nat × Bool} (h3 : v.1 = 3) (hi : v.2 = true) : restoredView v = (4, v.2) := by
  rw [restoredView, if_pos ⟨h3, hi⟩]

theorem restoredView_of_not {v : Nat × Bool} (h : v.1 ≠ 3 ∨ v.2 = false) : restoredView v = v := by
  rw [restoredView, if_neg]
  rintro ⟨h3, hi⟩
  obtain h | h := h
  · exact h h3
  · exact absurd (hi.symm.trans h) (by decide)

theorem restoredView_idem (v : Nat × Bool) : restoredView (restoredView v) = restoredView v := by
  unfold restoredView
  split <;> simp_all

theorem SlotsRestored.cons {b k : Nat} {ks : List Nat} {x y z : Device} (h : SlotsRestored b [k] x y) (h' : SlotsRestored b ks y z) :
    SlotsRestored b (k :: ks) x z := by
  intro c hc n hn
  rw [h' c hc n hn, h c hc n hn]
  by_cases hcb : c = b <;> by_cases hnk : n = k <;> by_cases hin : n ∈ ks <;>
    simp [hcb, hnk, hin, restoredView_idem]

/-- A slot that is not in WRITING with an image needs nothing. -/
theorem slotsRestored_same {b k : Nat} {x : Device} (h : slotState x b k ≠ 3 ∨ (slotAt x b k).image = none) : SlotsRestored b [k] x x := by
  intro c _ n _
  split
  case isTrue hc =>
    obtain ⟨rfl, hn⟩ := hc
    obtain rfl := List.mem_singleton.mp hn
    refine (restoredView_of_not ?_).symm
    obtain h | h := h
    · exact .inl h
    · refine .inr ?_
      change (slotAt x c n).image.isSome = false
      rw [h]
      rfl
  case isFalse => rfl

theorem SlotsRestored.of_eq {b : Nat} {ks : List Nat} {x y z : Device} (hv : ∀ c k, slotView y c k = slotView x c k)
    (h : SlotsRestored b ks y z) : SlotsRestored b ks x z := by
  intro c hc k hk
  rw [h c hc k hk, hv]

theorem slotsRestored_foldl {b : Nat} {step : Device → Nat → Device} (hstep : ∀ x, ∀ k < 4, SlotsRestored b [k] x (step x k)) (ks : List Nat)
    (hks : ∀ k ∈ ks, k < 4) (x : Device) : SlotsRestored b ks x (ks.foldl step x) := by
  induction ks generalizing x with
  | nil => exact fun c _ k _ => (if_neg (by simp)).symm
  | cons k ks ih =>
    exact (hstep x k (hks k List.mem_cons_self)).cons (ih (fun n hn => hks n (List.mem_cons_of_mem _ hn)) _)

/-- The berths of a list restored one by one. -/
theorem slotView_foldl_restore {step : Device → Nat → Device} (hstep : ∀ x, ∀ b < 4, SlotsRestored b (List.range 4) x (step x b))
    (d : Device) {b k : Nat} (hb : b < 4) (hk : k < 4) :
    slotView ((List.range 4).foldl step d) b k = restoredView (slotView d b k) := by
  have h := read_foldl (R := fun d b => fun k : Fin 4 => slotView d b k) (g := fun v k => restoredView (v k)) (step := step)
    (bs := List.range 4)
    (fun x c hc => funext fun n => (hstep x c (List.mem_range.mp hc) c (List.mem_range.mp hc) n n.isLt).trans
      (if_pos ⟨rfl, List.mem_range.mpr n.isLt⟩))
    (fun x c hc m hm hne => funext fun n => (hstep x c (List.mem_range.mp hc) m (List.mem_range.mp hm) n n.isLt).trans
      (if_neg fun h => hne h.1))
    nodup_range4 d (List.mem_range.mpr hb)
  exact congrFun h ⟨k, hk⟩

/-- MOOR_RESTORE_DONE takes every slot to what `restoredView` says. -/
theorem slotView_moorRestored (d : Device) {b k : Nat} (hb : b < 4) (hk : k < 4) :
    slotView (moorRestored d) b k = restoredView (slotView d b k) := by
  unfold moorRestored
  dsimp only
  rw [slotView_power]
  refine slotView_foldl_restore (fun x c hc => ?_) d hb hk
  refine SlotsRestored.of_eq (slotView_reloadSlots x c)
    (slotsRestored_foldl (fun y j hj => ?_) (List.range 4) (fun n hn => List.mem_range.mp hn) (reloadSlots x c))
  split
  case isFalse h3 => exact slotsRestored_same (.inl h3)
  case isTrue h3 =>
    split
    case h_1 hi => exact slotsRestored_same (.inr hi)
    case h_2 img hi =>
      intro n hn m hm
      by_cases hnm : n = c ∧ m ∈ [j]
      · obtain ⟨rfl, hmj⟩ := hnm
        obtain rfl := List.mem_singleton.mp hmj
        rw [if_pos ⟨rfl, hmj⟩, slotView, slotState_setSlotState_same _ hc hj (by omega), (onlyEvents_setSlotState _ _ _ _).slotAt]
        have himg : (slotAt y n m).image.isSome = true := by rw [hi]; rfl
        have h2 := congrArg Prod.snd (slotView_foldl_modTile img.planes n (fun d p => physKey d n (p.1 / 32) (p.1 % 32))
          (fun d p => tablesFromMirror (berthAt d n) img m p.1) y n m)
        rw [restoredView_of_writing (v := slotView y n m) h3 himg]
        exact congrArg (Prod.mk 4) h2
      · rw [if_neg hnm, slotView_setSlotState_other _ hc hn hm hj, slotView_foldl_modTile]
        by_contra hcon
        simp only [not_or, not_not] at hcon
        exact hnm ⟨hcon.1, List.mem_singleton.mpr hcon.2⟩

/-- MOOR_RESTORE_DONE (Table 18-3). -/
theorem moorRestored_spec (d : Device) : (moorRestored d).power.leavingMoor = false ∧
    ∀ b < 4, ∀ k < 4, slotState d b k = 3 → (slotAt d b k).image.isSome = true → slotState (moorRestored d) b k = 4 := by
  refine ⟨rfl, fun b hb k hk h3 hi => ?_⟩
  have h := slotView_moorRestored d hb hk
  rw [restoredView_of_writing (v := slotView d b k) h3 hi, slotView] at h
  exact (Prod.mk.inj h).1

/-! Settling O56 -/

theorem exec_bpower {i : Instr} {p : Device → Bool} {f : Device → Device} {s : State} (h : exec i s = onDev (guarded p f) s) :
    (p s.dev = true → exec i s = .next { s with dev := f s.dev }) ∧ (p s.dev = false → exec i s = .next s) := by
  rw [h, onDev_eq, guarded]
  refine ⟨fun hp => by rw [if_pos hp], fun hp => by rw [if_neg (by rw [hp]; exact Bool.false_ne_true)]⟩

theorem dockState_spec (d : Device) : mstate (dockState d) = 5 ∧ (dockState d).power.control = false ∧ (dockState d).power.fabric = false ∧
    (dockState d).berths = [] ∧ (dockState d).streams = [] ∧ (dockState d).sessions = [] ∧ (dockState d).flash = d.flash ∧
    (dockState d).hostMem = d.hostMem ∧ (dockState d).time = 0 := ⟨mstate_dockState d, rfl, rfl, rfl, rfl, rfl, rfl, rfl, rfl⟩

/-- Settles O56: HOLD, DOZE, WAKE, MOOR and DOCK happen where they are allowed, and nothing happens elsewhere. -/
theorem powerStates : Obligations.PowerStates := by
  unfold Obligations.PowerStates
  refine ⟨fun b s => ?_, fun s ha => ?_, fun s ha => ?_, fun s hm => ?_, fun s hm ht h12 hx => ?_, fun s hm h => ?_, fun s hl hm => ?_⟩
  case _ =>
    obtain ⟨hold1, hold0⟩ := exec_bpower (i := .bpowerHold b) (s := s) (p := fun d => holdAllowed d b.val) (f := fun d => holdBerth d b.val) rfl
    obtain ⟨doze1, doze0⟩ := exec_bpower (i := .bpowerDoze b) (s := s) (p := fun d => dozeAllowed d b.val) (f := fun d => dozeBerth d b.val) rfl
    obtain ⟨act1, act0⟩ := exec_bpower (i := .bpowerActive b) (s := s)
      (p := fun d => decide (mstate d = 0) && decide (bpstate d b.val ≠ 0)) (f := fun d => wakeBerth d b.val) rfl
    obtain ⟨auto1, auto0⟩ := exec_bpower (i := .autoHoldIdle b) (s := s)
      (p := fun d => odFlag d (0x8410 + b.val) 3 && decide (bpstate d b.val = 0) && decide (bstate d b.val = 2)
        && quiescent d b.val && decide ((berthAt d b.val).idleSince + 100 * odGet d (0x8410 + b.val) 4 ≤ d.time))
      (f := fun d => holdBerth d b.val) rfl
    obtain ⟨wake1, -⟩ := exec_bpower (i := .holdWake b) (s := s)
      (p := fun d => decide (bpstate d b.val = 1) && wakeDue d b.val) (f := fun d => wakeBerth d b.val) rfl
    obtain ⟨h1, h2, h3, h4⟩ := holdBerth_spec s.dev b.isLt
    refine ⟨fun h => ⟨_, hold1 h, h1, h2, h3, h4⟩, hold0, fun h => ⟨_, doze1 h, dozeBerth_spec s.dev b.isLt⟩, doze0,
      fun hm hb => ⟨_, act1 (by simp [hm, hb]), wakeBerth_spec s.dev b.isLt⟩, fun h => act0 ?_, fun hf hb hs hq hi => ⟨_, auto1 ?_, h1, h3⟩,
      fun hq => auto0 (by simp [hq]), fun hb hw => wake1 (by simp [hb, hw])⟩
    · obtain h | h := h <;> simp [h]
    · simp [hf, hb, hs, hq, hi]
  case _ =>
    obtain ⟨moor1, -⟩ := exec_bpower (i := .mpowerMoor) (s := s) (p := moorAllowed) (f := moor) rfl
    obtain ⟨dock1, -⟩ := exec_bpower (i := .mpowerDock) (s := s) (p := moorAllowed) (f := dockState) rfl
    exact ⟨⟨_, moor1 ha, moor_spec s.dev⟩, ⟨_, dock1 ha, dockState_spec s.dev⟩⟩
  case _ =>
    exact ⟨(exec_bpower (i := .mpowerMoor) (p := moorAllowed) (f := moor) rfl).2 ha,
      (exec_bpower (i := .mpowerDock) (p := moorAllowed) (f := dockState) rfl).2 ha⟩
  case _ =>
    obtain ⟨act1, -⟩ := exec_bpower (i := .mpowerActive) (s := s) (p := activeAllowed) (f := mpowerActive) rfl
    refine ⟨_, act1 (by simp [activeAllowed, hm]), ?_⟩
    rw [mpowerActive, if_pos hm]
    exact leaveMoor_spec s.dev
  case _ =>
    obtain ⟨act1, -⟩ := exec_bpower (i := .mpowerActive) (s := s) (p := activeAllowed) (f := mpowerActive) rfl
    refine ⟨_, act1 (by simp [activeAllowed, hm, ht, h12, hx]), ?_⟩
    rw [mpowerActive, if_neg (by omega)]
    exact leaveDock_spec s.dev h12 hx
  case _ =>
    refine (exec_bpower (i := .mpowerActive) (p := activeAllowed) (f := mpowerActive) rfl).2 ?_
    rw [activeAllowed, decide_eq_false hm, Bool.false_or]
    obtain h | h | h | h := h <;> simp [h]
  case _ =>
    obtain ⟨res1, -⟩ := exec_bpower (i := .moorRestoreDone) (s := s) (p := fun d => d.power.leavingMoor && decide (mstate d = 0))
      (f := moorRestored) rfl
    exact ⟨_, res1 (by simp [hl, hm]), moorRestored_spec s.dev⟩

end Sys2Proof.Machine
end

section
/-! A slot of a shuttle link direction (R221 to R226): what is sent, and what the rest of the link keeps. -/

namespace Sys2Proof.Machine

/-- The place freed in a receive buffer is a count of some link alone. -/
theorem linkAt_freePlace (d : Device) (w : Waiting) (k : Nat) : ∃ u, linkAt (freePlace d w) k = { linkAt d k with used := u } := by
  rw [freePlace]
  split
  · exact ⟨_, rfl⟩
  · by_cases hk : k = w.via - 1
    · subst hk
      rw [linkAt_setLink_same]
      exact ⟨_, rfl⟩
    · rw [linkAt_setLink_other _ _ hk]
      exact ⟨_, rfl⟩

/-- Links alone differ. -/
def OnlyLinks (d e : Device) : Prop := ∃ m, e = { d with links := m }

theorem onlyLinks_setLink (d : Device) (k : Nat) (x : Link) : OnlyLinks d (setLink d k x) := ⟨_, rfl⟩

theorem OnlyLinks.refl (d : Device) : OnlyLinks d d := ⟨_, rfl⟩

theorem OnlyLinks.trans {d e f : Device} : OnlyLinks d e → OnlyLinks e f → OnlyLinks d f := by
  rintro ⟨_, rfl⟩ ⟨_, rfl⟩
  exact ⟨_, rfl⟩

theorem onlyLinks_freePlace (d : Device) (w : Waiting) : OnlyLinks d (freePlace d w) := by
  rw [freePlace]
  split
  · exact .refl d
  · exact onlyLinks_setLink _ _ _

theorem onlyLinks_sendFlow (d : Device) (key tg : Nat) (lent : Bool) : OnlyLinks d (sendFlow d key tg lent) := by
  unfold sendFlow
  dsimp only
  split
  · exact .refl d
  · exact (onlyLinks_setLink _ _ _).trans (onlyLinks_freePlace _ _)

theorem onlyLinks_sendSlot (d : Device) (key : Nat) : OnlyLinks d (sendSlot d key) := by
  unfold sendSlot
  dsimp only
  split
  · exact onlyLinks_setLink _ _ _
  · exact onlyLinks_sendFlow _ _ _ _
  · exact onlyLinks_sendFlow _ _ _ _
  · split
    · exact .refl d
    · exact (onlyLinks_setLink _ _ _).trans (onlyLinks_freePlace _ _)
  · split
    · exact .refl d
    · exact (onlyLinks_setLink _ _ _).trans (onlyLinks_freePlace _ _)
  · exact .refl d

/-! What the link direction itself becomes -/

/-- What a slot leaves of a link: its lap counter, timetable and flow entries. -/
def SlotKeeps (x y : Link) : Prop := y.lap = x.lap ∧ y.tt = x.tt ∧ y.flows = x.flows

theorem linkAt_sent (d : Device) (k : Nat) (y : Link) (w : Waiting) : ∃ u, linkAt (freePlace (setLink d k y) w) k = { y with used := u } := by
  obtain ⟨u, hu⟩ := linkAt_freePlace (setLink d k y) w k
  rw [linkAt_setLink_same] at hu
  exact ⟨u, hu⟩

theorem linkAt_sendFlow {d : Device} {key tg : Nat} (lent : Bool) {w : Waiting} {ws : List Waiting} (h : flowQueue (linkAt d key) tg = w :: ws) :
    ∃ u n, linkAt (sendFlow d key tg lent) key = { linkAt d key with
      wire := (linkAt d key).wire ++ [(w.flit, tg)], queues := Tab.set (linkAt d key).queues tg ws, used := u, lent := n } := by
  unfold sendFlow
  dsimp only
  rw [h]
  cases lent
  · obtain ⟨u, hu⟩ := linkAt_sent d key (putOnWire { linkAt d key with queues := Tab.set (linkAt d key).queues tg ws } w tg) w
    exact ⟨u, _, hu⟩
  · obtain ⟨u, hu⟩ := linkAt_sent d key
      { putOnWire { linkAt d key with queues := Tab.set (linkAt d key).queues tg ws } w tg with lent := tg } w
    exact ⟨u, _, hu⟩

theorem slotKeeps_sendFlow (d : Device) (key tg : Nat) (lent : Bool) : SlotKeeps (linkAt d key) (linkAt (sendFlow d key tg lent) key) := by
  cases h : flowQueue (linkAt d key) tg with
  | nil =>
    unfold sendFlow
    dsimp only
    rw [h]
    exact ⟨rfl, rfl, rfl⟩
  | cons w ws =>
    obtain ⟨u, n, hu⟩ := linkAt_sendFlow lent h
    rw [hu]
    exact ⟨rfl, rfl, rfl⟩

theorem linkAt_sendLight {d : Device} {key : Nat} (hc : slotChoice key (linkAt d key) = .light) {w : Waiting} {ws : List Waiting}
    (h : (linkAt d key).light = w :: ws) : ∃ u, linkAt (sendSlot d key) key =
      { linkAt d key with wire := (linkAt d key).wire ++ [(w.flit, 256)], light := ws, used := u } := by
  unfold sendSlot
  dsimp only
  rw [hc, h]
  exact linkAt_sent d key (putOnWire { linkAt d key with light := ws } w 256) w

theorem linkAt_sendBackground {d : Device} {key : Nat} (hc : slotChoice key (linkAt d key) = .background) {w : Waiting} {ws : List Waiting}
    (h : (linkAt d key).bg = w :: ws) : ∃ u, linkAt (sendSlot d key) key =
      { linkAt d key with wire := (linkAt d key).wire ++ [(w.flit, 257)], bg := ws, used := u } := by
  unfold sendSlot
  dsimp only
  rw [hc, h]
  exact linkAt_sent d key (putOnWire { linkAt d key with bg := ws } w 257) w

theorem sendSlot_retry {d : Device} {key : Nat} (hc : slotChoice key (linkAt d key) = .retry) : sendSlot d key = setLink d key { linkAt d key with
    wire := (linkAt d key).wire ++ (linkAt d key).retry.take 1, retry := (linkAt d key).retry.drop 1, retries := (linkAt d key).retries + 1 } := by
  unfold sendSlot
  dsimp only
  rw [hc]

theorem sendSlot_nothing {d : Device} {key : Nat} (hc : slotChoice key (linkAt d key) = .nothing) : sendSlot d key = d := by
  unfold sendSlot
  dsimp only
  rw [hc]

theorem sendSlot_flow {d : Device} {key tg : Nat} (hc : slotChoice key (linkAt d key) = .flow tg) : sendSlot d key = sendFlow d key tg false := by
  unfold sendSlot
  dsimp only
  rw [hc]

theorem sendSlot_lend {d : Device} {key tg : Nat} (hc : slotChoice key (linkAt d key) = .lend tg) : sendSlot d key = sendFlow d key tg true := by
  unfold sendSlot
  dsimp only
  rw [hc]

theorem slotKeeps_sendSlot (d : Device) (key : Nat) : SlotKeeps (linkAt d key) (linkAt (sendSlot d key) key) := by
  cases hc : slotChoice key (linkAt d key) with
  | retry =>
    rw [sendSlot_retry hc, linkAt_setLink_same]
    exact ⟨rfl, rfl, rfl⟩
  | flow tg =>
    rw [sendSlot_flow hc]
    exact slotKeeps_sendFlow d key tg false
  | lend tg =>
    rw [sendSlot_lend hc]
    exact slotKeeps_sendFlow d key tg true
  | light =>
    cases h : (linkAt d key).light with
    | nil =>
      unfold sendSlot
      dsimp only
      rw [hc, h]
      exact ⟨rfl, rfl, rfl⟩
    | cons w ws =>
      obtain ⟨u, hu⟩ := linkAt_sendLight hc h
      rw [hu]
      exact ⟨rfl, rfl, rfl⟩
  | background =>
    cases h : (linkAt d key).bg with
    | nil =>
      unfold sendSlot
      dsimp only
      rw [hc, h]
      exact ⟨rfl, rfl, rfl⟩
    | cons w ws =>
      obtain ⟨u, hu⟩ := linkAt_sendBackground hc h
      rw [hu]
      exact ⟨rfl, rfl, rfl⟩
  | nothing =>
    rw [sendSlot_nothing hc]
    exact ⟨rfl, rfl, rfl⟩

/-! What the slot is used for (R224) -/

section
variable {key : Nat} {x : Link}

theorem slotChoice_quiesced (h : x.quiesced = true) : slotChoice key x = .nothing := by simp [slotChoice, h]

theorem slotChoice_retry (h : x.quiesced = false) {f : ShFlit × Nat} {rest : List (ShFlit × Nat)} (hr : x.retry = f :: rest) :
    slotChoice key x = .retry := by simp [slotChoice, h, hr]

theorem slotChoice_full (hr : x.retry = []) (hf : retryFull key x = true) : slotChoice key x = .nothing := by
  unfold slotChoice
  dsimp only
  split
  · rfl
  · rw [hr]
    rfl

theorem slotChoice_flow (hq : x.quiesced = false) (hr : x.retry = []) (hf : retryFull key x = false) (ho : slotOwner key x ≠ 0)
    (hready : flowReady x (slotOwner key x) = true) : slotChoice key x = .flow (slotOwner key x) := by
  simp [slotChoice, hq, hr, hf, ho, hready]

theorem slotChoice_light (hq : x.quiesced = false) (hr : x.retry = []) (hf : retryFull key x = false)
    (ho : slotOwner key x = 0 ∨ flowReady x (slotOwner key x) = false) (hroom : hasRoom x 256 = true) {w : Waiting} {ws : List Waiting}
    (hl : x.light = w :: ws) : slotChoice key x = .light := by
  obtain ho | ho := ho <;> simp [slotChoice, hq, hr, hf, ho, hroom, hl]

theorem slotChoice_background (hq : x.quiesced = false) (hr : x.retry = []) (hf : retryFull key x = false) (ho : slotOwner key x = 0)
    (hlight : x.light = [] ∨ hasRoom x 256 = false) (hroom : hasRoom x 257 = true) {w : Waiting} {ws : List Waiting}
    (hb : x.bg = w :: ws) : slotChoice key x = .background := by
  obtain hlight | hlight := hlight <;> simp [slotChoice, hq, hr, hf, ho, hroom, hlight, hb]

end

/-! Settling O18 -/

/-- The state after one slot: what was sent, with the lap counter moved on. -/
def afterSlot (d : Device) (key : Nat) : Device :=
  setLink (sendSlot d key) key { linkAt (sendSlot d key) key with lap := (linkAt (sendSlot d key) key).lap + 1 }

theorem exec_shuttleSlotSend {l : LinkDir} {s : State} (h : linkLive s.dev l = true) :
    exec (.shuttleSlotSend l) s = .next { s with dev := afterSlot s.dev (linkKey l) } := by
  change execShuttleSlotSend l s = _
  rw [execShuttleSlotSend, onDev_eq, guarded, if_pos h]
  rfl

theorem linkAt_afterSlot (d : Device) (key : Nat) :
    linkAt (afterSlot d key) key = { linkAt (sendSlot d key) key with lap := (linkAt (sendSlot d key) key).lap + 1 } := linkAt_setLink_same _ _ _

/-- Settles O18: what one slot of a link direction sends, in the order of R224. -/
theorem shuttleSlotOrder : Obligations.ShuttleSlotOrder := by
  unfold Obligations.ShuttleSlotOrder
  intro l s hlive
  refine ⟨_, exec_shuttleSlotSend hlive, ?_⟩
  obtain ⟨hlap, htt, hfl⟩ := slotKeeps_sendSlot s.dev (linkKey l)
  obtain ⟨m, hm⟩ := (onlyLinks_sendSlot s.dev (linkKey l)).trans (onlyLinks_setLink _ (linkKey l)
    { linkAt (sendSlot s.dev (linkKey l)) (linkKey l) with lap := (linkAt (sendSlot s.dev (linkKey l)) (linkKey l)).lap + 1 })
  have hframe : (afterSlot s.dev (linkKey l)).berths = s.dev.berths ∧ (afterSlot s.dev (linkKey l)).od = s.dev.od := by
    rw [afterSlot, hm]
    exact ⟨rfl, rfl⟩
  obtain ⟨hb, ho⟩ := hframe
  rw [linkAt_afterSlot]
  refine ⟨congrArg (· + 1) hlap, htt, hfl, hb, ho, fun hq => ?_, fun hq f rest hr => ?_, fun hr hf => ?_, fun hi hn w ws hw hroom => ?_,
    fun hi hn hroom w ws hw => ?_, fun hi hn hlight hroom w ws hw => ?_⟩
  · rw [sendSlot_nothing (slotChoice_quiesced hq)]
    exact ⟨rfl, rfl, rfl, rfl, rfl⟩
  · rw [sendSlot_retry (slotChoice_retry hq hr), linkAt_setLink_same, hr]
    exact ⟨rfl, rfl, rfl, rfl⟩
  · rw [sendSlot_nothing (slotChoice_full hr hf)]
    exact ⟨rfl, rfl, rfl, rfl⟩
  · obtain ⟨hq, hr, hf⟩ := hi
    rw [sendSlot_flow (slotChoice_flow hq hr hf hn (by rw [flowReady, hw, hroom]; rfl))]
    obtain ⟨u, n, hu⟩ := linkAt_sendFlow false hw
    rw [hu]
    exact ⟨rfl, Tab.get_set_same _ _ _ _, fun n hn => Tab.get_set_other _ _ _ hn, rfl, rfl⟩
  · obtain ⟨hq, hr, hf⟩ := hi
    obtain ⟨u, hu⟩ := linkAt_sendLight (slotChoice_light hq hr hf hn hroom hw) hw
    rw [hu]
    exact ⟨rfl, rfl, rfl, rfl⟩
  · obtain ⟨hq, hr, hf⟩ := hi
    obtain ⟨u, hu⟩ := linkAt_sendBackground (slotChoice_background hq hr hf hn hlight hroom hw) hw
    rw [hu]
    exact ⟨rfl, rfl, rfl, rfl⟩

end Sys2Proof.Machine
end

section
/-! The shuttle (R209 to R230): what a flit does at the end of a link, a lane gone over to the spare, and the commands of the
stations and of the link endpoints. -/

namespace Sys2Proof.Machine

/-! Units that do not change over -/

theorem bothUnits_eq {d : Device} {b : Nat} {f : Device → Device} (h : (berthAt (f d) b).incoming = none) : bothUnits d b f = f d := by
  rw [bothUnits]
  exact if_neg (by rw [h]; exact Bool.false_ne_true)

theorem byEpoch_eq {d : Device} {b : Nat} (e : BitVec 2) (f : Device → Device) (h : (berthAt d b).incoming = none) : byEpoch d b e f = f d := by
  rw [byEpoch, onUnits]
  exact if_neg (by simp [h])

/-! A flit that joins a link -/

theorem onlyLinks_enqueueLink (d : Device) (key : Nat) (f : ShFlit) (via cls : Nat) : OnlyLinks d (enqueueLink d key f via cls) := by
  unfold enqueueLink
  dsimp only
  split
  · exact onlyLinks_setLink _ _ _
  · split <;> exact onlyLinks_setLink _ _ _

theorem linkAt_enqueueLink_other (d : Device) {key k : Nat} (f : ShFlit) (via cls : Nat) (h : k ≠ key) :
    linkAt (enqueueLink d key f via cls) k = linkAt d k := by
  unfold enqueueLink
  dsimp only
  split
  · exact linkAt_setLink_other _ _ h
  · split <;> exact linkAt_setLink_other _ _ h

theorem linkAt_enqueueLink_light (d : Device) (key : Nat) {f : ShFlit} (via cls : Nat) (h : f.typ = 1) :
    linkAt (enqueueLink d key f via cls) key =
      { linkAt d key with light := (linkAt d key).light ++ [{ flit := f, via := via, cls := cls }] } := by
  unfold enqueueLink
  dsimp only
  rw [if_pos h, linkAt_setLink_same]

theorem linkAt_enqueueLink_background (d : Device) (key : Nat) {f : ShFlit} (via cls : Nat) (h : f.typ = 2) :
    linkAt (enqueueLink d key f via cls) key =
      { linkAt d key with bg := (linkAt d key).bg ++ [{ flit := f, via := via, cls := cls }] } := by
  unfold enqueueLink
  dsimp only
  rw [if_neg (by rw [h]; decide), if_pos h, linkAt_setLink_same]

theorem linkAt_enqueueLink_flow (d : Device) (key : Nat) {f : ShFlit} (via cls : Nat) (h : f.typ = 0) :
    linkAt (enqueueLink d key f via cls) key = { linkAt d key with
      queues := Tab.modify [] (linkAt d key).queues (flitClass key (linkAt d key) f) (fun q => q ++ [{ flit := f, via := via, cls := cls }]) } := by
  unfold enqueueLink
  dsimp only
  rw [if_neg (by rw [h]; decide), if_neg (by rw [h]; decide), linkAt_setLink_same]

/-! Receiving (R222, R229) -/

theorem exec_shuttleFlitReceive {l : LinkDir} {err : BitVec 336} {s : State} (h : linkLive s.dev l = true) :
    exec (.shuttleFlitReceive l err) s = .next { s with dev := shuttleReceive s.dev l err } := by
  change execShuttleFlitReceive l err s = _
  rw [execShuttleFlitReceive, onDev_eq, guarded, if_pos h]

theorem shuttleReceive_good {d : Device} {l : LinkDir} {f : ShFlit} {cls : Nat} {rest : List (ShFlit × Nat)}
    (hw : (linkAt d (linkKey l)).wire = (f, cls) :: rest) (hg : shGood f = true) :
    shuttleReceive d l 0 = passFlit d (linkKey l) f cls := by
  unfold shuttleReceive
  rw [hw]
  dsimp only
  rw [shErr_zero, if_pos hg]

theorem shuttleReceive_bad {d : Device} {l : LinkDir} {f : ShFlit} {cls : Nat} {rest : List (ShFlit × Nat)} {err : BitVec 336}
    (hw : (linkAt d (linkKey l)).wire = (f, cls) :: rest) (hg : shGood (shErr f err) = false) : shuttleReceive d l err = failShuttle d l := by
  unfold shuttleReceive
  rw [hw]
  dsimp only
  rw [if_neg (by rw [hg]; exact Bool.false_ne_true)]

/-- A link whose oldest flit has arrived. -/
def wirePopped (x : Link) : Link := { x with wire := x.wire.drop 1, fails := 0 }

theorem passFlit_on {d : Device} {key die : Nat} {f : ShFlit} {cls : Nat} (h : linkLanding key = some die) :
    passFlit d key f cls = enqueueLink (setLink d key (wirePopped (linkAt d key))) (landingLink die f.src f.dest) f (key + 1) cls := by
  unfold passFlit
  dsimp only
  rw [h]
  rfl

theorem passFlit_off {d : Device} {key : Nat} {f : ShFlit} {cls : Nat} (h : linkLanding key = none) :
    passFlit d key f cls = deliverFlit (freePlace (setLink d key (wirePopped (linkAt d key))) { flit := f, via := key + 1, cls := cls }) f := by
  unfold passFlit
  dsimp only
  rw [h]
  rfl

theorem freePlace_via (d : Device) (key : Nat) (f : ShFlit) (cls : Nat) :
    freePlace d { flit := f, via := key + 1, cls := cls } = setLink d key { linkAt d key with
      used := Tab.set (linkAt d key).used cls (classUsed (linkAt d key) cls - 1) } := by
  rw [freePlace, if_neg (Nat.succ_ne_zero key)]
  rfl

/-- Berths, the waiting flits to tiles and all but links, spare and fault hub stay as they were. -/
theorem laneFail_parts (d : Device) (from1 : Bool) (n k : Nat) :
    (∃ q a, linkAt (laneFail d from1 n) k = { linkAt d k with quiesced := q, faulted := a }) ∧
      (laneFail d from1 n).berths = d.berths ∧ (laneFail d from1 n).toTile = d.toTile := by
  have hset : ∀ (x : Device) (j : Nat) (q a : Bool), ∃ q' a', linkAt (setLink x j { linkAt x j with quiesced := q, faulted := a }) k =
      { linkAt x k with quiesced := q', faulted := a' } := by
    intro x j q a
    by_cases hk : k = j
    · subst hk
      rw [linkAt_setLink_same]
      exact ⟨q, a, rfl⟩
    · rw [linkAt_setLink_other _ _ hk]
      exact ⟨_, _, rfl⟩
  unfold laneFail
  dsimp only
  split
  · obtain ⟨q, a, h⟩ := hset d (200 + 20 * b2n from1 + n) (linkAt d (200 + 20 * b2n from1 + n)).quiesced true
    exact ⟨⟨q, a, h⟩, rfl, rfl⟩
  · obtain ⟨q1, a1, h1⟩ := hset d (200 + n) true (linkAt d (200 + n)).faulted
    generalize hx : setLink d (200 + n) _ = x at h1 ⊢
    obtain ⟨q2, a2, h2⟩ := hset x (220 + n) true (linkAt x (220 + n)).faulted
    refine ⟨⟨q2, a2, h2.trans ?_⟩, ?_, ?_⟩
    · rw [h1]
    · rw [← hx]; rfl
    · rw [← hx]; rfl

/-- A link whose flits on the wire are to be sent again. -/
def wireFailed (x : Link) : Link := { x with retry := x.wire ++ x.retry, wire := [], fails := x.fails + 1 }

/-- A link that has failed and is reported. -/
def linkFaulted (d : Device) (key : Nat) (blame : U32) : Device :=
  let x := setLink d key (wireFailed (linkAt d key))
  report (setLink x key { linkAt x key with faulted := true }) 0x080 blame blame 0

/-- A CRC failure: what was on the wire is sent again before anything else (R222). -/
theorem failShuttle_parts (d : Device) (l : LinkDir) :
    (∃ q a, linkAt (failShuttle d l) (linkKey l) = { wireFailed (linkAt d (linkKey l)) with quiesced := q, faulted := a }) ∧
      (failShuttle d l).berths = d.berths ∧ (failShuttle d l).toTile = d.toTile := by
  have hkeep : ∃ q a, linkAt (setLink d (linkKey l) (wireFailed (linkAt d (linkKey l)))) (linkKey l) =
      { wireFailed (linkAt d (linkKey l)) with quiesced := q, faulted := a } := ⟨_, _, linkAt_setLink_same _ _ _⟩
  have hfault : ∀ blame : U32, (∃ q a, linkAt (linkFaulted d (linkKey l) blame) (linkKey l) =
      { wireFailed (linkAt d (linkKey l)) with quiesced := q, faulted := a }) ∧
        (linkFaulted d (linkKey l) blame).berths = d.berths ∧ (linkFaulted d (linkKey l) blame).toTile = d.toTile := by
    intro blame
    refine ⟨⟨(wireFailed (linkAt d (linkKey l))).quiesced, true, ?_⟩, rfl, rfl⟩
    rw [linkFaulted, linkAt_report, linkAt_setLink_same, linkAt_setLink_same]
  unfold failShuttle
  split
  case h_1 from1 i =>
    dsimp only
    split
    · obtain ⟨⟨q, a, h⟩, hb, ht⟩ := laneFail_parts (setLink d (linkKey (.lane from1 i)) (wireFailed (linkAt d (linkKey (.lane from1 i)))))
        from1 i.val (linkKey (.lane from1 i))
      refine ⟨⟨q, a, h.trans ?_⟩, hb, ht⟩
      rw [linkAt_setLink_same]
    · exact ⟨hkeep, rfl, rfl⟩
  case h_2 =>
    dsimp only
    split
    · exact hfault _
    · exact ⟨hkeep, rfl, rfl⟩

/-! The spare lane (R229) -/

/-- A lane direction that runs on the spare: what the receiver has not acknowledged is sent again. -/
def onSpare (x : Link) : Link := { x with quiesced := false, fails := 0, retry := x.wire ++ x.retry, wire := [] }

theorem spareTrained_eq (d : Device) (n : Nat) : spareTrained d n =
    { setLink (setLink d (200 + n) (onSpare (linkAt d (200 + n)))) (220 + n)
        (onSpare (linkAt (setLink d (200 + n) (onSpare (linkAt d (200 + n)))) (220 + n))) with laneSwitch := none } := rfl

theorem linkAt_spareTrained (d : Device) {n k : Nat} (h : k = 200 + n ∨ k = 220 + n) :
    linkAt (spareTrained d n) k = onSpare (linkAt d k) := by
  rw [spareTrained_eq]
  change linkAt (setLink _ (220 + n) _) k = _
  rw [linkAt_setLink_other (k := 200 + n) (n := 220 + n) _ _ (by omega)]
  obtain rfl | rfl := h
  · rw [linkAt_setLink_other _ _ (by omega), linkAt_setLink_same]
  · rw [linkAt_setLink_same]

/-! Delivery at a pass port -/

/-- A token for a pass port goes on to the port's tile (R219). -/
theorem deliverFlit_toTile {d : Device} {f : ShFlit} (hst : epIsStation f.dest = true) (htyp : f.typ = 0)
    (hv : (portAt d (epKey f.dest)).valid = true) (hl : (portAt d (epKey f.dest)).link = false)
    (hi : (berthAt d (epDomain f.dest)).incoming = none) :
    deliverFlit d f = toTileFlit d (epKey f.dest) { data := f.data, sb := f.sb } := by
  rw [deliverFlit, hst, if_pos rfl, byEpoch_eq _ _ hi, if_pos rfl, deliverStation]
  rw [if_neg (by rw [hv]; exact Bool.false_ne_true), if_pos htyp, if_neg (by rw [hl]; exact Bool.false_ne_true)]

/-- Settles O19: what a shuttle flit does at the end of a link, and a trained spare lane. -/
theorem shuttleFlitArrives : Obligations.ShuttleFlitArrives := by
  unfold Obligations.ShuttleFlitArrives
  refine ⟨fun l s f cls rest die hlive hw hg hland hne => ?_, fun b st s f cls rest hlive hw hg hst htyp hv hl hi => ?_,
    fun l s f cls rest err hlive hw hg => ?_, fun from1 n s hs => ?_⟩
  case _ =>
    refine ⟨_, exec_shuttleFlitReceive hlive, ?_⟩
    rw [shuttleReceive_good hw hg, passFlit_on hland]
    generalize hx : setLink s.dev (linkKey l) (wirePopped (linkAt s.dev (linkKey l))) = x
    have hkey : linkAt x (linkKey l) = wirePopped (linkAt s.dev (linkKey l)) := by
      rw [← hx]
      exact linkAt_setLink_same _ _ _
    have hnext : linkAt x (landingLink die f.src f.dest) = linkAt s.dev (landingLink die f.src f.dest) := by
      rw [← hx]
      exact linkAt_setLink_other _ _ hne
    obtain ⟨m, hm⟩ := onlyLinks_enqueueLink x (landingLink die f.src f.dest) f (linkKey l + 1) cls
    rw [linkAt_enqueueLink_other x f _ _ (Ne.symm hne), hkey]
    refine ⟨?_, rfl, fun h0 => ?_, fun h1 => ?_, fun h2 => ?_, ?_, ?_⟩
    · rw [wirePopped, hw]
      rfl
    · rw [linkAt_enqueueLink_flow x _ _ _ h0, hnext]
      exact Tab.get_modify_same _ _ _ (fun q => q ++ [_])
    · rw [linkAt_enqueueLink_light x _ _ _ h1, hnext]
    · rw [linkAt_enqueueLink_background x _ _ _ h2, hnext]
    · rw [hm, ← hx]
      rfl
    · rw [hm, ← hx]
      rfl
  case _ =>
    have hland : linkLanding (linkKey (.stationDown b st)) = none := by
      have := b.isLt
      have := st.isLt
      change linkLanding (100 + 20 * b.val + st.val) = none
      unfold linkLanding
      rw [if_neg (by omega), if_neg (by omega), if_neg (by omega), if_neg (by omega)]
    refine ⟨_, exec_shuttleFlitReceive hlive, ?_⟩
    rw [shuttleReceive_good hw hg, passFlit_off hland, freePlace_via, linkAt_setLink_same]
    generalize hkey : linkKey (.stationDown b st) = key at hw ⊢
    generalize hx : setLink _ key _ = x
    have hlink : linkAt x key = { wirePopped (linkAt s.dev key) with
        used := Tab.set (linkAt s.dev key).used cls (classUsed (linkAt s.dev key) cls - 1) } := by
      rw [← hx]
      exact linkAt_setLink_same _ _ _
    have hport : portAt x (epKey f.dest) = portAt s.dev (epKey f.dest) := by rw [← hx]; rfl
    have hberth : x.berths = s.dev.berths := by rw [← hx]; rfl
    have htile : x.toTile = s.dev.toTile := by rw [← hx]; rfl
    rw [deliverFlit_toTile hst htyp (hport ▸ hv) (hport ▸ hl) (by rw [berthAt, hberth]; exact hi)]
    have hsame : linkAt (toTileFlit x (epKey f.dest) { data := f.data, sb := f.sb }) key = linkAt x key := rfl
    rw [hsame, hlink]
    refine ⟨?_, Tab.get_set_same _ _ _ _, ?_, hberth⟩
    · rw [wirePopped, hw]
      rfl
    · rw [← hport, ← htile]
      exact Tab.get_modify_same _ _ _ (fun q => q ++ [_])
  case _ =>
    refine ⟨_, exec_shuttleFlitReceive hlive, ?_⟩
    obtain ⟨⟨q, a, h⟩, hb, ht⟩ := failShuttle_parts s.dev l
    rw [shuttleReceive_bad hw hg, h, hb, ht]
    exact ⟨rfl, congrArg (· ++ (linkAt s.dev (linkKey l)).retry) hw, rfl, rfl, rfl⟩
  case _ =>
    have hx : exec (.gangwaySpareTrained from1 n) s = .next { s with dev := spareTrained s.dev n.val } := by
      change execGangwaySpareTrained from1 n s = _
      rw [execGangwaySpareTrained, onDev_eq, guarded, if_pos (decide_eq_true hs)]
    refine ⟨_, hx, rfl, fun k hk => ?_⟩
    rw [linkAt_spareTrained _ (by simpa using hk)]
    exact ⟨rfl, rfl, rfl, rfl, rfl⟩

end Sys2Proof.Machine
end

section
/-! Stations and link endpoints (R209 to R211, R219): credits go on to the unit, a sender forwards a unit, a receiver sends its
FREED value, and a sender takes one. -/

namespace Sys2Proof.Machine

/-! Endpoint indices of station ports (Table 9-2) -/

section
variable {b st p : Nat}

theorem portKey_parts (hs : st < 20) (hp : p < 64) : portKey b st p / 1280 = b ∧ portKey b st p / 64 % 20 = st ∧ portKey b st p % 64 = p := by
  unfold portKey
  omega

theorem keyEp_portKey (hs : st < 20) (hp : p < 64) : keyEp (portKey b st p) = epOf b st p := by
  obtain ⟨h1, h2, h3⟩ := portKey_parts (b := b) hs hp
  rw [keyEp, h1, h2, h3]

/-- A station port's flits leave on its station's link toward the die. -/
theorem firstLink_portKey (hb : b < 4) (hs : st < 20) (hp : p < 64) : firstLink (keyEp (portKey b st p)) = 20 * b + st := by
  have hn : (epOf b st p).toNat = b * 2048 + st * 64 + p := by
    rw [epOf, BitVec.toNat_ofNat]
    exact Nat.mod_eq_of_lt (by omega)
  have hdom : epDomain (epOf b st p) = b := by
    rw [epDomain, fld, nbits, hn]
    omega
  have hsta : epStation (epOf b st p) = st := by
    rw [epStation, fld, nbits, hn]
    omega
  rw [keyEp_portKey hs hp, firstLink, epIsStation, hdom, hsta, decide_eq_true hb, if_pos rfl]

end

/-! Sending -/

/-- A light flit with its value, sealed. -/
def lightFlit (e : BitVec 2) (src dest : BitVec 14) (v : Nat) : ShFlit :=
  shSeal { data := BitVec.ofNat 256 v, sb := { e := e }, src := src, dest := dest, typ := 1 }

theorem lightFlit_parts (e : BitVec 2) (src dest : BitVec 14) (v : Nat) : (lightFlit e src dest v).data = BitVec.ofNat 256 v ∧
    (lightFlit e src dest v).dest = dest ∧ (lightFlit e src dest v).typ = 1 ∧ shGood (lightFlit e src dest v) = true := by
  refine ⟨?_, ?_, ?_, shGood_shSeal _⟩ <;> rw [lightFlit, shSeal]

/-- A light flit that a station port sends waits on its station's link. -/
theorem linkAt_sendLight_port (d : Device) (e : BitVec 2) {b st p : Nat} (hb : b < 4) (hs : st < 20) (hp : p < 64) (dest : BitVec 14) (v : Nat) :
    linkAt (sendLight d e (keyEp (portKey b st p)) dest v) (20 * b + st) = { linkAt d (20 * b + st) with
      light := (linkAt d (20 * b + st)).light ++ [{ flit := lightFlit e (keyEp (portKey b st p)) dest v }] } := by
  rw [sendLight, sendShuttle]
  dsimp only
  rw [firstLink_portKey hb hs hp]
  exact linkAt_enqueueLink_light d _ 0 0 rfl

theorem onlyLinks_sendShuttle (d : Device) (f : ShFlit) : OnlyLinks d (sendShuttle d f) := onlyLinks_enqueueLink d _ _ _ _

theorem onlyLinks_sendLight (d : Device) (e : BitVec 2) (src dest : BitVec 14) (v : Nat) : OnlyLinks d (sendLight d e src dest v) :=
  onlyLinks_sendShuttle d _

theorem OnlyLinks.portAt {d e : Device} (h : OnlyLinks d e) (k : Nat) : portAt e k = portAt d k := by
  obtain ⟨_, rfl⟩ := h
  rfl

theorem OnlyLinks.berths {d e : Device} (h : OnlyLinks d e) : e.berths = d.berths := by
  obtain ⟨_, rfl⟩ := h
  rfl

theorem OnlyLinks.od {d e : Device} (h : OnlyLinks d e) : e.od = d.od := by
  obtain ⟨_, rfl⟩ := h
  rfl

theorem incoming_of_berths {d e : Device} {b : Nat} (h : e.berths = d.berths) (hi : (berthAt d b).incoming = none) :
    (berthAt e b).incoming = none := by
  rw [berthAt, h]
  exact hi

theorem modFin_portAt (d : Device) (pk : Nat) (f : LinkEnd → LinkEnd) :
    portAt (modFin d pk f) pk = { portAt d pk with fin := f (portAt d pk).fin } := portAt_setPort_same _ _ _

/-! Credits and FREED values -/

theorem forwardCredits_eq {d : Device} {pk : Nat} (hv : (portAt d pk).valid = true) (hl : (portAt d pk).link = false)
    (hin : (portAt d pk).inbound = true) (hc : 0 < (portAt d pk).credits) (hlive : berthLive d (pk / 1280) = true) :
    forwardCredits d pk = sendLight (setPort d pk { portAt d pk with credits := 0 }) (unitEpoch d (pk / 1280)) (keyEp pk) (portAt d pk).peer
      (portAt d pk).credits := by
  unfold forwardCredits
  dsimp only
  rw [if_pos (by simp [hv, hl, hin, hc, hlive])]

theorem sendFreed_eq {d : Device} {pk : Nat} (hv : (portAt d pk).valid = true) (hl : (portAt d pk).link = true)
    (hr : (portAt d pk).fin.receiver = true) (hne : (portAt d pk).fin.freed ≠ (portAt d pk).fin.sentFreed) (hlive : berthLive d (pk / 1280) = true) :
    sendFreed d pk = sendLight (modFin d pk (fun e => { e with sentFreed := e.freed })) (unitEpoch d (pk / 1280)) (keyEp pk) (linkPeer d pk)
      (portAt d pk).fin.freed.toNat := by
  unfold sendFreed
  dsimp only
  rw [if_pos (by simp [hv, hl, hr, hne, hlive])]

/-- Credits for tiles change berths alone, and no berth's incoming tables. -/
theorem creditStation_parts (d : Device) (pk n : Nat) : (∀ k, portAt (creditStation d pk n) k = portAt d k) ∧
    ∀ b, (berthAt (creditStation d pk n) b).incoming = (berthAt d b).incoming := by
  refine ⟨fun _ => rfl, fun b => ?_⟩
  rw [creditStation]
  dsimp only
  by_cases hb : b = pk / 1280
  · rw [hb, berthAt_modBerth_same]
  · rw [berthAt_modBerth_other _ _ hb]

/-- What a FREED value leaves at its endpoint: accepted in its window, else counted (R210). -/
theorem acceptFreed_parts (d : Device) (pk : Nat) (v : U32) :
    (portAt (acceptFreed d pk v) pk).fin =
        (if (v - (portAt d pk).fin.freed).toNat ≤ (portAt d pk).fin.cap + 1 then { (portAt d pk).fin with freed := v }
          else { (portAt d pk).fin with ignored := (portAt d pk).fin.ignored + 1 }) ∧
      ∀ b, (berthAt (acceptFreed d pk v) b).incoming = (berthAt d b).incoming := by
  unfold acceptFreed
  dsimp only
  split
  · generalize hx : setPort (modFin d pk (fun e => { e with freed := v })) pk _ = x
    have hport : (portAt x pk).fin = { (portAt d pk).fin with freed := v } := by
      rw [← hx, portAt_setPort_same, modFin_portAt]
    have hb : ∀ b, berthAt x b = berthAt d b := by
      intro b
      rw [← hx]
      rfl
    split
    · exact ⟨hport, fun b => by rw [hb]⟩
    · obtain ⟨hp, hi⟩ := creditStation_parts x pk ((v - (portAt d pk).fin.freed).toNat * 2 ^ (portAt d pk).fin.grain)
      exact ⟨by rw [hp, hport], fun b => by rw [hi, hb]⟩
  · exact ⟨by rw [modFin_portAt], fun _ => rfl⟩

theorem takeFreed_eq {d : Device} {pk : Nat} {v : U32} {vs : List U32} (hf : (portAt d pk).fin.freedIn = v :: vs)
    (hv : (portAt d pk).valid = true) (hl : (portAt d pk).link = true) (hr : (portAt d pk).fin.receiver = false)
    (hlive : berthLive d (pk / 1280) = true) : takeFreed d pk = acceptFreed (modFin d pk (fun e => { e with freedIn := vs })) pk v := by
  unfold takeFreed
  dsimp only
  rw [hf]
  dsimp only
  rw [if_pos (by simp [hv, hl, hr, hlive])]

/-! A unit is forwarded (R210) -/

/-- The class of a token on a station's own link is its flow entry's tag. -/
theorem flitClass_station {key : Nat} (hk : key < 80) (l : Link) {f : ShFlit} (ht : f.typ = 0) : flitClass key l f =
    ((l.flows.find? (fun p => flowHolds f.dest p.2)).map (fun p => 64 * (p.1 / 64) + p.2.tag)).getD 0 := by
  have hs : linkShared key = false := by
    unfold linkShared
    rw [decide_eq_false (by omega), decide_eq_false (by omega), decide_eq_false (by omega)]
    rfl
  rw [flitClass, if_neg (by rw [ht]; decide), if_neg (by rw [ht]; decide), flowEntry, hs, if_neg Bool.false_ne_true]

/-- A token as a sender endpoint puts it on its link. -/
def unitFlit (src dest : BitVec 14) (stamp : BitVec 16) (t : Token) : ShFlit := { data := t.data, sb := t.sb, src := src, dest := dest, stamp := stamp }

/-- What a waiting flit carries. -/
def waitingContent (w : Waiting) : Payload × Sideband × BitVec 16 × BitVec 14 := (w.flit.data, w.flit.sb, w.flit.stamp, w.flit.dest)

theorem shSeal_typ (f : ShFlit) : (shSeal f).typ = f.typ := by
  rw [shSeal]

theorem flows_sendShuttle (d : Device) {f : ShFlit} (h : f.typ = 0) :
    (linkAt (sendShuttle d f) (firstLink f.src)).flows = (linkAt d (firstLink f.src)).flows := by
  have ht : (shSeal f).typ = 0 := (shSeal_typ f).trans h
  rw [sendShuttle, linkAt_enqueueLink_flow d _ _ _ ht]

theorem flowQueue_sendShuttle (d : Device) {f : ShFlit} (h : f.typ = 0) :
    flowQueue (linkAt (sendShuttle d f) (firstLink f.src)) (flitClass (firstLink f.src) (linkAt d (firstLink f.src)) (shSeal f)) =
      flowQueue (linkAt d (firstLink f.src)) (flitClass (firstLink f.src) (linkAt d (firstLink f.src)) (shSeal f)) ++ [{ flit := shSeal f }] := by
  have ht : (shSeal f).typ = 0 := (shSeal_typ f).trans h
  rw [sendShuttle, linkAt_enqueueLink_flow d _ _ _ ht]
  exact Tab.get_modify_same _ _ _ (fun q => q ++ [_])

/-- Tokens sent one behind the other join the queue of their flow in order. -/
theorem flowQueue_sendUnit {src dest : BitVec 14} {stamp : BitVec 16} (hk : firstLink src < 80) (ts : List Token) (d : Device) :
    (flowQueue (linkAt (ts.foldl (fun d t => sendShuttle d (unitFlit src dest stamp t)) d) (firstLink src))
        (flitClass (firstLink src) (linkAt d (firstLink src)) { src := src, dest := dest })).map waitingContent =
      (flowQueue (linkAt d (firstLink src)) (flitClass (firstLink src) (linkAt d (firstLink src)) { src := src, dest := dest })).map waitingContent
        ++ ts.map (fun t => (t.data, t.sb, stamp, dest)) := by
  induction ts generalizing d with
  | nil => exact (List.append_nil _).symm
  | cons t ts ih =>
    have hcls : flitClass (firstLink src) (linkAt d (firstLink src)) (shSeal (unitFlit src dest stamp t)) =
        flitClass (firstLink src) (linkAt d (firstLink src)) { src := src, dest := dest } := by
      rw [flitClass_station hk _ rfl, flitClass_station hk _ rfl]
      rfl
    have hflows : (linkAt (sendShuttle d (unitFlit src dest stamp t)) (firstLink src)).flows = (linkAt d (firstLink src)).flows :=
      flows_sendShuttle d (f := unitFlit src dest stamp t) rfl
    have hqueue : flowQueue (linkAt (sendShuttle d (unitFlit src dest stamp t)) (firstLink src))
        (flitClass (firstLink src) (linkAt d (firstLink src)) (shSeal (unitFlit src dest stamp t))) = _ :=
      flowQueue_sendShuttle d (f := unitFlit src dest stamp t) rfl
    have hcls' : flitClass (firstLink src) (linkAt (sendShuttle d (unitFlit src dest stamp t)) (firstLink src)) { src := src, dest := dest } =
        flitClass (firstLink src) (linkAt d (firstLink src)) { src := src, dest := dest } := by
      rw [flitClass_station hk _ rfl, flitClass_station hk _ rfl, hflows]
    have h := ih (sendShuttle d (unitFlit src dest stamp t))
    rw [hcls'] at h
    rw [hcls] at hqueue
    rw [List.foldl_cons, h, hqueue, List.map_append, List.append_assoc]
    rw [show (unitFlit src dest stamp t).src = src from rfl, hcls]
    rfl

/-- A sender endpoint that is ready and holds no mark forwards one unit. -/
theorem linkForward_eq {d : Device} {pk : Nat} (hv : (portAt d pk).valid = true) (hl : (portAt d pk).link = true)
    (hr : (portAt d pk).fin.receiver = false) (hlive : berthLive d (pk / 1280) = true)
    (hbuf : 2 ^ (portAt d pk).fin.grain ≤ (portAt d pk).fin.buf.length)
    (hwin : ((portAt d pk).fin.filled - (portAt d pk).fin.freed).toNat < (portAt d pk).fin.cap + 1) :
    linkForward d pk = forwardMark (forwardUnit d pk) pk := by
  unfold linkForward
  dsimp only
  rw [if_pos (by simp [hv, hl, hr, hlive]), if_pos]
  rw [unitReady, hr, decide_eq_true hbuf, decide_eq_true hwin]
  rfl

theorem onlyLinks_sendUnit (src dest : BitVec 14) (stamp : BitVec 16) (ts : List Token) (d : Device) :
    OnlyLinks d (ts.foldl (fun d t => sendShuttle d (unitFlit src dest stamp t)) d) := by
  induction ts generalizing d with
  | nil => exact .refl d
  | cons t ts ih => exact (onlyLinks_sendShuttle d _).trans (ih _)

/-- A sender endpoint whose oldest unit has left. -/
def unitSent (per : Nat) (e : LinkEnd) : LinkEnd := { e with filled := e.filled + 1, buf := e.buf.drop per }

theorem forwardUnit_eq (d : Device) (pk : Nat) : forwardUnit d pk =
    ((portAt d pk).fin.buf.take (2 ^ (portAt d pk).fin.grain)).foldl
      (fun x t => sendShuttle x (unitFlit (keyEp pk) (linkPeer d pk) (BitVec.ofNat 16 (portAt d pk).fin.filled.toNat) t))
      (modFin d pk (unitSent (2 ^ (portAt d pk).fin.grain))) := rfl

/-- What a sender endpoint that forwards a unit becomes, and what joins its link. -/
theorem forwardUnit_parts (d : Device) {pk : Nat} (hk : firstLink (keyEp pk) < 80) :
    portAt (forwardUnit d pk) pk = { portAt d pk with fin := unitSent (2 ^ (portAt d pk).fin.grain) (portAt d pk).fin } ∧
    (flowQueue (linkAt (forwardUnit d pk) (firstLink (keyEp pk)))
        (flitClass (firstLink (keyEp pk)) (linkAt d (firstLink (keyEp pk))) { src := keyEp pk, dest := linkPeer d pk })).map waitingContent =
      (flowQueue (linkAt d (firstLink (keyEp pk)))
        (flitClass (firstLink (keyEp pk)) (linkAt d (firstLink (keyEp pk))) { src := keyEp pk, dest := linkPeer d pk })).map waitingContent
        ++ ((portAt d pk).fin.buf.take (2 ^ (portAt d pk).fin.grain)).map (fun t =>
          (t.data, t.sb, BitVec.ofNat 16 (portAt d pk).fin.filled.toNat, linkPeer d pk)) ∧
    (forwardUnit d pk).berths = d.berths := by
  rw [forwardUnit_eq]
  have hsend := flowQueue_sendUnit (stamp := BitVec.ofNat 16 (portAt d pk).fin.filled.toNat) (dest := linkPeer d pk) hk
    ((portAt d pk).fin.buf.take (2 ^ (portAt d pk).fin.grain)) (modFin d pk (unitSent (2 ^ (portAt d pk).fin.grain)))
  have honly := onlyLinks_sendUnit (keyEp pk) (linkPeer d pk) (BitVec.ofNat 16 (portAt d pk).fin.filled.toNat)
    ((portAt d pk).fin.buf.take (2 ^ (portAt d pk).fin.grain)) (modFin d pk (unitSent (2 ^ (portAt d pk).fin.grain)))
  refine ⟨?_, hsend, honly.berths⟩
  rw [honly.portAt, modFin_portAt]

theorem forwardMark_none {d : Device} {pk : Nat} (h : (portAt d pk).fin.mark = none) : forwardMark d pk = d := by
  unfold forwardMark
  dsimp only
  rw [h]

/-! Settling O20 -/

/-- Settles O20: stations forward credits and units, and exchange FREED values. -/
theorem stationLinkCommands : Obligations.StationLinkCommands := by
  unfold Obligations.StationLinkCommands
  refine ⟨fun b st p s => ?_, fun b st p s => ?_, fun b st p s => ?_, fun b st p s v vs => ?_⟩
  case _ =>
    intro pk sp link hv hl hin hc hlive hinc
    obtain ⟨hpk, -, -⟩ := portKey_parts (b := b.val) st.isLt p.isLt
    have hx : exec (.stationCreditForward b st p) s = .next { s with dev := bothUnits s.dev b.val (fun d => forwardCredits d pk) } := by
      change execStationCreditForward b st p s = _
      rw [execStationCreditForward, onDev_eq]
    have hf := forwardCredits_eq (d := s.dev) (pk := pk) hv hl hin hc (by rw [hpk]; exact hlive)
    have honly := onlyLinks_sendLight (setPort s.dev pk { portAt s.dev pk with credits := 0 }) (unitEpoch s.dev (pk / 1280)) (keyEp pk)
      (portAt s.dev pk).peer (portAt s.dev pk).credits
    rw [← hf] at honly
    have hb : (forwardCredits s.dev pk).berths = s.dev.berths := honly.berths
    rw [bothUnits_eq (f := fun d => forwardCredits d pk) (incoming_of_berths hb hinc)] at hx
    have hlink := linkAt_sendLight_port (setPort s.dev pk { portAt s.dev pk with credits := 0 }) (unitEpoch s.dev (pk / 1280)) b.isLt st.isLt
      p.isLt (portAt s.dev pk).peer (portAt s.dev pk).credits
    obtain ⟨hdata, hdest, htyp, hgood⟩ := lightFlit_parts (unitEpoch s.dev (pk / 1280)) (keyEp pk) (portAt s.dev pk).peer (portAt s.dev pk).credits
    refine ⟨_, { flit := lightFlit (unitEpoch s.dev (pk / 1280)) (keyEp pk) (portAt s.dev pk).peer (portAt s.dev pk).credits }, hx, ?_, ?_,
      hdata, hdest, htyp, hgood, hb, honly.od⟩
    · rw [honly.portAt, portAt_setPort_same]
    · rw [hf, hlink]
      rfl
  case _ =>
    intro pk sp link tg hv hl hr hlive hmark hinc hbuf hwin
    obtain ⟨hpk, -, -⟩ := portKey_parts (b := b.val) st.isLt p.isLt
    have hx : exec (.linkUnitForward b st p) s = .next { s with dev := bothUnits s.dev b.val (fun d => linkForward d pk) } := by
      change execLinkUnitForward b st p s = _
      rw [execLinkUnitForward, onDev_eq]
    have hfirst : firstLink (keyEp pk) = 20 * b.val + st.val := firstLink_portKey b.isLt st.isLt p.isLt
    obtain ⟨hport, hqueue, hb⟩ := forwardUnit_parts s.dev (pk := pk) (by have := b.isLt; have := st.isLt; omega)
    have hf : linkForward s.dev pk = forwardUnit s.dev pk := by
      rw [linkForward_eq hv hl hr (by rw [hpk]; exact hlive) hbuf hwin, forwardMark_none]
      rw [hport]
      exact hmark
    rw [bothUnits_eq (f := fun d => linkForward d pk) (incoming_of_berths ((congrArg Device.berths hf).trans hb) hinc), hf] at hx
    rw [hfirst] at hqueue
    exact ⟨_, hx, by rw [hport]; rfl, by rw [hport]; rfl, hqueue, hb⟩
  case _ =>
    intro pk sp link hv hl hr hne hlive hinc
    obtain ⟨hpk, -, -⟩ := portKey_parts (b := b.val) st.isLt p.isLt
    have hx : exec (.linkFreedSend b st p) s = .next { s with dev := bothUnits s.dev b.val (fun d => sendFreed d pk) } := by
      change execLinkFreedSend b st p s = _
      rw [execLinkFreedSend, onDev_eq]
    have hf := sendFreed_eq (d := s.dev) (pk := pk) hv hl hr hne (by rw [hpk]; exact hlive)
    have honly := onlyLinks_sendLight (modFin s.dev pk (fun e => { e with sentFreed := e.freed })) (unitEpoch s.dev (pk / 1280)) (keyEp pk)
      (linkPeer s.dev pk) (portAt s.dev pk).fin.freed.toNat
    rw [← hf] at honly
    rw [bothUnits_eq (f := fun d => sendFreed d pk) (incoming_of_berths honly.berths hinc)] at hx
    have hlink := linkAt_sendLight_port (modFin s.dev pk (fun e => { e with sentFreed := e.freed })) (unitEpoch s.dev (pk / 1280)) b.isLt st.isLt
      p.isLt (linkPeer s.dev pk) (portAt s.dev pk).fin.freed.toNat
    obtain ⟨hdata, hdest, htyp, -⟩ := lightFlit_parts (unitEpoch s.dev (pk / 1280)) (keyEp pk) (linkPeer s.dev pk) (portAt s.dev pk).fin.freed.toNat
    refine ⟨_, { flit := lightFlit (unitEpoch s.dev (pk / 1280)) (keyEp pk) (linkPeer s.dev pk) (portAt s.dev pk).fin.freed.toNat }, hx, ?_, ?_, ?_,
      hdata, hdest, htyp⟩
    · rw [honly.portAt, modFin_portAt]
    · rw [honly.portAt, modFin_portAt]
    · rw [hf, hlink]
      rfl
  case _ =>
    intro pk sp hv hl hr hlive hfi hinc
    obtain ⟨hpk, -, -⟩ := portKey_parts (b := b.val) st.isLt p.isLt
    have hx : exec (.linkFreedAccept b st p) s = .next { s with dev := bothUnits s.dev b.val (fun d => takeFreed d pk) } := by
      change execLinkFreedAccept b st p s = _
      rw [execLinkFreedAccept, onDev_eq]
    have hf := takeFreed_eq (d := s.dev) (pk := pk) hfi hv hl hr (by rw [hpk]; exact hlive)
    obtain ⟨hfin, hi⟩ := acceptFreed_parts (modFin s.dev pk (fun e => { e with freedIn := vs })) pk v
    rw [← hf, modFin_portAt] at hfin
    rw [← hf] at hi
    rw [bothUnits_eq (f := fun d => takeFreed d pk) ((hi b.val).trans hinc)] at hx
    refine ⟨_, hx, ?_⟩
    rw [hfin]
    split
    · exact ⟨rfl, rfl, fun _ => ⟨rfl, rfl⟩, fun h => absurd h (not_lt.mpr ‹_›)⟩
    · exact ⟨rfl, rfl, fun h => absurd h ‹_›, fun _ => ⟨rfl, rfl⟩⟩

end Sys2Proof.Machine
end

section
/-! Stride engines (R246 to R253): what the issue of one instruction leaves, and the register, loop and semaphore instructions. -/

namespace Sys2Proof.Machine

/-! The issue of one instruction -/

/-- The engine after an issue. -/
def issuedEngine (x : Se) (g : Engine) (th : Thread) (pc : Nat) : Engine :=
  { g with threads := Tab.set g.threads x.pt { th with pc := pc }, lastThread := x.pt }

theorem berthAt_seCommit_same (d : Device) (x : Se) (g : Engine) (th : Thread) (pc : Nat) : berthAt (seCommit d x g th pc) x.b =
    { berthAt d x.b with engines := Tab.set (berthAt d x.b).engines x.e (issuedEngine x g th pc), idleSince := d.time } := by
  rw [seCommit, berthAt_modBerth_same, berthAt_modBerth_same]
  rfl

theorem berthAt_seCommit_other (d : Device) (x : Se) (g : Engine) (th : Thread) (pc : Nat) {n : Nat} (h : n ≠ x.b) :
    berthAt (seCommit d x g th pc) n = berthAt d n := by
  rw [seCommit, berthAt_modBerth_other _ _ h, berthAt_modBerth_other _ _ h]

theorem seOf_seCommit (d : Device) (x : Se) (g : Engine) (th : Thread) (pc : Nat) :
    (seOf (seCommit d x g th pc) x.b x.e x.pt).g = issuedEngine x g th pc ∧
      (seOf (seCommit d x g th pc) x.b x.e x.pt).th = { th with pc := pc } := by
  have hg : (seOf (seCommit d x g th pc) x.b x.e x.pt).g = issuedEngine x g th pc := by
    change engineAt (berthAt (seCommit d x g th pc) x.b) x.e = _
    rw [berthAt_seCommit_same]
    exact Tab.get_set_same _ _ _ _
  refine ⟨hg, ?_⟩
  change Tab.get {} (seOf (seCommit d x g th pc) x.b x.e x.pt).g.threads x.pt = _
  rw [hg]
  exact Tab.get_set_same _ _ _ _

/-- An issue changes its engine alone: tiles, HBM and every other part of the module stay. -/
theorem seCommit_keeps (d : Device) (x : Se) (g : Engine) (th : Thread) (pc : Nat) :
    (∀ b k, tileAt (seCommit d x g th pc) b k = tileAt d b k) ∧ (∀ b, (berthAt (seCommit d x g th pc) b).hbm = (berthAt d b).hbm) ∧
      (∀ b, (berthAt (seCommit d x g th pc) b).co = (berthAt d b).co) := by
  have h : ∀ b, (berthAt (seCommit d x g th pc) b).tiles = (berthAt d b).tiles ∧ (berthAt (seCommit d x g th pc) b).hbm = (berthAt d b).hbm ∧
      (berthAt (seCommit d x g th pc) b).co = (berthAt d b).co := by
    intro b
    by_cases hb : b = x.b
    · subst hb
      rw [berthAt_seCommit_same]
      exact ⟨rfl, rfl, rfl⟩
    · rw [berthAt_seCommit_other _ _ _ _ _ hb]
      exact ⟨rfl, rfl, rfl⟩
  exact ⟨fun b k => by rw [tileAt, (h b).1, tileAt], fun b => (h b).2.1, fun b => (h b).2.2⟩

/-- A command that finds its instruction at the head, ready and in its turn does its work. -/
theorem strideCommand_issue {op : Nat} {ready : Device → Se → Bool} {act : Device → Se → Option Device} {b e pt : Nat} {s : State} {d : Device}
    (hs : engineSwitched s.dev b e = false) (hh : strideHead op s.dev (seOf s.dev b e pt) = true)
    (hr : ready s.dev (seOf s.dev b e pt) = true) (ht : threadTurn s.dev b e pt = true) (ha : act s.dev (seOf s.dev b e pt) = some d) :
    strideCommand op ready act b e pt s = .next { s with dev := d } := by
  rw [strideCommand, engineSide, hs, if_neg Bool.false_ne_true, issueStride]
  rw [hh, hr, ht, if_pos (by rfl), ha]

theorem strideCommand_refused {op : Nat} {ready : Device → Se → Bool} {act : Device → Se → Option Device} {b e pt : Nat} {s : State}
    (hs : engineSwitched s.dev b e = false) (hh : strideHead op s.dev (seOf s.dev b e pt) = true)
    (hr : ready s.dev (seOf s.dev b e pt) = true) (ht : threadTurn s.dev b e pt = true) (ha : act s.dev (seOf s.dev b e pt) = none) :
    strideCommand op ready act b e pt s = .refused .reservedField := by
  rw [strideCommand, engineSide, hs, if_neg Bool.false_ne_true, issueStride]
  rw [hh, hr, ht, if_pos (by rfl), ha]

/-- A command whose instruction is not ready, or out of its thread's turn, changes nothing. -/
theorem strideCommand_waits {op : Nat} {ready : Device → Se → Bool} {act : Device → Se → Option Device} {b e pt : Nat} {s : State}
    (hs : engineSwitched s.dev b e = false)
    (h : ready s.dev (seOf s.dev b e pt) = false ∨ threadTurn s.dev b e pt = false) : strideCommand op ready act b e pt s = .next s := by
  rw [strideCommand, engineSide, hs, if_neg Bool.false_ne_true, issueStride]
  refine if_neg ?_
  obtain h | h := h <;> simp [h]

/-! Register and loop instructions -/

/-- What every register and loop instruction does to its thread, and what it leaves as it was. -/
theorem stride_done {i : Instr} {op b e pt : Nat} {s : State} {th : Thread} {pc : Nat} {act : Device → Se → Option Device}
    (hi : exec i s = strideCommand op seAlways act b e pt s) (hs : engineSwitched s.dev b e = false)
    (hh : strideHead op s.dev (seOf s.dev b e pt) = true) (ht : threadTurn s.dev b e pt = true)
    (ha : act s.dev (seOf s.dev b e pt) = some (seCommit s.dev (seOf s.dev b e pt) (seOf s.dev b e pt).g th pc)) :
    ∃ d : Device, exec i s = .next { s with dev := d } ∧ (seOf d b e pt).th = { th with pc := pc } ∧ d.od = s.dev.od ∧
      (∀ b' k, tileAt d b' k = tileAt s.dev b' k) ∧ (∀ b', (berthAt d b').hbm = (berthAt s.dev b').hbm) ∧
      (seOf d b e pt).g.prog = (seOf s.dev b e pt).g.prog ∧ (seOf d b e pt).g.eqs = (seOf s.dev b e pt).g.eqs ∧
      (∀ pt', pt' ≠ pt → Tab.get {} (seOf d b e pt).g.threads pt' = Tab.get {} (seOf s.dev b e pt).g.threads pt') := by
  obtain ⟨hg, hth⟩ := seOf_seCommit s.dev (seOf s.dev b e pt) (seOf s.dev b e pt).g th pc
  obtain ⟨htile, hhbm, -⟩ := seCommit_keeps s.dev (seOf s.dev b e pt) (seOf s.dev b e pt).g th pc
  refine ⟨_, hi.trans (strideCommand_issue hs hh rfl ht ha), hth, rfl, htile, hhbm, ?_, ?_, fun pt' hne => ?_⟩
  · exact (congrArg Engine.prog hg).trans rfl
  · exact (congrArg Engine.eqs hg).trans rfl
  · exact (congrArg (fun g => Tab.get {} (Engine.threads g) pt') hg).trans (Tab.get_set_other _ _ _ hne)

theorem opEndl_eq (d : Device) (x : Se) : opEndl d x = some (seCommit d x x.g { x.th with l := Tab.set x.th.l (sLc x.w) (lcOf x - 1) }
    (if lcOf x = 1 then nextPc x else Tab.get 0 x.th.lstart (sLc x.w))) := by
  have h : lcOf x - 1 = 0 ↔ lcOf x = 1 := sub_eq_zero
  simp only [opEndl, h]

/-- Where no changeover runs, END does nothing but go back to the entry instruction. -/
theorem opEndp_eq {d : Device} {x : Se} (h : (berthAt d x.b).co.active = false) :
    opEndp d x = some (seCommit d x x.g x.th x.th.entry) := by
  have hco := (seCommit_keeps d x x.g x.th x.th.entry).2.2 x.b
  rw [opEndp, pokeSwitch, coOf, hco, h]
  rfl

/-! Semaphores -/

/-- What an instruction that commits the engine `g` leaves of its semaphores, its thread and the objects. -/
theorem sem_done {i : Instr} {op b e pt : Nat} {s : State} {g : Engine} {ready : Device → Se → Bool} {act : Device → Se → Option Device}
    (hi : exec i s = strideCommand op ready act b e pt s) (hs : engineSwitched s.dev b e = false)
    (hh : strideHead op s.dev (seOf s.dev b e pt) = true) (hr : ready s.dev (seOf s.dev b e pt) = true) (ht : threadTurn s.dev b e pt = true)
    (ha : act s.dev (seOf s.dev b e pt) = some (seCommit s.dev (seOf s.dev b e pt) g (seOf s.dev b e pt).th (nextPc (seOf s.dev b e pt)))) :
    ∃ d : Device, exec i s = .next { s with dev := d } ∧ (seOf d b e pt).g.sems = g.sems ∧
      (seOf d b e pt).th = { (seOf s.dev b e pt).th with pc := nextPc (seOf s.dev b e pt) } ∧ d.od = s.dev.od := by
  obtain ⟨hg, hth⟩ := seOf_seCommit s.dev (seOf s.dev b e pt) g (seOf s.dev b e pt).th (nextPc (seOf s.dev b e pt))
  exact ⟨_, hi.trans (strideCommand_issue hs hh hr ht ha), (congrArg Engine.sems hg).trans rfl, hth, rfl⟩

theorem exec_outOfTurn {b : Fin 4} {e : Fin 16} {pt : Fin 4} {s : State} (hs : engineSwitched s.dev b.val e.val = false)
    (ht : threadTurn s.dev b.val e.val pt.val = false) :
    ∀ i ∈ [Instr.seta, .adda, .sets, .nexts, .loop, .endl, .rd, .wr, .pad, .take, .post, .fence, .endp], exec (i b e pt) s = .next s := by
  have h : ∀ op ready act, strideCommand op ready act b.val e.val pt.val s = .next s := fun op ready act => strideCommand_waits hs (.inr ht)
  simp only [List.mem_cons, List.not_mem_nil, or_false]
  rintro i (rfl | rfl | rfl | rfl | rfl | rfl | rfl | rfl | rfl | rfl | rfl | rfl | rfl) <;> exact h _ _ _

theorem exec_wrAcknowledge {b : Fin 4} {e : Fin 16} {s : State} (hl : berthLive s.dev b.val = true) :
    exec (.wrAcknowledge b e) s = .next { s with dev := wrAcknowledge s.dev b.val e.val } := by
  change execWrAcknowledge b e s = _
  rw [execWrAcknowledge, onDev_eq, guarded, if_pos hl]

/-- Settles O24: each instruction issues by its own case of the issue rule. -/
theorem strideControl : Obligations.StrideControl := by
  unfold Obligations.StrideControl
  refine ⟨?_, ?_, ?_⟩
  · intro b e pt s hs
    refine ⟨fun hh ht => ?_, fun hh ht => ?_, fun hh ht => ?_, fun hh ht => ?_, fun hh ht => ?_, fun hh ht => ?_, fun hh ht hc => ?_⟩
    · obtain ⟨d, hd, hth, h⟩ := stride_done (i := .seta b e pt) (act := opSeta) rfl hs hh ht rfl
      refine ⟨d, hd, ?_, h⟩
      rw [hth]
      exact ⟨rfl, Tab.get_set_same _ _ _ _, fun n hn => Tab.get_set_other _ _ _ hn, rfl, rfl⟩
    · obtain ⟨d, hd, hth, h⟩ := stride_done (i := .adda b e pt) (act := opAdda) rfl hs hh ht rfl
      refine ⟨d, hd, ?_, h⟩
      rw [hth]
      exact ⟨rfl, Tab.get_set_same _ _ _ _, fun n hn => Tab.get_set_other _ _ _ hn, rfl, rfl⟩
    · obtain ⟨d, hd, hth, h⟩ := stride_done (i := .sets b e pt) (act := opSets) rfl hs hh ht rfl
      refine ⟨d, hd, ?_, h⟩
      rw [hth]
      exact ⟨rfl, Tab.get_set_same _ _ _ _, fun n hn => Tab.get_set_other _ _ _ hn, rfl, rfl⟩
    · obtain ⟨d, hd, hth, h⟩ := stride_done (i := .nexts b e pt) (act := opNexts) rfl hs hh ht rfl
      refine ⟨d, hd, ?_, h⟩
      rw [hth]
      exact ⟨rfl, rfl, rfl, fun h => if_neg h⟩
    · obtain ⟨d, hd, hth, h⟩ := stride_done (i := .loop b e pt) (act := opLoop) rfl hs hh ht rfl
      refine ⟨d, hd, ?_, h⟩
      rw [hth]
      exact ⟨rfl, rfl, rfl, Tab.get_set_same _ _ _ _, Tab.get_set_same _ _ _ _, fun n hn => Tab.get_set_other _ _ _ hn⟩
    · obtain ⟨d, hd, hth, h⟩ := stride_done (i := .endl b e pt) (act := opEndl) rfl hs hh ht (opEndl_eq _ _)
      refine ⟨d, hd, ?_, h⟩
      rw [hth]
      exact ⟨rfl, rfl, Tab.get_set_same _ _ _ _, rfl⟩
    · obtain ⟨d, hd, hth, h⟩ := stride_done (i := .endp b e pt) (act := opEndp) rfl hs hh ht (opEndp_eq hc)
      refine ⟨d, hd, ?_, h⟩
      rw [hth]
      exact ⟨rfl, rfl, rfl, rfl⟩
  · intro b e pt s hs
    refine ⟨fun hh hn ht => ?_, fun hh hn => ?_, fun hh hw hn ht => ?_, fun hh hw ht => ?_, fun hh hw => ?_, fun i hi ht => exec_outOfTurn hs ht i hi⟩
    · obtain ⟨d, hd, hg, hth, hod⟩ := sem_done (i := .take b e pt) (act := opTake) rfl hs hh (decide_eq_true hn) ht rfl
      exact ⟨d, hd, (congrArg (fun t => Tab.get 0 t _) hg).trans (Tab.get_set_same _ _ _ _), hth, hod⟩
    · exact strideCommand_waits (op := 0x18) (ready := takeReady) (act := opTake) hs (.inl (decide_eq_false (by rw [semOf, semNo, hn]; decide)))
    · obtain ⟨d, hd, hg, hth, hod⟩ := sem_done (i := .post b e pt) (act := opPost) rfl hs hh hw ht rfl
      exact ⟨d, hd, ((congrArg (fun t => Tab.get 0 t _) hg).trans (Tab.get_set_same _ _ _ _)).trans (if_pos hn), hth, hod⟩
    · exact sem_done (i := .fence b e pt) (act := opFence) rfl hs hh hw ht rfl
    · exact strideCommand_waits (op := 0x1A) (ready := writesAcked) (act := opFence) hs (.inl hw)
  · intro b e s hl
    refine ⟨_, exec_wrAcknowledge hl, ?_⟩
    rw [wrAcknowledge, berthAt_modBerth_same]
    exact ⟨rfl, rfl, rfl⟩

end Sys2Proof.Machine
end

section
/-! The transfers of a stride engine (R250 to R253): RD, WR and PAD inside and outside their region. -/

namespace Sys2Proof.Machine

/-! Ends of unit ports -/

/-- Ends and links alone differ. -/
def OnlyEnds (d e : Device) : Prop := ∃ m n, e = { d with links := m, ends := n }

theorem OnlyEnds.refl (d : Device) : OnlyEnds d d := ⟨_, _, rfl⟩

theorem OnlyEnds.trans {d e f : Device} : OnlyEnds d e → OnlyEnds e f → OnlyEnds d f := by
  rintro ⟨_, _, rfl⟩ ⟨_, _, rfl⟩
  exact ⟨_, _, rfl⟩

theorem OnlyLinks.onlyEnds {d e : Device} : OnlyLinks d e → OnlyEnds d e := by
  rintro ⟨_, rfl⟩
  exact ⟨_, _, rfl⟩

theorem OnlyLinks.endAt {d e : Device} (h : OnlyLinks d e) (k : Nat) : endAt e k = endAt d k := by
  obtain ⟨_, rfl⟩ := h
  rfl

theorem OnlyEnds.berthAt {d e : Device} (h : OnlyEnds d e) (b : Nat) : berthAt e b = berthAt d b := by
  obtain ⟨_, _, rfl⟩ := h
  rfl

theorem OnlyEnds.hub {d e : Device} (h : OnlyEnds d e) : e.hub = d.hub := by
  obtain ⟨_, _, rfl⟩ := h
  rfl

theorem OnlyEnds.od {d e : Device} (h : OnlyEnds d e) : e.od = d.od := by
  obtain ⟨_, _, rfl⟩ := h
  rfl

theorem onlyEnds_setEnd (d : Device) (k : Nat) (x : UEnd) : OnlyEnds d (setEnd d k x) := ⟨_, _, rfl⟩

theorem onlyEnds_takeCredits (d : Device) (pk n : Nat) : OnlyEnds d (takeCredits d pk n) := onlyEnds_setEnd _ _ _

theorem endAt_takeCredits (d : Device) (pk n : Nat) :
    endAt (takeCredits d pk n) pk = { endAt d pk with cred := (endAt d pk).cred - n, reserved := (endAt d pk).reserved + n } := by
  rw [takeCredits]
  exact endAt_setEnd_same _ _ _

/-- Tokens that leave against credits taken before: reserved falls and PRODUCED rises by their number. -/
theorem sendTaken_parts (pk : Nat) (ts : List Token) (d : Device) : OnlyEnds d (sendTaken d pk ts) ∧
    endAt (sendTaken d pk ts) pk = { endAt d pk with
      reserved := (endAt d pk).reserved - ts.length, produced := (endAt d pk).produced + BitVec.ofNat 32 ts.length } := by
  induction ts generalizing d with
  | nil => exact ⟨.refl d, by simp [sendTaken]⟩
  | cons t ts ih =>
    have hs := onlyLinks_sendShuttle (setEnd d pk { endAt d pk with reserved := (endAt d pk).reserved - 1, produced := (endAt d pk).produced + 1 })
      { data := t.data, sb := t.sb, src := unitEp d pk, dest := keyEp pk }
    obtain ⟨ho, he⟩ := ih (sendShuttle (setEnd d pk { endAt d pk with reserved := (endAt d pk).reserved - 1, produced := (endAt d pk).produced + 1 })
      { data := t.data, sb := t.sb, src := unitEp d pk, dest := keyEp pk })
    refine ⟨((onlyEnds_setEnd d pk _).trans hs.onlyEnds).trans ho, he.trans ?_⟩
    rw [hs.endAt, endAt_setEnd_same, List.length_cons]
    have h1 : (endAt d pk).reserved - 1 - ts.length = (endAt d pk).reserved - (ts.length + 1) := by omega
    have h2 : (endAt d pk).produced + 1 + BitVec.ofNat 32 ts.length = (endAt d pk).produced + BitVec.ofNat 32 (ts.length + 1) := by
      rw [BitVec.ofNat_add, BitVec.add_assoc, BitVec.add_comm 1]
      rfl
    dsimp only
    rw [h1, h2]

/-- Tokens taken out of a buffer behind the first `skip`: their space and credits go back. -/
theorem consumeBehind_parts {d : Device} {k skip n : Nat} (hn : skip + n ≤ (endAt d k).tokens.length) (h0 : 0 < n) :
    OnlyEnds d (consumeBehind d k skip n) ∧ endAt (consumeBehind d k skip n) k = { endAt d k with
      tokens := (endAt d k).tokens.take skip ++ (endAt d k).tokens.drop (skip + n)
      consumed := inc32 (endAt d k).consumed n
      returned := inc32 (endAt d k).returned n } := by
  have hmin : min n ((endAt d k).tokens.length - skip) = n := Nat.min_eq_left (by omega)
  unfold consumeBehind
  dsimp only
  rw [hmin, if_neg (by omega)]
  have hs := onlyLinks_sendLight (setEnd d k { endAt d k with
      tokens := (endAt d k).tokens.take skip ++ (endAt d k).tokens.drop (skip + n)
      consumed := inc32 (endAt d k).consumed n
      returned := inc32 (endAt d k).returned n }) (unitEpoch d (k / 1280)) (unitEp d k) (keyEp k) n
  exact ⟨(onlyEnds_setEnd d k _).trans hs.onlyEnds, (hs.endAt k).trans (endAt_setEnd_same _ _ _)⟩

/-! What the commit of an instruction shows of the device before it -/

theorem seCommit_shows (d : Device) (x : Se) (g : Engine) (th : Thread) (pc : Nat) : (∀ b, (berthAt (seCommit d x g th pc) b).hbm = (berthAt d b).hbm) ∧
    (∀ k, endAt (seCommit d x g th pc) k = endAt d k) ∧ (seCommit d x g th pc).hub = d.hub :=
  ⟨(seCommit_keeps d x g th pc).2.1, fun _ => rfl, rfl⟩

/-- AR after the instruction. -/
theorem arOf_stepAr (x : Se) (pc : Nat) : arOf { x with th := { stepAr x x.th with pc := pc } } =
    if sInc x.w then arOf x + BitVec.ofNat 32 (sLen x.w) else arOf x := by
  unfold stepAr
  split
  · exact Tab.get_set_same _ _ _ _
  · rfl

theorem sLen_pos (w : BitVec 64) : 0 < sLen w := Nat.succ_pos _

theorem overtakeReads_hbm (d : Device) (x : Se) : (berthAt (overtakeReads d x) x.b).hbm.transfers =
    (berthAt d x.b).hbm.transfers.map (fun t => if t.engine = x.e ∧ t.thread = x.pt then { t with fr := false } else t) := by
  rw [overtakeReads, berthAt_modBerth_same]

theorem onlyEnds_claimTokens (d : Device) (pk n : Nat) : OnlyEnds d (claimTokens d pk n) := onlyEnds_setEnd _ _ _

/-! The transfers and tokens of each case -/

/-- The transfer that RD opens. -/
def readOf (x : Se) : Transfer :=
  { engine := x.e, thread := x.pt, eq := sEq x.w, addr := x.th.base / 32 + (arOf x).toNat, len := sLen x.w, lctl := sLctl x.w }

/-- The thread behind WR. -/
def writerThread (d : Device) (x : Se) : Thread :=
  setFr (stepAr x x.th) ((freshTokens (endAt d (eqKey x))).take (sLen x.w)).getLast?

/-- The transfer that WR opens. -/
def writeOf (d : Device) (x : Se) : Transfer :=
  { engine := x.e, thread := x.pt, eq := sEq x.w, write := true, addr := x.th.base / 32 + (arOf x).toNat, len := sLen x.w,
    tokens := (freshTokens (endAt d (eqKey x))).take (sLen x.w) }

/-- A transfer joins the berth's list. -/
def openTransfer (d : Device) (b : Nat) (t : Transfer) : Device :=
  modBerth d b (fun y => { y with hbm := { y.hbm with transfers := y.hbm.transfers ++ [t] } })

theorem openTransfer_shows (d : Device) (b : Nat) (t : Transfer) : (berthAt (openTransfer d b t) b).hbm.transfers = (berthAt d b).hbm.transfers ++ [t] ∧
    (∀ k, endAt (openTransfer d b t) k = endAt d k) ∧ (openTransfer d b t).hub = d.hub := by
  rw [openTransfer, berthAt_modBerth_same]
  exact ⟨rfl, fun _ => rfl, rfl⟩

theorem strideFault_shows (d : Device) (x : Se) : ∃ r : Report, (strideFault d x).hub.reports = d.hub.reports ++ [r] ∧ r.source = 32 * x.b + 13 ∧
    (∀ b, berthAt (strideFault d x) b = berthAt d b) ∧ ∀ k, endAt (strideFault d x) k = endAt d k :=
  ⟨_, rfl, rfl, fun _ => rfl, fun _ => rfl⟩

section
variable {d : Device} {x : Se}

theorem inRegion_true (h : (arOf x).toNat + sLen x.w ≤ x.th.size) : inRegion x = true := decide_eq_true h

theorem inRegion_false (h : x.th.size < (arOf x).toNat + sLen x.w) : inRegion x = false := decide_eq_false (by omega)

theorem opRd_inside (hl : sLctl x.w ≠ 3) (h : inRegion x = true) : opRd d x =
    some (seCommit (openTransfer (overtakeReads (takeCredits d (eqKey x) (sLen x.w)) x) x.b (readOf x)) x x.g (stepAr x x.th) (nextPc x)) := by
  unfold opRd
  rw [if_neg hl, if_pos h]
  rfl

theorem opRd_outside (hl : sLctl x.w ≠ 3) (h : inRegion x = false) : opRd d x =
    some (seCommit (sendTaken (strideFault (takeCredits d (eqKey x) (sLen x.w)) x) (eqKey x) (boundsTokens x)) x x.g (stepAr x x.th) (nextPc x)) := by
  unfold opRd
  rw [if_neg hl, h]
  rfl

theorem opWr_inside (h : inRegion x = true) : opWr d x =
    some (seCommit (openTransfer (claimTokens (overtakeReads d x) (eqKey x) (sLen x.w)) x.b (writeOf d x)) x x.g (writerThread d x) (nextPc x)) := by
  unfold opWr
  dsimp only
  rw [if_pos h, if_pos h]
  rfl

theorem opWr_outside (h : inRegion x = false) : opWr d x =
    some (seCommit (strideFault (consumeBehind (overtakeReads d x) (eqKey x) (endAt d (eqKey x)).claimed (sLen x.w)) x) x x.g (writerThread d x) (nextPc x)) := by
  unfold opWr
  dsimp only
  rw [h, if_neg Bool.false_ne_true, if_neg Bool.false_ne_true]
  rfl

theorem opPad_inside (hl : sLctl x.w ≠ 3) (h : inRegion x = true) : opPad d x =
    some (seCommit (sendTaken (takeCredits d (eqKey x) (sLen x.w)) (eqKey x) (padTokens x)) x x.g (stepAr x x.th) (nextPc x)) := by
  unfold opPad
  rw [if_neg hl]
  dsimp only
  rw [if_pos h]

theorem opPad_outside (hl : sLctl x.w ≠ 3) (h : inRegion x = false) : opPad d x =
    some (seCommit (sendTaken (strideFault (takeCredits d (eqKey x) (sLen x.w)) x) (eqKey x) (boundsTokens x)) x x.g (stepAr x x.th) (nextPc x)) := by
  unfold opPad
  rw [if_neg hl, h]
  rfl

theorem length_padTokens : (padTokens x).length = sLen x.w := by simp [padTokens]

theorem length_boundsTokens : (boundsTokens x).length = sLen x.w := by simp [boundsTokens]

/-- Tokens out of the region: the fault is reported, and the credits taken for them are spent. -/
theorem boundsSent_parts : ∃ r : Report, (sendTaken (strideFault (takeCredits d (eqKey x) (sLen x.w)) x) (eqKey x) (boundsTokens x)).hub.reports =
      d.hub.reports ++ [r] ∧ r.source = 32 * x.b + 13 ∧
    (∀ b, berthAt (sendTaken (strideFault (takeCredits d (eqKey x) (sLen x.w)) x) (eqKey x) (boundsTokens x)) b = berthAt d b) ∧
    (endAt (sendTaken (strideFault (takeCredits d (eqKey x) (sLen x.w)) x) (eqKey x) (boundsTokens x)) (eqKey x)).cred =
      (endAt d (eqKey x)).cred - sLen x.w ∧
    (endAt (sendTaken (strideFault (takeCredits d (eqKey x) (sLen x.w)) x) (eqKey x) (boundsTokens x)) (eqKey x)).produced =
      (endAt d (eqKey x)).produced + BitVec.ofNat 32 (sLen x.w) := by
  have hc := onlyEnds_takeCredits d (eqKey x) (sLen x.w)
  obtain ⟨r, hr, hsrc, hb, he⟩ := strideFault_shows (takeCredits d (eqKey x) (sLen x.w)) x
  obtain ⟨ho, hend⟩ := sendTaken_parts (eqKey x) (boundsTokens x) (strideFault (takeCredits d (eqKey x) (sLen x.w)) x)
  refine ⟨r, ?_, hsrc, fun b => ?_, ?_, ?_⟩
  · rw [ho.hub, hr, hc.hub]
  · rw [ho.berthAt, hb, hc.berthAt]
  · rw [hend, he, endAt_takeCredits]
  · rw [hend, he, endAt_takeCredits, length_boundsTokens]

end

/-! Settling O25 -/

section
variable {i : Instr} {op b e pt : Nat} {s : State} {ready : Device → Se → Bool} {act : Device → Se → Option Device}

/-- An instruction that issues: the device that its work leaves, and its thread at the next word. -/
theorem transfer_done {d : Device} {th : Thread} (hi : exec i s = strideCommand op ready act b e pt s) (hs : engineSwitched s.dev b e = false)
    (hh : strideHead op s.dev (seOf s.dev b e pt) = true) (hr : ready s.dev (seOf s.dev b e pt) = true) (ht : threadTurn s.dev b e pt = true)
    (ha : act s.dev (seOf s.dev b e pt) = some (seCommit d (seOf s.dev b e pt) (seOf s.dev b e pt).g th (nextPc (seOf s.dev b e pt)))) :
    ∃ y : Device, exec i s = .next { s with dev := y } ∧ (∀ b, (berthAt y b).hbm = (berthAt d b).hbm) ∧ (∀ k, endAt y k = endAt d k) ∧
      y.hub = d.hub ∧ (seOf y b e pt).th = { th with pc := nextPc (seOf s.dev b e pt) } := by
  obtain ⟨hhbm, hend, hhub⟩ := seCommit_shows d (seOf s.dev b e pt) (seOf s.dev b e pt).g th (nextPc (seOf s.dev b e pt))
  exact ⟨_, hi.trans (strideCommand_issue hs hh hr ht ha), hhbm, hend, hhub,
    (seOf_seCommit d (seOf s.dev b e pt) (seOf s.dev b e pt).g th (nextPc (seOf s.dev b e pt))).2⟩

end

/-- The tokens that WR needs stand behind those already claimed. -/
theorem wrReady_tokens {d : Device} {x : Se} (h : wrReady d x = true) :
    (endAt d (eqKey x)).claimed + sLen x.w ≤ (endAt d (eqKey x)).tokens.length := by
  have hlen : sLen x.w ≤ (endAt d (eqKey x)).tokens.length - (endAt d (eqKey x)).claimed := by
    simp only [wrReady, freshTokens, List.length_drop, Bool.and_eq_true, decide_eq_true_eq] at h
    exact h.1.2
  have := sLen_pos x.w
  omega

/-- Settles O25: what RD, WR and PAD do inside and outside their region. -/
theorem strideTransfers : Obligations.StrideTransfers := by
  unfold Obligations.StrideTransfers
  intro b e pt s hs
  refine ⟨fun hh hr ht hl hin => ?_, fun hh hr ht hl hout => ?_, fun hh hr ht hin => ?_, fun hh hr ht hout => ?_, fun hh hr ht hl hin => ?_,
    fun hh hr ht hl hout => ?_, fun hh hr ht hl => ?_, fun hh hr ht hl => ?_⟩
  · obtain ⟨d, hd, hhbm, hend, hhub, hth⟩ := transfer_done (i := .rd b e pt) (act := opRd) rfl hs hh hr ht (opRd_inside hl (inRegion_true hin))
    obtain ⟨htr, he, hu⟩ := openTransfer_shows (overtakeReads (takeCredits s.dev (eqKey (seOf s.dev b e pt)) (sLen (seOf s.dev b e pt).w))
      (seOf s.dev b e pt)) b (readOf (seOf s.dev b e pt))
    refine ⟨d, readOf (seOf s.dev b e pt), hd, ?_, rfl, rfl, rfl, rfl, rfl, rfl, rfl, rfl, ?_, ?_, ?_, hhub.trans hu⟩
    · rw [hhbm]
      refine htr.trans (congrArg (· ++ _) ((overtakeReads_hbm _ _).trans ?_))
      rw [(onlyEnds_takeCredits _ _ _).berthAt]
      rfl
    · rw [hend]
      exact congrArg UEnd.cred ((he _).trans (endAt_takeCredits _ _ _))
    · rw [hth]
      exact arOf_stepAr _ _
    · rw [hth]
  · obtain ⟨d, hd, hhbm, hend, hhub, hth⟩ := transfer_done (i := .rd b e pt) (act := opRd) rfl hs hh hr ht (opRd_outside hl (inRegion_false hout))
    obtain ⟨r, hrep, hsrc, hb, hcred, -⟩ := boundsSent_parts (d := s.dev) (x := seOf s.dev b e pt)
    refine ⟨d, r, hd, ?_, ?_, hsrc, ?_, ?_⟩
    · rw [hhbm, hb]
    · rw [hhub, hrep]
    · rw [hend, hcred]
    · rw [hth]
  · have hop := opWr_inside (d := s.dev) (inRegion_true hin)
    obtain ⟨d, hd, hhbm, hend, hhub, hth⟩ := transfer_done (i := .wr b e pt) (act := opWr) rfl hs hh hr ht hop
    obtain ⟨htr, he, hu⟩ := openTransfer_shows (claimTokens (overtakeReads s.dev (seOf s.dev b e pt)) (eqKey (seOf s.dev b e pt))
      (sLen (seOf s.dev b e pt).w)) b (writeOf s.dev (seOf s.dev b e pt))
    refine ⟨d, writeOf s.dev (seOf s.dev b e pt), hd, ?_, rfl, rfl, rfl, rfl, rfl, rfl, ?_, ?_, hhub.trans hu⟩
    · rw [hhbm]
      refine htr.trans (congrArg (· ++ _) ?_)
      rw [(onlyEnds_claimTokens _ _ _).berthAt]
      exact overtakeReads_hbm _ _
    · rw [hend]
      exact (he _).trans (endAt_setEnd_same _ _ _)
    · rw [hth]
  · have hop := opWr_outside (d := s.dev) (inRegion_false hout)
    obtain ⟨d, hd, hhbm, hend, hhub, hth⟩ := transfer_done (i := .wr b e pt) (act := opWr) rfl hs hh hr ht hop
    obtain ⟨ho, hc⟩ := consumeBehind_parts (d := overtakeReads s.dev (seOf s.dev b e pt)) (k := eqKey (seOf s.dev b e pt))
      (wrReady_tokens (d := s.dev) hr) (sLen_pos _)
    obtain ⟨r, hrep, hsrc, hb, he⟩ := strideFault_shows (consumeBehind (overtakeReads s.dev (seOf s.dev b e pt)) (eqKey (seOf s.dev b e pt))
      (endAt s.dev (eqKey (seOf s.dev b e pt))).claimed (sLen (seOf s.dev b e pt).w)) (seOf s.dev b e pt)
    refine ⟨d, r, hd, ?_, ?_, hsrc, ?_, ?_, ?_⟩
    · rw [hhbm, hb, ho.berthAt]
      exact overtakeReads_hbm _ _
    · rw [hhub, hrep, ho.hub]
      rfl
    · rw [hend, he]
      exact congrArg UEnd.tokens hc
    · rw [hend, he]
      exact congrArg UEnd.consumed hc
    · rw [hth]
  · obtain ⟨d, hd, hhbm, hend, hhub, hth⟩ := transfer_done (i := .pad b e pt) (act := opPad) rfl hs hh hr ht (opPad_inside hl (inRegion_true hin))
    have hc := onlyEnds_takeCredits s.dev (eqKey (seOf s.dev b e pt)) (sLen (seOf s.dev b e pt).w)
    obtain ⟨ho, he⟩ := sendTaken_parts (eqKey (seOf s.dev b e pt)) (padTokens (seOf s.dev b e pt))
      (takeCredits s.dev (eqKey (seOf s.dev b e pt)) (sLen (seOf s.dev b e pt).w))
    rw [endAt_takeCredits, length_padTokens] at he
    refine ⟨d, hd, ?_, ?_, ?_, ?_, ?_, ?_⟩
    · rw [hend, he]
    · rw [hend, he]
      exact Nat.add_sub_cancel _ _
    · rw [hend, he]
    · rw [hhbm, ho.berthAt, hc.berthAt]
    · rw [hth]
    · rw [hhub, ho.hub, hc.hub]
  · obtain ⟨d, hd, hhbm, hend, hhub, hth⟩ := transfer_done (i := .pad b e pt) (act := opPad) rfl hs hh hr ht (opPad_outside hl (inRegion_false hout))
    obtain ⟨r, hrep, hsrc, hb, hcred, hprod⟩ := boundsSent_parts (d := s.dev) (x := seOf s.dev b e pt)
    refine ⟨d, r, hd, ?_, hsrc, ?_, ?_, ?_⟩
    · rw [hhub, hrep]
    · rw [hend, hcred]
    · rw [hend, hprod]
    · rw [hth]
  · exact strideCommand_refused (op := 0x10) hs hh hr ht (if_pos hl)
  · exact strideCommand_refused (op := 0x12) hs hh hr ht (if_pos hl)

end Sys2Proof.Machine
end

section
/-! The pacer, the memory controller and the light path of HBM (R240, R241, R254 to R257). -/

namespace Sys2Proof.Machine

/-! Unit tables: HBM and the objects do not change over with them -/

theorem swapUnits_hbm (d : Device) (b : Nat) : (berthAt (swapUnits d b) b).hbm = (berthAt d b).hbm ∧ (swapUnits d b).od = d.od := by
  unfold swapUnits
  split
  · exact ⟨rfl, rfl⟩
  · refine ⟨?_, rfl⟩
    rw [berthAt_modBerth_same, putTables, berthAt_modBerth_same]
    rfl

/-- Work that does the same to HBM under either tables does it under those of its unit. -/
theorem hbm_onUnits {use : Bool} {d : Device} {b : Nat} {f : Device → Device} {g : Hbm → Hbm}
    (hf : ∀ d, (berthAt (f d) b).hbm = g (berthAt d b).hbm) : (berthAt (onUnits use d b f) b).hbm = g (berthAt d b).hbm := by
  cases use
  · exact hf d
  · exact ((swapUnits_hbm _ b).1.trans (hf _)).trans (congrArg g (swapUnits_hbm d b).1)

theorem od_onUnits {use : Bool} {d : Device} {b : Nat} {f : Device → Device} (hf : ∀ d, (f d).od = d.od) : (onUnits use d b f).od = d.od := by
  cases use
  · exact hf d
  · exact ((swapUnits_hbm _ b).2.trans (hf _)).trans (swapUnits_hbm d b).2

/-- An engine that has not switched works on the tables in force. -/
theorem onEngine_eq {d : Device} {b e : Nat} (f : Device → Device) (h : engineSwitched d b e = false) : onEngine d b e f = f d := by
  rw [onEngine, h]
  rfl

/-! The pacer (R254, R255) -/

theorem paceBest_eq_none {rs : List PaceReq} (h : paceBest rs = none) : rs = [] := by
  cases rs with
  | nil => rfl
  | cons r rs =>
    rw [paceBest] at h
    split at h <;> exact absurd h (by simp)

/-- The pacer's choice is a pending request, and none comes before it. -/
theorem paceBest_least {rs : List PaceReq} {r : PaceReq} (h : paceBest rs = some r) : r ∈ rs ∧ ∀ q ∈ rs, paceBefore q r = false := by
  induction rs generalizing r with
  | nil => cases h
  | cons a rs ih =>
    rw [paceBest] at h
    have hself : paceBefore a a = false := by simp [paceBefore]
    split at h
    next hn =>
      cases h
      rw [paceBest_eq_none hn]
      simpa using hself
    next q hq =>
      obtain ⟨hmem, hleast⟩ := ih hq
      injection h with h
      by_cases hb : paceBefore q a = true
      · rw [if_pos hb] at h
        subst h
        refine ⟨List.mem_cons_of_mem _ hmem, fun p hp => ?_⟩
        obtain rfl | hp := List.mem_cons.mp hp
        · revert hb
          simp only [paceBefore, Bool.or_eq_true, Bool.and_eq_true, decide_eq_true_eq, Bool.or_eq_false_iff, Bool.and_eq_false_iff, decide_eq_false_iff_not]
          omega
        · exact hleast p hp
      · rw [if_neg hb] at h
        subst h
        refine ⟨List.mem_cons_self, fun p hp => ?_⟩
        obtain rfl | hp := List.mem_cons.mp hp
        · exact hself
        · have hpq := hleast p hp
          revert hb hpq
          simp only [paceBefore, Bool.not_eq_true, Bool.or_eq_false_iff, Bool.and_eq_false_iff, decide_eq_false_iff_not]
          omega

/-- Tokens that leave a buffer's front, claimed before. -/
def departed (d : Device) (pk n : Nat) : Device := consumeEnd (setEnd d pk { endAt d pk with claimed := (endAt d pk).claimed - n }) pk n

theorem departed_parts {d : Device} {pk n : Nat} (hn : n ≤ (endAt d pk).tokens.length) : (endAt (departed d pk n) pk).tokens = (endAt d pk).tokens.drop n ∧
    (endAt (departed d pk n) pk).claimed = (endAt d pk).claimed - n ∧ (endAt (departed d pk n) pk).consumed = inc32 (endAt d pk).consumed n := by
  obtain rfl | hpos := Nat.eq_zero_or_pos n
  · have h0 : departed d pk 0 = setEnd d pk { endAt d pk with claimed := (endAt d pk).claimed - 0 } := by
      rw [departed, consumeEnd, consumeBehind, Nat.zero_min]
      exact if_pos rfl
    rw [h0, endAt_setEnd_same, inc32]
    exact ⟨rfl, rfl, (BitVec.add_zero _).symm⟩
  · have hend := endAt_setEnd_same d pk { endAt d pk with claimed := (endAt d pk).claimed - n }
    obtain ⟨-, hc⟩ := consumeBehind_parts (d := setEnd d pk { endAt d pk with claimed := (endAt d pk).claimed - n }) (k := pk) (skip := 0) (n := n)
      (by rw [hend]; exact (Nat.zero_add n).symm ▸ hn) hpos
    rw [departed, consumeEnd, hc, hend]
    refine ⟨?_, rfl, rfl⟩
    rw [List.take_zero, List.nil_append, Nat.zero_add]

theorem consumeBehind_od (d : Device) (k skip n : Nat) : (consumeBehind d k skip n).od = d.od := by
  unfold consumeBehind
  dsimp only
  split
  · rfl
  · exact (onlyLinks_sendLight _ _ _ _ _).od

theorem leaveBuffer_od (d : Device) (b e q : Nat) : (leaveBuffer d b e q).od = d.od := by
  refine od_onUnits (f := fun d => _) fun d => ?_
  dsimp only
  split
  · rfl
  · split
    · exact consumeBehind_od _ _ _ _
    · rfl

theorem leaveBuffer_eq {d : Device} {b e q : Nat} {t : Transfer} (he : engineSwitched d b e = false)
    (ht : nextTransfer (berthAt d b).hbm e q = some t) : leaveBuffer d b e q =
      if t.write then departed d (epKey (Tab.get {} (engineAt (berthAt d b) e).eqs q).peer) t.len else d := by
  rw [leaveBuffer, onEngine_eq _ he, ht]
  rfl

/-- A berth's HBM is put back changed. -/
def putHbm (d : Device) (b : Nat) (h : Hbm) : Device := modBerth d b (fun x => { x with hbm := h })

theorem putHbm_hbm (d : Device) (b : Nat) (h : Hbm) : (berthAt (putHbm d b h) b).hbm = h := by rw [putHbm, berthAt_modBerth_same]

theorem pacerGrant_rated {d : Device} {b : Nat} {r : PaceReq} (hl : (berthAt d b).hbm.lightQ = [] ∨ (berthAt d b).hbm.sinceLight < 15)
    (hr : paceBest (paceReqs d b) = some r) :
    pacerGrant d b = putHbm (leaveBuffer d b (r.unit - 16 * (b % 2)) r.eq) b (admitRated (berthAt d b).hbm b r) := by
  have hlight : (!(berthAt d b).hbm.lightQ.isEmpty && decide (15 ≤ (berthAt d b).hbm.sinceLight)) = false := by
    obtain h | h := hl
    · rw [h]; rfl
    · rw [decide_eq_false (by omega), Bool.and_false]
  unfold pacerGrant
  dsimp only
  rw [hlight, hr]
  rfl

theorem pacerGrant_light {d : Device} {b : Nat} {l : LightReq} {rest : List LightReq} (hq : (berthAt d b).hbm.lightQ = l :: rest)
    (h : 15 ≤ (berthAt d b).hbm.sinceLight ∨ paceReqs d b = []) : pacerGrant d b = putHbm d b (admitLight (berthAt d b).hbm) := by
  unfold pacerGrant
  dsimp only
  rw [hq]
  split
  · rfl
  next hn =>
    obtain h | h := h
    · exact absurd (by simp [h]) hn
    · rw [h]
      rfl

theorem exec_pacerGrant {b : Fin 4} {s : State} (hl : hbmLive s.dev b.val = true) (ha : (berthAt s.dev b.val).hbm.admission.length < 32) :
    exec (.pacerGrant b) s = .next { s with dev := pacerGrant s.dev b.val } := by
  change execPacerGrant b s = _
  rw [execPacerGrant, onDev_eq, guarded, if_pos (by rw [hl, decide_eq_true ha]; rfl)]

/-- Settles O26: the pacer's choice, and what its grant takes. -/
theorem pacerGrantsLeast : Obligations.PacerGrantsLeast := by
  unfold Obligations.PacerGrantsLeast
  refine ⟨fun b s r hl ha hlight hr => ?_, fun b s l rest hl ha hq h => ?_, fun rs r h => paceBest_least h⟩
  · refine ⟨_, exec_pacerGrant hl ha, ?_⟩
    rw [pacerGrant_rated hlight hr, putHbm_hbm]
    refine ⟨rfl, rfl, rfl, rfl, leaveBuffer_od _ _ _ _, fun t he ht => ?_⟩
    rw [leaveBuffer_eq he ht]
    refine ⟨fun hw => ?_, fun hw hn => ?_⟩
    · rw [hw]
      rfl
    · rw [hw, if_pos rfl]
      exact departed_parts hn
  · refine ⟨_, exec_pacerGrant hl ha, ?_⟩
    rw [pacerGrant_light hq h, putHbm_hbm, admitLight, hq]
    exact ⟨rfl, rfl, rfl, rfl⟩

/-! Tokens written to HBM -/

/-- Tokens at rising addresses from the k-th on. -/
def putTokens (h : Hbm) (a k : Nat) (ts : List Token) : Hbm := (ts.zipIdx k).foldl (fun h p => hbmWriteToken h (a + p.2) p.1) h

theorem putTokens_cons (h : Hbm) (a k : Nat) (t : Token) (ts : List Token) :
    putTokens h a k (t :: ts) = putTokens (hbmWriteToken h (a + k) t) a (k + 1) ts := by
  rw [putTokens, List.zipIdx_cons, List.foldl_cons, putTokens]

/-- Tokens written leave the transfers and the admission queue as they were. -/
theorem putTokens_frame (a : Nat) (ts : List Token) (h : Hbm) (k : Nat) :
    (putTokens h a k ts).admission = h.admission ∧ (putTokens h a k ts).transfers = h.transfers := by
  induction ts generalizing h k with
  | nil => exact ⟨rfl, rfl⟩
  | cons t ts ih =>
    rw [putTokens_cons, (ih _ _).1, (ih _ _).2, hbmWriteToken]
    exact ⟨rfl, rfl⟩

theorem memRead_hbmWriteToken {h : Hbm} (a x : Nat) (t : Token) (hm : memWf h.mem = true) (hx : x < 32 * a ∨ 32 * a + 32 ≤ x) :
    memRead (hbmWriteToken h a t).mem x = memRead h.mem x := by
  rw [hbmWriteToken, memWriteNat, memRead_memWriteBytes _ _ _ hm, leBytes_length, if_neg (by omega)]

theorem hbmToken_data_hbmWriteToken {h : Hbm} (a : Nat) (t : Token) (hm : memWf h.mem = true) : (hbmToken (hbmWriteToken h a t) a).data = t.data := by
  rw [hbmToken, hbmWriteToken, memReadNat_memWriteNat _ _ _ hm,
    Nat.mod_eq_of_lt (by rw [show (256 : Nat) ^ 32 = 2 ^ 256 by norm_num]; exact t.data.isLt), BitVec.ofNat_toNat, BitVec.setWidth_eq]

theorem memReadBytes_congr {m n : Mem} {a k : Nat} (h : ∀ x, a ≤ x → x < a + k → memRead m x = memRead n x) : memReadBytes m a k = memReadBytes n a k := by
  induction k generalizing a with
  | zero => rfl
  | succ k ih => rw [memReadBytes, memReadBytes, h a le_rfl (by omega), ih fun x hx hk => h x (by omega) (by omega)]

theorem putTokens_outside (a : Nat) (ts : List Token) (h : Hbm) (k x : Nat) (hm : memWf h.mem = true)
    (hx : x < 32 * (a + k) ∨ 32 * (a + k + ts.length) ≤ x) : memRead (putTokens h a k ts).mem x = memRead h.mem x := by
  induction ts generalizing h k with
  | nil => rfl
  | cons t ts ih =>
    rw [List.length_cons] at hx
    rw [putTokens_cons, ih _ _ (memWf_hbmWriteToken _ _ _ hm) (by omega), memRead_hbmWriteToken _ _ _ hm (by omega)]

/-- Each token stands at its address after all have been written. -/
theorem putTokens_inside (a : Nat) (ts : List Token) (h : Hbm) (k : Nat) (hm : memWf h.mem = true) (i : Nat) (hi : i < ts.length) :
    (hbmToken (putTokens h a k ts) (a + k + i)).data = ts[i].data := by
  induction ts generalizing h k i with
  | nil => cases hi
  | cons t ts ih =>
    rw [putTokens_cons]
    cases i with
    | zero =>
      refine Eq.trans ?_ (hbmToken_data_hbmWriteToken (a + k) t hm)
      refine congrArg (fun l => BitVec.ofNat 256 (leNat l)) (memReadBytes_congr fun x hx hk => ?_)
      exact putTokens_outside a ts _ _ x (memWf_hbmWriteToken _ _ _ hm) (by omega)
    | succ i =>
      rw [List.getElem_cons_succ, ← ih (hbmWriteToken h (a + k) t) (k + 1) (memWf_hbmWriteToken _ _ _ hm) i (by simpa using hi),
        show a + (k + 1) + i = a + k + (i + 1) by omega]

/-! Accesses that complete -/

/-- Reports alone differ. -/
def OnlyHub (d e : Device) : Prop := ∃ h, e = { d with hub := h }

theorem OnlyHub.foldl {α : Type} {f : Device → α → Device} (h : ∀ d a, OnlyHub d (f d a)) (l : List α) (d : Device) : OnlyHub d (l.foldl f d) := by
  induction l generalizing d with
  | nil => exact ⟨_, rfl⟩
  | cons a l ih =>
    obtain ⟨x, hx⟩ := h d a
    obtain ⟨y, hy⟩ := ih (f d a)
    exact ⟨y, by rw [List.foldl_cons, hy, hx]⟩

theorem onlyHub_hbmNote (d : Device) (b a : Nat) : OnlyHub d (hbmNote d b a) := by
  simp only [hbmNote]
  split <;> split <;> exact ⟨_, rfl⟩

theorem OnlyHub.berthAt {d e : Device} (h : OnlyHub d e) (b : Nat) : berthAt e b = berthAt d b := by
  obtain ⟨_, rfl⟩ := h
  rfl

theorem OnlyHub.endAt {d e : Device} (h : OnlyHub d e) (k : Nat) : endAt e k = endAt d k := by
  obtain ⟨_, rfl⟩ := h
  rfl

theorem onlyHub_hbmRangeNote (d : Device) (b a n : Nat) : OnlyHub d (hbmRangeNote d b a n) :=
  OnlyHub.foldl (α := Nat × HbmErr) (f := fun d e => hbmNote d b e.1) (fun d e => onlyHub_hbmNote d b e.1) _ d

/-- The access in front leaves the admission queue. -/
def admissionPopped (d : Device) (b : Nat) (rest : List Access) : Device :=
  modBerth d b (fun y => { y with hbm := { y.hbm with admission := rest } })

theorem berthAt_admissionPopped (d : Device) (b : Nat) (rest : List Access) :
    berthAt (admissionPopped d b rest) b = { berthAt d b with hbm := { (berthAt d b).hbm with admission := rest } } := by
  rw [admissionPopped, berthAt_modBerth_same]

section
variable {d : Device} {b e q : Nat} {rest : List Access} {t : Transfer}

theorem hbmComplete_transfer (ha : (berthAt d b).hbm.admission = .transfer e q :: rest)
    (ht : (berthAt d b).hbm.transfers.find? (fun t => decide (t.engine = e) && decide (t.eq = q) && t.admitted && !t.done) = some t) :
    hbmComplete d b = if t.write then finishWrite (admissionPopped d b rest) b t else finishRead (admissionPopped d b rest) b t := by
  unfold hbmComplete
  dsimp only
  rw [ha]
  dsimp only
  rw [ht]
  rfl

theorem hbmComplete_light {r : LightReq} (ha : (berthAt d b).hbm.admission = .light r :: rest) :
    hbmComplete d b = finishLight (admissionPopped d b rest) b r := by
  unfold hbmComplete
  dsimp only
  rw [ha]
  rfl

end

theorem berthAt_finishWrite (d : Device) (b : Nat) (t : Transfer) : berthAt (finishWrite d b t) b = { berthAt d b with
    hbm := { putTokens (berthAt d b).hbm t.addr 0 t.tokens with
      transfers := (putTokens (berthAt d b).hbm t.addr 0 t.tokens).transfers.replace t { t with done := true, tokens := [] } } } := by
  rw [finishWrite, berthAt_modBerth_same]
  rfl

theorem hbm_modFr (d : Device) (b e pt : Nat) (t : Option Token) : (berthAt (modFr d b e pt t) b).hbm = (berthAt d b).hbm := by
  rw [modFr, berthAt_modBerth_same]

/-- The reports of a read's tokens. -/
def readNoted (d : Device) (b : Nat) (t : Transfer) : Device := (List.range t.len).foldl (fun d k => hbmNote d b (t.addr + k)) d

theorem onlyHub_readNoted (d : Device) (b : Nat) (t : Transfer) : OnlyHub d (readNoted d b t) :=
  OnlyHub.foldl (f := fun d k => hbmNote d b (t.addr + k)) (fun d k => onlyHub_hbmNote d b (t.addr + k)) _ d

/-- The device when a read's tokens leave: the transfer has ended, and FR is set where the read still sets it. -/
def readEnded (d : Device) (b : Nat) (t : Transfer) (toks : List Token) : Device :=
  let d := modBerth (readNoted d b t) b (fun y => { y with hbm := { y.hbm with transfers := y.hbm.transfers.erase t } })
  if t.fr then modFr d b t.engine t.thread toks.getLast? else d

theorem readEnded_parts (d : Device) (b : Nat) (t : Transfer) (toks : List Token) :
    (berthAt (readEnded d b t toks) b).hbm = { (berthAt d b).hbm with transfers := (berthAt d b).hbm.transfers.erase t } ∧
      ∀ k, endAt (readEnded d b t toks) k = endAt d k := by
  have hn := onlyHub_readNoted d b t
  have hb : (berthAt (modBerth (readNoted d b t) b (fun y => { y with hbm := { y.hbm with transfers := y.hbm.transfers.erase t } })) b).hbm =
      { (berthAt d b).hbm with transfers := (berthAt d b).hbm.transfers.erase t } := by
    rw [berthAt_modBerth_same, hn.berthAt]
  unfold readEnded
  dsimp only
  cases t.fr
  · exact ⟨hb, hn.endAt⟩
  · exact ⟨(hbm_modFr _ _ _ _ _).trans hb, hn.endAt⟩

/-- A read under the tables of its engine. -/
def readWork (b : Nat) (t : Transfer) (d : Device) : Device :=
  let toks := (List.range t.len).map (rdToken d b t)
  let q := Tab.get {} (engineAt (berthAt (modBerth (readNoted d b t) b
    (fun y => { y with hbm := { y.hbm with transfers := y.hbm.transfers.erase t } })) b) t.engine).eqs t.eq
  sendTaken (readEnded d b t toks) (epKey q.peer) toks

theorem readWork_eq (b : Nat) (t : Transfer) (d : Device) : readWork b t d =
    sendTaken (readEnded d b t ((List.range t.len).map (rdToken d b t))) (epKey (Tab.get {} (engineAt (berthAt d b) t.engine).eqs t.eq).peer)
      ((List.range t.len).map (rdToken d b t)) := by
  unfold readWork
  dsimp only
  rw [berthAt_modBerth_same, (onlyHub_readNoted d b t).berthAt]
  rfl

theorem finishRead_eq (d : Device) (b : Nat) (t : Transfer) : finishRead d b t = onEngine d b t.engine (readWork b t) := rfl

theorem readWork_parts (b : Nat) (t : Transfer) (d : Device) :
    (berthAt (readWork b t d) b).hbm = { (berthAt d b).hbm with transfers := (berthAt d b).hbm.transfers.erase t } ∧
      (endAt (readWork b t d) (epKey (Tab.get {} (engineAt (berthAt d b) t.engine).eqs t.eq).peer)).produced =
        (endAt d (epKey (Tab.get {} (engineAt (berthAt d b) t.engine).eqs t.eq).peer)).produced + BitVec.ofNat 32 t.len := by
  rw [readWork_eq]
  obtain ⟨hb, he⟩ := readEnded_parts d b t ((List.range t.len).map (rdToken d b t))
  obtain ⟨ho, hs⟩ := sendTaken_parts (epKey (Tab.get {} (engineAt (berthAt d b) t.engine).eqs t.eq).peer) ((List.range t.len).map (rdToken d b t))
    (readEnded d b t ((List.range t.len).map (rdToken d b t)))
  refine ⟨?_, ?_⟩
  · rw [ho.berthAt, hb]
  · rw [hs, he, List.length_map, List.length_range]

theorem hbm_finishRead (d : Device) (b : Nat) (t : Transfer) :
    (berthAt (finishRead d b t) b).hbm = { (berthAt d b).hbm with transfers := (berthAt d b).hbm.transfers.erase t } := by
  rw [finishRead_eq, onEngine]
  exact hbm_onUnits (g := fun h => { h with transfers := h.transfers.erase t }) fun d => (readWork_parts b t d).1

/-! The light path (R257) -/

theorem onlyLinks_sendLightBytes (d : Device) (src dest : BitVec 14) (bs : List Byte) : OnlyLinks d (sendLightBytes d src dest bs) := by
  rw [sendLightBytes]
  generalize lightFlits src dest bs = fs
  induction fs generalizing d with
  | nil => exact .refl d
  | cons f fs ih => exact (onlyLinks_sendShuttle d f).trans (ih _)

theorem sliceBytes_whole {bs : List Byte} {n : Nat} (h : bs.length = n) : sliceBytes bs 0 n = bs := by
  subst h
  simp [sliceBytes]

/-- What a light write leaves in HBM. -/
theorem finishLight_write {d : Device} {b : Nat} {r : LightReq} (hw : r.write = true) :
    (berthAt (finishLight d b r) b).hbm = { hbmWriteBytes (berthAt d b).hbm r.addr (sliceBytes r.data 0 r.len) with
      lightOut := (berthAt d b).hbm.lightOut ++ [(r.src, [])] } := by
  rw [finishLight, if_pos hw, berthAt_modBerth_same, (onlyHub_hbmRangeNote d b r.addr r.len).berthAt]
  rfl

/-- The bytes that a light read answers. -/
def lightAnswer (d : Device) (b : Nat) (r : LightReq) : List Byte :=
  (List.range r.len).map (fun i => lightByte (hbmRangeNote d b r.addr r.len) b (r.addr + i))

theorem finishLight_read {d : Device} {b : Nat} {r : LightReq} (hw : r.write = false) :
    (berthAt (finishLight d b r) b).hbm = { (berthAt d b).hbm with lightOut := (berthAt d b).hbm.lightOut ++ [(r.src, lightAnswer d b r)] } := by
  rw [finishLight, if_neg (by rw [hw]; exact Bool.false_ne_true), berthAt, (onlyLinks_sendLightBytes _ _ _ _).berths, ← berthAt, berthAt_modBerth_same,
    (onlyHub_hbmRangeNote d b r.addr r.len).berthAt]
  rfl

theorem unlaidByte_hub (d : Device) (x : Hub) (b a : Nat) : unlaidByte { d with hub := x } b a = unlaidByte d b a := rfl

/-- A byte with a layout is answered as it is stored. -/
theorem getD_lightAnswer {d : Device} {b : Nat} {r : LightReq} {i : Nat} (hi : i < r.len) (hlaid : unlaidByte d b (r.addr + i) = false) :
    (lightAnswer d b r).getD i 0 = memRead (berthAt d b).hbm.mem (r.addr + i) := by
  have hby : (lightAnswer d b r).getD i 0 = lightByte (hbmRangeNote d b r.addr r.len) b (r.addr + i) := by
    simp [lightAnswer, List.getD_eq_getElem?_getD, hi]
  obtain ⟨x, hx⟩ := onlyHub_hbmRangeNote d b r.addr r.len
  rw [hby, hx, lightByte, unlaidByte_hub, hlaid]
  rfl

/-! Settling O27 -/

theorem exec_hbmAccessComplete {b : Fin 4} {s : State} (hl : hbmLive s.dev b.val = true) :
    exec (.hbmAccessComplete b) s = .next { s with dev := hbmComplete s.dev b.val } := by
  change execHbmAccessComplete b s = _
  rw [execHbmAccessComplete, onDev_eq, guarded, if_pos hl]

section
variable {b : Fin 4} {r : LightReq} {s : State}

/-- A light request joins the berth's queue. -/
def lightQueued (d : Device) (b : Nat) (r : LightReq) : Device :=
  modBerth d b (fun x => { x with hbm := { x.hbm with lightQ := x.hbm.lightQ ++ [r] } })

theorem exec_lightRequest_good (h : r.addr < 12884901888)
    (hok : (lightLegal r && reachesHbm b.val (BitVec.ofNat 14 r.src) && s.dev.power.fabric) = true) :
    exec (.lightRequest b r) s = .next { s with dev := lightQueued s.dev b.val r } := by
  change execLightRequest b r s = _
  rw [execLightRequest, if_neg (by omega), onDev_eq, guarded, if_pos hok]
  rfl

theorem exec_lightRequest_bad (h : r.addr < 12884901888)
    (hok : (lightLegal r && reachesHbm b.val (BitVec.ofNat 14 r.src) && s.dev.power.fabric) = false) : exec (.lightRequest b r) s = .next s := by
  change execLightRequest b r s = _
  rw [execLightRequest, if_neg (by omega), onDev_eq, guarded, if_neg (by rw [hok]; exact Bool.false_ne_true)]

end

/-- Settles O27: what each access leaves in HBM and which light requests are admitted. -/
theorem hbmAccesses : Obligations.HbmAccesses := by
  unfold Obligations.HbmAccesses
  refine ⟨fun b s e q rest t hl hm ha ht hw => ?_, fun b s e q rest t hl ha ht hw => ?_, fun b s r rest hl hm ha => ?_,
    fun b r s hr h1 h64 hblock hp hreach => ?_, fun b r s hr hreach => ?_, fun b r s hr => ?_⟩
  · refine ⟨_, exec_hbmAccessComplete hl, ?_⟩
    obtain ⟨hadm, htr⟩ := putTokens_frame t.addr t.tokens { (berthAt s.dev b.val).hbm with admission := rest } 0
    rw [hbmComplete_transfer ha ht, if_pos hw, berthAt_finishWrite, berthAt_admissionPopped]
    refine ⟨hadm, fun i hi => ?_, fun a hx => ?_, ?_, rfl⟩
    · exact putTokens_inside t.addr t.tokens { (berthAt s.dev b.val).hbm with admission := rest } 0 hm i hi
    · exact putTokens_outside t.addr t.tokens { (berthAt s.dev b.val).hbm with admission := rest } 0 a hm hx
    · exact congrArg (fun l => List.replace l t { t with done := true, tokens := [] }) htr
  · refine ⟨_, exec_hbmAccessComplete hl, ?_⟩
    rw [hbmComplete_transfer ha ht, if_neg (by rw [hw]; exact Bool.false_ne_true), hbm_finishRead, berthAt_admissionPopped]
    refine ⟨rfl, rfl, rfl, fun he => ?_⟩
    have he' : engineSwitched (admissionPopped s.dev b.val rest) b.val t.engine = false := by
      rw [engineSwitched, actsIncoming, berthAt_admissionPopped]
      exact he
    have hp := (readWork_parts b.val t (admissionPopped s.dev b.val rest)).2
    rw [berthAt_admissionPopped] at hp
    rw [finishRead_eq, onEngine_eq _ he']
    exact hp
  · refine ⟨_, exec_hbmAccessComplete hl, ?_⟩
    rw [hbmComplete_light ha]
    cases hw : r.write
    · rw [finishLight_read hw, berthAt_admissionPopped]
      refine ⟨rfl, rfl, fun _ => ⟨rfl, lightAnswer (admissionPopped s.dev b.val rest) b.val r, rfl, by simp [lightAnswer], fun i hi hlaid => ?_⟩, fun h => absurd h (by simp)⟩
      rw [getD_lightAnswer (d := admissionPopped s.dev b.val rest) hi hlaid, berthAt_admissionPopped]
    · rw [finishLight_write hw, berthAt_admissionPopped]
      refine ⟨rfl, rfl, fun h => absurd h (by simp), fun _ hlen => ⟨rfl, ?_, fun a hx => ?_⟩⟩
      · rw [sliceBytes_whole hlen, ← hlen]
        exact memReadBytes_memWriteBytes _ _ hm
      · rw [sliceBytes_whole hlen]
        exact (memRead_memWriteBytes _ _ _ hm).trans (if_neg (by omega))
  · refine ⟨_, exec_lightRequest_good hr (by simp [lightLegal, h1, h64, hblock, hp, hreach]), ?_⟩
    rw [lightQueued, berthAt_modBerth_same]
    exact ⟨rfl, rfl, rfl⟩
  · exact exec_lightRequest_bad hr (by rw [hreach, Bool.and_false, Bool.false_and])
  · change execLightRequest b r s = _
    exact if_pos hr

end Sys2Proof.Machine
end

section
/-! The conservation ledger (R231 to R235): the tick, the check, and the ring equation that arrivals and pops keep. -/

namespace Sys2Proof.Machine

/-! The tick -/

/-- What a tick latches. -/
def tickLatch (d : Device) : Latch :=
  { time := d.time
    loops := (loadedBerths d).flatMap (fun b => tileLoops d b ++ portLoops d b ++ semLatch d b)
    rings := ringLatches d }

theorem exec_ledgerTick {s : State} (hf : s.dev.power.fabric = true) (hm : mstate s.dev = 0) :
    exec .ledgerTick s = .next { s with dev := ledgerTick s.dev } := by
  change execLedgerTick s = _
  rw [execLedgerTick, onDev_eq, guarded, if_pos (by rw [hf, hm]; rfl)]

/-! The check -/

theorem exec_ledgerCheck (s : State) : exec .ledgerCheck s = .next { s with dev := ledgerCheck s.dev } := rfl

theorem ledgerCheck_eq {d : Device} {x : Latch} (h : d.hub.latch = some x) : ledgerCheck d =
    (let e := x.rings.foldl (checkRing x.time) (x.loops.foldl (checkLoop x.time) d)
     { e with hub := { e.hub with latch := none } }) := by
  rw [ledgerCheck, h]

theorem checkLoop_balanced {time : Nat} {d : Device} {l : LoopLatch}
    (h : (l.linked = false → loopHolds l = true) ∧ (l.linked = true → semHolds l = true)) : checkLoop time d l = d := by
  obtain ⟨hloop, hsem⟩ := h
  rw [checkLoop]
  cases hl : l.linked
  · simp [hloop hl]
  · simp [hsem hl]

theorem checkRing_balanced {time : Nat} {d : Device} {r : RingLatch} (h : ringHolds r = true) : checkRing time d r = d := if_pos h

theorem foldl_unchanged {α β : Type} {f : β → α → β} {l : List α} {d : β} (h : ∀ a ∈ l, f d a = d) : l.foldl f d = d := by
  induction l with
  | nil => rfl
  | cons a l ih =>
    rw [List.foldl_cons, h a List.mem_cons_self]
    exact ih fun x hx => h x (List.mem_cons_of_mem _ hx)

/-- The record of an imbalance found in a loop. -/
def loopReport (time : Nat) (l : LoopLatch) : Report :=
  { source := 32 * l.berth + 18, time := time, blame := l.blame, reporter := l.blame, info := BitVec.ofNat 32 l.qid, counters := some (.loop l) }

/-- A first imbalance of a loop is noted and reported. -/
theorem checkLoop_first {time : Nat} {d : Device} {l : LoopLatch} (hl : l.linked = false) (hb : loopHolds l = false)
    (hnew : (32 * l.berth + 18, l.qid) ∉ d.hub.imbalanced) : checkLoop time d l = { d with hub := { d.hub with
      imbalanced := d.hub.imbalanced ++ [(32 * l.berth + 18, l.qid)], reports := d.hub.reports ++ [loopReport time l] } } := by
  have hc : d.hub.imbalanced.contains (32 * l.berth + 18, l.qid) = false := by simpa using hnew
  rw [checkLoop, hl, hb, if_neg (by simp), imbalance, hc, Bool.false_and, if_neg Bool.false_ne_true, if_neg Bool.false_ne_true]
  rfl

/-! The tiles of a berth under other unit tables -/

theorem swapUnits_tiles (d : Device) (b c : Nat) : (berthAt (swapUnits d b) c).tiles = (berthAt d c).tiles := by
  unfold swapUnits
  split
  · rfl
  next u hu =>
    by_cases hc : c = b
    · subst hc
      rw [berthAt_modBerth_same, putTables, berthAt_modBerth_same]
      rfl
    · rw [berthAt_modBerth_other _ _ hc, putTables, berthAt_modBerth_other _ _ hc]
      rfl

/-- Work that leaves a berth's tiles as they are leaves them under either tables. -/
theorem tiles_onUnits {use : Bool} {d : Device} {b c : Nat} {f : Device → Device} (hf : ∀ d, (berthAt (f d) c).tiles = (berthAt d c).tiles) :
    (berthAt (onUnits use d b f) c).tiles = (berthAt d c).tiles := by
  cases use
  · exact hf d
  · exact ((swapUnits_tiles _ b c).trans (hf _)).trans (swapUnits_tiles d b c)

/-! Arrivals -/

/-- A ring behind one more token. -/
def ringAfterToken (q : InQueue) : InQueue := { q with occ := q.occ + 1, received := q.received + 1 }

theorem iqAt_ringPlane (p : Plane) (iq : Nat) (tok : Token) : iqAt (ringPlane p iq tok) iq = ringAfterToken (iqAt p iq) := by
  rw [ringPlane]
  exact iqAt_setIq_same p iq _

theorem berthAt_reports {α : Type} (f : α → Device → Device) (hf : ∀ a d b, berthAt (f a d) b = berthAt d b) (l : List α) (d : Device) (b : Nat) :
    berthAt (l.foldl (fun d a => f a d) d) b = berthAt d b := by
  induction l generalizing d with
  | nil => rfl
  | cons a l ih => rw [List.foldl_cons, ih, hf]

/-- What a token's arrival leaves of its tile. -/
theorem tileAt_arriveToken (d : Device) (b key k iq : Nat) (tok : Token) : tileAt (arriveToken d b key k iq tok) b key =
    setPlane (portBWrite (tileAt d b key) (slotAddr (iqAt (planeAt (tileAt d b key) k) iq)
        (((iqAt (planeAt (tileAt d b key) k) iq).head + (iqAt (planeAt (tileAt d b key) k) iq).occ) %
          ringSize (iqAt (planeAt (tileAt d b key) k) iq))) tok.data).1 k
      (restartWaits (berthAt (noteRinged d b key k iq) b).cto (planeAt (tileAt d b key) k) (ringPlane (planeAt (tileAt d b key) k) iq tok)) := by
  rw [arriveToken]
  rw [tileAt, berthAt_reports (fun g d => berthReport d b 3 (physTag d b key) (physTag d b key) (8 * g)) fun _ _ _ => rfl,
    berthAt_modBerth_same]
  exact tileAt_setTile_same _ _ _ _

theorem iqAt_arriveToken (d : Device) (b key k iq : Nat) (tok : Token) :
    iqAt (planeAt (tileAt (arriveToken d b key k iq tok) b key) k) iq = ringAfterToken (iqAt (planeAt (tileAt d b key) k) iq) := by
  rw [tileAt_arriveToken, planeAt_setPlane_same]
  exact iqAt_ringPlane _ _ tok

/-! Pops -/

/-- A ring whose first n tokens have been popped. -/
def ringAfterPop (q : InQueue) (n : Nat) : InQueue := { q with
  head := (q.head + n) % ringSize q, occ := q.occ - n, reserved := q.reserved - n, consumed := inc32 q.consumed n, returned := inc32 q.returned n }

theorem iqs_creditTile (k : Nat) (dest : BitVec 14) (n : Nat) (t : Tile) (j : Nat) : (planeAt (creditTile k dest n t) j).iq = (planeAt t j).iq := by
  unfold creditTile
  dsimp only
  split
  · by_cases hj : j = k
    · subst hj
      rw [planeAt_setPlane_same]
    · rw [planeAt_setPlane_other _ _ hj]
  · rfl

/-- Credits that go back to the producer leave every ring of the berth as it was. -/
theorem iqs_creditBack (d : Device) (b key k iq n m j : Nat) :
    (planeAt (tileAt (creditBack d b key k iq n) b m) j).iq = (planeAt (tileAt d b m) j).iq := by
  unfold creditBack
  dsimp only
  split
  · rfl
  · split
    · rw [tileAt, berthAt_modBerth_same]
      have h := Tab.get_map (creditTile k (tileDest (key / 32) (logicalRow d b key) iq) n) {} (berthAt d b).tiles m
      exact (congrArg (fun t => (planeAt t j).iq) h).trans (iqs_creditTile _ _ _ _ _)
    · refine congrArg (fun m' => (planeAt (Tab.get {} m' m) j).iq) (tiles_onUnits (f := fun d => _) fun d => ?_)
      split
      · rfl
      · split <;> rfl

theorem iqAt_popRing (d : Device) (b key k iq : Nat) {n : Nat} (hn : n ≠ 0) :
    iqAt (planeAt (tileAt (popRing d b key k iq n) b key) k) iq = ringAfterPop (iqAt (planeAt (tileAt d b key) k) iq) n := by
  unfold popRing
  rw [if_neg hn]
  dsimp only
  rw [iqAt, iqs_creditBack, tileAt_modTile_same, planeAt_setPlane_same]
  exact iqAt_setIq_same _ _ _

/-! The ring equation (R233 A and C) -/

/-- INIT + RECEIVED = CONSUMED + DISCC + OCC, and RETURNED = CONSUMED + DISCC. -/
def RingBalanced (q : InQueue) : Prop :=
  BitVec.ofNat 32 q.init + q.received = q.consumed + q.discc + BitVec.ofNat 32 q.occ ∧ q.returned = q.consumed + q.discc

theorem ringBalanced_afterToken {q : InQueue} (h : RingBalanced q) : RingBalanced (ringAfterToken q) := by
  obtain ⟨ha, hc⟩ := h
  refine ⟨?_, hc⟩
  change BitVec.ofNat 32 q.init + (q.received + 1) = q.consumed + q.discc + BitVec.ofNat 32 (q.occ + 1)
  rw [← BitVec.add_assoc, ha, BitVec.ofNat_add, ← BitVec.add_assoc]
  rfl

theorem ringBalanced_afterPop {q : InQueue} {n : Nat} (hn : n ≤ q.occ) (h : RingBalanced q) : RingBalanced (ringAfterPop q n) := by
  obtain ⟨ha, hc⟩ := h
  have hocc : BitVec.ofNat 32 q.occ = BitVec.ofNat 32 n + BitVec.ofNat 32 (q.occ - n) := by
    rw [← BitVec.ofNat_add, Nat.add_sub_cancel' hn]
  refine ⟨?_, ?_⟩
  · change BitVec.ofNat 32 q.init + q.received = q.consumed + BitVec.ofNat 32 n + q.discc + BitVec.ofNat 32 (q.occ - n)
    rw [ha, hocc]
    ac_rfl
  · change q.returned + BitVec.ofNat 32 n = q.consumed + BitVec.ofNat 32 n + q.discc
    rw [hc]
    ac_rfl

/-- Settles O22: what tick and check do, and the equation of a ring through arrivals and pops. -/
theorem ledgerBalances : Obligations.LedgerBalances := by
  unfold Obligations.LedgerBalances
  refine ⟨⟨fun s hf hm hl => ?_, fun s x hl hloops hrings => ?_, fun s x l hx hl hr hlink hb hnew => ?_⟩, fun d b key k iq => ?_⟩
  · refine ⟨ledgerTick s.dev, tickLatch s.dev, exec_ledgerTick hf hm, ?_⟩
    rw [ledgerTick, hl]
    exact ⟨rfl, rfl, rfl, rfl, rfl, rfl, rfl⟩
  · rw [exec_ledgerCheck, ledgerCheck_eq hl, foldl_unchanged fun l h => checkLoop_balanced (hloops l h),
      foldl_unchanged fun r h => checkRing_balanced (hrings r h)]
  · refine ⟨_, loopReport x.time l, exec_ledgerCheck s, ?_⟩
    rw [ledgerCheck_eq hx, hl, hr, List.foldl_nil, List.foldl_cons, List.foldl_nil, checkLoop_first hlink hb hnew]
    exact ⟨rfl, rfl, rfl, rfl, rfl, rfl, rfl, rfl, rfl, rfl⟩
  · intro bal h
    refine ⟨fun tok => ?_, fun n hn => ?_⟩
    · rw [iqAt_arriveToken]
      exact ringBalanced_afterToken h
    · obtain rfl | h0 := Nat.eq_zero_or_pos n
      · exact h
      · rw [iqAt_popRing _ _ _ _ _ (by omega)]
        exact ringBalanced_afterPop hn h

end Sys2Proof.Machine
end

section
/-! The timeout of a hurdle (R215) in a berth that HALT has stopped: it does not run, so it reports nothing. -/

namespace Sys2Proof.Machine

/-- Berth 0 has been HALTED while a pipeline hurdle of it waits, for longer than any timeout of object 0x8010:08. -/
def haltedWaitState : State :=
  { State.reset with dev := { State.reset.dev with
      time := 2 ^ 63
      berths := [(0, { haltDone := true, hurdles := [(0, { started := true })] })] } }

/-- A halted berth's hurdles do not time out. -/
theorem exec_hurdleTimeout_halted {b : Fin 4} {scope : Scope} {hid : Fin 256} {s : State} (h : (berthAt s.dev b.val).haltDone = true) :
    exec (.hurdleTimeout b scope hid) s = .next s := by
  change execHurdleTimeout b scope hid s = _
  rw [execHurdleTimeout, onDev_eq, guarded, if_neg (by simp [h])]

/-- Refutes O17: the hurdle of a HALTED berth is past its timeout, and nothing is reported. -/
theorem not_marksCreditsHurdles : ¬ Obligations.MarksCreditsHurdles := by
  unfold Obligations.MarksCreditsHurdles
  rintro ⟨-, -, -, -, h⟩
  obtain ⟨d, r, hd, hreports, -⟩ := h 0 .pipeline 0 haltedWaitState (by decide +kernel) (by decide +kernel) (by decide +kernel)
  rw [exec_hurdleTimeout_halted (by decide +kernel)] at hd
  injection hd with hd
  have hsame : haltedWaitState.dev = d := congrArg State.dev hd
  rw [← hsame] at hreports
  exact absurd (congrArg List.length hreports) (by rw [List.length_append]; simp)

end Sys2Proof.Machine
end

section
/-! Ethernet frames, the reorder window and anchors of a stream, and its enabling and disabling (R342 to R349, R359, R361, R362). -/

namespace Sys2Proof.Machine

/-! Objects of a stream -/

theorem streamAt_odAdd (d : Device) (i s k n : Nat) : streamAt (odAdd d i s k) n = streamAt d n := rfl

theorem odAdd_time (d : Device) (i s k : Nat) : (odAdd d i s k).time = d.time := rfl

theorem odKind_stream {n : Nat} (hn : n < 1024) : odKind (0x2400 + n) = some .stream := by
  unfold odKind
  repeat rw [if_neg (by omega)]
  rw [if_pos (by omega)]

theorem size_streamRow {n : Nat} (hn : n < 1024) (s : Nat) :
    ((odInfo (0x2400 + n) s).map (·.size)).getD 0 = ((odRow .stream s).map (·.size)).getD 0 := by
  simp only [odInfo, odKind_stream hn, Option.bind_some]

theorem odGet_streamRow_put {n s v k : Nat} (d : Device) (hn : n < 1024) (hs : ((odRow .stream s).map (·.size)).getD 0 = k) (hv : v < 256 ^ k) :
    odGet (odPut d (0x2400 + n) s v) (0x2400 + n) s = v := by
  rw [odGet_odPut_same, size_streamRow hn, hs]
  exact Nat.mod_eq_of_lt hv

/-- A counter of the same stream leaves the stream's other objects as they were. -/
theorem strm_odAdd_other (d : Device) {n s t : Nat} (k : Nat) (h : s ≠ t) : strm (odAdd d (0x2400 + n) t k) n s = strm d n s :=
  odGet_odAdd_other _ _ (by omega)

/-! Frames (R342 to R345) -/

theorem exec_ethFrameReceive {c : Fin 2} {f : EthFrame} {s : State} (h : portUp s.dev c.val = true) :
    exec (.ethFrameReceive c f) s = .next { s with dev := receiveFrame s.dev c.val f } := by
  change execEthFrameReceive c f s = _
  rw [execEthFrameReceive, onDev_eq, guarded, if_pos h]

section
variable {d : Device} {c : Nat} {f : EthFrame}

theorem receiveFrame_bad (h : 9216 < f.len ∨ f.fcsOk = false ∨ 1 < f.tags.length ∨ f.ethernetII = false) :
    receiveFrame d c f = odAdd (odAdd d (0x2000 + c) 6 1) (0x2000 + c) 8 1 := by
  rw [receiveFrame]
  refine if_pos ?_
  obtain h | h | h | h := h <;> simp [h]

/-- A frame of the right shape goes on to its protocol. -/
theorem goodFrame (hl : f.len ≤ 9216) (hf : f.fcsOk = true) (ht : f.tags.length ≤ 1) (he : f.ethernetII = true) :
    ¬ (9216 < f.len || !f.fcsOk || decide (1 < f.tags.length) || !f.ethernetII) = true := by
  simp only [hf, he, Bool.not_true, Bool.or_false, Bool.or_eq_true, decide_eq_true_eq]
  omega

end

theorem takeDatagram_matched {d : Device} {c src dst dport : Nat} {tags : List Nat} {body : List Byte} {r : Rtp} {p : Nat × Stream}
    (h : (d.streams.filter (fun p => p.2.active && decide (strm d p.1 3 ≠ 2) && streamMatches d c p.1 tags src dst)).find?
      (fun p => decide (strm d p.1 0x0A = dport) && (decide (strm d p.1 0x0D / 2 % 2 = 0) || decide (strm d p.1 0x0C = r.ssrc.toNat))) = some p) :
    takeDatagram d c tags src dst dport body (some r) = depacketise d c p.1 r := by
  unfold takeDatagram
  dsimp only
  rw [h]

theorem takeDatagram_unmatched {d : Device} {c src dst dport : Nat} {tags : List Nat} {body : List Byte} {rtp : Option Rtp} (h : d.streams = []) :
    takeDatagram d c tags src dst dport body rtp = odAdd d (0x2000 + c) 7 1 := by
  unfold takeDatagram
  dsimp only
  rw [h]
  rfl

/-- Settles O28: where a frame goes, by its shape, its protocol and its address. -/
theorem ethernetFrames : Obligations.EthernetFrames := by
  unfold Obligations.EthernetFrames
  intro c f s hup
  refine ⟨fun h => ?_, fun hl hf ht he => ⟨fun hn => ?_, fun t hn ha ht0 => ?_, fun t hn ha => ?_, ?_, ?_⟩⟩
  · rw [exec_ethFrameReceive hup, receiveFrame_bad h]
  · rw [exec_ethFrameReceive hup, receiveFrame, if_neg (goodFrame hl hf ht he), hn]
    rfl
  · have h4 : odGet (odAdd s.dev (0x2000 + c.val) 6 1) (0x2000 + c.val) 4 = t.toNat := (odGet_odAdd_other _ _ (by omega)).trans ha
    have h0 : t.toNat ≠ 0 := fun h => ht0 (BitVec.eq_of_toNat_eq h)
    rw [exec_ethFrameReceive hup, receiveFrame, if_neg (goodFrame hl hf ht he), hn]
    dsimp only
    rw [portIdx, h4, if_pos ⟨h0, rfl⟩, portSend]
  · have h4 : odGet (odAdd s.dev (0x2000 + c.val) 6 1) (0x2000 + c.val) 4 = odGet s.dev (0x2000 + c.val) 4 := odGet_odAdd_other _ _ (by omega)
    rw [exec_ethFrameReceive hup, receiveFrame, if_neg (goodFrame hl hf ht he), hn]
    dsimp only
    rw [portIdx, h4, if_neg fun h => ha h.2.symm]
  · intro v6 src dst dport body r p hn ha hfind
    rw [exec_ethFrameReceive hup, receiveFrame, if_neg (goodFrame hl hf ht he), hn]
    dsimp only
    rw [portIdx, ha, if_neg (by simp), if_neg (by simp), takeDatagram_matched hfind]
  · intro v6 src dst dport body rtp hn h
    rw [exec_ethFrameReceive hup, receiveFrame, if_neg (goodFrame hl hf ht he), hn]
    dsimp only
    rw [portIdx, if_neg (by simp)]
    obtain h | h := h
    · rw [h, if_pos (by simp)]
    · rw [takeDatagram_unmatched h, ite_self]

/-! The reorder window (R346, R347) -/

/-- A packet of another version or payload type is counted and goes no further. -/
theorem depacketise_foreign {d : Device} {n : Nat} (c : Nat) {p : Rtp} (h : p.version ≠ 2 ∨ p.pt ≠ odGet d (0x2400 + n) 0x0E) :
    depacketise d c n p = odAdd d (0x2400 + n) 0x20 1 := by
  rw [depacketise, strm_odAdd_other _ _ (by decide)]
  exact if_pos h

/-- The window's part: a late or held packet is counted, another one waits for its turn. -/
def windowTake (d : Device) (n : Nat) (p : Rtp) : Device :=
  let st := streamAt d n
  let next := st.nextSeq.getD p.seq
  if seqDist p.seq next < 0 ∨ st.window.any (fun q => q.2.seq = p.seq) then odAdd d (0x2400 + n) 0x22 1
  else
    let e := drainWindow (st.window.length + 1) (setStream d n { st with window := windowInsert d.time p st.window, nextSeq := some next }) n
    if 16 ≤ (streamAt e n).window.length then resolveGap e n else e

/-- A packet of the stream's own source whose structure Table 14-1 accepts goes to the window. -/
theorem depacketise_own {d : Device} {n : Nat} (c : Nat) {p : Rtp} (hv : p.version = 2) (hpt : p.pt = odGet d (0x2400 + n) 0x0E)
    (hok : payloadOk (odGet d (0x2400 + n) 3) p = true) (hs : (streamAt d n).ssrc = some p.ssrc) :
    depacketise d c n p = windowTake (odAdd d (0x2400 + n) 0x20 1) n p := by
  have hsrc : strm (odAdd d (0x2400 + n) 0x20 1) n 0x0D / 2 % 2 = 1 ∨ (streamAt (odAdd d (0x2400 + n) 0x20 1) n).ssrc = some p.ssrc := .inr hs
  unfold depacketise
  dsimp only
  rw [strm_odAdd_other _ _ (by decide), strm_odAdd_other (s := 3) _ _ (by decide), if_neg (by rw [not_or, not_not, not_not]; exact ⟨hv, hpt⟩),
    show strm d n 3 = odGet d (0x2400 + n) 3 from rfl, hok, if_pos rfl, if_pos hsrc]
  rfl

theorem drainWindow_gap {d : Device} {n at_ : Nat} {p : Rtp} {rest : List (Nat × Rtp)} (k : Nat) (hw : (streamAt d n).window = (at_, p) :: rest)
    (hn : (streamAt d n).nextSeq ≠ some p.seq) : drainWindow k d n = d := by
  cases k with
  | zero => rfl
  | succ k =>
    rw [drainWindow]
    dsimp only
    rw [hw]
    exact if_neg hn

theorem ne_of_seqDist_pos {a b : BitVec 16} (h : 0 < seqDist a b) : b ≠ a := by
  rintro rfl
  rw [seqDist, BitVec.sub_self] at h
  exact absurd h (by decide)

/-- A packet behind a gap waits alone in an empty window. -/
theorem depacketise_gap {d : Device} {n : Nat} (c : Nat) {p : Rtp} {next : BitVec 16} (hv : p.version = 2) (hpt : p.pt = odGet d (0x2400 + n) 0x0E)
    (hok : payloadOk (odGet d (0x2400 + n) 3) p = true) (hs : (streamAt d n).ssrc = some p.ssrc) (hnext : (streamAt d n).nextSeq = some next)
    (hw : (streamAt d n).window = []) (hpos : 0 < seqDist p.seq next) : depacketise d c n p =
      setStream (odAdd d (0x2400 + n) 0x20 1) n { streamAt d n with window := [(d.time, p)], nextSeq := some next } := by
  have hset := streamAt_setStream_same (odAdd d (0x2400 + n) 0x20 1) n { streamAt d n with window := [(d.time, p)], nextSeq := some next }
  rw [depacketise_own c hv hpt hok hs, windowTake, streamAt_odAdd, hw, hnext]
  rw [if_neg (by simp only [List.any_nil, Bool.false_eq_true, or_false, Option.getD_some]; omega)]
  dsimp only
  rw [windowInsert, Option.getD_some, odAdd_time,
    drainWindow_gap _ (congrArg Stream.window hset) (by rw [hset]; exact fun h => ne_of_seqDist_pos hpos (Option.some.inj h)), hset]
  rfl

theorem exec_reorderTimeout {n : Fin 1024} {s : State} {at_ : Nat} {p : Rtp} {rest : List (Nat × Rtp)} (ha : (streamAt s.dev n.val).active = true)
    (hw : (streamAt s.dev n.val).window = (at_, p) :: rest) (ht : at_ + 200000 ≤ s.dev.time) :
    exec (.reorderTimeout n) s = .next { s with dev := resolveGap s.dev n.val } := by
  change execReorderTimeout n s = _
  rw [execReorderTimeout, onDev_eq, guarded, if_pos (by simp [ha, hw, msCounts, ht])]

theorem resolveGap_eq {d : Device} {n at_ : Nat} {p : Rtp} {rest : List (Nat × Rtp)} {next : BitVec 16}
    (hw : (streamAt d n).window = (at_, p) :: rest) (hn : (streamAt d n).nextSeq = some next) : resolveGap d n =
      drainWindow (rest.length + 1) (modStream (odAdd d (0x2400 + n) 0x21 (seqDist p.seq next).toNat) n
        (fun st => { st with nextSeq := some p.seq, lost := true })) n := by
  unfold resolveGap
  dsimp only
  rw [hw, hn]
  rfl

theorem streamAt_modStream_same (d : Device) (n : Nat) (f : Stream → Stream) : streamAt (modStream d n f) n = f (streamAt d n) :=
  streamAt_setStream_same _ _ _

/-- The two fields of an anchor word. -/
theorem anchor_fields (v : BitVec 96) :
    (v.toNat % 2 ^ 64, BitVec.ofNat 32 (v.toNat / 2 ^ 64)) = (fld v 63 0, BitVec.ofNat 32 (fld v 95 64)) := by
  have h : v.toNat / 2 ^ 64 % 2 ^ 32 = v.toNat / 2 ^ 64 := Nat.mod_eq_of_lt (by have := v.isLt; omega)
  rw [fld, fld, nbits, nbits, Nat.pow_zero, Nat.div_one, show 95 + 1 - 64 = 32 from rfl, h]

/-- Settles O29: what the reorder window does with a packet, its timeout, and an anchor write. -/
theorem reorderWindow : Obligations.ReorderWindow := by
  unfold Obligations.ReorderWindow
  refine ⟨fun d c n p h => depacketise_foreign c h, fun d c n p next hn hv hpt hok hs hnext h => ?_, fun d c n p next hn hv hpt hok hs hnext hw hpos => ?_,
    fun n s at_ p rest next ha hw hnext ht => ?_, fun n v s => ?_⟩
  · rw [depacketise_own c hv hpt hok hs]
    refine if_pos (Or.imp (fun h => ?_) ?_ h)
    · change seqDist p.seq ((streamAt d n).nextSeq.getD p.seq) < 0
      rwa [hnext]
    rintro ⟨q, hq, hseq⟩
    exact List.any_eq_true.mpr ⟨q, hq, decide_eq_true hseq⟩
  · rw [depacketise_gap c hv hpt hok hs hnext hw hpos, streamAt_setStream_same]
    exact ⟨rfl, rfl, rfl, rfl⟩
  · rw [exec_reorderTimeout ha hw ht, resolveGap_eq hw hnext]
  · refine ⟨anchorWrite s.dev n.val v.toNat, rfl, ?_, ?_, ?_, rfl⟩
    · rw [anchorWrite, streamAt_modStream_same]
      exact anchor_fields v
    · exact odGet_streamRow_put (k := 12) s.dev n.isLt (by decide) (lt_of_lt_of_eq v.isLt (by norm_num))
    · rw [anchorWrite, streamAt_modStream_same]
      rfl

end Sys2Proof.Machine
end

section
/-! Enabling and disabling a stream (R344, R361, R362): the objects, group reports, internal queues and pool granules. -/

namespace Sys2Proof.Machine

/-! A stream's state and its event -/

/-- An occurrence of a shared source changes no object below the counters of events. -/
theorem odGet_sharedEvent_low (d : Device) (n info count : Nat) {i s : Nat} (h : 256 * i + s < 256 * 0x8110) :
    odGet (sharedEvent d n info count) i s = odGet d i s := by
  have hadd : odGet (odAdd d (0x8110 + n / 128) (n % 128 + 1) 1) i s = odGet d i s := odGet_odAdd_other _ _ (by omega)
  rw [sharedEvent]
  split
  · rw [odGet_deliver _ _ _ _ _ (by omega), hadd]
  · exact hadd

theorem onlyEvents_odPut (d : Device) (i s v : Nat) : OnlyEvents d (odPut d i s v) := ⟨_, _, _, _, _, _, rfl⟩

theorem onlyEvents_setStreamState (d : Device) (n st : Nat) : OnlyEvents d (setStreamState d n st) := by
  rw [setStreamState]
  split
  · exact .refl d
  · exact (onlyEvents_odPut d _ _ _).trans (onlyEvents_sharedEvent _ _ _ _)

theorem odGet_setStreamState_other (d : Device) (n st : Nat) {i s : Nat} (hne : 256 * i + s ≠ 256 * (0x2400 + n) + 0x1B)
    (h : 256 * i + s < 256 * 0x8110) : odGet (setStreamState d n st) i s = odGet d i s := by
  rw [setStreamState]
  split
  · rfl
  · rw [berthEvent, odGet_sharedEvent_low _ _ _ _ h, odGet_odPut_other _ _ hne]

theorem strm_setStreamState_same (d : Device) {n st : Nat} (hn : n < 1024) (hst : st < 256) : strm (setStreamState d n st) n 0x1B = st := by
  rw [setStreamState]
  split
  · assumption
  · rw [strm, berthEvent, odGet_sharedEvent_low _ _ _ _ (by omega)]
    exact odGet_streamRow_put (k := 1) d hn (by decide) hst

theorem OnlyEvents.streamAt {d e : Device} (h : OnlyEvents d e) (n : Nat) : streamAt e n = streamAt d n := by
  obtain ⟨_, _, _, _, _, _, rfl⟩ := h
  rfl

theorem OnlyEvents.sfpAt {d e : Device} (h : OnlyEvents d e) (n : Nat) : sfpAt e n = sfpAt d n := by
  obtain ⟨_, _, _, _, _, _, rfl⟩ := h
  rfl

theorem OnlyEvents.berthAt {d e : Device} (h : OnlyEvents d e) (b : Nat) : berthAt e b = berthAt d b := by
  rw [Machine.berthAt, h.berths]
  rfl

/-! Frames sent on ports -/

/-- The state of the SFP ports alone differs. -/
def OnlySfp (d e : Device) : Prop := ∃ m, e = { d with sfp := m }

theorem OnlySfp.refl (d : Device) : OnlySfp d d := ⟨_, rfl⟩

theorem OnlySfp.trans {d e f : Device} : OnlySfp d e → OnlySfp e f → OnlySfp d f := by
  rintro ⟨_, rfl⟩ ⟨_, rfl⟩
  exact ⟨_, rfl⟩

theorem onlySfp_portSend (d : Device) (c : Nat) (f : OutFrame) : OnlySfp d (portSend d c f) := ⟨_, rfl⟩

theorem onlySfp_foldl {f : Device → Nat → Device} (h : ∀ d c, OnlySfp d (f d c)) (l : List Nat) (d : Device) : OnlySfp d (l.foldl f d) := by
  induction l generalizing d with
  | nil => exact .refl d
  | cons c l ih => exact (h d c).trans (ih _)

theorem sfpAt_portSend_same (d : Device) (c : Nat) (f : OutFrame) : sfpAt (portSend d c f) c = { sfpAt d c with out := (sfpAt d c).out ++ [f] } :=
  Tab.get_set_same _ _ _ _

theorem sfpAt_portSend_other (d : Device) {c k : Nat} (f : OutFrame) (h : k ≠ c) : sfpAt (portSend d c f) k = sfpAt d k := Tab.get_set_other _ _ _ h

/-- A frame sent on each port of a list that names none twice. -/
theorem sfpAt_portSends (f : OutFrame) {l : List Nat} (hl : l.Nodup) (d : Device) :
    (∀ c ∈ l, (sfpAt (l.foldl (fun d c => portSend d c f) d) c).out = (sfpAt d c).out ++ [f]) ∧
      ∀ c ∉ l, sfpAt (l.foldl (fun d c => portSend d c f) d) c = sfpAt d c := by
  induction l generalizing d with
  | nil => exact ⟨fun c hc => absurd hc List.not_mem_nil, fun _ _ => rfl⟩
  | cons a l ih =>
    obtain ⟨ha, hl⟩ := List.nodup_cons.mp hl
    obtain ⟨hin, hout⟩ := ih hl (portSend d a f)
    refine ⟨fun c hc => ?_, fun c hc => ?_⟩
    · rw [List.foldl_cons]
      obtain rfl | hc := List.mem_cons.mp hc
      · rw [hout c ha, sfpAt_portSend_same]
      · rw [hin c hc, sfpAt_portSend_other]
        exact fun h => ha (h ▸ hc)
    · rw [List.mem_cons, not_or] at hc
      rw [List.foldl_cons, hout c hc.2, sfpAt_portSend_other _ _ hc.1]

theorem groupReport_congr {d e : Device} {n : Nat} (h9 : strm e n 9 = strm d n 9) (h8 : strm e n 8 = strm d n 8)
    (hf : strm e n 0x0D = strm d n 0x0D) : groupReport e n = groupReport d n := by simp only [groupReport, h9, h8, hf]

theorem joinPorts_congr {d e : Device} {n : Nat} (h9 : strm e n 9 = strm d n 9) (hr : strm e n 3 = strm d n 3)
    (hf : strm e n 0x0D = strm d n 0x0D) (hp : ∀ c < 2, odFlag e (portIdx c) 1 = odFlag d (portIdx c) 1) : joinPorts e n = joinPorts d n := by
  have hm : ∀ c, portInMask e n c = portInMask d n c := fun c => by rw [portInMask, hf, portInMask]
  have hraw : isRaw e n = isRaw d n := by rw [isRaw, hr, isRaw]
  have hfilter : (List.range 2).filter (fun c => portInMask e n c && odFlag e (portIdx c) 1) =
      (List.range 2).filter (fun c => portInMask d n c && odFlag d (portIdx c) 1) :=
    List.filter_congr fun c hc => by rw [hm, hp c (List.mem_range.mp hc)]
  rw [joinPorts, hf, h9, hraw, joinPorts, hfilter]

theorem joinPorts_lt {d : Device} {n c : Nat} (h : c ∈ joinPorts d n) : c < 2 := by
  rw [joinPorts] at h
  split at h
  · exact List.mem_range.mp (List.mem_filter.mp h).1
  · exact absurd h List.not_mem_nil

theorem joinPorts_nodup (d : Device) (n : Nat) : (joinPorts d n).Nodup := by
  rw [joinPorts]
  split
  · exact List.nodup_range.filter _
  · exact List.nodup_nil

/-- Each report is that of the stream, whatever has been sent before. -/
theorem groupReports_eq (n : Nat) (f : OutFrame) (l : List Nat) (d : Device) (h : groupReport d n = f) :
    l.foldl (fun d c => portSend d c (groupReport d n)) d = l.foldl (fun d c => portSend d c f) d := by
  induction l generalizing d with
  | nil => rfl
  | cons c l ih =>
    rw [List.foldl_cons, List.foldl_cons, h]
    exact ih _ h

/-! Enabling -/

section
variable {d : Device} {n : Nat} {gs : List Nat} {h : Hbm}

/-- The device whose stream is a fresh one with its granules. -/
def freshlySet (d : Device) (n : Nat) (gs : List Nat) (h : Hbm) : Device :=
  let e := modBerth d (strmBerth d n) (fun x => { x with hbm := h })
  setStream e n (freshStream e n gs (streamRate d n))

/-- The device with the stream open, before its group reports. -/
def openedStream (d : Device) (n : Nat) (gs : List Nat) (h : Hbm) : Device :=
  odPut (odStore (freshlySet d n gs h) (0x2400 + n) 1 1) (0x2400 + n) 0x1C 0

/-- A berth that is not in DOZE is not woken. -/
theorem noWake (hw : bpstate d (strmBerth d n) ≠ 2) :
    (if strmBerth d n < 4 ∧ bpstate d (strmBerth d n) = 2 then wakeBerth d (strmBerth d n) else d) = d := if_neg fun h => hw h.2

theorem enableStream_good (hw : bpstate d (strmBerth d n) ≠ 2) (ha : (streamAt d n).active = false) (hr : streamRefusal d n = 0)
    (hp : poolAllocAll (berthAt d (strmBerth d n)).hbm (0x10000 + n) (streamSizes d n) = some (gs, h)) : enableStream d n =
      setStreamState ((joinPorts (openedStream d n gs h) n).foldl (fun d c => portSend d c (groupReport d n)) (openedStream d n gs h)) n 1 := by
  unfold enableStream
  dsimp only
  rw [noWake hw, ha, if_neg Bool.false_ne_true, hr, if_neg (by decide), if_neg (by decide), hp]
  rfl

theorem enableStream_refused (hw : bpstate d (strmBerth d n) ≠ 2) (ha : (streamAt d n).active = false) (hr : streamRefusal d n ≠ 0) :
    enableStream d n = if streamRefusal d n = 5 then odPut d (0x2400 + n) 0x1C 5
      else setStreamState (odPut (odStore d (0x2400 + n) 1 0) (0x2400 + n) 0x1C (streamRefusal d n)) n 4 := by
  unfold enableStream
  dsimp only
  rw [noWake hw, ha, if_neg Bool.false_ne_true, if_pos hr]

theorem odGet_openedStream_other {i s : Nat} (h1 : 256 * i + s ≠ 256 * (0x2400 + n) + 1) (h2 : 256 * i + s ≠ 256 * (0x2400 + n) + 0x1C) :
    odGet (openedStream d n gs h) i s = odGet d i s := by
  rw [openedStream, odGet_odPut_other _ _ h2, odGet_odStore, odGet_odPut_other _ _ h1]
  rfl

theorem odStore_streams (d : Device) (i s v : Nat) : (odStore d i s v).streams = d.streams ∧ (odStore d i s v).berths = d.berths ∧
    (odStore d i s v).sfp = d.sfp := by
  rw [odStore]
  split <;> exact ⟨rfl, rfl, rfl⟩

theorem streamAt_odStore (d : Device) (i s v n : Nat) : streamAt (odStore d i s v) n = streamAt d n := by
  rw [streamAt, (odStore_streams d i s v).1, streamAt]

theorem berthAt_odStore (d : Device) (i s v b : Nat) : berthAt (odStore d i s v) b = berthAt d b := by
  rw [berthAt, (odStore_streams d i s v).2.1, berthAt]

theorem sfpAt_odStore (d : Device) (i s v c : Nat) : sfpAt (odStore d i s v) c = sfpAt d c := by
  rw [sfpAt, (odStore_streams d i s v).2.2, sfpAt]

theorem hbm_openedStream : (berthAt (openedStream d n gs h) (strmBerth d n)).hbm = h := by
  rw [openedStream, berthAt_odPut, berthAt_odStore, freshlySet, berthAt_setStream, berthAt_modBerth_same]

theorem sfpAt_openedStream (c : Nat) : sfpAt (openedStream d n gs h) c = sfpAt d c := by
  rw [openedStream, sfpAt_odPut, sfpAt_odStore]
  rfl

/-- The enabled stream is a fresh one. -/
theorem streamAt_openedStream_same : streamAt (openedStream d n gs h) n =
    freshStream (modBerth d (strmBerth d n) (fun x => { x with hbm := h })) n gs (streamRate d n) := by
  rw [openedStream, streamAt_odPut, streamAt_odStore, freshlySet]
  exact streamAt_setStream_same _ _ _

theorem streamAt_openedStream_other {k : Nat} (hk : k ≠ n) : streamAt (openedStream d n gs h) k = streamAt d k := by
  rw [openedStream, streamAt_odPut, streamAt_odStore, freshlySet]
  exact streamAt_setStream_other _ _ hk

end

theorem exec_streamEnable {n : Fin 1024} {s : State} (h : mstate s.dev = 0) :
    exec (.streamEnable n) s = .next { s with dev := enableStream s.dev n.val } := by
  change execStreamEnable n s = _
  rw [execStreamEnable, onDev_eq, guarded, if_pos (decide_eq_true h)]

/-- The cause that refuses an enable is one of five. -/
theorem streamRefusal_lt (d : Device) (n : Nat) : streamRefusal d n < 6 := by
  unfold streamRefusal
  dsimp only
  repeat' split
  all_goals omega

theorem odGet_journal (d : Device) (j : List JournalRec) (i s : Nat) : odGet { d with journal := j } i s = odGet d i s := rfl

/-- What a refused enable leaves: ENABLE off and the cause in STATUS. -/
theorem refused_parts {d : Device} {n : Nat} (hn : n < 1024) (hw : bpstate d (strmBerth d n) ≠ 2) (ha : (streamAt d n).active = false)
    (hr : streamRefusal d n ≠ 0) (h1 : odGet d (0x2400 + n) 1 = 0) : (streamAt (enableStream d n) n).active = false ∧
      odGet (enableStream d n) (0x2400 + n) 1 = 0 ∧ odGet (enableStream d n) (0x2400 + n) 0x1C = streamRefusal d n ∧
      (enableStream d n).berths = d.berths := by
  have hc : ∀ e v, v < 256 → odGet (odPut e (0x2400 + n) 0x1C v) (0x2400 + n) 0x1C = v := fun e v hv =>
    odGet_streamRow_put (k := 1) e hn (by decide) hv
  have hlt := streamRefusal_lt d n
  rw [enableStream_refused hw ha hr]
  split
  next h5 =>
    refine ⟨ha, (odGet_odPut_other _ _ (by omega)).trans h1, ?_, rfl⟩
    rw [h5]
    exact hc _ _ (by decide)
  next =>
    obtain ⟨hst, hbe, -⟩ := odStore_streams d (0x2400 + n) 1 0
    have he := onlyEvents_setStreamState (odPut (odStore d (0x2400 + n) 1 0) (0x2400 + n) 0x1C (streamRefusal d n)) n 4
    refine ⟨?_, ?_, ?_, ?_⟩
    · rw [he.streamAt]
      exact (congrArg (fun m => (Tab.get {} m n : Stream).active) hst).trans ha
    · rw [odGet_setStreamState_other _ _ _ (by omega) (by omega), odGet_odPut_other _ _ (by omega), odGet_odStore]
      exact odGet_streamRow_put (k := 1) d hn (by decide) (by decide)
    · rw [odGet_setStreamState_other _ _ _ (by omega) (by omega)]
      exact hc _ _ (by omega)
    · rw [he.berths]
      exact hbe

/-! Disabling -/

/-- The internal queue flushed: its items are counted, logged where there were any, and the ring is empty. -/
theorem flushInner_frame (d : Device) (n kind cause : Nat) (r : Ring) : ∃ m l r', flushInner d n kind cause r =
    ({ d with od := m, hub := { d.hub with discards := l } }, r') ∧ ∀ i s, 256 * i + s ≠ 256 * 0x8031 →
      odGet { d with od := m, hub := { d.hub with discards := l } } i s = odGet d i s := by
  unfold flushInner
  dsimp only
  rw [addDiscard]
  split
  · exact ⟨d.od, d.hub.discards, _, rfl, fun _ _ _ => rfl⟩
  · refine ⟨_, _, _, rfl, fun i s h => ?_⟩
    have hne : 256 * i + s ≠ 256 * 0x8031 + 0 := h
    exact Tab.get_set_other _ _ _ hne

theorem onlySfp_leaveGroups (d : Device) (n : Nat) : OnlySfp d (leaveGroups d n) := by
  refine onlySfp_foldl (fun e c => ?_) _ d
  split
  · exact .refl e
  · exact onlySfp_portSend _ _ _

/-- The stream switched off, its internal queues empty. -/
def closedStream (st : Stream) (p q : Ring) : Stream :=
  { st with active := false, window := [], nextSeq := none, au := none, fu := none, aus := [], pics := [], raw := none, rate := 0,
            stale := decide (st.slice ≠ 0), pktq := { p with enabled := false }, inq := { q with enabled := false } }

/-- Objects but the discard counter, groups and streams as before: what closing leaves before the state changes. -/
theorem disableStream_eq {d : Device} {n : Nat} (ha : (streamAt d n).active = true) : ∃ m o l p q,
    (∀ i s, 256 * i + s ≠ 256 * 0x8031 → Tab.get (odDefault i s) o (256 * i + s) = odGet d i s) ∧
    disableStream d n = freeStream (setStreamState (odStore (setStream { d with sfp := m, od := o, hub := { d.hub with discards := l } } n
      (closedStream (streamAt d n) p q)) (0x2400 + n) 1 0) n 5) n := by
  obtain ⟨m, hm⟩ := onlySfp_leaveGroups d n
  obtain ⟨o1, l1, p, hp, hod1⟩ := flushInner_frame (leaveGroups d n) n 0 5 (streamAt (leaveGroups d n) n).pktq
  obtain ⟨o2, l2, q, hq, hod2⟩ := flushInner_frame { leaveGroups d n with od := o1, hub := { (leaveGroups d n).hub with discards := l1 } } n 1 5
    (streamAt { leaveGroups d n with od := o1, hub := { (leaveGroups d n).hub with discards := l1 } } n).inq
  refine ⟨m, o2, l2, p, q, fun i s h => ?_, ?_⟩
  · refine (hod2 i s h).trans ((hod1 i s h).trans ?_)
    rw [hm]
    rfl
  · unfold disableStream
    rw [if_neg (by rw [ha]; exact Bool.false_ne_true)]
    dsimp only
    rw [hp]
    dsimp only
    rw [hq]
    dsimp only
    rw [hm]
    rfl

/-- The stream behind its release: what waits in a slice, and its anchor. -/
def releasedStream (st : Stream) : Stream :=
  { slice := st.slice, sliceBerth := st.sliceBerth, stale := st.stale, inDecode := st.inDecode, decodeFrom := st.decodeFrom, anchor := st.anchor }

theorem freeStream_held {d : Device} {n : Nat} (h : (streamAt d n).entries ≠ []) : freeStream d n = d :=
  if_neg fun hc => h (List.isEmpty_iff.mp hc.2)

theorem freeStream_empty {d : Device} {n : Nat} (hs : strm d n 0x1B = 5) (h : (streamAt d n).entries = []) : freeStream d n =
    setStreamState (setStream (modBerth d (strmBerth d n) (fun x => { x with hbm := poolFree x.hbm (streamAt d n).granules })) n
      (releasedStream (streamAt d n))) n 0 := by
  unfold freeStream
  dsimp only
  rw [if_pos ⟨hs, by rw [h]; rfl⟩]
  rfl

/-- What closing leaves of the module: its tiles and pool, and the other streams. -/
theorem closed_parts {d : Device} {n : Nat} (hn : n < 1024) (ha : (streamAt d n).active = true) :
    (streamAt (disableStream d n) n).active = false ∧ (streamAt (disableStream d n) n).pics = [] ∧ (streamAt (disableStream d n) n).aus = [] ∧
      (streamAt (disableStream d n) n).window = [] ∧ odGet (disableStream d n) (0x2400 + n) 1 = 0 ∧
      odGet (disableStream d n) (0x2400 + n) 0x1B = (if (streamAt d n).entries.isEmpty then 0 else 5) ∧
      (∀ b k, tileAt (disableStream d n) b k = tileAt d b k) ∧ (streamAt (disableStream d n) n).pktq.enabled = false ∧
      (streamAt (disableStream d n) n).inq.enabled = false ∧
      ((streamAt d n).entries = [] → (berthAt (disableStream d n) (strmBerth d n)).hbm.pool =
        (poolFree (berthAt d (strmBerth d n)).hbm (streamAt d n).granules).pool) ∧
      ∀ k, k ≠ n → streamAt (disableStream d n) k = streamAt d k := by
  obtain ⟨m, o, l, p, q, hod, heq⟩ := disableStream_eq ha
  rw [heq]
  -- the closed stream, before and after its state is set
  generalize hA : ({ d with sfp := m, od := o, hub := { d.hub with discards := l } } : Device) = A at heq ⊢
  have hAb : A.berths = d.berths := by rw [← hA]
  have hAs : A.streams = d.streams := by rw [← hA]
  have hAod : ∀ i s, 256 * i + s ≠ 256 * 0x8031 → odGet A i s = odGet d i s := fun i s h => by rw [← hA]; exact hod i s h
  clear heq hA hod
  generalize hC : setStreamState (odStore (setStream A n (closedStream (streamAt d n) p q)) (0x2400 + n) 1 0) n 5 = C
  have hev := onlyEvents_setStreamState (odStore (setStream A n (closedStream (streamAt d n) p q)) (0x2400 + n) 1 0) n 5
  rw [hC] at hev
  have hCn : streamAt C n = closedStream (streamAt d n) p q := by
    rw [hev.streamAt, streamAt_odStore, streamAt_setStream_same]
  have hCk : ∀ k, k ≠ n → streamAt C k = streamAt d k := fun k hk => by
    rw [hev.streamAt, streamAt_odStore, streamAt_setStream_other _ _ hk, streamAt, hAs, streamAt]
  have hCb : ∀ b, berthAt C b = berthAt d b := fun b => by
    rw [hev.berthAt, berthAt_odStore, berthAt_setStream, berthAt, hAb, berthAt]
  have hC1 : odGet C (0x2400 + n) 1 = 0 := by
    rw [← hC, odGet_setStreamState_other _ _ _ (by omega) (by omega), odGet_odStore]
    exact odGet_streamRow_put (k := 1) _ hn (by decide) (by decide)
  have hC1B : strm C n 0x1B = 5 := by rw [← hC]; exact strm_setStreamState_same _ hn (by decide)
  have hC2 : strm C n 2 = strm d n 2 := by
    rw [← hC, strm, odGet_setStreamState_other _ _ _ (by omega) (by omega), odGet_odStore, odGet_odPut_other _ _ (by omega)]
    exact hAod _ _ (by omega)
  have hCh : strmBerth C n = strmBerth d n := by rw [strmBerth, hCn, hC2]; rfl
  by_cases he : (streamAt d n).entries = []
  · have hCe : (streamAt C n).entries = [] := by rw [hCn]; exact he
    rw [freeStream_empty hC1B hCe]
    generalize hE : setStream (modBerth C (strmBerth C n) (fun x => { x with hbm := poolFree x.hbm (streamAt C n).granules })) n
      (releasedStream (streamAt C n)) = E
    have hF := onlyEvents_setStreamState E n 0
    have hEn : streamAt E n = releasedStream (streamAt C n) := by rw [← hE]; exact streamAt_setStream_same _ _ _
    have hEb : ∀ b, berthAt E b = berthAt (modBerth C (strmBerth C n) (fun x => { x with hbm := poolFree x.hbm (streamAt C n).granules })) b :=
      fun b => by rw [← hE]; rfl
    refine ⟨?_, ?_, ?_, ?_, ?_, ?_, fun b k => ?_, ?_, ?_, fun _ => ?_, fun k hk => ?_⟩
    iterate 4 rw [hF.streamAt, hEn]; rfl
    · rw [odGet_setStreamState_other _ _ _ (by omega) (by omega), ← hC1, ← hE]
      rfl
    · rw [if_pos (List.isEmpty_iff.mpr he)]
      exact strm_setStreamState_same _ hn (by decide)
    · rw [tileAt, hF.berthAt, hEb, tileAt, ← hCb b]
      by_cases hb : b = strmBerth C n
      · rw [hb, berthAt_modBerth_same]
      · rw [berthAt_modBerth_other _ _ hb]
    iterate 2 rw [hF.streamAt, hEn]; rfl
    · rw [hF.berthAt, hEb, ← hCh, berthAt_modBerth_same, hCb, hCn]
      rfl
    · rw [hF.streamAt, ← hE, streamAt_setStream_other _ _ hk]
      exact hCk k hk
  · have hCe : (streamAt C n).entries ≠ [] := by rw [hCn]; exact he
    rw [freeStream_held hCe, hCn]
    refine ⟨rfl, rfl, rfl, rfl, hC1, ?_, fun b k => ?_, rfl, rfl, fun h => absurd h he, hCk⟩
    · rw [if_neg (by simpa using he)]
      exact hC1B
    · rw [tileAt, hCb, tileAt]

theorem exec_streamDisable (n : Fin 1024) (s : State) : exec (.streamDisable n) s = .next { s with dev := disableStream s.dev n.val } := rfl

/-- What an enable leaves: the fresh stream in STATE 1, the pool behind the allocation, and a report on each port. -/
theorem enabled_parts {d : Device} {n : Nat} {gs : List Nat} {h : Hbm} (hn : n < 1024) (hw : bpstate d (strmBerth d n) ≠ 2)
    (ha : (streamAt d n).active = false) (hr : streamRefusal d n = 0)
    (hp : poolAllocAll (berthAt d (strmBerth d n)).hbm (0x10000 + n) (streamSizes d n) = some (gs, h)) : ∃ e, enableStream d n = e ∧
      (streamAt e n = freshStream (modBerth d (strmBerth d n) (fun x => { x with hbm := h })) n gs (streamRate d n)) ∧
      (berthAt e (strmBerth d n)).hbm = h ∧ odGet e (0x2400 + n) 1 = 1 ∧ odGet e (0x2400 + n) 0x1B = 1 ∧ odGet e (0x2400 + n) 0x1C = 0 ∧
      (∀ k, k ≠ n → streamAt e k = streamAt d k) ∧ (∀ c ∈ joinPorts d n, (sfpAt e c).out = (sfpAt d c).out ++ [groupReport d n]) ∧
      ∀ c ∉ joinPorts d n, sfpAt e c = sfpAt d c := by
  have hs : ∀ s, s ≠ 1 → s ≠ 0x1C → strm (openedStream d n gs h) n s = strm d n s := fun s h1 h2 => odGet_openedStream_other (by omega) (by omega)
  have hjoin : joinPorts (openedStream d n gs h) n = joinPorts d n := by
    refine joinPorts_congr (hs _ (by decide) (by decide)) (hs _ (by decide) (by decide)) (hs _ (by decide) (by decide)) fun c hc => ?_
    rw [odFlag, odGet_openedStream_other (by rw [portIdx]; omega) (by rw [portIdx]; omega), odFlag]
  have hrep : groupReport (openedStream d n gs h) n = groupReport d n :=
    groupReport_congr (hs _ (by decide) (by decide)) (hs _ (by decide) (by decide)) (hs _ (by decide) (by decide))
  refine ⟨_, enableStream_good hw ha hr hp, ?_⟩
  rw [hjoin, groupReports_eq n _ _ _ hrep]
  obtain ⟨hin, hout⟩ := sfpAt_portSends (groupReport d n) (joinPorts_nodup d n) (openedStream d n gs h)
  obtain ⟨m, hm⟩ := onlySfp_foldl (f := fun d' c => portSend d' c (groupReport d n)) (fun d' c => onlySfp_portSend d' c _) (joinPorts d n)
    (openedStream d n gs h)
  generalize hE : (joinPorts d n).foldl (fun d' c => portSend d' c (groupReport d n)) (openedStream d n gs h) = E at hm hin hout ⊢
  have hF := onlyEvents_setStreamState E n 1
  have hEod : ∀ i s, odGet E i s = odGet (openedStream d n gs h) i s := fun i s => by rw [hm]; rfl
  have hEst : ∀ k, streamAt E k = streamAt (openedStream d n gs h) k := fun k => by rw [hm]; rfl
  refine ⟨?_, ?_, ?_, ?_, ?_, fun k hk => ?_, fun c hc => ?_, fun c hc => ?_⟩
  · rw [hF.streamAt, hEst, streamAt_openedStream_same]
  · rw [hF.berthAt, ← hbm_openedStream (d := d) (n := n) (gs := gs) (h := h), hm]
    rfl
  · rw [odGet_setStreamState_other _ _ _ (by omega) (by omega), hEod, openedStream, odGet_odPut_other _ _ (by omega), odGet_odStore]
    exact odGet_streamRow_put (k := 1) _ hn (by decide) (by decide)
  · exact strm_setStreamState_same _ hn (by decide)
  · rw [odGet_setStreamState_other _ _ _ (by omega) (by omega), hEod, openedStream]
    exact odGet_streamRow_put (k := 1) _ hn (by decide) (by decide)
  · rw [hF.streamAt, hEst, streamAt_openedStream_other hk]
  · rw [hF.sfpAt, hin c hc, sfpAt_openedStream]
  · rw [hF.sfpAt, hout c hc, sfpAt_openedStream]

/-- Settles O33: what enabling and disabling a stream leave of it, its objects, its berth's pool and its ports. -/
theorem streamEnableDisable : Obligations.StreamEnableDisable := by
  unfold Obligations.StreamEnableDisable
  refine ⟨fun n s gs h => ?_, fun n s hm hw ha hr h1 => ?_, fun n s ha => ?_⟩
  · intro b hm hw ha hr hp
    obtain ⟨e, he, hst, hhbm, h1, h1B, h1C, hk, hin, hout⟩ := enabled_parts n.isLt hw ha hr hp
    refine ⟨e, by rw [exec_streamEnable hm, he], ?_, ?_, congrArg Hbm.pool hhbm, h1, h1B, h1C, ?_, ?_, ?_, ?_, hk, hin, hout⟩
    all_goals rw [hst]; rfl
  · exact ⟨_, exec_streamEnable hm, refused_parts n.isLt hw ha hr h1⟩
  · exact ⟨_, exec_streamDisable n s, closed_parts n.isLt ha⟩

end Sys2Proof.Machine
end

section
/-! The quality bit of a frame (R380): a table that lists one frame twice keeps the second entry when the first is taken away. -/

namespace Sys2Proof.Machine

/-- A result frame of stream 0 waits, and the table of quality bits lists frame 0 of stream 0 twice: RESULT_FRAME takes away the
first entry, and the second one is found after it. -/
def twiceMarkedState : State :=
  { State.reset with dev := { State.reset.dev with
      berths := [(0, { unitSlot := some 1, slots := [(1, { image := some { bind := { resHeader := 0, resBody := 1 } } })] })]
      ends := [(0, { tokens := [{ data := 0 }] }), (1, { tokens := [{ data := 0 }] })]
      quality := [(0, true), (0, true)] } }

theorem quality_twiceMarked : Tab.get false (resultFrame twiceMarkedState.dev 0).quality 0 = true := by decide +kernel

/-- Units that have not switched take a whole frame at the result queues by `resultFrame`. -/
theorem exec_resultFrame {b : Fin 4} {s : State} (hm : (coOf s.dev b.val).marksSent = false)
    (hh : (endAt s.dev (runBind s.dev b.val).resHeader).tokens ≠ [])
    (hb : (runBind s.dev b.val).resSlots + 1 ≤ (endAt s.dev (runBind s.dev b.val).resBody).tokens.length) :
    exec (.resultFrame b) s = .next { s with dev := resultFrame s.dev b.val } := by
  have hsw : managerSwitched s.dev b.val = false := by simp [managerSwitched, feederSwitched, hm]
  change execResultFrame b s = _
  rw [execResultFrame, onDev_eq, hsw, onUnits, if_neg Bool.false_ne_true, guarded, if_pos (by simp [hh, hb])]

/-- Refutes O32: the frame's quality bit is still set after its records have been offered. -/
theorem not_queueManagerFrames : ¬ Obligations.QueueManagerFrames := by
  unfold Obligations.QueueManagerFrames
  rintro ⟨-, -, -, -, -, h, -⟩
  obtain ⟨d, hd, -, -, hq, -⟩ := h 0 twiceMarkedState { data := 0 } [] (by decide +kernel) (by decide +kernel) (by decide +kernel)
    (by decide +kernel) (by decide +kernel) (by decide +kernel)
  rw [exec_resultFrame (by decide +kernel) (by decide +kernel) (by decide +kernel)] at hd
  injection hd with hd
  have hsame : resultFrame twiceMarkedState.dev 0 = d := congrArg State.dev hd
  rw [← hsame] at hq
  exact absurd (quality_twiceMarked.symm.trans hq) (by decide)

end Sys2Proof.Machine
end

section
/-! Decoded and raw pictures (R350 to R354, R358): the decode slices' commands, and the descriptors and copies of raw streams. -/

namespace Sys2Proof.Machine

/-! Decode slices -/

/-- The stream behind a decode slice that has finished. -/
def sliceFreed (d : Device) (n : Nat) : Device := modStream d n (fun st => { st with slice := 0, inDecode := none, stale := false })

/-- The slices of a berth, and of the stream's own berth, take their next units. -/
def slicesStarted (d : Device) (b n : Nat) : Device :=
  if strmBerth (startDecodes d b) n = b then startDecodes d b else startDecodes (startDecodes d b) (strmBerth (startDecodes d b) n)

/-- What the unit on the slice leaves: a unit of a stream that was disabled meanwhile is dropped. -/
def unitDone (d : Device) (n : Nat) (st : Stream) : Device :=
  match st.inDecode with
  | none => sliceFreed d n
  | some a => if st.active && !st.stale then decodeUnit (popUnit (sliceFreed d n) n) n a else sliceFreed d n

theorem decodeComplete_eq {d : Device} {b slice n : Nat} {st : Stream} (h : d.streams.find? (fun p => onSlice b slice p.2) = some (n, st)) :
    decodeComplete d b slice = slicesStarted (unitDone d n st) b n := by
  rw [decodeComplete, h]
  rfl

theorem unitDone_unit {d : Device} {n : Nat} {st : Stream} {a : AccessUnit} (ha : st.inDecode = some a) (hact : st.active = true)
    (hst : st.stale = false) : unitDone d n st = decodeUnit (popUnit (sliceFreed d n) n) n a := by
  rw [unitDone, ha]
  dsimp only
  rw [hact, hst, if_pos (by rfl)]

theorem unitDone_dropped {d : Device} {n : Nat} {st : Stream} (hst : st.active = false ∨ st.stale = true) : unitDone d n st = sliceFreed d n := by
  rw [unitDone]
  split
  · rfl
  · exact if_neg (by obtain h | h := hst <;> simp [h])

theorem exec_decodeComplete (b : Fin 4) (slice : Fin 18) (s : State) :
    exec (.decodeComplete b slice) s = .next { s with dev := decodeComplete s.dev b.val slice.val } := rfl

/-- A slice that has run for too long is reported. -/
theorem exec_decodeSliceTimeout {b : Fin 4} {slice : Fin 18} {s : State} {n : Nat} {st : Stream} {a : AccessUnit}
    (h : s.dev.streams.find? (fun p => onSlice b.val slice.val p.2) = some (n, st)) (ha : st.inDecode = some a)
    (ht : st.decodeFrom + 4 * decodeCounts s.dev n a + 100000 ≤ s.dev.time) : exec (.decodeSliceTimeout b slice) s =
      .next { s with dev := berthReport s.dev b.val 17 (tag 6 b.val slice.val) (tag 6 b.val slice.val) n } := by
  change execDecodeSliceTimeout b slice s = _
  rw [execDecodeSliceTimeout, onDev_eq, h]
  dsimp only
  rw [ha]
  dsimp only
  rw [msCounts, if_pos (by omega)]

/-- A unit without a start point is skipped while the stream waits for one. -/
theorem decodeUnit_waiting {d : Device} {n : Nat} {a : AccessUnit} (h : odGet d (0x2400 + n) 0x1B = 1 ∨ odGet d (0x2400 + n) 0x1B = 3)
    (ha : a.rap = false) : decodeUnit d n a = skipUnit d n := by
  rw [decodeUnit]
  refine if_pos ?_
  change (decide (odGet d (0x2400 + n) 0x1B = 1) || decide (odGet d (0x2400 + n) 0x1B = 3)) && !a.rap
  obtain h | h := h <;> simp [h, ha]

/-! Raw pictures -/

section
variable {d : Device} {n : Nat} {v : BitVec 512}

theorem rawDescriptor_marker (h : fld v 7 0 = 0xFE) : rawDescriptor d n v = consumeItem d (odGet d (0x2400 + n) 0x11) 1 true :=
  if_pos (decide_eq_true h)

theorem rawDescriptor_bad (h : fld v 7 0 ≠ 0xFE) (hb : rawBad d n v = true) :
    rawDescriptor d n v = odAdd (consumeItem d (odGet d (0x2400 + n) 0x11) 1 false) (0x2400 + n) 0x28 1 :=
  (if_neg (fun hm => h (of_decide_eq_true hm))).trans (if_pos hb)

theorem rawDescriptor_good (h : fld v 7 0 ≠ 0xFE) (hb : rawBad d n v = false) :
    rawDescriptor d n v = modStream d n (fun st => { st with raw := some (v, d.time) }) :=
  (if_neg (fun hm => h (of_decide_eq_true hm))).trans (if_neg (by rw [hb]; exact Bool.false_ne_true))

end

theorem exec_rawDescriptor {n : Fin 1024} {v : BitVec 512} {s : State} (hr : rawReady s.dev n.val = true) (hn : (streamAt s.dev n.val).raw = none) :
    exec (.rawDescriptor n v) s = .next { s with dev := rawDescriptor s.dev n.val v } := by
  change execRawDescriptor n v s = _
  rw [execRawDescriptor, onDev_eq, guarded, if_pos (by rw [hr, hn]; rfl)]

theorem exec_rawCopyComplete {n : Fin 1024} {pic : List Byte} {s : State} {v : BitVec 512} {at_ : Nat}
    (h : (streamAt s.dev n.val).raw = some (v, at_)) : exec (.rawCopyComplete n pic) s = .next { s with dev :=
      (let d := setStreamState (modStream s.dev n.val (fun st => { st with raw := none })) n.val 2
       consumeItem (pushPicture d n.val { rawPicture v pic with cap := if rawCap v = 0 then at_ else rawCap v }) (strm d n.val 0x11) 1 false) } := by
  change execRawCopyComplete n pic s = _
  rw [execRawCopyComplete, onDev_eq, h]

/-- A full picture queue drops the picture and numbers it. -/
theorem streamAt_pushPicture_full {d : Device} {n : Nat} {p : Picture} (h : odGet d (0x2400 + n) 0x14 ≤ (streamAt d n).pics.length) :
    streamAt (pushPicture d n p) n = { streamAt d n with inq := ringDrop (streamAt d n).inq (waitKey d n (streamAt d n).pics.length) } := by
  rw [pushPicture]
  dsimp only
  rw [if_pos (show strm d n 0x14 ≤ (streamAt d n).pics.length from h), streamAt_odAdd, dropInput, streamAt_modStream_same]

/-- Settles O30: what decode slices and raw descriptors do. -/
theorem picturesArrive : Obligations.PicturesArrive := by
  unfold Obligations.PicturesArrive
  refine ⟨⟨fun b slice s n st a h ha hact hst => ?_, fun b slice s n st h hst => ?_, fun b slice s n st a h ha ht => ?_, fun d n a h ha => ?_⟩,
    fun n v s hr hn => ⟨fun hm => ?_, fun hm hb => ?_, fun hm hb => ?_⟩, fun n pic s v at_ h => ?_, fun d n p h => ?_⟩
  · rw [exec_decodeComplete, decodeComplete_eq h, unitDone_unit ha hact hst]
    rfl
  · rw [exec_decodeComplete, decodeComplete_eq h, unitDone_dropped hst]
    rfl
  · exact ⟨_, _, exec_decodeSliceTimeout h ha ht, rfl, rfl, rfl, rfl, rfl⟩
  · exact decodeUnit_waiting h ha
  · rw [exec_rawDescriptor hr hn, rawDescriptor_marker hm]
  · rw [exec_rawDescriptor hr hn, rawDescriptor_bad hm hb]
  · refine ⟨_, exec_rawDescriptor hr hn, ?_⟩
    rw [rawDescriptor_good hm hb, streamAt_modStream_same]
    exact ⟨rfl, rfl, rfl⟩
  · exact exec_rawCopyComplete h
  · rw [streamAt_pushPicture_full h]
    exact ⟨rfl, rfl⟩

end Sys2Proof.Machine
end

section
/-! The frame feeder (R355 to R357): the tokens of a frame at their ends, the frame-store entry, and the first-frame marks. -/

namespace Sys2Proof.Machine

/-! Ends without credit -/

/-- An end without credit, where everything that waits is a token and no mark. -/
def Waits (d : Device) (k : Nat) : Prop := (endAt d k).cred = 0 ∧ ∀ t ∈ (endAt d k).tokens, isMark t = false

/-- Without credit nothing leaves. -/
theorem pumpEnd_waits {d : Device} {k : Nat} (h : Waits d k) (n : Nat) : pumpEnd n d k = d := by
  cases n with
  | zero => rfl
  | succ n =>
    obtain ⟨hc, ht⟩ := h
    rw [pumpEnd]
    split
    · rfl
    next t ts hts => rw [ht t (hts ▸ List.mem_cons_self), if_neg Bool.false_ne_true, if_pos hc]

/-- What leaves an end changes that end and the links alone. -/
theorem pumpEnd_frame (n : Nat) (d : Device) (k : Nat) : OnlyEnds d (pumpEnd n d k) ∧ ∀ j, j ≠ k → endAt (pumpEnd n d k) j = endAt d j := by
  induction n generalizing d with
  | zero => exact ⟨.refl d, fun _ _ => rfl⟩
  | succ n ih =>
    have hstep : ∀ (x : UEnd) (f : ShFlit), OnlyEnds d (pumpEnd n (sendShuttle (setEnd d k x) f) k) ∧
        ∀ j, j ≠ k → endAt (pumpEnd n (sendShuttle (setEnd d k x) f) k) j = endAt d j := by
      intro x f
      obtain ⟨ho, he⟩ := ih (sendShuttle (setEnd d k x) f)
      have hs := onlyLinks_sendShuttle (setEnd d k x) f
      exact ⟨((onlyEnds_setEnd d k x).trans hs.onlyEnds).trans ho, fun j hj => by rw [he j hj, hs.endAt, endAt_setEnd_other _ _ hj]⟩
    rw [pumpEnd]
    split
    · exact ⟨.refl d, fun _ _ => rfl⟩
    · split
      · exact hstep _ _
      · split
        · exact ⟨.refl d, fun _ _ => rfl⟩
        · exact hstep _ _

theorem sendEnd_frame (d : Device) (k : Nat) (ts : List Token) : OnlyEnds d (sendEnd d k ts) ∧ ∀ j, j ≠ k → endAt (sendEnd d k ts) j = endAt d j := by
  obtain ⟨ho, he⟩ := pumpEnd_frame ((endAt d k).tokens.length + ts.length) (setEnd d k { endAt d k with tokens := (endAt d k).tokens ++ ts }) k
  exact ⟨(onlyEnds_setEnd d k _).trans ho, fun j hj => (he j hj).trans (endAt_setEnd_other _ _ hj)⟩

/-- Tokens sent to an end without credit wait there. -/
theorem sendEnd_waits {d : Device} {k : Nat} {ts : List Token} (h : Waits d k) (ht : ∀ t ∈ ts, isMark t = false) :
    (endAt (sendEnd d k ts) k).tokens = (endAt d k).tokens ++ ts ∧ Waits (sendEnd d k ts) k := by
  have hend := endAt_setEnd_same d k { endAt d k with tokens := (endAt d k).tokens ++ ts }
  have hw : Waits (setEnd d k { endAt d k with tokens := (endAt d k).tokens ++ ts }) k := by
    rw [Waits, hend]
    refine ⟨h.1, fun t hm => ?_⟩
    obtain hm | hm := List.mem_append.mp hm
    · exact h.2 t hm
    · exact ht t hm
  have hsend : sendEnd d k ts = setEnd d k { endAt d k with tokens := (endAt d k).tokens ++ ts } := pumpEnd_waits hw _
  rw [hsend]
  exact ⟨congrArg UEnd.tokens hend, hw⟩

theorem Waits.congr {d e : Device} {k : Nat} (h : Waits d k) (he : endAt e k = endAt d k) : Waits e k := by
  rw [Waits, he]
  exact h

/-- Work in steps that each put tokens behind what waits at an end. -/
theorem foldl_appends {P : Device → Prop} {f : Device → Nat → Device} {k : Nat} {g : Nat → List Token} (hP : ∀ d s, P d → P (f d s))
    (hg : ∀ d s, P d → Waits d k → (endAt (f d s) k).tokens = (endAt d k).tokens ++ g s ∧ Waits (f d s) k) (l : List Nat) {d : Device} (hd : P d)
    (hw : Waits d k) : (endAt (l.foldl f d) k).tokens = (endAt d k).tokens ++ l.flatMap g := by
  induction l generalizing d with
  | nil => simp
  | cons s l ih =>
    obtain ⟨ht, hw'⟩ := hg d s hd hw
    rw [List.foldl_cons, ih (hP d s hd) hw', ht, List.flatMap_cons, List.append_assoc]

/-! One stripe (R357) -/

/-- Ends, links and reports alone differ. -/
def OnlyFed (d e : Device) : Prop := ∃ m n h, e = { d with links := m, ends := n, hub := h }

theorem OnlyFed.refl (d : Device) : OnlyFed d d := ⟨_, _, _, rfl⟩

theorem OnlyFed.trans {d e f : Device} : OnlyFed d e → OnlyFed e f → OnlyFed d f := by
  rintro ⟨_, _, _, rfl⟩ ⟨_, _, _, rfl⟩
  exact ⟨_, _, _, rfl⟩

theorem OnlyEnds.fed {d e : Device} : OnlyEnds d e → OnlyFed d e := by
  rintro ⟨_, _, rfl⟩
  exact ⟨_, _, _, rfl⟩

theorem OnlyHub.fed {d e : Device} : OnlyHub d e → OnlyFed d e := by
  rintro ⟨_, rfl⟩
  exact ⟨_, _, _, rfl⟩

theorem OnlyFed.berthAt {d e : Device} (h : OnlyFed d e) (b : Nat) : berthAt e b = berthAt d b := by
  obtain ⟨_, _, _, rfl⟩ := h
  rfl

/-- The sideband of a stripe's tokens. -/
def stripeSb (e : FsEntry) (ep : BitVec 2) (s : Nat) : Sideband :=
  { v := true, e := ep, f := BitVec.ofNat 12 (e.fcount + BitVec.ofNat 32 s).toNat }

/-- The frame-header token of a stripe. -/
def stripeHeader (n : Nat) (ep : BitVec 2) (e : FsEntry) (replay : Bool) (s : Nat) : Token :=
  { data := headerPayload e.cap e.rtpts (e.fcount + BitVec.ofNat 32 s) s e.stripes n (e.first && decide (s = 0)) e.concealed replay
    sb := { stripeSb e ep s with l := true } }

/-- The scale token and the data tokens of a stripe whose payloads are `ts`. -/
def stripeCode (n : Nat) (u : UnitBind) (ep : BitVec 2) (e : FsEntry) (s : Nat) (ts : List (Payload × Bool)) : List Token :=
  { data := inputScale u n (e.fcount + BitVec.ofNat 32 s), sb := { stripeSb e ep s with s := true, l := ts.isEmpty } } ::
    ts.zipIdx.map (fun p => { data := p.1.1, sb := { stripeSb e ep s with p := p.1.2, l := decide (p.2 + 1 = ts.length) } })

/-- Payloads of a stripe as HBM holds them. -/
def stripeData (h : Hbm) (e : FsEntry) (u : UnitBind) (s : Nat) : List (Payload × Bool) :=
  stripeTokens h e u (s / max (bindCols u) 1) (s % max (bindCols u) 1)

theorem isMark_valid {t : Token} (h : t.sb.v = true) : isMark t = false := by simp [isMark, h]

theorem stripeCode_noMark (n : Nat) (u : UnitBind) (ep : BitVec 2) (e : FsEntry) (s : Nat) (ts : List (Payload × Bool)) :
    ∀ t ∈ stripeCode n u ep e s ts, isMark t = false := by
  intro t ht
  refine isMark_valid ?_
  obtain rfl | ht := List.mem_cons.mp ht
  · rfl
  · obtain ⟨p, -, rfl⟩ := List.mem_map.mp ht
    rfl

section
variable {b n : Nat} {u : UnitBind} {ep : BitVec 2} {e : FsEntry} {replay : Bool}

/-- A stripe before its code tokens: the header and core tokens sent, and the reports of its rows. -/
def stripeBegun (d : Device) (b n : Nat) (u : UnitBind) (ep : BitVec 2) (e : FsEntry) (replay : Bool) (s : Nat) : Device :=
  let r := s / max (bindCols u) 1
  let c := s % max (bindCols u) 1
  let d := sendEnd d u.headerEnd [stripeHeader n ep e replay s]
  let d := match u.sideEnd with
    | none => d
    | some k => sendEnd d k [{ data := corePayload u r c, sb := { stripeSb e ep s with l := true } }]
  (stripeRows e u r c).foldl (fun d a => hbmRangeNote d b a (3 * min u.wd u.wi)) d

/-- The core token of a stripe goes to an end of its own. -/
def sideSent (d : Device) (u : UnitBind) (t : Token) : Device :=
  match u.sideEnd with
  | none => d
  | some k => sendEnd d k [t]

theorem sideSent_frame (d : Device) (u : UnitBind) (t : Token) : OnlyEnds d (sideSent d u t) ∧
    ∀ j, u.sideEnd ≠ some j → endAt (sideSent d u t) j = endAt d j := by
  rw [sideSent]
  split
  · exact ⟨.refl d, fun _ _ => rfl⟩
  next k hk =>
    obtain ⟨ho, he⟩ := sendEnd_frame d k [t]
    exact ⟨ho, fun j hj => he j fun h => hj (h ▸ hk)⟩

theorem onlyHub_rowsNoted (d : Device) (b w : Nat) (l : List Nat) : OnlyHub d (l.foldl (fun d a => hbmRangeNote d b a w) d) :=
  OnlyHub.foldl (fun d a => onlyHub_hbmRangeNote d b a w) l d

theorem stripeBegun_frame (d : Device) (s : Nat) : OnlyFed d (stripeBegun d b n u ep e replay s) ∧
    ∀ j, u.sideEnd ≠ some j → endAt (stripeBegun d b n u ep e replay s) j = endAt (sendEnd d u.headerEnd [stripeHeader n ep e replay s]) j := by
  obtain ⟨h1, -⟩ := sendEnd_frame d u.headerEnd [stripeHeader n ep e replay s]
  obtain ⟨h2, e2⟩ := sideSent_frame (sendEnd d u.headerEnd [stripeHeader n ep e replay s]) u
    { data := corePayload u (s / max (bindCols u) 1) (s % max (bindCols u) 1), sb := { stripeSb e ep s with l := true } }
  have h3 := onlyHub_rowsNoted (sideSent (sendEnd d u.headerEnd [stripeHeader n ep e replay s]) u
    { data := corePayload u (s / max (bindCols u) 1) (s % max (bindCols u) 1), sb := { stripeSb e ep s with l := true } }) b (3 * min u.wd u.wi)
    (stripeRows e u (s / max (bindCols u) 1) (s % max (bindCols u) 1))
  exact ⟨(h1.fed.trans h2.fed).trans h3.fed, fun j hj => (h3.endAt j).trans (e2 j hj)⟩

theorem feedStripe_eq (d : Device) (s : Nat) : feedStripe d b n u ep e replay s =
    sendEnd (stripeBegun d b n u ep e replay s) u.codeEnd (stripeCode n u ep e s (stripeData (berthAt d b).hbm e u s)) := by
  have hside : ∀ t, berthAt (sideSent (sendEnd d u.headerEnd [stripeHeader n ep e replay s]) u t) b = berthAt d b := fun t =>
    ((sideSent_frame _ u t).1.berthAt b).trans ((sendEnd_frame d u.headerEnd _).1.berthAt b)
  rw [← hside { data := corePayload u (s / max (bindCols u) 1) (s % max (bindCols u) 1), sb := { stripeSb e ep s with l := true } }]
  rfl

theorem onlyFed_feedStripe (d : Device) (s : Nat) : OnlyFed d (feedStripe d b n u ep e replay s) := by
  rw [feedStripe_eq]
  exact (stripeBegun_frame d s).1.trans (sendEnd_frame _ _ _).1.fed

/-- The header end gets the stripe's frame-header token. -/
theorem feedStripe_header {d : Device} (hne : u.headerEnd ≠ u.codeEnd) (hside : u.sideEnd ≠ some u.headerEnd) (s : Nat) (hw : Waits d u.headerEnd) :
    (endAt (feedStripe d b n u ep e replay s) u.headerEnd).tokens = (endAt d u.headerEnd).tokens ++ [stripeHeader n ep e replay s] ∧
      Waits (feedStripe d b n u ep e replay s) u.headerEnd := by
  obtain ⟨ht, hw'⟩ := sendEnd_waits hw (ts := [stripeHeader n ep e replay s]) (fun t h => by rw [List.mem_singleton.mp h]; exact isMark_valid rfl)
  have hend : endAt (feedStripe d b n u ep e replay s) u.headerEnd = endAt (sendEnd d u.headerEnd [stripeHeader n ep e replay s]) u.headerEnd := by
    rw [feedStripe_eq, (sendEnd_frame _ _ _).2 _ hne, (stripeBegun_frame d s).2 _ hside]
  exact ⟨(congrArg UEnd.tokens hend).trans ht, hw'.congr hend⟩

/-- The code end gets the stripe's scale token and data tokens. -/
theorem feedStripe_code {d : Device} (hne : u.headerEnd ≠ u.codeEnd) (hside : u.sideEnd ≠ some u.codeEnd) (s : Nat) (hw : Waits d u.codeEnd) :
    (endAt (feedStripe d b n u ep e replay s) u.codeEnd).tokens =
        (endAt d u.codeEnd).tokens ++ stripeCode n u ep e s (stripeData (berthAt d b).hbm e u s) ∧
      Waits (feedStripe d b n u ep e replay s) u.codeEnd := by
  have hend : endAt (stripeBegun d b n u ep e replay s) u.codeEnd = endAt d u.codeEnd := by
    rw [(stripeBegun_frame d s).2 _ hside, (sendEnd_frame _ _ _).2 _ hne.symm]
  rw [feedStripe_eq]
  obtain ⟨ht, hw'⟩ := sendEnd_waits (hw.congr hend) (stripeCode_noMark n u ep e s (stripeData (berthAt d b).hbm e u s))
  exact ⟨by rw [ht, hend], hw'⟩

/-! A frame -/

/-- Every stripe of an entry sent. -/
def stripesFed (d : Device) (b n : Nat) (u : UnitBind) (ep : BitVec 2) (e : FsEntry) (replay : Bool) : Device :=
  (List.range e.stripes).foldl (fun d s => feedStripe d b n u ep e replay s) d

theorem onlyFed_stripesFed (d : Device) : OnlyFed d (stripesFed d b n u ep e replay) := by
  rw [stripesFed]
  generalize List.range e.stripes = l
  induction l generalizing d with
  | nil => exact .refl d
  | cons s l ih => exact (onlyFed_feedStripe d s).trans (ih _)

theorem stripesFed_header {d : Device} (hw : (endAt d u.headerEnd).tokens = [] ∧ (endAt d u.headerEnd).cred = 0) (hne : u.headerEnd ≠ u.codeEnd)
    (hside : u.sideEnd ≠ some u.headerEnd) :
    (endAt (stripesFed d b n u ep e replay) u.headerEnd).tokens = (List.range e.stripes).map (stripeHeader n ep e replay) := by
  have h := foldl_appends (P := fun _ => True) (f := fun d s => feedStripe d b n u ep e replay s) (g := fun s => [stripeHeader n ep e replay s])
    (fun _ _ _ => trivial) (fun d s _ hw => feedStripe_header hne hside s hw) (List.range e.stripes) (d := d) trivial
    ⟨hw.2, fun t ht => by rw [hw.1] at ht; exact absurd ht List.not_mem_nil⟩
  rw [hw.1, List.nil_append] at h
  exact h.trans List.map_eq_flatMap.symm

theorem stripesFed_code {d : Device} (hw : (endAt d u.codeEnd).tokens = [] ∧ (endAt d u.codeEnd).cred = 0) (hne : u.headerEnd ≠ u.codeEnd)
    (hside : u.sideEnd ≠ some u.codeEnd) : (endAt (stripesFed d b n u ep e replay) u.codeEnd).tokens =
      (List.range e.stripes).flatMap (fun s => stripeCode n u ep e s (stripeData (berthAt d b).hbm e u s)) := by
  have h := foldl_appends (P := fun x => (berthAt x b).hbm = (berthAt d b).hbm) (f := fun d s => feedStripe d b n u ep e replay s)
    (g := fun s => stripeCode n u ep e s (stripeData (berthAt d b).hbm e u s))
    (fun x s hx => by rw [(onlyFed_feedStripe x s).berthAt, hx]) (fun x s hx hw => by rw [← hx]; exact feedStripe_code hne hside s hw)
    (List.range e.stripes) (d := d) rfl ⟨hw.2, fun t ht => by rw [hw.1] at ht; exact absurd ht List.not_mem_nil⟩
  rw [hw.1, List.nil_append] at h
  exact h

end

/-! The first-frame marks and the entry (R96, R357) -/

theorem markFirst_first {n : Nat} {e : FsEntry} (h : e.first = true) (m : Tab Nat) : markFirst n e m = Tab.set m n (e.fcount.toNat % 4096) := if_pos h

/-- The marks of a list of berths. -/
def berthsMarked (n : Nat) (e : FsEntry) (js : List Nat) (d : Device) : Device :=
  js.foldl (fun d j => modBerth d j (fun x => { x with first := markFirst n e x.first })) d

theorem onlyBerths_berthsMarked (n : Nat) (e : FsEntry) (js : List Nat) (d : Device) : OnlyBerths d (berthsMarked n e js d) :=
  OnlyBerths.foldl (fun d j => onlyBerths_modBerth d j _) js d

theorem berthAt_berthsMarked (n : Nat) (e : FsEntry) (js : List Nat) (d : Device) (b : Nat) :
    ∃ f, berthAt (berthsMarked n e js d) b = { berthAt d b with first := f } := by
  induction js generalizing d with
  | nil => exact ⟨_, rfl⟩
  | cons j js ih =>
    obtain ⟨f, hf⟩ := ih (modBerth d j (fun x => { x with first := markFirst n e x.first }))
    by_cases hb : b = j
    · subst hb
      rw [berthAt_modBerth_same] at hf
      exact ⟨f, hf⟩
    · rw [berthAt_modBerth_other _ _ hb] at hf
      exact ⟨f, hf⟩

/-- A first frame is marked on every berth of the list. -/
theorem first_berthsMarked {n : Nat} {e : FsEntry} (he : e.first = true) (js : List Nat) (d : Device) {b : Nat}
    (h : b ∈ js ∨ Tab.find (berthAt d b).first n = some (e.fcount.toNat % 4096)) :
    Tab.find (berthAt (berthsMarked n e js d) b).first n = some (e.fcount.toNat % 4096) := by
  induction js generalizing d with
  | nil => exact h.resolve_left List.not_mem_nil
  | cons j js ih =>
    refine ih (modBerth d j (fun x => { x with first := markFirst n e x.first })) ?_
    by_cases hb : b = j
    · subst hb
      rw [berthAt_modBerth_same, markFirst_first he]
      exact .inr (Tab.find_set_same _ _ _)
    · rw [berthAt_modBerth_other _ _ hb]
      exact h.imp_left fun h => (List.mem_cons.mp h).resolve_left hb

/-- The entry as it stands after it has been fed. -/
def entryFed (e : FsEntry) (replay : Bool) (ep : BitVec 2) : FsEntry := { e with fed := e.stripes, replay := false, replaying := replay, epoch := ep }

/-- Berths that the running image occupies (R319). -/
def feedBerths (d : Device) (b : Nat) : List Nat := pipelineBerths d b ((berthAt d b).unitSlot.getD (runSlot d b))

/-- The device with the entry noted as fed and the marks set. -/
def entryNoted (d : Device) (b n : Nat) (e : FsEntry) (replay : Bool) : Device :=
  berthsMarked n e (feedBerths d b) (putEntry d n (entryFed e replay (unitEpoch d b)))

/-- What feeding an entry leaves of every part that it touches. -/
theorem feedEntry_parts (d : Device) (b n : Nat) (u : UnitBind) (e : FsEntry) (replay : Bool) : ∃ x,
    x = stripesFed (entryNoted d b n e replay) b n u (unitEpoch d b) e replay ∧ (∀ k, endAt (feedEntry d b n u e replay) k = endAt x k) ∧
      (feedEntry d b n u e replay).streams = Tab.set d.streams n { streamAt d n with
        entries := (streamAt d n).entries.map (fun y => if y.fcount = e.fcount then entryFed e replay (unitEpoch d b) else y) } ∧
      (feedEntry d b n u e replay).queues = d.queues ∧ (feedEntry d b n u e replay).hostMem = d.hostMem ∧
      (∀ j, ∃ i c f, berthAt (feedEntry d b n u e replay) j = { berthAt d j with idleSince := i, co := c, first := f }) ∧
      (e.first = true → ∀ j ∈ feedBerths d b, Tab.find (berthAt (feedEntry d b n u e replay) j).first n = some (e.fcount.toNat % 4096)) := by
  obtain ⟨m, hm⟩ := onlyBerths_berthsMarked n e (feedBerths d b) (putEntry d n (entryFed e replay (unitEpoch d b)))
  obtain ⟨l, en, h, hx⟩ := onlyFed_stripesFed (b := b) (n := n) (u := u) (ep := unitEpoch d b) (e := e) (replay := replay) (entryNoted d b n e replay)
  have hfeed : ∃ g, feedEntry d b n u e replay = (if (coOf d b).firstPending then setCo g b { coOf g b with firstPending := false } else g) ∧
      g = modBerth (stripesFed (entryNoted d b n e replay) b n u (unitEpoch d b) e replay) b (fun x => { x with
        idleSince := (stripesFed (entryNoted d b n e replay) b n u (unitEpoch d b) e replay).time }) := ⟨_, rfl, rfl⟩
  obtain ⟨g, hfeed, hg⟩ := hfeed
  have hgf : OnlyBerths (stripesFed (entryNoted d b n e replay) b n u (unitEpoch d b) e replay) (feedEntry d b n u e replay) := by
    rw [hfeed, hg]
    split
    · exact (onlyBerths_modBerth _ _ _).trans (onlyBerths_setCo _ _ _)
    · exact onlyBerths_modBerth _ _ _
  obtain ⟨mm, hall⟩ := hgf
  have hnoted : entryNoted d b n e replay = { putEntry d n (entryFed e replay (unitEpoch d b)) with berths := m } := hm
  have hberth : ∀ j, ∃ i c, berthAt (feedEntry d b n u e replay) j = { berthAt (entryNoted d b n e replay) j with idleSince := i, co := c } := by
    intro j
    have hs : berthAt (stripesFed (entryNoted d b n e replay) b n u (unitEpoch d b) e replay) j = berthAt (entryNoted d b n e replay) j :=
      (onlyFed_stripesFed _).berthAt j
    have hgj : ∃ i, berthAt g j = { berthAt (entryNoted d b n e replay) j with idleSince := i } := by
      rw [hg]
      by_cases hj : j = b
      · subst hj
        rw [berthAt_modBerth_same, hs]
        exact ⟨_, rfl⟩
      · rw [berthAt_modBerth_other _ _ hj, hs]
        exact ⟨_, rfl⟩
    obtain ⟨i, hi⟩ := hgj
    rw [hfeed]
    split
    · by_cases hj : j = b
      · subst hj
        rw [setCo, berthAt_modBerth_same, hi]
        exact ⟨_, _, rfl⟩
      · rw [setCo, berthAt_modBerth_other _ _ hj, hi]
        exact ⟨_, _, rfl⟩
    · rw [hi]
      exact ⟨_, _, rfl⟩
  refine ⟨_, rfl, fun k => ?_, ?_, ?_, ?_, fun j => ?_, fun he j hj => ?_⟩
  · rw [hall]
    rfl
  · rw [hall, hx, hnoted]
    rfl
  · rw [hall, hx, hnoted]
    rfl
  · rw [hall, hx, hnoted]
    rfl
  · obtain ⟨i, c, hic⟩ := hberth j
    obtain ⟨f, hf⟩ := berthAt_berthsMarked n e (feedBerths d b) (putEntry d n (entryFed e replay (unitEpoch d b))) j
    rw [hic, entryNoted, hf]
    exact ⟨i, c, f, rfl⟩
  · obtain ⟨i, c, hic⟩ := hberth j
    rw [hic]
    exact first_berthsMarked he (feedBerths d b) (putEntry d n (entryFed e replay (unitEpoch d b))) (.inl hj)

end Sys2Proof.Machine
end

section
/-! New and repeated frames at the feeder (R258 to R260, R355 to R357, R428). -/

namespace Sys2Proof.Machine

/-! A repair that is not replaying -/

theorem repairProgress_idle {d : Device} {b : Nat} (hr : (berthAt d b).repair.replaying = false) (hc : (berthAt d b).repair.catching = false) :
    repairProgress d b = d := by
  unfold repairProgress
  dsimp only
  rw [hr, Bool.false_and, if_neg Bool.false_ne_true, hc, Bool.false_and, if_neg Bool.false_ne_true]

/-! A frame fed again -/

/-- The device before a repeated frame is fed: the repair's counters. -/
def replayCounted (d : Device) (b : Nat) (e : FsEntry) : Device :=
  let r := (berthAt d b).repair
  let d := if r.active then odAdd d (0x8020 + b) 5 e.stripes else d
  if r.active && !r.fed then
    odPut (setRepair d b { r with fed := true }) (0x8020 + b) 6 (min ((d.time - r.since) / 100) top32)
  else d

theorem feedReplay_eq (d : Device) (b n : Nat) (u : UnitBind) (e : FsEntry) : feedReplay d b n u e = feedEntry (replayCounted d b e) b n u e true := rfl

/-- What counting leaves: the berth's repair record apart from `fed`, and every object but the two counters. -/
theorem replayCounted_parts (d : Device) (b : Nat) (e : FsEntry) : (∃ m o, replayCounted d b e = { d with berths := m, od := o }) ∧
    (∀ j, berthAt (replayCounted d b e) j = berthAt d j ∨
      berthAt (replayCounted d b e) j = { berthAt d j with repair := { (berthAt d j).repair with fed := true } }) ∧
    ∀ i s, s ≠ 5 → s ≠ 6 → s < 256 → odGet (replayCounted d b e) i s = odGet d i s := by
  unfold replayCounted
  dsimp only
  have hadd : ∀ i s, s ≠ 5 → s < 256 → odGet (if (berthAt d b).repair.active then odAdd d (0x8020 + b) 5 e.stripes else d) i s = odGet d i s := by
    intro i s h5 hs
    split
    · exact odGet_odAdd_other _ _ (by omega)
    · rfl
  have hb : (if (berthAt d b).repair.active then odAdd d (0x8020 + b) 5 e.stripes else d).berths = d.berths := by
    split <;> rfl
  have hframe : ∃ o, (if (berthAt d b).repair.active then odAdd d (0x8020 + b) 5 e.stripes else d) = { d with od := o } := by
    split
    · exact ⟨_, rfl⟩
    · exact ⟨_, rfl⟩
  obtain ⟨o, ho⟩ := hframe
  generalize (if (berthAt d b).repair.active then odAdd d (0x8020 + b) 5 e.stripes else d) = x at hadd hb ho ⊢
  have hx : ∀ j, berthAt x j = berthAt d j := fun j => by rw [berthAt, hb, berthAt]
  split
  · refine ⟨⟨_, _, by rw [ho]; rfl⟩, fun j => ?_, fun i s h5 h6 hs => ?_⟩
    · rw [berthAt_odPut, setRepair]
      by_cases hj : j = b
      · subst hj
        rw [berthAt_modBerth_same, hx]
        exact .inr rfl
      · rw [berthAt_modBerth_other _ _ hj, hx]
        exact .inl rfl
    · rw [odGet_odPut_other _ _ (by omega)]
      exact hadd i s h5 hs
  · exact ⟨⟨d.berths, o, ho⟩, fun j => .inl (hx j), fun i s h5 _ hs => hadd i s h5 hs⟩

/-- The slot that a berth's units act on, its epoch and the berths of its pipeline, from what they are read of. -/
theorem feedSource_congr {d e : Device} {b : Nat} (hco : (berthAt e b).co = (berthAt d b).co) (hu : (berthAt e b).unitSlot = (berthAt d b).unitSlot)
    (hs : (berthAt e b).slots = (berthAt d b).slots) (ho : ∀ i s, s = 1 ∨ s = 4 → odGet e i s = odGet d i s) :
    unitEpoch e b = unitEpoch d b ∧ feedBerths e b = feedBerths d b := by
  have hrun : runSlot e b = runSlot d b := ho _ _ (.inl rfl)
  refine ⟨?_, ?_⟩
  · rw [unitEpoch, actsIncoming, hco, hu, berthEpoch, ho _ _ (.inr rfl), unitEpoch, actsIncoming, berthEpoch]
  · rw [feedBerths, hu, hrun, pipelineBerths, slotAt, hs, feedBerths, pipelineBerths, slotAt]

theorem replayCounted_source (d : Device) (b : Nat) (e : FsEntry) :
    unitEpoch (replayCounted d b e) b = unitEpoch d b ∧ feedBerths (replayCounted d b e) b = feedBerths d b := by
  obtain ⟨-, hb, ho⟩ := replayCounted_parts d b e
  refine feedSource_congr ?_ ?_ ?_ fun i s h => ho i s (by omega) (by omega) (by omega) <;>
  · obtain h | h := hb b <;> rw [h]

/-! A new frame -/

/-- The frame-store entry of a new frame. -/
def newEntry (d : Device) (n : Nat) (u : UnitBind) (p : Picture) : FsEntry :=
  { addr := (streamAt d n).fsBase + (streamAt d n).fsNext % max (strm d n 0x15) 1 * (streamAt d n).fsBytes
    size := (streamAt d n).fsBytes
    fcount := (streamAt d n).fcount
    stripes := bindStripes u
    cap := p.cap
    rtpts := p.rtpts
    first := !(streamAt d n).firstDone
    concealed := p.concealed
    width := u.wd
    height := u.hd }

/-- HBM with a new frame's entry: its header and its rows. -/
def entryWritten (h : Hbm) (d : Device) (n : Nat) (u : UnitBind) (p : Picture) : Hbm :=
  let e := newEntry d n u p
  writeEntryRows (hbmWriteBytes h e.addr (fsHeader n u.wd u.hd e.stripes e.cap e.fcount e.first)) p
    (colourOf (strm d n 0x16) (strm d n 0x17) p.vuiMatrix p.vuiRange) u e.addr

/-- The stream that has given its head picture to the feeder. -/
def pictureTaken (d : Device) (n : Nat) (u : UnitBind) (p : Picture) : Stream :=
  { streamAt d n with
    pics := (streamAt d n).pics.drop 1
    inq := innerTake (streamAt d n).inq.entries (streamAt d n).inq
    fcount := (streamAt d n).fcount + BitVec.ofNat 32 (bindStripes u)
    firstDone := true
    fsNext := ((streamAt d n).fsNext + 1) % max (strm d n 0x15) 1
    entries := (streamAt d n).entries ++ [newEntry d n u p] }

/-- The device before a new frame is fed: its entry stored, its picture taken and its stripes counted. -/
def newStored (d : Device) (b n : Nat) (u : UnitBind) (p : Picture) : Device :=
  odAdd (setStream (modBerth d b (fun x => { x with hbm := entryWritten x.hbm d n u p })) n (pictureTaken d n u p)) (0x2400 + n) 0x27 (bindStripes u)

theorem feedNew_eq (d : Device) (b n : Nat) (u : UnitBind) (p : Picture) : feedNew d b n u p = feedEntry (newStored d b n u p) b n u (newEntry d n u p) false := rfl

theorem berthAt_newStored_same (d : Device) (b n : Nat) (u : UnitBind) (p : Picture) :
    berthAt (newStored d b n u p) b = { berthAt d b with hbm := entryWritten (berthAt d b).hbm d n u p } := by
  change berthAt (modBerth d b (fun x => { x with hbm := entryWritten x.hbm d n u p })) b = _
  rw [berthAt_modBerth_same]

theorem berthAt_newStored_other (d : Device) {b j : Nat} (n : Nat) (u : UnitBind) (p : Picture) (h : j ≠ b) :
    berthAt (newStored d b n u p) j = berthAt d j := by
  change berthAt (modBerth d b (fun x => { x with hbm := entryWritten x.hbm d n u p })) j = _
  rw [berthAt_modBerth_other _ _ h]

theorem newStored_streams (d : Device) (b n : Nat) (u : UnitBind) (p : Picture) :
    (newStored d b n u p).streams = Tab.set d.streams n (pictureTaken d n u p) ∧ streamAt (newStored d b n u p) n = pictureTaken d n u p :=
  ⟨rfl, streamAt_setStream_same _ _ _⟩

theorem streamAt_newStored_other (d : Device) (b : Nat) {n k : Nat} (u : UnitBind) (p : Picture) (h : k ≠ n) :
    streamAt (newStored d b n u p) k = streamAt d k := by
  rw [streamAt, (newStored_streams d b n u p).1, Tab.get_set_other _ _ _ h, streamAt]

theorem newStored_source (d : Device) (b n : Nat) (u : UnitBind) (p : Picture) :
    unitEpoch (newStored d b n u p) b = unitEpoch d b ∧ feedBerths (newStored d b n u p) b = feedBerths d b := by
  have hb := berthAt_newStored_same d b n u p
  refine feedSource_congr ?_ ?_ ?_ fun i s h => odGet_odAdd_other (j := i) (t := s) _ _ (by omega) <;> rw [hb]

/-! The bytes of a frame-store entry -/

theorem length_rowBytes (p : Picture) (k : Colour) (wd hd : Nat) (bgr : Bool) (y : Nat) : (rowBytes p k wd hd bgr y).length = 3 * wd := by
  have hpix : ∀ x, (pixelOf p k wd hd bgr x y).length = 3 := by
    intro x
    unfold pixelOf
    dsimp only
    rw [List.length_map]
    split <;> rfl
  simp [rowBytes, List.length_flatMap, hpix, Nat.mul_comm]

theorem row_fits (w : Nat) : 3 * w ≤ fsPitch w := by
  rw [fsPitch]
  omega

/-- The first rows of an entry written. -/
def rowsWritten (h : Hbm) (p : Picture) (k : Colour) (u : UnitBind) (addr m : Nat) : Hbm :=
  (List.range m).foldl (fun h y => hbmWriteBytes h (addr + 64 + y * fsPitch u.wd) (rowBytes p k u.wd u.hd u.bgr y)) h

theorem rowsWritten_succ (h : Hbm) (p : Picture) (k : Colour) (u : UnitBind) (addr m : Nat) : rowsWritten h p k u addr (m + 1) =
    hbmWriteBytes (rowsWritten h p k u addr m) (addr + 64 + m * fsPitch u.wd) (rowBytes p k u.wd u.hd u.bgr m) := by
  rw [rowsWritten, List.range_succ, List.foldl_append]
  rfl

/-- The rows stand one pitch apart, and nothing else changes. -/
theorem rowsWritten_parts {h : Hbm} (hm : memWf h.mem = true) (p : Picture) (k : Colour) (u : UnitBind) (addr m : Nat) :
    memWf (rowsWritten h p k u addr m).mem = true ∧
      (∀ y < m, memReadBytes (rowsWritten h p k u addr m).mem (addr + 64 + y * fsPitch u.wd) (3 * u.wd) = rowBytes p k u.wd u.hd u.bgr y) ∧
      ∀ a, a < addr + 64 ∨ addr + 64 + m * fsPitch u.wd ≤ a → memRead (rowsWritten h p k u addr m).mem a = memRead h.mem a := by
  induction m with
  | zero => exact ⟨hm, fun y hy => absurd hy (Nat.not_lt_zero y), fun _ _ => rfl⟩
  | succ m ih =>
    obtain ⟨hwf, hrows, hout⟩ := ih
    have hlen := length_rowBytes p k u.wd u.hd u.bgr m
    have hfit := row_fits u.wd
    have hread : ∀ a, memRead (rowsWritten h p k u addr (m + 1)).mem a =
        if addr + 64 + m * fsPitch u.wd ≤ a ∧ a < addr + 64 + m * fsPitch u.wd + 3 * u.wd
        then (rowBytes p k u.wd u.hd u.bgr m).getD (a - (addr + 64 + m * fsPitch u.wd)) 0 else memRead (rowsWritten h p k u addr m).mem a := by
      intro a
      rw [rowsWritten_succ, ← hlen]
      exact memRead_memWriteBytes _ _ _ hwf
    have hsucc : (m + 1) * fsPitch u.wd = m * fsPitch u.wd + fsPitch u.wd := Nat.succ_mul _ _
    refine ⟨?_, fun y hy => ?_, fun a ha => ?_⟩
    · rw [rowsWritten_succ]
      exact memWf_hbmWriteBytes _ _ _ hwf
    · obtain hlt | rfl := Nat.lt_succ_iff_lt_or_eq.mp hy
      · have hgap : y * fsPitch u.wd + fsPitch u.wd ≤ m * fsPitch u.wd := by
          rw [← Nat.succ_mul]
          exact Nat.mul_le_mul_right _ hlt
        rw [← hrows y hlt]
        exact memReadBytes_congr fun a h1 h2 => (hread a).trans (if_neg (by omega))
      · rw [rowsWritten_succ, ← hlen]
        exact memReadBytes_memWriteBytes _ _ hwf
    · rw [hread, if_neg (by omega)]
      exact hout a (by omega)

/-- What an entry holds, and that nothing outside it changes. -/
theorem entryBytes_parts {h : Hbm} (hm : memWf h.mem = true) (addr : Nat) {hdr : List Byte} (hlen : hdr.length = 64) (p : Picture) (k : Colour) (u : UnitBind) :
    memReadBytes (rowsWritten (hbmWriteBytes h addr hdr) p k u addr u.hd).mem addr 64 = hdr ∧
      (∀ y < u.hd, memReadBytes (rowsWritten (hbmWriteBytes h addr hdr) p k u addr u.hd).mem (addr + 64 + y * fsPitch u.wd) (3 * u.wd) =
        rowBytes p k u.wd u.hd u.bgr y) ∧
      ∀ a, a < addr ∨ addr + 64 + u.hd * fsPitch u.wd ≤ a →
        memRead (rowsWritten (hbmWriteBytes h addr hdr) p k u addr u.hd).mem a = memRead h.mem a := by
  obtain ⟨-, hrows, hout⟩ := rowsWritten_parts (memWf_hbmWriteBytes h addr hdr hm) p k u addr u.hd
  refine ⟨?_, hrows, fun a ha => ?_⟩
  · rw [memReadBytes_congr fun x _ hx => hout x (.inl hx), ← hlen]
    exact memReadBytes_memWriteBytes _ _ hm
  · rw [hout a (by omega), hbmWriteBytes, memRead_memWriteBytes _ _ _ hm, hlen, if_neg (by omega)]

theorem entryWritten_eq (h : Hbm) (d : Device) (n : Nat) (u : UnitBind) (p : Picture) : entryWritten h d n u p =
    rowsWritten (hbmWriteBytes h (newEntry d n u p).addr (fsHeader n u.wd u.hd (newEntry d n u p).stripes (newEntry d n u p).cap
      (newEntry d n u p).fcount (newEntry d n u p).first)) p (colourOf (strm d n 0x16) (strm d n 0x17) p.vuiMatrix p.vuiRange) u
      (newEntry d n u p).addr u.hd := rfl

theorem length_fsHeader (n w h m c : Nat) (fc : U32) (f : Bool) : (fsHeader n w h m c fc f).length = 64 := leBytes_length _ _

/-! The feeder's command -/

theorem exec_feederFrameStart {b : Fin 4} {s : State} (hr : feederReady s.dev b.val = true) (hm : (coOf s.dev b.val).marksSent = false) :
    exec (.feederFrameStart b) s = .next { s with dev := feederFrame s.dev b.val } := by
  have hsw : feederSwitched s.dev b.val = false := by simp [feederSwitched, hm]
  change execFeederFrameStart b s = _
  rw [execFeederFrameStart, onDev_eq, guarded, if_pos hr, hsw]
  rfl

theorem feederFrame_replay {d : Device} {b n : Nat} {e : FsEntry} (h : nextReplay d b = some (n, e)) :
    feederFrame d b = repairProgress (feedReplay d b n (runBind d b) e) b := by
  unfold feederFrame
  dsimp only
  rw [h]

theorem feederFrame_new {d : Device} {b n : Nat} {p : Picture} (h : nextReplay d b = none) (hp : nextPicture d b = some (n, p)) :
    feederFrame d b = repairProgress (feedNew d b n (runBind d b) p) b := by
  unfold feederFrame
  dsimp only
  rw [h]
  dsimp only
  rw [hp]

/-! What a fed frame leaves -/

/-- The part of the settled statement that repeated and new frames share, for a device `c` that has been made ready for the entry. -/
theorem fed_parts {c d : Device} {b n : Nat} {u : UnitBind} {e : FsEntry} {replay : Bool} (hends : ∀ k, endAt c k = endAt d k)
    (hep : unitEpoch c b = unitEpoch d b) (hpb : feedBerths c b = feedBerths d b) (hst : ∀ k, k ≠ n → streamAt c k = streamAt d k)
    (htile : ∀ j, (berthAt c j).tiles = (berthAt d j).tiles) (hq : c.queues = d.queues) (hh : c.hostMem = d.hostMem) :
    let x := feedEntry c b n u e replay
    let ep := unitEpoch d b
    ((endAt d u.headerEnd).tokens = [] ∧ (endAt d u.headerEnd).cred = 0 → u.headerEnd ≠ u.codeEnd → u.sideEnd ≠ some u.headerEnd →
        (endAt x u.headerEnd).tokens = (List.range e.stripes).map (stripeHeader n ep e replay)) ∧
      ((endAt d u.codeEnd).tokens = [] ∧ (endAt d u.codeEnd).cred = 0 → u.headerEnd ≠ u.codeEnd → u.sideEnd ≠ some u.codeEnd →
        (endAt x u.codeEnd).tokens = (List.range e.stripes).flatMap (fun s => stripeCode n u ep e s (stripeData (berthAt x b).hbm e u s))) ∧
      (e.first = true → ∀ j ∈ feedBerths d b, Tab.find (berthAt x j).first n = some (e.fcount.toNat % 4096)) ∧
      (∀ k, k ≠ n → streamAt x k = streamAt d k) ∧ (∀ j k, tileAt x j k = tileAt d j k) ∧ x.queues = d.queues ∧ x.hostMem = d.hostMem := by
  intro x ep
  obtain ⟨y, hy, hend, hstr, hqueue, hhost, hberth, hfirst⟩ := feedEntry_parts c b n u e replay
  rw [hep] at hy
  obtain ⟨m, hm⟩ := onlyBerths_berthsMarked n e (feedBerths c b) (putEntry c n (entryFed e replay (unitEpoch c b)))
  have hnoted : ∀ k, endAt (entryNoted c b n e replay) k = endAt d k := fun k => by
    rw [entryNoted, hm]
    exact hends k
  have hhbm : (berthAt (entryNoted c b n e replay) b).hbm = (berthAt x b).hbm := by
    obtain ⟨f, hf⟩ := berthAt_berthsMarked n e (feedBerths c b) (putEntry c n (entryFed e replay (unitEpoch c b))) b
    obtain ⟨i, co, f', hx⟩ := hberth b
    rw [entryNoted, hf, hx]
    rfl
  refine ⟨fun hw hne hside => ?_, fun hw hne hside => ?_, fun he j hj => ?_, fun k hk => ?_, fun j k => ?_, hqueue.trans hq, hhost.trans hh⟩
  · rw [hend, hy]
    exact stripesFed_header (by rw [hnoted]; exact hw) hne hside
  · rw [hend, hy, ← hhbm]
    exact stripesFed_code (by rw [hnoted]; exact hw) hne hside
  · exact hfirst he j (hpb ▸ hj)
  · rw [← hst k hk, streamAt, hstr]
    exact Tab.get_set_other _ _ _ hk
  · obtain ⟨i, co, f, hx⟩ := hberth j
    rw [tileAt, hx, tileAt, ← htile j]

/-- Feeding an entry leaves HBM and the repair as they were. -/
theorem feedEntry_keeps (c : Device) (b n : Nat) (u : UnitBind) (e : FsEntry) (replay : Bool) :
    (berthAt (feedEntry c b n u e replay) b).hbm = (berthAt c b).hbm ∧ (berthAt (feedEntry c b n u e replay) b).repair = (berthAt c b).repair := by
  obtain ⟨-, -, -, -, -, -, hberth, -⟩ := feedEntry_parts c b n u e replay
  obtain ⟨i, co, f, hx⟩ := hberth b
  rw [hx]
  exact ⟨rfl, rfl⟩

theorem streamAt_feedEntry (c : Device) (b n : Nat) (u : UnitBind) (e : FsEntry) (replay : Bool) : streamAt (feedEntry c b n u e replay) n =
    { streamAt c n with entries := (streamAt c n).entries.map (fun y => if y.fcount = e.fcount then entryFed e replay (unitEpoch c b) else y) } := by
  obtain ⟨-, -, -, hstr, -⟩ := feedEntry_parts c b n u e replay
  rw [streamAt, hstr]
  exact Tab.get_set_same _ _ _ _

theorem streamAt_feedNew (d : Device) (b n : Nat) (u : UnitBind) (p : Picture) : streamAt (feedNew d b n u p) n =
    { pictureTaken d n u p with entries := ((streamAt d n).entries ++ [newEntry d n u p]).map (fun y =>
        if y.fcount = (newEntry d n u p).fcount then entryFed (newEntry d n u p) false (unitEpoch d b) else y) } := by
  rw [feedNew_eq, streamAt_feedEntry, (newStored_streams d b n u p).2, (newStored_source d b n u p).1]
  rfl

section
variable {b : Fin 4} {s : State} {n : Nat}

/-- A repeated frame fed while no repair replays or catches up. -/
theorem exec_replay (hr : feederReady s.dev b.val = true) (hrep : (berthAt s.dev b.val).repair.replaying = false)
    (hcat : (berthAt s.dev b.val).repair.catching = false) (hm : (coOf s.dev b.val).marksSent = false) {e : FsEntry}
    (h : nextReplay s.dev b.val = some (n, e)) : exec (.feederFrameStart b) s =
      .next { s with dev := feedEntry (replayCounted s.dev b.val e) b.val n (runBind s.dev b.val) e true } := by
  have hrepair : (berthAt (replayCounted s.dev b.val e) b.val).repair.replaying = false ∧
      (berthAt (replayCounted s.dev b.val e) b.val).repair.catching = false := by
    obtain h | h := (replayCounted_parts s.dev b.val e).2.1 b.val <;> rw [h]
    · exact ⟨hrep, hcat⟩
    · exact ⟨hrep, hcat⟩
  have hkeep := (feedEntry_keeps (replayCounted s.dev b.val e) b.val n (runBind s.dev b.val) e true).2
  rw [exec_feederFrameStart hr hm, feederFrame_replay h, feedReplay_eq, repairProgress_idle (by rw [hkeep]; exact hrepair.1) (by rw [hkeep]; exact hrepair.2)]

/-- A new frame fed while no repair replays or catches up. -/
theorem exec_new (hr : feederReady s.dev b.val = true) (hrep : (berthAt s.dev b.val).repair.replaying = false)
    (hcat : (berthAt s.dev b.val).repair.catching = false) (hm : (coOf s.dev b.val).marksSent = false) {p : Picture}
    (h : nextReplay s.dev b.val = none) (hp : nextPicture s.dev b.val = some (n, p)) : exec (.feederFrameStart b) s =
      .next { s with dev := feedNew s.dev b.val n (runBind s.dev b.val) p } := by
  have hrepair : (berthAt (feedNew s.dev b.val n (runBind s.dev b.val) p) b.val).repair = (berthAt s.dev b.val).repair := by
    rw [feedNew_eq, (feedEntry_keeps _ _ _ _ _ _).2, berthAt_newStored_same]
  rw [exec_feederFrameStart hr hm, feederFrame_new h hp, repairProgress_idle (by rw [hrepair]; exact hrep) (by rw [hrepair]; exact hcat)]

end

/-- Settles O31: which frame the feeder feeds, and what a repeated and a new one leave. -/
theorem feederFrames : Obligations.FeederFrames := by
  unfold Obligations.FeederFrames
  refine ⟨fun b s n e hr hm h => ?_, fun b s n p hr hm h hp => ?_, fun d b n u p => ?_, fun b s n hr hrep hcat hm => ⟨fun e h => ?_, fun p h hp => ?_⟩⟩
  · rw [exec_feederFrameStart hr hm, feederFrame_replay h]
  · rw [exec_feederFrameStart hr hm, feederFrame_new h hp]
  · dsimp only
    rw [streamAt_feedNew]
    refine ⟨rfl, rfl, rfl, ?_⟩
    rw [List.length_map, List.length_append]
    rfl
  · obtain ⟨⟨m, o, hc⟩, hcb, -⟩ := replayCounted_parts s.dev b.val e
    obtain ⟨hep, hpb⟩ := replayCounted_source s.dev b.val e
    have hst : ∀ k, streamAt (replayCounted s.dev b.val e) k = streamAt s.dev k := fun k => by rw [hc]; rfl
    have hfed := fed_parts (u := runBind s.dev b.val) (e := e) (replay := true) (n := n) (c := replayCounted s.dev b.val e)
      (fun k => by rw [hc]; rfl) hep hpb (fun k _ => hst k) (fun j => by obtain h | h := hcb j <;> rw [h]) (by rw [hc]) (by rw [hc])
    refine ⟨_, exec_replay hr hrep hcat hm h, hfed, ?_, ?_, ?_, ?_⟩
    · rw [streamAt_feedEntry, hst, hep]
      rfl
    · rw [streamAt_feedEntry, hst]
    · rw [streamAt_feedEntry, hst]
    · rw [(feedEntry_keeps _ _ _ _ _ _).1]
      obtain h | h := hcb b.val <;> rw [h]
  · obtain ⟨hep, hpb⟩ := newStored_source s.dev b.val n (runBind s.dev b.val) p
    have hfed := fed_parts (d := s.dev) (u := runBind s.dev b.val) (e := newEntry s.dev n (runBind s.dev b.val) p) (replay := false) (n := n)
      (c := newStored s.dev b.val n (runBind s.dev b.val) p) (fun _ => rfl) hep hpb
      (fun k hk => streamAt_newStored_other _ _ _ _ hk)
      (fun j => by
        by_cases hj : j = b.val
        · rw [hj, berthAt_newStored_same]
        · rw [berthAt_newStored_other _ _ _ _ hj]) rfl rfl
    have hhbm : (berthAt (feedNew s.dev b.val n (runBind s.dev b.val) p) b.val).hbm =
        entryWritten (berthAt s.dev b.val).hbm s.dev n (runBind s.dev b.val) p := by
      rw [feedNew_eq, (feedEntry_keeps _ _ _ _ _ _).1, berthAt_newStored_same]
    refine ⟨_, exec_new hr hrep hcat hm h hp, hfed, ?_, ?_, ?_, fun hwf => ?_⟩
    · rw [streamAt_feedNew]
      rfl
    · rw [streamAt_feedNew]
      rfl
    · rw [streamAt_feedNew]
      rfl
    · rw [hhbm, entryWritten_eq]
      exact entryBytes_parts hwf _ (length_fsHeader _ _ _ _ _ _ _) p _ _

end Sys2Proof.Machine
end

section
/-!
# The sequencer's own events (02: Step table and sequencer, 11: The adaptation budget)

What a step's end leaves of its tile: its pops move ring pointers, and its producers' credits move, but block memory, banks and the
steps in flight stay.
-/
namespace Sys2Proof.Machine

/-! What pops leave of a tile -/

/-- A tile without its planes. -/
def bare (t : Tile) : Tile := { t with planes := [] }

@[simp] theorem bare_setPlane (t : Tile) (k : Nat) (p : Plane) : bare (setPlane t k p) = bare t := rfl

theorem bare_creditTile (k : Nat) (dest : BitVec 14) (n : Nat) (t : Tile) : bare (creditTile k dest n t) = bare t := by
  unfold creditTile
  dsimp only
  split <;> rfl

theorem tileAt_modTile_berth (d : Device) {b c : Nat} (k m : Nat) (f : Tile → Tile) (h : c ≠ b) :
    tileAt (modTile d b k f) c m = tileAt d c m :=
  tileAt_setTile_berth d k m _ h

theorem bare_modTile {d : Device} {b k : Nat} {f : Tile → Tile} (hf : ∀ t, bare (f t) = bare t) (c m : Nat) :
    bare (tileAt (modTile d b k f) c m) = bare (tileAt d c m) := by
  by_cases hc : c = b
  · subst hc
    by_cases hm : m = k
    · subst hm
      rw [tileAt_modTile_same, hf]
    · rw [tileAt_modTile_other _ _ _ hm]
  · rw [tileAt_modTile_berth _ _ _ _ hc]

theorem bare_creditBack (d : Device) (b key k iq n c m : Nat) : bare (tileAt (creditBack d b key k iq n) c m) = bare (tileAt d c m) := by
  unfold creditBack
  dsimp only
  split
  · rfl
  · split
    · by_cases hc : c = b
      · subst hc
        rw [tileAt, berthAt_modBerth_same]
        have h := Tab.get_map (creditTile k (tileDest (key / 32) (logicalRow d c key) iq) n) {} (berthAt d c).tiles m
        exact (congrArg bare h).trans (bare_creditTile _ _ _ _)
      · rw [tileAt, berthAt_modBerth_other _ _ hc]
        rfl
    · refine congrArg (fun m' => bare (Tab.get {} m' m)) (tiles_onUnits (f := fun d => _) fun d => ?_)
      split
      · rfl
      · split <;> rfl

theorem bare_popRing (d : Device) (b key k iq n c m : Nat) : bare (tileAt (popRing d b key k iq n) c m) = bare (tileAt d c m) := by
  unfold popRing
  split
  · rfl
  · dsimp only
    rw [bare_creditBack]
    refine bare_modTile (fun t => ?_) c m
    rfl

/-! A step's completion -/

theorem retireQueue_pops {f : InFlight} (hband : f.band = false) (d : Device) (b key k iq n : Nat) :
    retireQueue d b key k f iq n = popRing d b key k iq n := by
  rw [retireQueue, hband]
  rfl

theorem popRing_zero (d : Device) (b key k iq : Nat) : popRing d b key k iq 0 = d := rfl

/-- The tile whose step f has ended, before its pops. -/
def endedTile (f : InFlight) (t : Tile) : Tile := { t with
  inflight := t.inflight.erase f
  bud := if f.budget then t.bud - f.cycles else t.bud }

/-- The device where step f has ended and popped the units of its input queue A. -/
def stepEnded (d : Device) (b key : Nat) (f : InFlight) : Device :=
  popRing (modTile d b key (endedTile f)) b key (tileAt d b key).run f.iqa f.na

theorem tileAt_finishStep {f : InFlight} (hb : f.nb = 0) (hs : f.ns = 0) (hband : f.band = false) (d : Device) (b key : Nat) :
    tileAt (finishStep d b key f) b key = tileAt (stepEnded d b key f) b key := by
  unfold finishStep
  dsimp only
  rw [hb, hs, retireQueue_pops hband, retireQueue_pops hband, retireQueue_pops hband, popRing_zero, popRing_zero]
  split <;> rfl

theorem bare_stepEnded (d : Device) (b key : Nat) (f : InFlight) :
    bare (tileAt (stepEnded d b key f) b key) = bare (endedTile f (tileAt d b key)) := by
  rw [stepEnded, bare_popRing, tileAt_modTile_same]

theorem iqAt_stepEnded {d : Device} {b key : Nat} {f : InFlight} (hna : f.na ≠ 0) :
    iqAt (planeAt (tileAt (stepEnded d b key f) b key) (tileAt d b key).run) f.iqa =
      ringAfterPop (iqAt (planeAt (tileAt d b key) (tileAt d b key).run) f.iqa) f.na := by
  rw [stepEnded, iqAt_popRing _ _ _ _ _ hna, tileAt_modTile_same]
  rfl

/-- The device after the end of step f, which waits until its last unit has been sent. -/
def stepEnd (d : Device) (b key : Nat) (f : InFlight) : Device :=
  if berthLive d b && confirmed f then finishStep d b key f else d

theorem exec_stepComplete {t : TileId} {c : Fin 4} {u : ExecUnit} {s : State} {f : InFlight}
    (hf : oldestFlight (tileAt s.dev t.b.val (keyOf s.dev t)) c.val u = some f) : exec (.stepComplete t c u) s =
      .next { s with dev := stepEnd s.dev t.b.val (keyOf s.dev t) f } := by
  change execStepComplete t c u s = _
  rw [execStepComplete, onDev_eq]
  dsimp only
  rw [hf]
  rfl

/-! The watchdog -/

/-- The tile whose watchdog has reported step f. -/
def watchedTile (f : InFlight) (t : Tile) : Tile :=
  { t with inflight := t.inflight.map (fun g => if g = f then { g with watched := true } else g) }

/-- The device whose watchdog has reported step f of context c. -/
def stepWatched (d : Device) (b key c : Nat) (f : InFlight) : Device :=
  berthReport (modTile d b key (watchedTile f)) b 4 (physTag d b key) (physTag d b key) c

theorem physTag_modTile (d : Device) (b key : Nat) (f : Tile → Tile) : physTag (modTile d b key f) b key = physTag d b key := by
  rw [physTag, physTag]
  rfl

theorem exec_watchdog {t : TileId} {c : Fin 4} {u : ExecUnit} {s : State} {f : InFlight}
    (hf : watchdogFlight (tileAt s.dev t.b.val (keyOf s.dev t)) c.val u (berthAt s.dev t.b.val).fclk = some f) :
    exec (.sequencerWatchdog t c u) s = .next { s with dev := stepWatched s.dev t.b.val (keyOf s.dev t) c.val f } := by
  change execSequencerWatchdog t c u s = _
  rw [execSequencerWatchdog, onDev_eq]
  dsimp only
  rw [hf, stepWatched]
  rfl

/-! Acknowledgements and the budget -/

/-- The berth without its pending acknowledgement of context c. -/
def ackTaken (key c : Nat) (x : Berth) : Berth := { x with rerunAcks := x.rerunAcks.erase (key, c) }

/-- The tile whose context c no longer waits for an acknowledgement. -/
def ackedTile (c : Nat) (t : Tile) : Tile :=
  setPlane t t.run (setCtx (planeAt t t.run) c { ctxAt (planeAt t t.run) c with ackWait := false })

theorem exec_rerunAck {t : TileId} {c : Fin 4} {s : State}
    (hmem : (keyOf s.dev t, c.val) ∈ (berthAt s.dev t.b.val).rerunAcks) : exec (.rerunAck t c) s =
      .next { s with dev := modTile (modBerth s.dev t.b.val (ackTaken (keyOf s.dev t) c.val)) t.b.val (keyOf s.dev t) (ackedTile c.val) } := by
  change execRerunAck t c s = _
  rw [execRerunAck, onDev_eq]
  dsimp only
  rw [if_pos (List.contains_iff_mem.2 hmem)]
  rfl

/-- The tile whose budget has been refilled. -/
def refilledTile (t : Tile) : Tile :=
  { t with bud := min (t.bud + ((planeAt t t.run).adapt.adq : Int)) ((planeAt t t.run).adapt.adq : Int) }

theorem exec_budgetRefill {t : TileId} {s : State} (hlive : berthLive s.dev t.b.val = true) : exec (.budgetRefill t) s =
    .next { s with dev := modTile s.dev t.b.val (keyOf s.dev t) refilledTile } := by
  change execBudgetRefill t s = _
  rw [execBudgetRefill, onDev_eq, if_pos hlive]
  rfl

/-! The obligation -/

theorem rerunAcks_modTile (d : Device) (b key : Nat) (f : Tile → Tile) :
    (berthAt (modTile d b key f) b).rerunAcks = (berthAt d b).rerunAcks := by
  rw [modTile, setTile, berthAt_modBerth_same]

theorem tiles_ackTaken (d : Device) (b key c m : Nat) : tileAt (modBerth d b (ackTaken key c)) b m = tileAt d b m := by
  rw [tileAt, berthAt_modBerth_same]
  rfl

/-- Settles O15, one event at a time. -/
theorem sequencerEvents : Obligations.SequencerEvents := by
  unfold Obligations.SequencerEvents
  dsimp only
  refine ⟨fun t c u s f hlive hf hsent hnb hns hband => ?_, fun t c u s f hf hsent => ?_, fun t c u s f hf => ?_,
    fun t c s hmem => ?_, fun t s hlive => ?_⟩
  · refine ⟨_, exec_stepComplete hf, ?_⟩
    have hconf : confirmed f = true := decide_eq_true hsent
    rw [stepEnd, hlive, hconf, Bool.and_self, if_pos rfl]
    rw [tileAt_finishStep hnb hns hband]
    have hbare := bare_stepEnded s.dev t.b.val (keyOf s.dev t) f
    have hmem := congrArg Tile.mem hbare
    have hbanks := congrArg Tile.banks hbare
    refine ⟨congrArg Tile.inflight hbare, congrArg Tile.bud hbare, hmem, hbanks, ?_⟩
    obtain h0 | h0 := Nat.eq_zero_or_pos f.na
    · have hpop : stepEnded s.dev t.b.val (keyOf s.dev t) f = modTile s.dev t.b.val (keyOf s.dev t) (endedTile f) := by
        rw [stepEnded, h0, popRing_zero]
      rw [hpop, tileAt_modTile_same, h0]
      exact ⟨rfl, (BitVec.add_zero _).symm, fun h => absurd h (lt_irrefl 0)⟩
    · rw [iqAt_stepEnded (by omega)]
      exact ⟨rfl, rfl, fun _ => rfl⟩
  · rw [exec_stepComplete hf, stepEnd, confirmed, decide_eq_false hsent, Bool.and_false]
    rfl
  · refine ⟨_, _, exec_watchdog hf, rfl, rfl, rfl, rfl, rfl, ?_⟩
    exact congrArg Tile.inflight (tileAt_modTile_same s.dev t.b.val (keyOf s.dev t) (watchedTile f))
  · refine ⟨_, exec_rerunAck hmem, ?_, ?_, ?_⟩
    · rw [rerunAcks_modTile, berthAt_modBerth_same]
      rfl
    · rw [tileAt_modTile_same, tiles_ackTaken, ackedTile, planeAt_setPlane_same, ctxAt_setCtx_same]
    · rw [tileAt_modTile_same, tiles_ackTaken]
      rfl
  · refine ⟨_, exec_budgetRefill hlive, ?_, ?_, ?_⟩ <;> rw [tileAt_modTile_same] <;> rfl

end Sys2Proof.Machine
end

section
/-!
# Flits at a tile's router (02: The router, Spare tiles; 12: Epochs)
-/
namespace Sys2Proof.Machine

/-! A payload in block memory -/

theorem memWriteBytes_append (m : Mem) (a : Nat) (xs ys : List Byte) :
    memWriteBytes m a (xs ++ ys) = memWriteBytes (memWriteBytes m a xs) (a + xs.length) ys := by
  induction xs generalizing m a with
  | nil => rfl
  | cons x xs ih =>
    rw [List.cons_append, memWriteBytes, memWriteBytes, ih, List.length_cons, Nat.add_right_comm, Nat.add_assoc]

theorem leBytes_add (m n v : Nat) : leBytes (m + n) v = leBytes m v ++ leBytes n (v / 256 ^ m) := by
  induction m generalizing v with
  | zero => rw [Nat.zero_add, Nat.pow_zero, Nat.div_one]; rfl
  | succ m ih => rw [Nat.succ_add, leBytes, leBytes, ih, Nat.div_div_eq_div_mul, Nat.pow_succ', List.cons_append]

/-- The granule writes of port B that port A did not hinder. -/
def granuleWrites (a : Nat) (v : Nat) (n : Nat) (m : Mem) : Mem :=
  (List.range n).foldl (fun m i => memWriteBytes m (8 * (a / 8 + i)) (leBytes 8 (v / 2 ^ (64 * i)))) m

theorem granuleWrites_eq (a v n : Nat) (m : Mem) : granuleWrites a v n m = memWriteBytes m (8 * (a / 8)) (leBytes (8 * n) v) := by
  induction n with
  | zero => rfl
  | succ n ih =>
    have hpow : 256 ^ (8 * n) = 2 ^ (64 * n) := by
      rw [show 256 = 2 ^ 8 from rfl, ← Nat.pow_mul]
      congr 1
      omega
    rw [granuleWrites, List.range_succ, List.foldl_append, List.foldl_cons, List.foldl_nil]
    change memWriteBytes (granuleWrites a v n m) _ _ = _
    rw [ih, Nat.mul_succ, leBytes_add, memWriteBytes_append, leBytes_length, hpow, Nat.mul_add]

/-- One granule of a port B write. -/
def portBStep (a : Nat) (v : Payload) (r : Tile × List Nat) (i : Nat) : Tile × List Nat :=
  let g := a / 8 + i
  if r.1.portA.contains g then (r.1, r.2 ++ [g])
  else
    ({ r.1 with
      mem := memWriteBytes r.1.mem (8 * g) (leBytes 8 (v.toNat / 2 ^ (64 * i)))
      ecc := Tab.erase r.1.ecc g
      portB := g :: r.1.portB }, r.2)

theorem portBStep_free {a : Nat} {v : Payload} {r : Tile × List Nat} (h : r.1.portA = []) (i : Nat) :
    (portBStep a v r i).1.mem = memWriteBytes r.1.mem (8 * (a / 8 + i)) (leBytes 8 (v.toNat / 2 ^ (64 * i))) ∧
      (portBStep a v r i).1.portA = [] := by
  rw [portBStep, h]
  exact ⟨rfl, h⟩

theorem portBFold_free {a : Nat} {v : Payload} (l : List Nat) (r : Tile × List Nat) (h : r.1.portA = []) :
    (l.foldl (portBStep a v) r).1.mem =
      l.foldl (fun m i => memWriteBytes m (8 * (a / 8 + i)) (leBytes 8 (v.toNat / 2 ^ (64 * i)))) r.1.mem := by
  induction l generalizing r with
  | nil => rfl
  | cons i l ih => rw [List.foldl_cons, List.foldl_cons, ih _ (portBStep_free h i).2, (portBStep_free h i).1]

theorem portBWrite_mem {t : Tile} (h : t.portA = []) (a : Nat) (v : Payload) :
    (portBWrite t a v).1.mem = memWriteBytes t.mem (8 * (a / 8)) (leBytes 32 v.toNat) := by
  change ((List.range 4).foldl (portBStep a v) (t, [])).1.mem = _
  rw [portBFold_free _ _ h]
  exact granuleWrites_eq a v.toNat 4 t.mem

/-- A tile without its memory, its errors and the ports' notes of the cycle. -/
def outsideMemory (t : Tile) : Tile := { t with mem := [], ecc := [], portB := [] }

theorem outsideMemory_portBWrite (t : Tile) (a : Nat) (v : Payload) : outsideMemory (portBWrite t a v).1 = outsideMemory t := by
  change outsideMemory ((List.range 4).foldl (portBStep a v) (t, [])).1 = _
  generalize (List.range 4) = l
  generalize hr : (t, ([] : List Nat)) = r
  obtain rfl : t = r.1 := by rw [← hr]
  clear hr
  induction l generalizing r with
  | nil => rfl
  | cons i l ih =>
    rw [List.foldl_cons, ih, portBStep]
    dsimp only
    split <;> rfl

theorem slotAddr_granule (q : InQueue) (slot : Nat) : 8 * (slotAddr q slot / 8) = slotAddr q slot := by
  rw [slotAddr]
  omega

/-- A token's payload where it arrives: its 32 bytes, and no other byte of block memory. -/
theorem portBWrite_slot {t : Tile} (hA : t.portA = []) (hm : memWf t.mem = true) (q : InQueue) (slot : Nat) (v : Payload) :
    memReadNat (portBWrite t (slotAddr q slot) v).1.mem (slotAddr q slot) 32 = v.toNat ∧
    ∀ a, a < slotAddr q slot ∨ slotAddr q slot + 32 ≤ a → memRead (portBWrite t (slotAddr q slot) v).1.mem a = memRead t.mem a := by
  rw [portBWrite_mem hA, slotAddr_granule]
  refine ⟨?_, fun a ha => ?_⟩
  · have h := memReadNat_memWriteNat (slotAddr q slot) 32 v.toNat hm
    rw [memWriteNat] at h
    rw [h]
    exact Nat.mod_eq_of_lt (by have := v.isLt; omega)
  · rw [memRead_memWriteBytes _ _ _ hm, leBytes_length, if_neg (by omega)]

/-! Tiles outside their router -/

/-- A tile without its router's ports. -/
def core (t : Tile) : Tile := { t with ports := [], served := [], retries := 0 }

theorem core_modTile {d : Device} {b k : Nat} {f : Tile → Tile} (hf : ∀ t, core (f t) = core t) (c m : Nat) :
    core (tileAt (modTile d b k f) c m) = core (tileAt d c m) := by
  by_cases hc : c = b
  · subst hc
    by_cases hm : m = k
    · subst hm
      rw [tileAt_modTile_same, hf]
    · rw [tileAt_modTile_other _ _ _ hm]
  · rw [tileAt_modTile_berth _ _ _ _ hc]

/-! Ports -/

/-- A sending port of a tile's router. -/
def routerPort (d : Device) (b k p : Nat) : RouterPort := Tab.get {} (tileAt d b k).ports p

def modPort (d : Device) (b k p : Nat) (f : RouterPort → RouterPort) : Device :=
  modTile d b k (fun t => { t with ports := Tab.modify {} t.ports p f })

theorem routerPort_modPort_same (d : Device) (b k p : Nat) (f : RouterPort → RouterPort) :
    routerPort (modPort d b k p f) b k p = f (routerPort d b k p) := by
  rw [routerPort, modPort, tileAt_modTile_same]
  exact Tab.get_modify_same _ _ p f

theorem routerPort_modPort_other (d : Device) (b : Nat) {k p m q : Nat} (f : RouterPort → RouterPort) (h : m = k → q ≠ p) :
    routerPort (modPort d b k p f) b m q = routerPort d b m q := by
  rw [routerPort, modPort]
  by_cases hm : m = k
  · subst hm
    rw [tileAt_modTile_same]
    exact Tab.get_modify_other _ _ f (h rfl)
  · rw [tileAt_modTile_other _ _ _ hm]
    rfl

theorem core_modPort (d : Device) (b k p : Nat) (f : RouterPort → RouterPort) (c m : Nat) :
    core (tileAt (modPort d b k p f) c m) = core (tileAt d c m) := core_modTile (fun _ => by rfl) c m

theorem routerPort_modTile {d : Device} {b k : Nat} {f : Tile → Tile} (hf : ∀ t, (f t).ports = t.ports) (m q : Nat) :
    routerPort (modTile d b k f) b m q = routerPort d b m q := by
  rw [routerPort, routerPort]
  by_cases hm : m = k
  · subst hm
    rw [tileAt_modTile_same, hf]
  · rw [tileAt_modTile_other _ _ _ hm]

/-- The source's port after a flit has left it. -/
def flitTaken (r : RouterPort) : RouterPort := { r with queue := r.queue.drop 1, fails := 0 }
def failsEnded (r : RouterPort) : RouterPort := { r with fails := 0 }
def flitJoined (f : Flit) (r : RouterPort) : RouterPort := { r with queue := r.queue ++ [f] }
def flitFailed (n : Nat) (r : RouterPort) : RouterPort := { r with fails := n, faulted := r.faulted || decide (8 ≤ n) }

/-- The key of a position's own tile, whether or not a spare serves the position. -/
def ownKey (t : TileId) : Nat := tileKey t.col.val t.row.val

theorem queueFlit_eq (d : Device) (t : TileId) (o : Nat) (f : Flit) : queueFlit d t o f = modPort d t.b.val (ownKey t) o (flitJoined f) := rfl

theorem core_takeFlit (d : Device) (b : Nat) (src : FlitSource) (c m : Nat) : core (tileAt (takeFlit d b src) c m) = core (tileAt d c m) := by
  cases src with
  | tile k p => exact core_modPort d b k p flitTaken c m
  | station n => exact core_modPort { d with toTile := Tab.modify [] d.toTile n (List.drop 1) } b (tileKey (n % 20) 0) 6 failsEnded c m
  | nowhere => rfl

theorem core_servePort (d : Device) (t : TileId) (p : Port) (c m : Nat) : core (tileAt (servePort d t p) c m) = core (tileAt d c m) := by
  rw [servePort]
  split
  · rfl
  · exact core_modTile (fun _ => by rfl) c m

theorem sourceFlits_servePort (d : Device) (t : TileId) (p : Port) (src : FlitSource) :
    sourceFlits (servePort d t p) t.b.val src = sourceFlits d t.b.val src := by
  rw [servePort]
  split
  · rfl
  · cases src with
    | tile k q => exact congrArg RouterPort.queue (routerPort_modTile (fun _ => by rfl) k q)
    | station n => rfl
    | nowhere => rfl

theorem routerPort_servePort (d : Device) (t : TileId) (p : Port) (m q : Nat) :
    routerPort (servePort d t p) t.b.val m q = routerPort d t.b.val m q := by
  rw [servePort]
  split
  · rfl
  · exact routerPort_modTile (fun _ => by rfl) m q

theorem sourceFlits_takeFlit (d : Device) (b : Nat) (src : FlitSource) :
    sourceFlits (takeFlit d b src) b src = (sourceFlits d b src).drop 1 := by
  cases src with
  | tile k p => exact congrArg RouterPort.queue (routerPort_modPort_same d b k p flitTaken)
  | station n => exact Tab.get_modify_same _ _ n _
  | nowhere => rfl

/-- A flit that leaves its source leaves every other output below the relay lane as it was. -/
theorem routerPort_takeFlit (d : Device) (b : Nat) {src : FlitSource} {k o : Nat} (h : src ≠ .tile k o) (ho : o ≤ 3) :
    routerPort (takeFlit d b src) b k o = routerPort d b k o := by
  cases src with
  | tile m p => exact routerPort_modPort_other d b flitTaken fun hk ho => h (by rw [hk, ho])
  | station n =>
    exact routerPort_modPort_other { d with toTile := Tab.modify [] d.toTile n (List.drop 1) } b failsEnded fun _ => by omega
  | nowhere => rfl

theorem sourceFlits_queueFlit (d : Device) (t : TileId) {src : FlitSource} {o : Nat} (f : Flit) (h : src ≠ .tile (ownKey t) o) :
    sourceFlits (queueFlit d t o f) t.b.val src = sourceFlits d t.b.val src := by
  cases src with
  | tile m p => exact congrArg RouterPort.queue (routerPort_modPort_other d t.b.val (flitJoined f) fun hk ho => h (congrArg₂ FlitSource.tile hk ho))
  | station n => rfl
  | nowhere => rfl

/-- No input of a router is one of its own four mesh outputs. -/
theorem flitSource_ne_own (d : Device) (t : TileId) (p : Port) {o : Nat} (ho : o ≤ 3) : flitSource d t p ≠ .tile (ownKey t) o := by
  have hrow := t.row.isLt
  cases p with
  | north =>
    rw [flitSource]
    split
    · simp
    · simp only [ownKey, tileKey, ne_eq, FlitSource.tile.injEq, not_and]
      omega
  | south =>
    rw [flitSource]
    split
    · simp
    · simp only [ownKey, tileKey, ne_eq, FlitSource.tile.injEq, not_and]
      omega
  | east =>
    rw [flitSource]
    split
    · simp
    · simp only [ownKey, tileKey, ne_eq, FlitSource.tile.injEq, not_and]
      omega
  | west =>
    rw [flitSource]
    split
    · simp
    · simp only [ownKey, tileKey, ne_eq, FlitSource.tile.injEq, not_and]
      omega
  | core =>
    rw [flitSource, ne_eq, FlitSource.tile.injEq]
    omega
  | lane =>
    rw [flitSource, ne_eq, FlitSource.tile.injEq]
    omega

/-! A flit with a wrong CRC -/

def retried (t : Tile) : Tile := { t with retries := t.retries + 1 }

/-- The device where port p of a tile has failed to send to a position once more. -/
def failedAt (d : Device) (t : TileId) (k p : Nat) : Device :=
  let e := modTile d t.b.val (ownKey t) retried
  modPort e t.b.val k p (flitFailed ((routerPort e t.b.val k p).fails + 1))

/-- The tiles after a failed flit. -/
def failedTiles (d : Device) (t : TileId) : FlitSource → Device
  | .tile k p => failedAt d t k p
  | .station _ => failedAt d t (ownKey t) 6
  | .nowhere => modTile d t.b.val (ownKey t) retried

theorem tileAt_failFlit (d : Device) (t : TileId) (src : FlitSource) (c m : Nat) :
    tileAt (failFlit d t src) c m = tileAt (failedTiles d t src) c m := by
  cases src with
  | tile k p =>
    rw [failFlit]
    dsimp only
    split <;> rfl
  | station n =>
    rw [failFlit]
    dsimp only
    split <;> rfl
  | nowhere => rfl

theorem toTile_failFlit (d : Device) (t : TileId) (src : FlitSource) : (failFlit d t src).toTile = d.toTile := by
  cases src with
  | tile k p =>
    rw [failFlit]
    dsimp only
    split <;> rfl
  | station n =>
    rw [failFlit]
    dsimp only
    split <;> rfl
  | nowhere => rfl

theorem core_failedTiles (d : Device) (t : TileId) (src : FlitSource) (c m : Nat) :
    core (tileAt (failedTiles d t src) c m) = core (tileAt d c m) := by
  have hretry : core (tileAt (modTile d t.b.val (ownKey t) retried) c m) = core (tileAt d c m) := core_modTile (fun _ => by rfl) c m
  cases src with
  | tile k p => exact (core_modPort _ _ _ _ _ c m).trans hretry
  | station n => exact (core_modPort _ _ _ _ _ c m).trans hretry
  | nowhere => exact hretry

theorem queue_failedAt (d : Device) (t : TileId) (k p m q : Nat) :
    (routerPort (failedAt d t k p) t.b.val m q).queue = (routerPort d t.b.val m q).queue := by
  have hretry : routerPort (modTile d t.b.val (ownKey t) retried) t.b.val m q = routerPort d t.b.val m q :=
    routerPort_modTile (fun _ => by rfl) m q
  rw [failedAt, ← hretry]
  by_cases h : m = k ∧ q = p
  · obtain ⟨rfl, rfl⟩ := h
    rw [routerPort_modPort_same]
    rfl
  · rw [routerPort_modPort_other _ _ _ fun hm hq => h ⟨hm, hq⟩]

theorem retries_failedAt (d : Device) (t : TileId) (k p : Nat) :
    (tileAt (failedAt d t k p) t.b.val (ownKey t)).retries = (tileAt d t.b.val (ownKey t)).retries + 1 := by
  have hretry : (tileAt (modTile d t.b.val (ownKey t) retried) t.b.val (ownKey t)).retries = (tileAt d t.b.val (ownKey t)).retries + 1 := by
    rw [tileAt_modTile_same]
    rfl
  rw [failedAt, modPort, ← hretry]
  by_cases h : ownKey t = k
  · subst h
    rw [tileAt_modTile_same]
  · rw [tileAt_modTile_other _ _ _ h]

theorem sourceFlits_failFlit (d : Device) (t : TileId) (src : FlitSource) :
    sourceFlits (failFlit d t src) t.b.val src = sourceFlits d t.b.val src := by
  cases src with
  | tile k p =>
    rw [sourceFlits, tileAt_failFlit]
    exact queue_failedAt d t k p k p
  | station n => rw [sourceFlits, sourceFlits, toTile_failFlit]
  | nowhere => rfl

theorem retries_failFlit (d : Device) (t : TileId) (src : FlitSource) :
    (tileAt (failFlit d t src) t.b.val (ownKey t)).retries = (tileAt d t.b.val (ownKey t)).retries + 1 := by
  rw [tileAt_failFlit]
  cases src with
  | tile k p => exact retries_failedAt d t k p
  | station n => exact retries_failedAt d t (ownKey t) 6
  | nowhere =>
    rw [failedTiles, tileAt_modTile_same]
    rfl

/-! The command -/

/-- A good flit in its turn, after its source has sent it. -/
def flitSent (d : Device) (t : TileId) (p : Port) : Device := takeFlit (servePort d t p) t.b.val (flitSource d t p)

theorem core_flitSent (d : Device) (t : TileId) (p : Port) (c m : Nat) : core (tileAt (flitSent d t p) c m) = core (tileAt d c m) :=
  (core_takeFlit _ _ _ c m).trans (core_servePort d t p c m)

section Received
variable {d : Device} {t : TileId} {p : Port} {f : Flit} {rest : List Flit} (hsrc : sourceFlits d t.b.val (flitSource d t p) = f :: rest)
include hsrc

theorem sourceFlits_flitSent : sourceFlits (flitSent d t p) t.b.val (flitSource d t p) = rest := by
  rw [flitSent, sourceFlits_takeFlit, sourceFlits_servePort, hsrc]
  rfl

theorem flitReceive_good (hgood : flitGood f = true) : flitReceive d t p 0 =
    if localMark d t p f || !portTurn d t p then d else routeFlit (flitSent d t p) t p f := by
  rw [flitReceive]
  dsimp only
  rw [hsrc]
  dsimp only
  rw [flitErr_zero, ite_self, hgood]
  rfl

theorem flitReceive_bad {err : BitVec 296} (hcore : p = .core → relayed d t = true) (hbad : flitGood (flitErr f err) = false) :
    flitReceive d t p err = failFlit d t (flitSource d t p) := by
  rw [flitReceive]
  dsimp only
  rw [hsrc]
  dsimp only
  have hlink : ¬ (p = .core ∧ (!relayed d t) = true) := by
    rintro ⟨hp, hr⟩
    rw [hcore hp] at hr
    exact absurd hr (by decide)
  rw [if_neg hlink, hbad]
  rfl

end Received

/-! Routing -/

/-- The output that a flit asks for, first along the row. -/
theorem routePort_of {col row o : Nat} {f : Flit} (h : if col < flitCol f then o = 1 else if flitCol f < col then o = 3
    else if row < flitRow f then o = 2 else o = 0 ∧ flitRow f < row) : routePort col row f = some o ∧ o ≤ 3 := by
  rw [routePort]
  split at h
  · subst h; rw [if_pos ‹_›]; exact ⟨rfl, by omega⟩
  · rw [if_neg ‹_›]
    split at h
    · subst h; rw [if_pos ‹_›]; exact ⟨rfl, by omega⟩
    · rw [if_neg ‹_›]
      split at h
      · subst h; rw [if_pos ‹_›]; exact ⟨rfl, by omega⟩
      · obtain ⟨rfl, hlt⟩ := h
        rw [if_neg ‹_›, if_pos hlt]
        exact ⟨rfl, by omega⟩

theorem routeFlit_hop {o : Nat} (d : Device) {t : TileId} (p : Port) {f : Flit} (h : routePort t.col.val t.row.val f = some o) :
    routeFlit d t p f = queueFlit d t o f := by
  rw [routeFlit, h]

theorem od_flitSent (d : Device) (t : TileId) (p : Port) : (flitSent d t p).od = d.od := by
  have hserve : (servePort d t p).od = d.od := by
    rw [servePort]
    split <;> rfl
  rw [flitSent, ← hserve]
  cases flitSource d t p <;> rfl

theorem keyOf_flitSent (d : Device) (t : TileId) (p : Port) : keyOf (flitSent d t p) t = keyOf d t := by
  have h : ∀ c, spareEntry (flitSent d t p) t.b.val c = spareEntry d t.b.val c := fun c => by
    rw [spareEntry, spareEntry, odGet, odGet, od_flitSent]
  rw [keyOf, keyOf, physKey, physKey, spareUsed, spareUsed, spareRow, spareRow, h]

theorem atTile_flitSent (d : Device) (t : TileId) (p : Port) (f : Flit) : atTile (flitSent d t p) t p f = atTile d t p f := by
  have hrelay := congrArg Tile.relay (core_flitSent d t p t.b.val (tileKey t.col.val t.row.val))
  have h : relayed (flitSent d t p) t = relayed d t := hrelay
  rw [atTile, atTile, h]

theorem routeFlit_atTile {d : Device} {t : TileId} {p : Port} {f : Flit} (h : atTile d t p f = true) :
    routeFlit d t p f = deliverTile d t.b.val (keyOf d t) f := by
  have hat := h
  simp only [atTile, Bool.and_eq_true, Option.isNone_iff_eq_none, Bool.not_eq_true'] at hat
  obtain ⟨⟨hroute, hshut⟩, -⟩ := hat
  rw [routeFlit, hroute, hshut]
  dsimp only
  rw [h]
  rfl

/-! The token in its ring -/

theorem iq_restartWaits (cto : Nat) (before after : Plane) : (restartWaits cto before after).iq = after.iq := rfl
theorem side_restartWaits (cto : Nat) (before after : Plane) : (restartWaits cto before after).side = after.side := rfl

theorem core_setPlane (t : Tile) (k : Nat) (p : Plane) : core (setPlane t k p) = setPlane (core t) k p := rfl

theorem ports_arriveToken (d : Device) (b key k iq : Nat) (tok : Token) (m : Nat) :
    (tileAt (arriveToken d b key k iq tok) b m).ports = (tileAt d b m).ports := by
  have hring : (berthAt (noteRinged d b key k iq) b).tiles = (berthAt d b).tiles := tiles_onUnits (f := fun d => _) fun d => by
    split
    · rfl
    · split <;> rfl
  by_cases hm : m = key
  · subst hm
    rw [tileAt_arriveToken]
    have hports := congrArg Tile.ports (outsideMemory_portBWrite (tileAt d b m) (slotAddr (iqAt (planeAt (tileAt d b m) k) iq)
      (((iqAt (planeAt (tileAt d b m) k) iq).head + (iqAt (planeAt (tileAt d b m) k) iq).occ) %
        ringSize (iqAt (planeAt (tileAt d b m) k) iq))) tok.data)
    exact hports
  · rw [arriveToken]
    rw [tileAt, berthAt_reports (fun g d => berthReport d b 3 (physTag d b key) (physTag d b key) (8 * g)) fun _ _ _ => rfl,
      berthAt_modBerth_same]
    refine congrArg Tile.ports ((tileAt_setTile_other _ _ _ hm).trans ?_)
    rw [tileAt, hring]
    rfl

theorem toTile_swapUnits (d : Device) (b : Nat) : (swapUnits d b).toTile = d.toTile := by
  rw [swapUnits]
  split <;> rfl

theorem toTile_noteRinged (d : Device) (b key k iq : Nat) : (noteRinged d b key k iq).toTile = d.toTile := by
  have hring : ∀ d : Device, (match feedingPort d b key k iq with
      | none => d
      | some (pk, sp) => if sp.link then setPort d pk { sp with fin := ringUnit sp.fin } else d).toTile = d.toTile := fun d => by
    split
    · rfl
    · split <;> rfl
  rw [noteRinged, byPlane, onUnits]
  split
  · rw [toTile_swapUnits]
    exact (hring _).trans (toTile_swapUnits d b)
  · exact hring d

theorem toTile_reports {α : Type} (f : α → Device → Device) (hf : ∀ a d, (f a d).toTile = d.toTile) (l : List α) (d : Device) :
    (l.foldl (fun d a => f a d) d).toTile = d.toTile := by
  induction l generalizing d with
  | nil => rfl
  | cons a l ih => rw [List.foldl_cons, ih, hf]

theorem toTile_arriveToken (d : Device) (b key k iq : Nat) (tok : Token) : (arriveToken d b key k iq tok).toTile = d.toTile := by
  rw [arriveToken]
  rw [toTile_reports (fun g d => berthReport d b 3 (physTag d b key) (physTag d b key) (8 * g)) fun _ _ => rfl]
  exact toTile_noteRinged d b key k iq

theorem sourceFlits_arriveToken (d : Device) (b key k iq : Nat) (tok : Token) (src : FlitSource) :
    sourceFlits (arriveToken d b key k iq tok) b src = sourceFlits d b src := by
  cases src with
  | tile m p => rw [sourceFlits, ports_arriveToken, sourceFlits]
  | station n => exact congrArg (fun m => Tab.get [] m n) (toTile_arriveToken d b key k iq tok)
  | nowhere => rfl

/-- A flit that has reached its tile stands behind the newest token of its ring. -/
theorem ring_arriveToken {d : Device} {b key k iq : Nat} (tok : Token) (hA : (tileAt d b key).portA = [])
    (hm : memWf (tileAt d b key).mem = true) :
    let q := iqAt (planeAt (tileAt d b key) k) iq
    let slot := (q.head + q.occ) % ringSize q
    let T := tileAt (arriveToken d b key k iq tok) b key
    sideAt (planeAt T k) iq slot = tok.sb ∧
      memReadNat T.mem (slotAddr q slot) 32 = tok.data.toNat ∧
      (∀ a, a < slotAddr q slot ∨ slotAddr q slot + 32 ≤ a → memRead T.mem a = memRead (tileAt d b key).mem a) ∧
      (∀ n, n ≠ iq → iqAt (planeAt T k) n = iqAt (planeAt (tileAt d b key) k) n) ∧ T.banks = (tileAt d b key).banks := by
  dsimp only
  rw [tileAt_arriveToken, planeAt_setPlane_same]
  have hbanks := congrArg Tile.banks (outsideMemory_portBWrite (tileAt d b key) (slotAddr (iqAt (planeAt (tileAt d b key) k) iq)
    (((iqAt (planeAt (tileAt d b key) k) iq).head + (iqAt (planeAt (tileAt d b key) k) iq).occ) %
      ringSize (iqAt (planeAt (tileAt d b key) k) iq))) tok.data)
  obtain ⟨hread, hother⟩ := portBWrite_slot hA hm (iqAt (planeAt (tileAt d b key) k) iq)
    (((iqAt (planeAt (tileAt d b key) k) iq).head + (iqAt (planeAt (tileAt d b key) k) iq).occ) %
      ringSize (iqAt (planeAt (tileAt d b key) k) iq)) tok.data
  refine ⟨Tab.get_set_same _ _ _ _, hread, hother, fun n hn => ?_, hbanks⟩
  exact iqAt_setIq_other (planeAt (tileAt d b key) k) _ hn

/-- Settles O16: a hop, a failed flit, a flit out of turn, and a flit at its tile. -/
theorem flitReceived : Obligations.FlitReceived := by
  unfold Obligations.FlitReceived
  refine ⟨⟨fun t p s f rest o hlive hsrc hgood hturn ho => ?_, fun t p s f rest err hlive hsrc hcore hbad => ?_,
    fun t p s f rest hsrc hgood hturn => ?_⟩, ?_⟩
  · obtain ⟨hroute, ho⟩ := routePort_of ho
    have hlocal : localMark s.dev t p f = false := by rw [localMark, atTile, hroute]; rfl
    refine ⟨flitReceive s.dev t p 0, onDev_guarded_pos _ hlive, ?_⟩
    rw [flitReceive_good hsrc hgood, hlocal, hturn, if_neg (by decide), routeFlit_hop _ p hroute]
    refine ⟨?_, ?_, od_flitSent s.dev t p, fun b k => ?_⟩
    · have hown := flitSource_ne_own s.dev t p ho
      change (routerPort (modPort _ t.b.val (ownKey t) o (flitJoined f)) t.b.val (ownKey t) o).queue = _
      rw [routerPort_modPort_same, flitJoined, flitSent, routerPort_takeFlit _ _ hown ho, routerPort_servePort]
      rfl
    · rw [sourceFlits_queueFlit _ _ _ (flitSource_ne_own s.dev t p ho), sourceFlits_flitSent hsrc]
    · have hcore := (core_modPort (flitSent s.dev t p) t.b.val (ownKey t) o (flitJoined f) b k).trans (core_flitSent s.dev t p b k)
      have hmem := congrArg Tile.mem hcore
      have hplanes := congrArg Tile.planes hcore
      exact ⟨hmem, hplanes⟩
  · refine ⟨flitReceive s.dev t p err, onDev_guarded_pos _ hlive, ?_⟩
    rw [flitReceive_bad hsrc hcore hbad]
    refine ⟨(sourceFlits_failFlit _ _ _).trans hsrc, retries_failFlit _ _ _, fun b k => ?_⟩
    rw [tileAt_failFlit]
    have hframe := core_failedTiles s.dev t (flitSource s.dev t p) b k
    have hmem := congrArg Tile.mem hframe
    have hplanes := congrArg Tile.planes hframe
    exact ⟨hmem, hplanes⟩
  · change execFlitReceive t p 0 s = _
    rw [execFlitReceive, onDev_eq, guarded]
    split
    · rw [flitReceive_good hsrc hgood, hturn, Bool.not_false, Bool.or_true, if_pos rfl]
    · rfl
  · dsimp only
    intro t p s f rest k hlive hsrc hgood hat hmark hturn hplane hA hm
    have hframe := core_flitSent s.dev t p t.b.val (keyOf s.dev t)
    have hplanes : (tileAt (flitSent s.dev t p) t.b.val (keyOf s.dev t)).planes = (tileAt s.dev t.b.val (keyOf s.dev t)).planes := by
      have h := congrArg Tile.planes hframe
      exact h
    have hmem : (tileAt (flitSent s.dev t p) t.b.val (keyOf s.dev t)).mem = (tileAt s.dev t.b.val (keyOf s.dev t)).mem := by
      have h := congrArg Tile.mem hframe
      exact h
    have hportA : (tileAt (flitSent s.dev t p) t.b.val (keyOf s.dev t)).portA = (tileAt s.dev t.b.val (keyOf s.dev t)).portA := by
      have h := congrArg Tile.portA hframe
      exact h
    have hbanks : (tileAt (flitSent s.dev t p) t.b.val (keyOf s.dev t)).banks = (tileAt s.dev t.b.val (keyOf s.dev t)).banks := by
      have h := congrArg Tile.banks hframe
      exact h
    have hplane' : ∀ j, planeAt (tileAt (flitSent s.dev t p) t.b.val (keyOf s.dev t)) j = planeAt (tileAt s.dev t.b.val (keyOf s.dev t)) j :=
      fun j => by rw [planeAt, planeAt, hplanes]
    have hepoch : epochPlane (tileAt (flitSent s.dev t p) t.b.val (keyOf s.dev t)) f.tok.sb.e = some k := by
      rw [epochPlane, hplanes]
      exact hplane
    refine ⟨flitReceive s.dev t p 0, onDev_guarded_pos _ hlive, ?_⟩
    rw [flitReceive_good hsrc hgood, localMark, hmark, hturn, Bool.and_false, if_neg (by decide),
      routeFlit_atTile ((atTile_flitSent s.dev t p f).trans hat), keyOf_flitSent, deliverTile]
    dsimp only
    rw [hepoch]
    dsimp only
    obtain ⟨hside, hread, hbytes, hrings, hbank⟩ := ring_arriveToken (k := k) (iq := f.dest.toNat % 16) f.tok (hportA.trans hA)
      (hmem.symm ▸ hm)
    rw [sourceFlits_arriveToken, sourceFlits_flitSent hsrc, iqAt_arriveToken]
    simp only [hplane', hmem] at hside hread hbytes hrings ⊢
    exact ⟨rfl, rfl, rfl, hside, hread, hbytes, hrings, hbank.trans hbanks, trivial⟩

end Sys2Proof.Machine
end

section
/-!
# Requests of the host interface (16: JOP frames; Types, access and persistence)
-/
namespace Sys2Proof.Machine

/-! Serving an admitted request -/

/-- The end of an operation: its status, and its payload where the status is good. -/
def finish (d : Device) (q : JopReq) (p : Device × Nat × List Byte) : Device :=
  conclude d p.1 q p.2.1 (if p.2.1 = stOk then p.2.2 else [])

theorem serve_served {s : State} {tr : Transport} {msg : List Byte} {op : Nat} {d : Device} {q : JopReq} (h : Served s tr msg op d q)
    (run : Op) : serve tr msg op run s.dev = finish d q (run d q) := by
  obtain ⟨r, hhead, hframe, hop, hvet, hq, hpower, hrole⟩ := h
  have hgood : ¬ (tr = .mctp ∧ frameBad .mctp (msg.drop 3) = true) := by
    rintro ⟨ht, hbad⟩
    rw [hframe ht] at hbad
    exact absurd hbad (by decide)
  have hgo : execute run d { r with role := q.role } = finish d q (run d q) := by
    rw [← hq, execute, hpower, hrole]
    rfl
  rw [serve, hhead]
  dsimp only
  rw [if_neg hgood, if_neg (fun h => h hop), hvet]
  exact hgo

/-- An operation that leaves the flash journal is answered at once. -/
theorem conclude_answered {d e : Device} (h : e.journal.length ≤ d.journal.length) (q : JopReq) (c : Nat) (pl : List Byte) :
    conclude d e q c pl = deliverReply e q (responseFrame (replyKey d e q c) q c pl) := by
  rw [conclude]
  rw [if_neg (by omega)]

/-- An operation that answers a status and leaves the device. -/
theorem finish_status (d : Device) (q : JopReq) {c : Nat} (hc : c ≠ stOk) (pl : List Byte) :
    finish d q (d, c, pl) = deliverReply d q (responseFrame (replyKey d d q c) q c []) := by
  rw [finish, conclude_answered (le_refl _), if_neg hc]

theorem finish_read (d : Device) (q : JopReq) (bs : List Byte) :
    finish d q (d, stOk, bs) = deliverReply d q (responseFrame (replyKey d d q 0) q 0 bs) := by
  rw [finish, conclude_answered (le_refl _), if_pos rfl]
  rfl

theorem finish_done (d e : Device) (q : JopReq) (bs : List Byte) : finish d q (e, stOk, bs) = conclude d e q 0 bs := by
  rw [finish, if_pos rfl]
  rfl

theorem exec_read {s : State} {tr : Transport} {msg : List Byte} {d : Device} {q : JopReq} (h : Served s tr msg 0x01 d q) :
    exec (.read tr msg) s = .next { s with dev := finish d q (runRead d q) } := by
  change execRead tr msg s = _
  rw [execRead, onDev_eq, serve_served h]

theorem exec_write {s : State} {tr : Transport} {msg : List Byte} {d : Device} {q : JopReq} (h : Served s tr msg 0x02 d q) :
    exec (.write tr msg) s = .next { s with dev := finish d q (runWrite d q) } := by
  change execWrite tr msg s = _
  rw [execWrite, onDev_eq, serve_served h]

theorem exec_info {s : State} {tr : Transport} {msg : List Byte} {d : Device} {q : JopReq} (h : Served s tr msg 0x20 d q) :
    exec (.info tr msg) s = .next { s with dev := finish d q (runInfo d q) } := by
  change execInfo tr msg s = _
  rw [execInfo, onDev_eq, serve_served h]

/-! Rows -/

theorem findRow_of_info {i sub : Nat} {row : OdRow} (h : odInfo i sub = some row) : findRow i sub = (stOk, row) := by
  rw [odInfo, Option.bind_eq_some_iff] at h
  obtain ⟨k, hk, hrow⟩ := h
  rw [findRow, hk]
  dsimp only
  rw [hrow]

theorem findRow_noObject {i : Nat} (sub : Nat) (h : odKind i = none) : findRow i sub = (stNoObject, default) := by
  rw [findRow, h]

theorem findRow_noSubindex {i sub : Nat} {k : OdKind} (h : odKind i = some k) (hr : odRow k sub = none) :
    findRow i sub = (stNoSubindex, default) := by
  rw [findRow, h]
  dsimp only
  rw [hr]

/-! The operations of a row -/

section Runs
variable {d : Device} {q : JopReq} {row : OdRow}

theorem runRead_value (hrow : findRow q.index q.sub = (stOk, row)) (h2 : row.acc ≠ 2) (h4 : row.acc ≠ 4) (ht : row.typ ≠ 12)
    (hp : q.payload = []) : runRead d q = (d, stOk, leBytes row.size (odValue d q.index q.sub)) := by
  rw [runRead, hrow]
  dsimp only
  rw [if_neg (fun h => h rfl), if_neg (by tauto), hp]
  rfl

/-- An object or a subindex that does not exist has its status under every operation. -/
theorem runRead_missing {c : Nat} (h : findRow q.index q.sub = (c, default)) (hc : c ≠ stOk) : runRead d q = (d, c, []) := by
  rw [runRead, h]
  dsimp only
  rw [if_pos hc]

theorem runWrite_missing {c : Nat} (h : findRow q.index q.sub = (c, default)) (hc : c ≠ stOk) : runWrite d q = (d, c, []) := by
  rw [runWrite, h]
  dsimp only
  rw [if_pos hc]

theorem runInfo_missing {c : Nat} (h : findRow q.index q.sub = (c, default)) (hc : c ≠ stOk) : runInfo d q = (d, c, []) := by
  rw [runInfo, h]
  dsimp only
  rw [if_pos hc]

theorem runInfo_row (hrow : findRow q.index q.sub = (stOk, row)) (hp : q.payload = []) : runInfo d q =
    (d, stOk, [BitVec.ofNat 8 row.typ, BitVec.ofNat 8 row.acc, BitVec.ofNat 8 row.cls, 0] ++
      leBytes 4 (if row.typ = 12 then domainSize d q.index q.sub else row.size)) := by
  rw [runInfo, hrow]
  dsimp only
  rw [if_neg (fun h => h rfl), hp]
  rfl

theorem runWrite_access (hrow : findRow q.index q.sub = (stOk, row)) (h : row.acc = 0 ∨ row.typ = 12) :
    runWrite d q = (d, stAccess, []) := by
  rw [runWrite, hrow]
  dsimp only
  rw [if_neg (fun h => h rfl), if_pos h]

theorem runWrite_value (hrow : findRow q.index q.sub = (stOk, row)) (ha : row.acc ≠ 0) (ht : row.typ ≠ 12) {c : Nat}
    (hv : valueStatus row q.payload = c) (hc : c ≠ stOk) : runWrite d q = (d, c, []) := by
  rw [runWrite, hrow]
  dsimp only
  rw [if_neg (fun h => h rfl), if_neg (by tauto), hv, if_pos hc]

theorem runWrite_good (hrow : findRow q.index q.sub = (stOk, row)) (ha : row.acc ≠ 0) (ht : row.typ ≠ 12)
    (hv : valueStatus row q.payload = 0) (hinject : 0xF000 ≤ q.index → q.index ≤ 0xF0FF → d.power.testEn = true)
    (hmoor : mstate d = 2 → moorRefuses d q.index q.sub (leNat q.payload) = false) :
    runWrite d q = ((writeObject d q.auth q.role q.index q.sub (leNat q.payload)).1,
      (writeObject d q.auth q.role q.index q.sub (leNat q.payload)).2, []) := by
  have htest : ¬ (0xF000 ≤ q.index ∧ q.index ≤ 0xF0FF ∧ (!d.power.testEn) = true) := by
    rintro ⟨h1, h2, h3⟩
    rw [hinject h1 h2] at h3
    exact absurd h3 (by decide)
  have hserved : ¬ (mstate d = 2 ∧ moorRefuses d q.index q.sub (leNat q.payload) = true) := by
    rintro ⟨h1, h2⟩
    rw [hmoor h1] at h2
    exact absurd h2 (by decide)
  rw [runWrite, hrow]
  dsimp only
  rw [if_neg (fun h => h rfl), if_neg (by tauto), hv, if_neg (fun h => h rfl), if_neg htest, if_neg hserved]

end Runs

theorem valueStatus_length {row : OdRow} {bs : List Byte} (h8 : row.typ ≠ 8) (h9 : row.typ ≠ 9) (hl : bs.length ≠ row.size) :
    valueStatus row bs = stLength := by
  rw [valueStatus]
  rw [if_neg (by tauto), if_pos hl]

theorem valueStatus_range {row : OdRow} {bs : List Byte} (ht : row.typ ≤ 5) (hl : bs.length = row.size)
    (hr : leNat bs < row.lo ∨ row.hi < leNat bs) : valueStatus row bs = stRange := by
  rw [valueStatus]
  rw [if_neg (by omega), if_neg (fun h => h hl)]
  split
  · rfl
  · rw [if_pos ⟨ht, hr⟩]

/-! A stored value -/

theorem odGet_odPut_fits {d : Device} {i sub v : Nat} {row : OdRow} (h : odInfo i sub = some row) (hv : v < 256 ^ row.size) :
    odGet (odPut d i sub v) i sub = v := by
  rw [odGet_odPut_same, h]
  exact Nat.mod_eq_of_lt hv

theorem odStore_journal {d : Device} {i sub v : Nat} {row : OdRow} (h : odInfo i sub = some row) (hv : v < 256 ^ row.size) :
    (odStore d i sub v).journal =
      if row.cls = 0 ∧ 2 ≤ row.acc then d.journal ++ [{ key := 256 * i + sub, value := v }] else d.journal := by
  rw [odStore]
  rw [h, Option.map_some, Option.getD_some, odGet_odPut_fits h hv]
  by_cases hp : row.cls = 0 ∧ 2 ≤ row.acc
  · rw [if_pos hp, if_pos (by simpa using hp)]
    rfl
  · rw [if_neg hp, if_neg (by simpa using hp)]
    rfl

/-! The response header -/

/-- Table 16-6: each field of a response stands in its bits. -/
theorem responseHeader_fields (r : JopReq) (status len : Nat) (a : Bool) (hst : status < 256) (hlen : len < 65536) (hsub : r.sub < 256)
    (hindex : r.index < 65536) (hop : r.op < 256) (hoff : r.offset < 2 ^ 32) :
    let h := leNat (responseHeader r status len a)
    nbits h 255 224 = r.seq.toNat ∧ nbits h 223 192 = r.sid.toNat ∧ nbits h 191 176 = len ∧ nbits h 167 160 = status ∧
    nbits h 159 152 = r.sub ∧ nbits h 151 136 = r.index ∧ nbits h 135 128 = r.op ∧ nbits h 127 96 = r.tag.toNat ∧
    nbits h 95 64 = r.offset ∧ nbits h 9 9 = b2n a ∧ nbits h 8 8 = 1 ∧ nbits h 7 0 = 1 := by
  have hseq := r.seq.isLt; have hsid := r.sid.isLt; have htag := r.tag.isLt
  have ha : b2n a < 2 := by cases a <;> decide
  dsimp only
  rw [responseHeader, leNat_leBytes]
  simp only [nbits]
  generalize r.seq.toNat = seq at *
  generalize r.sid.toNat = sid at *
  generalize r.tag.toNat = tag at *
  generalize b2n a = auth at *
  refine ⟨?_, ?_, ?_, ?_, ?_, ?_, ?_, ?_, ?_, ?_, ?_, ?_⟩ <;> omega

/-- Settles O42. -/
theorem jopObjects : Obligations.JopObjects := by
  unfold Obligations.JopObjects
  dsimp only
  refine ⟨fun tr msg s d q row hs hrow h2 h4 ht hp => ?_, fun tr msg s d q row hs hrow ha ht hv hinject hmoor => ?_,
    fun tr msg s d q row hs hrow hp => ?_, fun p hp tr msg s d q hs => ?_, fun tr msg s d q row hs hrow => ⟨fun h => ?_,
    fun ha ht h8 h9 hl => ?_, fun ha ht hl hr => ?_⟩, fun d i sub v row hrow hsub hv => ⟨?_, fun i' sub' hsub' hne => ?_, ?_⟩,
    fun r status len a hst hlen hsub hindex hop hoff => responseHeader_fields r status len a hst hlen hsub hindex hop hoff⟩
  · rw [exec_read hs, runRead_value (findRow_of_info hrow) h2 h4 ht hp, finish_read]
  · rw [exec_write hs, runWrite_good (findRow_of_info hrow) ha ht hv hinject hmoor, finish]
    dsimp only
    rw [ite_self]
  · rw [exec_info hs, runInfo_row (findRow_of_info hrow) hp, finish_read]
  · simp only [List.mem_cons, List.not_mem_nil, or_false] at hp
    obtain rfl | rfl | rfl := hp
    · refine ⟨fun hk => ?_, fun k hk hr => ?_⟩
      · rw [exec_read hs, runRead_missing (findRow_noObject _ hk) (by decide), finish_status _ _ (by decide)]
        rfl
      · rw [exec_read hs, runRead_missing (findRow_noSubindex hk hr) (by decide), finish_status _ _ (by decide)]
        rfl
    · refine ⟨fun hk => ?_, fun k hk hr => ?_⟩
      · rw [exec_write hs, runWrite_missing (findRow_noObject _ hk) (by decide), finish_status _ _ (by decide)]
        rfl
      · rw [exec_write hs, runWrite_missing (findRow_noSubindex hk hr) (by decide), finish_status _ _ (by decide)]
        rfl
    · refine ⟨fun hk => ?_, fun k hk hr => ?_⟩
      · rw [exec_info hs, runInfo_missing (findRow_noObject _ hk) (by decide), finish_status _ _ (by decide)]
        rfl
      · rw [exec_info hs, runInfo_missing (findRow_noSubindex hk hr) (by decide), finish_status _ _ (by decide)]
        rfl
  · rw [exec_write hs, runWrite_access (findRow_of_info hrow) h, finish_status _ _ (by decide)]
    rfl
  · rw [exec_write hs, runWrite_value (findRow_of_info hrow) ha ht (valueStatus_length h8 h9 hl) (by decide), finish_status _ _ (by decide)]
    rfl
  · rw [exec_write hs, runWrite_value (findRow_of_info hrow) ha (by omega) (valueStatus_range ht hl hr) (by decide),
      finish_status _ _ (by decide)]
    rfl
  · rw [odGet_odStore, odGet_odPut_fits hrow hv]
  · have hkey : 256 * i' + sub' ≠ 256 * i + sub := fun h => hne (Prod.ext (by dsimp only; omega) (by dsimp only; omega))
    rw [odGet_odStore]
    exact odGet_odPut_other d v hkey
  · exact odStore_journal hrow hv

end Sys2Proof.Machine
end

section
/-!
# Sessions and segmented transfers (16: Sessions and authentication, Segmented transfer)
-/
namespace Sys2Proof.Machine

/-! What an answer leaves -/

theorem sendReply_frame (d : Device) (r : JopReq) (bs : List Byte) : (sendReply d r bs).od = d.od ∧ (sendReply d r bs).berths = d.berths ∧
    (sendReply d r bs).sessions = d.sessions ∧ (sendReply d r bs).transfers = d.transfers := by
  rw [sendReply]
  split
  · split <;> exact ⟨rfl, rfl, rfl, rfl⟩
  · exact ⟨rfl, rfl, rfl, rfl⟩
  · exact ⟨rfl, rfl, rfl, rfl⟩

theorem deliverReply_frame (d : Device) (r : JopReq) (bs : List Byte) : (deliverReply d r bs).od = d.od ∧
    (deliverReply d r bs).berths = d.berths ∧ (deliverReply d r bs).transfers = d.transfers := by
  rw [deliverReply]
  obtain ⟨ho, hb, -, ht⟩ := sendReply_frame (if r.sid = 0 then d else
    modSession d r.sid (fun s => if s.lastSeq = r.seq then { s with lastResp := bs } else s)) r bs
  refine ⟨ho.trans ?_, hb.trans ?_, ht.trans ?_⟩ <;> split <;> rfl

/-- A session that the answer does not belong to stays as it was. -/
theorem deliverReply_sessions {d : Device} {r : JopReq} (h : r.sid ≠ 0 → ∀ x ∈ d.sessions, x.sid ≠ r.sid) (bs : List Byte) :
    (deliverReply d r bs).sessions = d.sessions := by
  rw [deliverReply]
  refine (sendReply_frame _ r bs).2.2.1.trans ?_
  split
  next => rfl
  next hsid =>
    refine (List.map_congr_left fun x hx => ?_).trans (List.map_id _)
    exact if_neg (h hsid x hx)

theorem conclude_frame (d e : Device) (q : JopReq) (c : Nat) (pl : List Byte) : (conclude d e q c pl).od = e.od ∧
    (conclude d e q c pl).berths = e.berths ∧ (conclude d e q c pl).transfers = e.transfers := by
  rw [conclude]
  split
  · exact ⟨rfl, rfl, rfl⟩
  · exact deliverReply_frame e q _

theorem conclude_sessions {e : Device} {q : JopReq} (h : q.sid ≠ 0 → ∀ x ∈ e.sessions, x.sid ≠ q.sid) (d : Device) (c : Nat)
    (pl : List Byte) : (conclude d e q c pl).sessions = e.sessions := by
  rw [conclude]
  split
  · rfl
  · exact deliverReply_sessions h _

/-! The end of a session -/

theorem closeSession_sessions (d : Device) (sid : U32) : (closeSession d sid).sessions = d.sessions.filter (fun s => s.sid ≠ sid) := by
  rw [closeSession, abortTransfers]
  obtain ⟨⟨-, -, hse, -⟩, -⟩ := abortTransfers_foldl (d.transfers.filter fun t => t.sid = sid)
    { d with sessions := d.sessions.filter (fun s => s.sid ≠ sid) }
  exact hse

/-- The sessions and transfers after the end of a session. -/
theorem closeSession_spec (d : Device) (sid : U32) : (∀ x ∈ (closeSession d sid).sessions, x.sid ≠ sid) ∧
    (∀ x ∈ d.sessions, x.sid ≠ sid → x ∈ (closeSession d sid).sessions) ∧ ∀ t ∈ (closeSession d sid).transfers, t.sid ≠ sid := by
  refine ⟨fun x hx => ?_, fun x hx hne => ?_, fun t ht hsid => ?_⟩
  · rw [closeSession_sessions] at hx
    exact of_decide_eq_true (List.mem_filter.mp hx).2
  · rw [closeSession_sessions]
    exact List.mem_filter.mpr ⟨hx, decide_eq_true hne⟩
  · rw [closeSession, abortTransfers] at ht
    obtain ⟨hin, hnot⟩ := (abortTransfers_foldl _ { d with sessions := d.sessions.filter (fun s => s.sid ≠ sid) }).2 t ht
    exact hnot (List.mem_filter.mpr ⟨hin, decide_eq_true hsid⟩)

/-! OPEN and CLOSE -/

theorem exec_open {s : State} {tr : Transport} {msg : List Byte} {d : Device} {q : JopReq} (h : Served s tr msg 0x10 d q) :
    exec (.open tr msg) s = .next { s with dev := finish d q (runOpen d q) } := by
  change execOpen tr msg s = _
  rw [execOpen, onDev_eq, serve_served h]

theorem exec_close {s : State} {tr : Transport} {msg : List Byte} {d : Device} {q : JopReq} (h : Served s tr msg 0x11 d q) :
    exec (.close tr msg) s = .next { s with dev := finish d q (runClose d q) } := by
  change execClose tr msg s = _
  rw [execClose, onDev_eq, serve_served h]

theorem runClose_closes {d : Device} {q : JopReq} (h : (sessionOf d q.tr q.sid).isSome = true) (hp : q.payload = []) :
    runClose d q = (closeSession d q.sid, stOk, []) := by
  have hsome : ¬ (sessionOf d q.tr q.sid).isNone = true := by
    rw [Option.isNone_iff_eq_none, ← Option.not_isSome_iff_eq_none, not_not]
    exact h
  rw [runClose, if_neg hsome, hp]
  rfl

section Open
variable {d : Device} {q : JopReq} (hlen : q.payload.length = 32) (hzero : leAt q.payload 1 15 = 0) (hk : leAt q.payload 0 1 ≤ 3)
include hlen hzero hk

theorem runOpen_disabled (hkey : odFlag d (0x1110 + leAt q.payload 0 1) 3 = false) : runOpen d q = (d, stAuth, []) := by
  rw [runOpen]
  rw [if_neg (by omega), if_neg (by omega), hkey]
  rfl

theorem runOpen_full (hkey : odFlag d (0x1110 + leAt q.payload 0 1) 3 = true)
    (hfull : sessionLimit q.tr ≤ (d.sessions.filter (fun x => x.tr = q.tr)).length) : runOpen d q = (d, stBusy, []) := by
  rw [runOpen]
  rw [if_neg (by omega), if_neg (by omega), hkey, if_neg (by decide), if_pos hfull]

/-- The session that OPEN makes (R406). -/
def openedSession (d : Device) (q : JopReq) : Session :=
  let nd := leBytes 16 (Config.drawn d.drawn).toNat
  let sid := newSid d ((Config.drawn (d.drawn + 1)).toNat % 2 ^ 32)
  let text : List Byte := [0x4A, 0x4F, 0x50, 0x53]
  { sid := sid, tr := q.tr, slot := leAt q.payload 0 1, usedAt := d.time
    key := hmac (leBytes 32 (odGet d (0x1110 + leAt q.payload 0 1) 1)) (text ++ sliceBytes q.payload 16 16 ++ nd ++ leBytes 4 sid.toNat) }

theorem runOpen_opens (hkey : odFlag d (0x1110 + leAt q.payload 0 1) 3 = true)
    (hroom : (d.sessions.filter (fun x => x.tr = q.tr)).length < sessionLimit q.tr) : ∃ bs, runOpen d q =
      ({ d with sessions := d.sessions ++ [openedSession d q], drawn := d.drawn + 2 }, stOk, bs) := by
  refine ⟨leBytes 4 (openedSession d q).sid.toNat ++ List.replicate 12 0 ++ leBytes 16 (Config.drawn d.drawn).toNat, ?_⟩
  rw [runOpen]
  rw [if_neg (by omega), if_neg (by omega), hkey, if_neg (by decide), if_neg (by omega)]
  rfl

end Open

/-- A refusal of OPEN is not tagged. -/
theorem replyKey_refused {d e : Device} {q : JopReq} (hsid : q.sid = 0) {c : Nat} (hc : c ≠ stOk) : replyKey d e q c = none := by
  rw [replyKey, if_neg (by tauto), if_pos hsid]

/-! Transfers -/

theorem exec_segInit {s : State} {tr : Transport} {msg : List Byte} {d : Device} {q : JopReq} (h : Served s tr msg 0x03 d q) :
    exec (.segInit tr msg) s = .next { s with dev := finish d q (runSegInit d q) } := by
  change execSegInit tr msg s = _
  rw [execSegInit, onDev_eq, serve_served h]

theorem exec_segData {s : State} {tr : Transport} {msg : List Byte} {d : Device} {q : JopReq} (h : Served s tr msg 0x04 d q) :
    exec (.segData tr msg) s = .next { s with dev := finish d q (runSegData d q) } := by
  change execSegData tr msg s = _
  rw [execSegData, onDev_eq, serve_served h]

theorem exec_segEnd {s : State} {tr : Transport} {msg : List Byte} {d : Device} {q : JopReq} (h : Served s tr msg 0x05 d q) :
    exec (.segEnd tr msg) s = .next { s with dev := finish d q (runSegEnd d q) } := by
  change execSegEnd tr msg s = _
  rw [execSegEnd, onDev_eq, serve_served h]

theorem exec_segAbort {s : State} {tr : Transport} {msg : List Byte} {d : Device} {q : JopReq} (h : Served s tr msg 0x06 d q) :
    exec (.segAbort tr msg) s = .next { s with dev := finish d q (runSegAbort d q) } := by
  change execSegAbort tr msg s = _
  rw [execSegAbort, onDev_eq, serve_served h]

theorem domainRow_of {q : JopReq} {row : OdRow} (h : odInfo q.index q.sub = some row) (ht : row.typ = 12) : domainRow q = (stOk, row) := by
  rw [domainRow, findRow_of_info h]
  dsimp only
  rw [if_neg (fun h => h rfl), if_pos ht]

/-- The transfer that SEG_INIT opens. -/
def newTransfer (d : Device) (q : JopReq) : SegTransfer := { index := q.index, sub := q.sub, sid := q.sid, tr := q.tr, lastAt := d.time }

section Init
variable {d : Device} {q : JopReq} {row : OdRow} (hrow : domainRow q = (stOk, row)) (hlen : q.payload.length = 4)
  (hfree : transferOf d q.index q.sub = none)
include hrow hlen hfree

theorem runSegInit_read (htotal : leAt q.payload 0 4 = 0) : runSegInit d q =
    ({ d with transfers := d.transfers ++ [{ newTransfer d q with total := domainSize d q.index q.sub }] }, stOk,
      leBytes 4 (domainSize d q.index q.sub)) := by
  rw [runSegInit, hrow]
  dsimp only
  rw [if_neg (fun h => h rfl), if_neg (fun h => h hlen), hfree, if_neg (by decide), if_pos htotal]
  rfl

theorem runSegInit_write (htotal : 0 < leAt q.payload 0 4) (hacc : row.acc ≠ 0) (hlimit : leAt q.payload 0 4 ≤ domainLimit d q.index)
    (hmoor : mstate d = 2 → moorRefuses d q.index q.sub 1 = false) (hstart : (writeStart d q.index).2 = 0) : runSegInit d q =
    ({ (writeStart d q.index).1 with
      transfers := (writeStart d q.index).1.transfers ++ [{ newTransfer d q with write := true, total := leAt q.payload 0 4 }] }, stOk, []) := by
  have hserved : ¬ (mstate d = 2 ∧ moorRefuses d q.index q.sub 1 = true) := by
    rintro ⟨h1, h2⟩
    rw [hmoor h1] at h2
    exact absurd h2 (by decide)
  rw [runSegInit, hrow]
  dsimp only
  rw [if_neg (fun h => h rfl), if_neg (fun h => h hlen), hfree, if_neg (by decide), if_neg (by omega), if_neg hacc, if_neg (by omega),
    if_neg hserved, if_neg (fun h => h hstart)]
  rfl

end Init

section Transfer
variable {d : Device} {q : JopReq} {row : OdRow} {t : SegTransfer} (hrow : domainRow q = (stOk, row)) (hmine : myTransfer d q = some t)
include hrow hmine

theorem runSegData_eq : runSegData d q =
    if q.offset ≠ t.moved then (d, stSegment, []) else if t.write then segWrite d q t else segRead d q t := by
  rw [runSegData, hrow]
  dsimp only
  rw [if_neg (fun h => h rfl), hmine]

theorem runSegAbort_aborts (hp : q.payload = []) : runSegAbort d q = (abortTransfer d t, stOk, []) := by
  rw [runSegAbort, hrow]
  dsimp only
  rw [if_neg (fun h => h rfl), hp, if_neg (by decide), hmine]

theorem runSegEnd_read (hlen : q.payload.length = 4) (htotal : leAt q.payload 0 4 = t.total) (hw : t.write = false) :
    runSegEnd d q = (dropTransfer d t.index t.sub, stOk, []) := by
  rw [runSegEnd, hrow]
  dsimp only
  rw [if_neg (fun h => h rfl), hmine]
  dsimp only
  rw [if_neg (fun h => h hlen), hw, if_neg (by rintro (h | ⟨h, -⟩); exacts [h htotal, absurd h (by decide)])]
  rfl

theorem runSegEnd_write (hlen : q.payload.length = 4) (htotal : leAt q.payload 0 4 = t.total) (hw : t.write = true)
    (hmoved : t.moved = t.total) (hend : (writeEnd d t).2 = stOk) :
    runSegEnd d q = (dropTransfer (writeEnd d t).1 t.index t.sub, stOk, []) := by
  rw [runSegEnd, hrow]
  dsimp only
  rw [if_neg (fun h => h rfl), hmine]
  dsimp only
  rw [if_neg (fun h => h hlen), hw, if_neg (by rintro (h | ⟨-, h⟩); exacts [h htotal, h hmoved]), if_neg (by decide), if_pos hend]

end Transfer

theorem segRead_bytes {d : Device} {q : JopReq} {t : SegTransfer} (hlen : q.payload.length = 4) (hkind : odKind t.index ≠ some .queue)
    (hwant : min (min (leAt q.payload 0 4) (t.total - t.moved)) (maxPayload q.tr) = t.total - t.moved ∨
      min (min (leAt q.payload 0 4) (t.total - t.moved)) (maxPayload q.tr) % 4 = 0) : segRead d q t =
    (setTransfer d { t with moved := t.moved + min (min (leAt q.payload 0 4) (t.total - t.moved)) (maxPayload q.tr), lastAt := d.time },
      stOk, domainSlice d t.index t.moved (min (min (leAt q.payload 0 4) (t.total - t.moved)) (maxPayload q.tr))) := by
  rw [segRead]
  dsimp only
  rw [if_neg (fun h => h hlen), if_neg (fun h => hkind (of_decide_eq_true h)), if_neg (by omega)]

theorem segWrite_bytes {d d1 : Device} {q : JopReq} {t : SegTransfer} {rest : List Byte} (hlen : 0 < q.payload.length)
    (hfit : t.moved + q.payload.length = t.total ∨ (t.moved + q.payload.length < t.total ∧ q.payload.length % 4 = 0))
    (heffect : segmentEffect d t q.payload = some (d1, rest)) : segWrite d q t =
    (setTransfer d1 { t with moved := t.moved + q.payload.length, data := rest, lastAt := d1.time }, stOk, []) := by
  rw [segWrite]
  rw [if_neg (by omega), if_neg (by omega), heffect]

theorem abortTransfer_drops (d : Device) (t : SegTransfer) : ∀ x ∈ (abortTransfer d t).transfers, ¬ (x.index = t.index ∧ x.sub = t.sub) := by
  intro x hx hsame
  obtain ⟨-, -, -, htr, -⟩ := keepsModule_abortEffect (dropTransfer d t.index t.sub) t
  rw [abortTransfer, htr] at hx
  have hne := (List.mem_filter.mp hx).2
  rw [hsame.1, hsame.2] at hne
  simp at hne

/-- Settles O43. -/
theorem jopSessions : Obligations.JopSessions := by
  unfold Obligations.JopSessions
  dsimp only
  refine ⟨fun tr msg s d q hs hsid hlen hzero hk => ⟨fun hkey hroom => ?_, fun hkey => ?_, fun hkey hfull => ?_⟩,
    fun tr msg s d q hs hopen hp => ?_, fun sid s x hx hxs hidle => ?_,
    fun tr msg s d q row hs hrow ht hlen hfree => ⟨fun htotal => ?_, fun htotal hacc hlimit hmoor hstart => ?_⟩,
    fun tr msg s d q row t hs hrow ht hmine => ⟨fun hoff => ?_, fun hoff hw hlen hkind hwant => ?_, fun hoff hw hlen hfit d1 rest heffect => ?_⟩,
    fun tr msg s d q row t hs hrow ht hmine hlen htotal => ⟨fun hw => ?_, fun hw hmoved hend => ?_⟩,
    fun tr msg s d q row t hs hrow ht hmine hp => ⟨?_, abortTransfer_drops d t⟩, fun index sub s t hfind hlate => ?_⟩
  · obtain ⟨bs, hrun⟩ := runOpen_opens hlen hzero hk hkey hroom
    refine ⟨_, openedSession d q, (Config.drawn d.drawn).toNat, exec_open hs, ?_⟩
    rw [hrun, finish_done]
    obtain ⟨hod, hberths, -⟩ := conclude_frame d { d with sessions := d.sessions ++ [openedSession d q], drawn := d.drawn + 2 } q 0 bs
    rw [conclude_sessions (fun h => absurd hsid h), hod, hberths]
    exact ⟨rfl, rfl, rfl, rfl, rfl, rfl, rfl, rfl, rfl⟩
  · rw [exec_open hs, runOpen_disabled hlen hzero hk hkey, finish_status _ _ (by decide), replyKey_refused hsid (by decide)]
    rfl
  · rw [exec_open hs, runOpen_full hlen hzero hk hkey hfull, finish_status _ _ (by decide), replyKey_refused hsid (by decide)]
    rfl
  · refine ⟨_, exec_close hs, ?_⟩
    obtain ⟨hgone, hkept, htransfers⟩ := closeSession_spec d q.sid
    rw [runClose_closes hopen hp, finish_done, conclude_sessions fun _ => hgone, (conclude_frame _ _ _ _ _).2.2]
    exact ⟨hgone, hkept, htransfers⟩
  · have hany : (s.dev.sessions.any fun x => decide (x.sid = sid) && decide (x.usedAt + 6000000000 ≤ s.dev.time)) = true :=
      List.any_eq_true.mpr ⟨x, hx, by rw [decide_eq_true hxs, decide_eq_true hidle]; rfl⟩
    exact ⟨_, onDev_guarded_pos _ hany, closeSession_spec s.dev sid⟩
  · rw [exec_segInit hs, runSegInit_read (domainRow_of hrow ht) hlen hfree htotal, finish_done]
    rfl
  · rw [exec_segInit hs, runSegInit_write (domainRow_of hrow ht) hlen hfree htotal hacc hlimit hmoor hstart, finish_done]
    rfl
  · rw [exec_segData hs, runSegData_eq (domainRow_of hrow ht) hmine, if_pos hoff, finish_status _ _ (by decide)]
    rfl
  · rw [exec_segData hs, runSegData_eq (domainRow_of hrow ht) hmine, if_neg (fun h => h hoff), hw, if_neg (by decide),
      segRead_bytes hlen hkind hwant, finish_done, hw]
  · rw [exec_segData hs, runSegData_eq (domainRow_of hrow ht) hmine, if_neg (fun h => h hoff), hw, if_pos rfl,
      segWrite_bytes hlen hfit heffect, finish_done, hw]
  · rw [exec_segEnd hs, runSegEnd_read (domainRow_of hrow ht) hmine hlen htotal hw, finish_done]
  · rw [exec_segEnd hs, runSegEnd_write (domainRow_of hrow ht) hmine hlen htotal hw hmoved hend, finish_done]
  · rw [exec_segAbort hs, runSegAbort_aborts (domainRow_of hrow ht) hmine hp, finish_done]
  · change execSegTransferTimeout index sub s = _
    rw [execSegTransferTimeout, onDev_eq]
    rw [hfind]
    dsimp only
    rw [if_pos hlate]

end Sys2Proof.Machine
end

section
/-!
# The mailbox, BAR0, the management port, MCTP and the journal (16: PCIe function, Management port and MCTP)
-/
namespace Sys2Proof.Machine

/-- A queue of a table behind one more item. -/
theorem get_appended {α : Type} (m : Tab (List α)) (k : Nat) (x : α) :
    Tab.get [] (Tab.modify [] m k (fun l => l ++ [x])) k = Tab.get [] m k ++ [x] := Tab.get_modify_same [] m k _

/-! MBX_CTRL (R395) -/

/-- The mailbox after DONE's clear and the new IRQEN and LEN of a control write. -/
def controlled (m : Mailbox) (w : U32) : Mailbox := { m with done := m.done && !bit w 29, irqen := bit w 28, len := fld w 12 0 }

theorem mailboxControl_eq (d : Device) (w : U32) : mailboxControl d w =
    if !bit w 31 || !firmwareReady d then { d with mbx := controlled d.mbx w }
    else if (controlled d.mbx w).busy || (controlled d.mbx w).done then odAdd { d with mbx := controlled d.mbx w } 0x1100 0x0C 1
    else mailboxSubmit { d with mbx := controlled d.mbx w } := rfl

/-- Both registers of the mailbox take the same write. -/
theorem exec_mailbox {cmd : U32 → Instr} (hcmd : cmd ∈ [Instr.mbxGo, Instr.mbxDoneClear]) (w : U32) {s : State} (hup : s.dev.pcie.up = true) :
    exec (cmd w) s = .next { s with dev := mailboxControl s.dev w } := by
  simp only [List.mem_cons, List.not_mem_nil, or_false] at hcmd
  obtain rfl | rfl := hcmd
  · exact onDev_guarded_pos _ hup
  · exact onDev_guarded_pos _ hup

theorem mailboxSubmit_good {d : Device} (h : ¬ (d.mbx.len < 32 ∨ 4096 < d.mbx.len ∨ frameBad .mailbox (mailboxFrame d) = true)) :
    mailboxSubmit d = { d with
      mbx := { d.mbx with busy := true }
      requests := Tab.modify [] d.requests 0 (fun l => l ++ [parseFrame .mailbox (mailboxFrame d)]) } := by
  rw [mailboxSubmit]
  exact if_neg h

theorem mailboxSubmit_bad {d : Device} (h : d.mbx.len < 32 ∨ 4096 < d.mbx.len ∨ frameBad .mailbox (mailboxFrame d) = true) :
    mailboxSubmit d = { d with
      mbx := { d.mbx with busy := true }
      responses := Tab.set d.responses 0 (parseFrame .mailbox (memReadBytes d.mbx.req 0 32),
        responseFrame none (parseFrame .mailbox (memReadBytes d.mbx.req 0 32)) stFrame []) } := by
  rw [mailboxSubmit]
  exact if_pos h

/-- What a GO on a free mailbox does. -/
theorem mailboxSubmit_spec (d : Device) : (mailboxSubmit d).mbx = { d.mbx with busy := true } ∧ (mailboxSubmit d).od = d.od ∧
    (32 ≤ d.mbx.len → d.mbx.len ≤ 4096 → frameBad .mailbox (mailboxFrame d) = false →
      Tab.get [] (mailboxSubmit d).requests 0 = Tab.get [] d.requests 0 ++ [parseFrame .mailbox (mailboxFrame d)] ∧
        (mailboxSubmit d).responses = d.responses) ∧
    (d.mbx.len < 32 ∨ 4096 < d.mbx.len ∨ frameBad .mailbox (mailboxFrame d) = true →
      Tab.find (mailboxSubmit d).responses 0 = some (parseFrame .mailbox (memReadBytes d.mbx.req 0 32),
        responseFrame none (parseFrame .mailbox (memReadBytes d.mbx.req 0 32)) 0x0E []) ∧ (mailboxSubmit d).requests = d.requests) := by
  by_cases h : d.mbx.len < 32 ∨ 4096 < d.mbx.len ∨ frameBad .mailbox (mailboxFrame d) = true
  · rw [mailboxSubmit_bad h]
    refine ⟨rfl, rfl, fun h1 h2 h3 => ?_, fun _ => ⟨Tab.find_set_same _ _ _, rfl⟩⟩
    rw [h3] at h
    obtain h | h | h := h
    · omega
    · omega
    · exact absurd h (by decide)
  · rw [mailboxSubmit_good h]
    exact ⟨rfl, rfl, fun _ _ _ => ⟨get_appended d.requests 0 _, rfl⟩, fun h' => absurd h' h⟩

/-! MBX_RESPONSE_DONE -/

/-- The device whose mailbox holds its response. -/
def responded (d : Device) (bs : List Byte) : Device := { d with
  responses := Tab.erase d.responses 0
  mbx := { d.mbx with resp := memWriteBytes [] 0 bs, rlen := bs.length, busy := false, done := true } }

theorem mailboxDone_eq (d : Device) (bs : List Byte) : mailboxDone d bs =
    if d.mbx.irqen then signalVector (responded d bs) 32 else responded d bs := rfl

theorem mailboxDone_frame (d : Device) (bs : List Byte) : ∃ p, mailboxDone d bs = { responded d bs with pcie := p } := by
  rw [mailboxDone_eq]
  split
  · exact signalVector_frame _ 32
  · exact ⟨d.pcie, rfl⟩

theorem exec_mbxResponseDone {s : State} {r : JopReq} {bs : List Byte} (hfind : Tab.find s.dev.responses 0 = some (r, bs))
    (hbusy : s.dev.mbx.busy = true) : exec .mbxResponseDone s = .next { s with dev := mailboxDone s.dev bs } := by
  change execMbxResponseDone s = _
  rw [execMbxResponseDone, onDev_eq]
  rw [hfind]
  dsimp only
  rw [if_pos hbusy]

theorem signalled_mailboxDone {d : Device} (hirq : d.mbx.irqen = true) (hbus : d.pcie.busMaster = true) (hv : 32 ∈ d.pcie.unmasked)
    (bs : List Byte) : (mailboxDone d bs).pcie.signalled = d.pcie.signalled ++ [32] := by
  rw [mailboxDone_eq, if_pos hirq, signalVector_open (d := responded d bs) hv hbus]
  rfl

/-! BAR0 writes (R393, R394) -/

section Register
variable {s : State} (hup : s.dev.pcie.up = true)
include hup

theorem exec_registerWrite (off : BitVec 20) (bytes : Nat) (v : U64) :
    exec (.registerWrite off bytes v) s = .next { s with dev := registerWrite s.dev off.toNat bytes v } := onDev_guarded_pos _ hup

end Register

theorem registerWrite_control (d : Device) (v : U64) : registerWrite d 0x10 4 v = mailboxControl d (BitVec.ofNat 32 v.toNat) := by
  rw [registerWrite, if_pos rfl, if_pos rfl]

theorem registerWrite_buffer {off bytes : Nat} (d : Device) (v : U64) (h1 : 0x1000 ≤ off) (h2 : off < 0x2000) (hb : bytes ∈ [1, 2, 4, 8])
    (ha : off % bytes = 0) : registerWrite d off bytes v =
      { d with mbx := { d.mbx with req := memWriteBytes d.mbx.req (off - 0x1000) (leBytes bytes v.toNat) } } := by
  simp only [List.mem_cons, List.not_mem_nil, or_false] at hb
  rw [registerWrite, if_neg (by omega), if_pos ⟨h1, h2⟩, if_pos ⟨hb, ha⟩]

theorem registerWrite_queue {off q : Nat} (d : Device) (bytes : Nat) (v : U64) (hq : q < 16384) (h : off = 0x20000 + 8 * q) :
    registerWrite d off bytes v = queueDoorbell d q bytes v := by
  rw [registerWrite, if_neg (by omega), if_neg (by omega), if_neg (by omega), if_pos (by omega), if_pos (by omega),
    show (off - 0x20000) / 8 = q by omega]

theorem registerWrite_event {off n : Nat} (d : Device) (bytes : Nat) (v : U64) (hn : n < 32) (h : off = 0x40000 + 8 * n) :
    registerWrite d off bytes v = eventDoorbell d n bytes v := by
  rw [registerWrite, if_neg (by omega), if_neg (by omega), if_neg (by omega), if_neg (by omega), if_pos (by omega), if_pos (by omega),
    show (off - 0x40000) / 8 = n by omega]

/-! The management port -/

section Datagram
variable {d : Device} {g : Datagram}

theorem mgmtDatagram_arp {a : U32} (h : g.arp = some a) (ha : a.toNat = odGet d 0x1100 2) :
    mgmtDatagram d g = { d with arpOut := d.arpOut ++ [a] } := by
  rw [mgmtDatagram, h]
  dsimp only
  rw [if_pos ha]

theorem mgmtDatagram_request (h : g.arp = none) (hu : g.udp = true) (hd : g.dst.toNat = odGet d 0x1100 2) (hp : g.dport = odGet d 0x1100 5)
    (hgood : frameBad .udp g.body = false) : mgmtDatagram d g =
      { d with requests := Tab.modify [] d.requests 1 (fun l => l ++ [{ parseFrame .udp g.body with peer := g.src, pport := g.sport }]) } := by
  rw [mgmtDatagram, h]
  dsimp only
  rw [hu, decide_eq_true hd, decide_eq_true hp, hgood]
  rfl

theorem mgmtDatagram_other (h : g.arp = none) (hno : g.udp = false ∨ g.dst.toNat ≠ odGet d 0x1100 2 ∨ g.dport ≠ odGet d 0x1100 5) :
    mgmtDatagram d g = { d with mgmtDiscards := d.mgmtDiscards + 1 } := by
  have hcond : ¬ (g.udp && decide (g.dst.toNat = odGet d 0x1100 2) && decide (g.dport = odGet d 0x1100 5)) = true := by
    rw [Bool.and_eq_true, Bool.and_eq_true, decide_eq_true_eq, decide_eq_true_eq]
    rintro ⟨⟨hu, hd⟩, hp⟩
    obtain h | h | h := hno
    · rw [hu] at h
      exact absurd h (by decide)
    · exact h hd
    · exact h hp
  rw [mgmtDatagram, h]
  dsimp only
  rw [if_neg hcond]

end Datagram

/-! The journal -/

theorem commitRecord_plain {e : JournalRec} (h : e.key < 0x110001 ∨ 0x110006 < e.key) (d : Device) : commitRecord d e =
    match e.reply with
    | none => { d with flash := Tab.set d.flash e.key e.value }
    | some (r, bs) => deliverReply { d with flash := Tab.set d.flash e.key e.value } r bs := by
  rw [commitRecord]
  exact if_neg (by omega)

theorem exec_journalCommit {s : State} {e : JournalRec} {es : List JournalRec} (h : s.dev.journal = e :: es) :
    exec .journalCommit s = .next { s with dev := commitRecord { s.dev with journal := es } e } := by
  change execJournalCommit s = _
  rw [execJournalCommit, onDev_eq]
  dsimp only
  rw [h]

/-- Settles O44. -/
theorem mailboxAndManagement : Obligations.MailboxAndManagement := by
  unfold Obligations.MailboxAndManagement
  dsimp only
  refine ⟨fun cmd hcmd w s hup => ⟨fun h => ?_, fun h1 h2 h3 => ?_, fun h1 h2 h3 => ?_⟩, fun s r bs hfind hbusy => ?_,
    fun off bytes v s hup => ⟨fun ho hb => ?_, fun h1 h2 hb ha => ?_, fun q ho => ?_, fun n ho => ?_⟩, fun c s haux => ?_,
    fun g s hm => ⟨fun a ha hown => ?_, fun ha hu hd hp hgood => ?_, fun ha hno => ?_⟩, fun s e es hj hkey => ⟨fun hr => ?_, fun r bs hr => ?_⟩⟩
  · have hidle : (!bit w 31 || !firmwareReady s.dev) = true := by
      obtain h | h := h <;> rw [h] <;> simp
    rw [exec_mailbox hcmd w hup, mailboxControl_eq, if_pos hidle]
    rfl
  · have hgo : ¬ (!bit w 31 || !firmwareReady s.dev) = true := by rw [h1, h2]; decide
    have hheld : ((controlled s.dev.mbx w).busy || (controlled s.dev.mbx w).done) = true := h3
    rw [exec_mailbox hcmd w hup, mailboxControl_eq, if_neg hgo, if_pos hheld]
    rfl
  · have hgo : ¬ (!bit w 31 || !firmwareReady s.dev) = true := by rw [h1, h2]; decide
    have hfree : ¬ ((controlled s.dev.mbx w).busy || (controlled s.dev.mbx w).done) = true := by
      intro h
      exact absurd (h.symm.trans h3) (by decide)
    refine ⟨_, exec_mailbox hcmd w hup, ?_⟩
    rw [mailboxControl_eq, if_neg hgo, if_neg hfree, memReadBytes_length]
    exact mailboxSubmit_spec { s.dev with mbx := controlled s.dev.mbx w }
  · refine ⟨_, exec_mbxResponseDone hfind hbusy, ?_⟩
    obtain ⟨p, hp⟩ := mailboxDone_frame s.dev bs
    have hpcie : s.dev.mbx.irqen = false → (mailboxDone s.dev bs).pcie = s.dev.pcie := fun h => by
      rw [mailboxDone_eq, h]
      rfl
    have hsignal := fun h1 h2 h3 => signalled_mailboxDone (d := s.dev) h1 h2 h3 bs
    refine ⟨?_, ?_, ?_, ?_, ?_, ?_, hpcie, hsignal⟩
    · rw [hp]; rfl
    · rw [hp]; rfl
    · rw [hp]; rfl
    · rw [hp]
      exact memReadBytes_memWriteBytes 0 bs rfl
    · rw [hp]; rfl
    · rw [hp]; rfl
  · subst ho hb
    rw [exec_registerWrite hup, exec_mailbox (cmd := .mbxGo) (by simp) _ hup]
    exact congrArg (fun d => Host.Outcome.next { s with dev := d }) (registerWrite_control s.dev v)
  · rw [exec_registerWrite hup, registerWrite_buffer s.dev v h1 h2 hb ha]
  · rw [exec_registerWrite hup, registerWrite_queue s.dev bytes v q.isLt ho]
    rfl
  · rw [exec_registerWrite hup, registerWrite_event s.dev bytes v n.isLt ho]
    rfl
  · refine (onDev_guarded_pos _ haux).trans ?_
    cases c <;> rfl
  · rw [← mgmtDatagram_arp ha hown]
    exact onDev_guarded_pos _ hm
  · refine ⟨mgmtDatagram s.dev g, onDev_guarded_pos _ hm, ?_⟩
    rw [mgmtDatagram_request ha hu hd hp hgood]
    exact get_appended s.dev.requests 1 _
  · rw [← mgmtDatagram_other ha hno]
    exact onDev_guarded_pos _ hm
  · rw [exec_journalCommit hj, commitRecord_plain hkey, hr]
  · rw [exec_journalCommit hj, commitRecord_plain hkey, hr]

end Sys2Proof.Machine
end

section
/-!
# Boot, self-test and defaults of the firmware (16: Firmware update, Types, access and persistence; 17: Reactions)
-/
namespace Sys2Proof.Machine

/-! The boot bank -/

/-- A start of the cores keeps the boot bank, its mark and its tries. -/
theorem startCores_bank (d : Device) : (startCores d).fw.active = d.fw.active ∧ (startCores d).fw.marked = d.fw.marked ∧
    (startCores d).fw.tries = d.fw.tries := by
  rw [startCores]
  split
  · obtain ⟨e, ⟨o, rfl⟩, he⟩ := readFlash_frame { d with fw := { d.fw with running := true, fwstate := 1, bootAt := d.time }, pcie := { d.pcie with up := true } }
    rw [he]
    exact ⟨rfl, rfl, rfl⟩
  · exact ⟨rfl, rfl, rfl⟩

theorem bootFirmware_marked {d : Device} (h : d.fw.marked = true) : bootFirmware d = { d with
    fw := { d.fw with active := if d.fw.tries = 0 then 1 - d.fw.active else d.fw.active, tries := d.fw.tries + 1 } } := by
  rw [bootFirmware, if_pos h]

theorem startCores_berths (d : Device) : (startCores d).berths = d.berths := by
  obtain ⟨o, f, n, w, u, h⟩ := startCores_frame d
  rw [h]

/-- FW_BOOT_WARM: the other bank's first try. -/
theorem warmResetAll_bank {d : Device} (h : d.fw.marked = true) (ht : d.fw.tries = 0) : (warmResetAll d).fw.active = 1 - d.fw.active ∧
    (warmResetAll d).fw.tries = 1 ∧ (warmResetAll d).fw.marked = true := by
  obtain ⟨o, ho⟩ := (onlyOd_setCause (resetModule true true d) 8 0).trans (onlyOd_lossCauses d _)
  have hmark : (lossCauses d (setCause (resetModule true true d) 8 0)).fw.marked = true := by
    rw [ho]
    exact h
  obtain ⟨ha, hm, htr⟩ := startCores_bank (bootFirmware (lossCauses d (setCause (resetModule true true d) 8 0)))
  rw [warmResetAll, ha, hm, htr, bootFirmware_marked hmark, ho]
  refine ⟨?_, ?_, h⟩
  · exact if_pos ht
  · change d.fw.tries + 1 = 1
    rw [ht]

/-- The module whose marked bank has failed three times, back on the other bank. -/
def bankGivenUp (d : Device) : Device := { d with fw := { d.fw with active := 1 - d.fw.active, marked := false, tries := 0 } }

theorem bootAgain_tries {d : Device} (h : d.fw.tries < 3) : bootAgain d = startCores (bootFirmware d) := if_pos h

theorem bootAgain_over {d : Device} (h : ¬ d.fw.tries < 3) : bootAgain d = odPut (startCores (bankGivenUp d)) 0x1020 2 5 := if_neg h

theorem flashKept_bootAgain {d : Device} (hm : d.fw.marked = true) : FlashKept d.drawn d.flash (bootAgain d).flash := by
  by_cases h : d.fw.tries < 3
  · rw [bootAgain_tries h, bootFirmware_marked hm]
    exact (startCores_keeps _).1
  · rw [bootAgain_over h]
    exact (startCores_keeps (bankGivenUp d)).1

theorem berths_bootAgain {d : Device} (hm : d.fw.marked = true) : (bootAgain d).berths = d.berths := by
  by_cases h : d.fw.tries < 3
  · rw [bootAgain_tries h, startCores_berths, bootFirmware_marked hm]
  · rw [bootAgain_over h]
    exact startCores_berths (bankGivenUp d)

/-! The self-test (R421) -/

/-- The spare maps as a self-test leaves them: a spare is free or bad. -/
def SpareFree (d : Device) (b c : Nat) : Prop := spareEntry d b c = 0 ∨ spareEntry d b c = 64

/-- The self-test's word on one spare. -/
def rebuildSpare (n b : Nat) (d : Device) (c : Nat) : Device :=
  let bad := Config.spareBad b c n
  let d := odPut d (0x3110 + b) (c + 1) (if bad then 64 else 0)
  let d := modTile d b (tileKey c 20) (fun t => { t with retention := true, mem := patternMem, ecc := [] })
  if bad then berthReport d b 20 (tileTag b c 20) (tileTag b c 20) 0 else d

theorem rebuildSpares_eq (d : Device) (b : Nat) : rebuildSpares d b =
    { (List.range 20).foldl (rebuildSpare d.drawn b) d with drawn := d.drawn + 1 } := rfl

theorem od_rebuildSpare (n b : Nat) (d : Device) (c : Nat) :
    (rebuildSpare n b d c).od = (odPut d (0x3110 + b) (c + 1) (if Config.spareBad b c n then 64 else 0)).od := by
  rw [rebuildSpare]
  generalize Config.spareBad b c n = bad
  cases bad <;> rfl

theorem frame_rebuildSpare (n b : Nat) (d : Device) (c : Nat) : (rebuildSpare n b d c).fw = d.fw ∧ (rebuildSpare n b d c).flash = d.flash ∧
    (rebuildSpare n b d c).hub.uncleared = d.hub.uncleared := by
  rw [rebuildSpare]
  generalize Config.spareBad b c n = bad
  cases bad <;> exact ⟨rfl, rfl, rfl⟩

/-- The spare that was tested is free or bad, and so is every one that was. -/
theorem spareFree_rebuildSpare (n b : Nat) (d : Device) (c : Nat) : SpareFree (rebuildSpare n b d c) b c ∧
    ∀ b' c', b' < 4 → c' < 20 → c < 20 → SpareFree d b' c' → SpareFree (rebuildSpare n b d c) b' c' := by
  have hget : ∀ i s, odGet (rebuildSpare n b d c) i s = odGet (odPut d (0x3110 + b) (c + 1) (if Config.spareBad b c n then 64 else 0)) i s :=
    odGet_congr (od_rebuildSpare n b d c)
  have hsame : SpareFree (rebuildSpare n b d c) b c := by
    rw [SpareFree, spareEntry, hget, odGet_odPut_same]
    generalize Config.spareBad b c n = bad
    generalize ((odInfo (0x3110 + b) (c + 1)).map (·.size)).getD 0 = k
    cases bad
    · exact .inl (Nat.zero_mod _)
    · cases k with
      | zero => exact .inl rfl
      | succ k => exact .inr (Nat.mod_eq_of_lt (lt_of_lt_of_le (by decide : 64 < 256 ^ 1) (Nat.pow_le_pow_right (by decide) (by omega))))
  refine ⟨hsame, fun b' c' hb' hc' hc h => ?_⟩
  by_cases he : b' = b ∧ c' = c
  · obtain ⟨rfl, rfl⟩ := he
    exact hsame
  · rw [SpareFree, spareEntry, hget, odGet_odPut_other _ _ (by omega)]
    exact h

/-- What the tests of a row of spares leave. -/
theorem foldl_rebuildSpare (n b : Nat) (cs : List Nat) (hcs : ∀ c ∈ cs, c < 20) (d : Device) :
    let e := cs.foldl (rebuildSpare n b) d
    (e.fw = d.fw ∧ e.flash = d.flash ∧ e.hub.uncleared = d.hub.uncleared) ∧ (b < 4 → ∀ c ∈ cs, SpareFree e b c) ∧
      ∀ b' c', b' < 4 → c' < 20 → SpareFree d b' c' → SpareFree e b' c' := by
  induction cs generalizing d with
  | nil => exact ⟨⟨rfl, rfl, rfl⟩, fun _ c hc => absurd hc List.not_mem_nil, fun _ _ _ _ h => h⟩
  | cons c cs ih =>
    obtain ⟨⟨hf, hl, hu⟩, hfree, hkeep⟩ := ih (fun c hc => hcs c (List.mem_cons_of_mem _ hc)) (rebuildSpare n b d c)
    obtain ⟨gf, gl, gu⟩ := frame_rebuildSpare n b d c
    obtain ⟨hsame, hother⟩ := spareFree_rebuildSpare n b d c
    have hc := hcs c List.mem_cons_self
    refine ⟨⟨hf.trans gf, hl.trans gl, hu.trans gu⟩, fun hb x hx => ?_, fun b' c' hb' hc' h => hkeep b' c' hb' hc' (hother b' c' hb' hc' hc h)⟩
    obtain rfl | hx := List.mem_cons.mp hx
    · exact hkeep b x hb hc hsame
    · exact hfree hb x hx

theorem rebuildSpares_spec (bs : List Nat) (hbs : ∀ b ∈ bs, b < 4) (d : Device) :
    let e := bs.foldl rebuildSpares d
    (e.fw = d.fw ∧ e.flash = d.flash ∧ e.hub.uncleared = d.hub.uncleared) ∧ (∀ b ∈ bs, ∀ c < 20, SpareFree e b c) ∧
      ∀ b' c', b' < 4 → c' < 20 → SpareFree d b' c' → SpareFree e b' c' := by
  induction bs generalizing d with
  | nil => exact ⟨⟨rfl, rfl, rfl⟩, fun b hb => absurd hb List.not_mem_nil, fun _ _ _ _ h => h⟩
  | cons b bs ih =>
    obtain ⟨⟨hf, hl, hu⟩, hfree, hkeep⟩ := ih (fun b hb => hbs b (List.mem_cons_of_mem _ hb)) (rebuildSpares d b)
    obtain ⟨⟨gf, gl, gu⟩, gfree, gkeep⟩ := foldl_rebuildSpare d.drawn b (List.range 20) (fun c hc => List.mem_range.mp hc) d
    have hb := hbs b List.mem_cons_self
    refine ⟨⟨hf.trans gf, hl.trans gl, hu.trans gu⟩, fun x hx c hc => ?_, fun b' c' hb' hc' h => hkeep b' c' hb' hc' (gkeep b' c' hb' hc' h)⟩
    obtain rfl | hx := List.mem_cons.mp hx
    · exact hkeep x c hb hc (gfree hb c (List.mem_range.mpr hc))
    · exact hfree x hx c hc

/-- The module where a bank has passed its self-test. -/
def testPassed (d : Device) : Device :=
  let e := (List.range 4).foldl rebuildSpares d
  { e with
    fw := { e.fw with selfTested := true, fwstate := 2, marked := false, tries := 0 }
    sfp := List.map (fun (p : Nat × SfpPort) =>
      (p.1, if odFlag e (0x2000 + p.1) 1 && p.2.present && !p.2.unfit then { p.2 with txDisable := false } else p.2)) e.sfp }

/-- The record of the objects that a new bank adds. -/
def listAdded (keys : List Nat) (d : Device) : Device := keys.foldl (fun d key => listRestored d (key / 256) (key % 256)) d

theorem selfTestDone_pass (d : Device) : selfTestDone d true = if ((List.range 4).foldl rebuildSpares d).fw.marked then
    listAdded (Config.addedObjects (testPassed d).drawn) (setCause { testPassed d with drawn := (testPassed d).drawn + 1 } 512 0)
    else testPassed d := rfl

theorem onlyOd_listAdded (keys : List Nat) (d : Device) : OnlyOd d (listAdded keys d) :=
  .foldl (fun d key => onlyOd_listRestored d (key / 256) (key % 256)) keys d

theorem odGet_listAdded {i s : Nat} (h : 256 * i + s < 256 * 0x1010 ∨ 256 * 0x1012 ≤ 256 * i + s) (keys : List Nat) (d : Device) :
    odGet (listAdded keys d) i s = odGet d i s := by
  induction keys generalizing d with
  | nil => rfl
  | cons k keys ih => exact (ih _).trans (odGet_listRestored d _ _ (by omega) (by omega))

/-- A pass changes nothing behind the rebuilt spare maps but the firmware's state, the cages and the record of restored objects. -/
theorem selfTestDone_frame (d : Device) : (∃ o n, selfTestDone d true = { testPassed d with od := o, drawn := n }) ∧
    ∀ b c, spareEntry (selfTestDone d true) b c = spareEntry (testPassed d) b c := by
  rw [selfTestDone_pass]
  split
  · refine ⟨?_, fun b c => ?_⟩
    · obtain ⟨o, ho⟩ := (onlyOd_setCause { testPassed d with drawn := (testPassed d).drawn + 1 } 512 0).trans
        (onlyOd_listAdded (Config.addedObjects (testPassed d).drawn) _)
      exact ⟨o, _, ho⟩
    · rw [spareEntry, odGet_listAdded (by omega), odGet_setCause_other _ _ _ (by omega)]
      rfl
  · exact ⟨⟨_, _, rfl⟩, fun _ _ => rfl⟩

theorem selfTestDone_spec (d : Device) : let e := selfTestDone d true
    e.fw.fwstate = 2 ∧ e.fw.selfTested = true ∧ e.fw.marked = false ∧ e.fw.tries = 0 ∧ e.fw.active = d.fw.active ∧
      e.hub.uncleared = d.hub.uncleared ∧ (d.hub.uncleared = [] → faultLow e = false) ∧
      (∀ b < 4, ∀ c < 20, spareEntry e b c = 0 ∨ spareEntry e b c = 64) ∧ e.flash = d.flash := by
  obtain ⟨⟨hfw, hflash, hunc⟩, hfree, -⟩ := rebuildSpares_spec (List.range 4) (fun b hb => List.mem_range.mp hb) d
  obtain ⟨⟨o, n, he⟩, hspare⟩ := selfTestDone_frame d
  dsimp only at hfree ⊢
  simp only [hspare]
  rw [he]
  have hactive : ((List.range 4).foldl rebuildSpares d).fw.active = d.fw.active := by rw [hfw]
  refine ⟨rfl, rfl, rfl, rfl, hactive, hunc, fun hempty => ?_, fun b hb => hfree b (List.mem_range.mpr hb), hflash⟩
  have h : (testPassed d).hub.uncleared = [] := hunc.trans hempty
  change (!true || !(testPassed d).hub.uncleared.isEmpty) = false
  rw [h]
  rfl

/-! Defaults (R404) -/

/-- A key that stands in no entry of a table reads as its default. -/
theorem get_absent {α : Type} (d : α) {m : Tab α} {k : Nat} (h : ∀ e ∈ m, e.1 ≠ k) : Tab.get d m k = d := by
  induction m with
  | nil => rfl
  | cons e m ih =>
    obtain ⟨j, v⟩ := e
    rw [Tab.get, if_neg (h (j, v) List.mem_cons_self), ih fun e he => h e (List.mem_cons_of_mem _ he), ite_self]

/-- The module whose class P objects but the key slots have lost their values. -/
def valuesDropped (d : Device) : Device :=
  let keep := fun (k : Nat) => decide (odKind (k / 256) = some .key)
  { d with
    od := d.od.filter (fun e => keep e.1 || match odInfo (e.1 / 256) (e.1 % 256) with
      | some r => decide (r.cls ≠ 0)
      | none => false)
    flash := d.flash.filter (fun e => keep e.1)
    journal := d.journal.filter (fun (e : JournalRec) => keep e.key) }

theorem restoreDefaults_eq (d : Device) : restoreDefaults d =
    setCause (valuesDropped ((List.map (fun (p : Nat × Stream) => p.1) (d.streams.filter (·.2.active))).foldl disableStream d)) 1024 0 := rfl

section Defaults
variable {i sub : Nat} {row : OdRow} (hsub : sub < 256) (hrow : odInfo i sub = some row) (hcls : row.cls = 0)
include hsub hrow hcls

theorem odGet_valuesDropped (hkind : odKind i ≠ some .key) (d : Device) : odGet (valuesDropped d) i sub = odDefault i sub := by
  refine get_absent _ fun e he hk => ?_
  have hkeep := (List.mem_filter.mp he).2
  have hi : (256 * i + sub) / 256 = i := by omega
  have hs : (256 * i + sub) % 256 = sub := by omega
  rw [hk, hi, hs, hrow] at hkeep
  simp [hi, hcls, hkind] at hkeep

/-- Causes are no class P objects. -/
theorem odGet_setCause_classP (d : Device) (bits berths : Nat) : odGet (setCause d bits berths) i sub = odGet d i sub := by
  have hne : ∀ j, j = 1 ∨ j = 2 ∨ j = 3 → 256 * i + sub ≠ 256 * 0x1010 + j := by
    rintro j hj he
    obtain ⟨rfl, rfl⟩ : i = 0x1010 ∧ sub = j := by omega
    have hcause : ((odInfo 0x1010 sub).map (·.cls)) = some 1 := by
      obtain rfl | rfl | rfl := hj <;> decide
    rw [hrow, Option.map_some, hcls] at hcause
    exact absurd hcause (by decide)
  rw [setCause, odGet_odPut_other _ _ (hne 3 (by simp)), odGet_odPut_other _ _ (hne 2 (by simp)), odGet_odPut_other _ _ (hne 1 (by simp))]

end Defaults

/-! Causes cleared -/

/-- The list of restored objects, empty. -/
def listCleared (d : Device) : Device := (List.range 64).foldl (fun d i => odPut d 0x1011 (i + 1) 0) (odPut d 0x1010 4 0)

theorem odGet_listCleared (d : Device) : odGet (listCleared d) 0x1010 1 = odGet d 0x1010 1 := by
  have hfold : ∀ (l : List Nat) (e : Device), odGet (l.foldl (fun d i => odPut d 0x1011 (i + 1) 0) e) 0x1010 1 = odGet e 0x1010 1 := by
    intro l
    induction l with
    | nil => exact fun _ => rfl
    | cons i l ih => exact fun e => (ih _).trans (odGet_odPut_other e 0 (by omega))
  exact (hfold _ _).trans (odGet_odPut_other d 0 (by decide))

theorem onlyOd_listCleared (d : Device) : OnlyOd d (listCleared d) :=
  (onlyOd_odPut d _ _ _).trans (.foldl (fun d i => onlyOd_odPut d 0x1011 (i + 1) 0) _ _)

/-- The causes but those named. -/
def causesLeft (d : Device) (v : Nat) : Device := odPut d 0x1010 1 (odGet d 0x1010 1 - Nat.land (odGet d 0x1010 1) v)

theorem causeClear_eq (d : Device) (v : Nat) : causeClear d v =
    if v = top32 then listCleared (if odGet (causesLeft d v) 0x1010 1 = 0 then odPut (causesLeft d v) 0x1010 2 0 else causesLeft d v)
    else if odGet (causesLeft d v) 0x1010 1 = 0 then odPut (causesLeft d v) 0x1010 2 0 else causesLeft d v := rfl

theorem odGet_causesLeft {d : Device} (h : odGet d 0x1010 1 < 2 ^ 32) (v : Nat) :
    odGet (causesLeft d v) 0x1010 1 = odGet d 0x1010 1 - Nat.land (odGet d 0x1010 1) v := by
  rw [causesLeft, odGet_odPut_same, size_cause]
  exact Nat.mod_eq_of_lt (by omega)

theorem causeClear_spec {d : Device} (h : odGet d 0x1010 1 < 2 ^ 32) (v : Nat) :
    odGet (causeClear d v) 0x1010 1 = odGet d 0x1010 1 - Nat.land (odGet d 0x1010 1) v ∧ (causeClear d v).flash = d.flash := by
  have hberths : ∀ e, odGet (if odGet e 0x1010 1 = 0 then odPut e 0x1010 2 0 else e) 0x1010 1 = odGet e 0x1010 1 := fun e => by
    split
    · exact odGet_odPut_other e 0 (by decide)
    · rfl
  have honly : OnlyOd d (causeClear d v) := by
    have hput : OnlyOd d (if odGet (causesLeft d v) 0x1010 1 = 0 then odPut (causesLeft d v) 0x1010 2 0 else causesLeft d v) := by
      split
      · exact (onlyOd_odPut d _ _ _).trans (onlyOd_odPut _ _ _ _)
      · exact onlyOd_odPut d _ _ _
    rw [causeClear_eq]
    split
    · exact hput.trans (onlyOd_listCleared _)
    · exact hput
  constructor
  · rw [causeClear_eq, ← odGet_causesLeft h v]
    split
    · rw [odGet_listCleared, hberths]
    · exact hberths _
  · obtain ⟨o, ho⟩ := honly
    rw [ho]

/-! The obligation -/

theorem exec_bootReadyTimeout {s : State} (hr : s.dev.fw.running = true) (hm : s.dev.fw.marked = true) (hs : s.dev.fw.fwstate ≠ 2)
    (ht : s.dev.fw.bootAt + 1000000000 ≤ s.dev.time) : exec .bootReadyTimeout s = .next { s with dev := bootAgain s.dev } := by
  refine onDev_guarded_pos _ ?_
  rw [hr, hm, decide_eq_true hs, decide_eq_true ht]
  rfl

theorem exec_selfTest {s : State} (hr : s.dev.fw.running = true) (hs : s.dev.fw.fwstate = 1) (pass : Bool) :
    exec (.selfTestComplete pass) s = .next { s with dev := selfTestDone s.dev pass } := by
  refine onDev_guarded_pos (fun d => selfTestDone d pass) ?_
  rw [hr, decide_eq_true hs]
  rfl

/-- Settles O45. -/
theorem firmwareBoot : Obligations.FirmwareBoot := by
  unfold Obligations.FirmwareBoot
  dsimp only
  refine ⟨fun s h => ?_, fun s h => ?_, fun s h => ?_, fun s hr hm hs ht => ?_, fun s hr hs => ⟨?_, ?_⟩, fun s => ?_, fun v s h => ?_⟩
  · exact onDev_guarded_pos (fun d => fwCommand d 1) h
  · exact onDev_guarded_pos (fun d => fwCommand d 3) h
  · refine ⟨warmResetAll (fwMark s.dev), onDev_guarded_pos (fun d => fwCommand d 2) h, ?_⟩
    obtain ⟨ha, ht, hm⟩ := warmResetAll_bank (d := fwMark s.dev) rfl rfl
    obtain ⟨-, htime, hflash, -, hb, -, -, hse, -⟩ := warmResetAll_spec (fwMark s.dev)
    exact ⟨ha, ht, hm, hflash, htime, hse, hb⟩
  · refine ⟨_, exec_bootReadyTimeout hr hm hs ht, fun htr => ?_, fun htr => ?_, flashKept_bootAgain hm, berths_bootAgain hm⟩
    · obtain ⟨ha, hmk, htries⟩ := startCores_bank (bootFirmware s.dev)
      rw [bootAgain_tries htr, ha, hmk, htries, bootFirmware_marked hm]
      exact ⟨rfl, hm, rfl⟩
    · obtain ⟨ha, hmk, htries⟩ := startCores_bank (bankGivenUp s.dev)
      rw [bootAgain_over (by omega)]
      refine ⟨ha, hmk, htries, ?_⟩
      rw [odGet_odPut_same]
      decide
  · exact ⟨_, exec_selfTest hr hs true, selfTestDone_spec s.dev⟩
  · exact ⟨_, _, exec_selfTest hr hs false, rfl, rfl, rfl, rfl, rfl⟩
  · refine ⟨restoreDefaults s.dev, onDev_eq _ _, ?_, fun i sub row hsub hrow hcls hkind => ?_⟩
    · rw [restoreDefaults_eq, testBit_setCause _ _ _ (by omega), Bool.or_eq_true_iff]
      exact .inr (by decide)
    · rw [restoreDefaults_eq, odGet_setCause_classP hsub hrow hcls, odGet_valuesDropped hsub hrow hcls hkind]
  · exact ⟨causeClear s.dev v.toNat, onDev_eq (fun d => causeClear d v.toNat) s, causeClear_spec h v.toNat⟩

end Sys2Proof.Machine
end

section
/-! The end of a slot's writing (R303): the planes of an image are looked up by tile key, and a table that is out of order hides one. -/

namespace Sys2Proof.Machine

/-- Slot 0 of berth 0 is WRITING, and its image lists the plane of tile 1 before the plane of tile 0: the lookup of tile 0 ends at
the larger key. -/
def disorderedPlanesState : State :=
  { State.reset with dev := { State.reset.dev with
      fw := { fwstate := 2 }
      od := [(256 * 0x3000 + 2, 3)]
      berths := [(0, { slots := [(0, { image := some { planes := [(1, {}), (0, {})] } })] })] } }

/-- The image of the disordered state. -/
def disorderedPlanesImage : Image := { planes := [(1, {}), (0, {})] }

theorem plane_disordered : (planeAt (tileAt (writeDone disorderedPlanesState.dev 0 0) 0 (physKey (writeDone disorderedPlanesState.dev 0 0) 0 0 0)) 0).loaded = false := by
  decide +kernel

/-- Refutes O47: the plane of tile 0 is not loaded when its slot has been written. -/
theorem not_slotLoading : ¬ Obligations.SlotLoading := by
  unfold Obligations.SlotLoading
  rintro ⟨-, -, -, h, -⟩
  obtain ⟨e, he, -, hplanes, -⟩ := h 0 0 disorderedPlanesState disorderedPlanesImage (by decide +kernel) (by decide +kernel) (by decide +kernel)
  have hexec : exec (.slotWriteDone 0 0) disorderedPlanesState = .next { disorderedPlanesState with dev := writeDone disorderedPlanesState.dev 0 0 } :=
    onDev_guarded_pos (fun d => writeDone d 0 0) (by decide +kernel)
  rw [hexec] at he
  injection he with he
  have hsame : writeDone disorderedPlanesState.dev 0 0 = e := congrArg State.dev he
  have hloaded := hplanes (0, {}) (by decide +kernel)
  rw [← hsame] at hloaded
  exact absurd (plane_disordered.symm.trans hloaded) (by decide)

end Sys2Proof.Machine
end

section
/-!
# Changeovers (12: Epochs, Orderly changeover, Forced changeover)

Cuts, aborts of updates and dispositions of frames leave the values by which a berth's changeover is known: its changeover record,
the states of its slots, and BSTATE, RUN_SLOT, EPOCH and CO_STATUS.
-/
namespace Sys2Proof.Machine

/-! What a changeover is known by -/

/-- The changeover records, the slots, the slot and changeover objects and device time are the same. -/
structure SameControl (d e : Device) : Prop where
  od : ∀ i s, 0x3000 ≤ i → i < 0x3014 → s < 8 → odGet e i s = odGet d i s
  co : ∀ x, coOf e x = coOf d x
  slots : ∀ x, (berthAt e x).slots = (berthAt d x).slots
  time : e.time = d.time

theorem SameControl.refl (d : Device) : SameControl d d := ⟨fun _ _ _ _ _ => rfl, fun _ => rfl, fun _ => rfl, rfl⟩

theorem SameControl.trans {d e f : Device} (h : SameControl d e) (k : SameControl e f) : SameControl d f :=
  ⟨fun i s h1 h2 h3 => (k.od i s h1 h2 h3).trans (h.od i s h1 h2 h3), fun x => (k.co x).trans (h.co x),
    fun x => (k.slots x).trans (h.slots x), k.time.trans h.time⟩

theorem SameControl.foldl {α : Type} {f : Device → α → Device} (hf : ∀ d a, SameControl d (f d a)) (l : List α) (d : Device) :
    SameControl d (l.foldl f d) := by
  induction l generalizing d with
  | nil => exact .refl d
  | cons a l ih => exact (hf d a).trans (ih _)

theorem SameControl.ite {d e f : Device} {p : Prop} [Decidable p] (he : SameControl d e) (hf : SameControl d f) :
    SameControl d (if p then e else f) := by
  split
  · exact he
  · exact hf

section Steps
variable {d e : Device} (h : SameControl d e)
include h

/-- What changes neither berths, objects nor time. -/
theorem SameControl.aside {f : Device} (hod : f.od = e.od) (hb : f.berths = e.berths) (ht : f.time = e.time) : SameControl d f :=
  h.trans ⟨fun _ _ _ _ _ => odGet_congr hod _ _, fun x => by rw [coOf, coOf, berthAt, berthAt, hb], fun x => by rw [berthAt, berthAt, hb], ht⟩

theorem SameControl.setStream {n : Nat} {x : Stream} : SameControl d (setStream e n x) := h.aside rfl rfl rfl

theorem SameControl.setEnds {m : Tab UEnd} : SameControl d { e with ends := m } := h.aside rfl rfl rfl

theorem SameControl.setPorts {m : Tab StationPort} {n : Tab UEnd} : SameControl d { e with ports := m, ends := n } := h.aside rfl rfl rfl

theorem SameControl.modBerth {b : Nat} {f : Berth → Berth} (hf : ∀ x, (f x).co = x.co) (hs : ∀ x, (f x).slots = x.slots := by exact fun _ => rfl) :
    SameControl d (modBerth e b f) := by
  refine h.trans ⟨fun _ _ _ _ _ => rfl, fun x => ?_, fun x => ?_, rfl⟩
  · rw [coOf, coOf]
    by_cases hx : x = b
    · subst hx
      rw [berthAt_modBerth_same, hf]
    · rw [berthAt_modBerth_other _ _ hx]
  · by_cases hx : x = b
    · subst hx
      rw [berthAt_modBerth_same, hs]
    · rw [berthAt_modBerth_other _ _ hx]

theorem SameControl.setTile {b k : Nat} {t : Tile} : SameControl d (setTile e b k t) := h.modBerth fun _ => rfl

theorem SameControl.odPut {i s v : Nat} (hs : s < 256) (hi : i < 0x3000 ∨ 0x3014 ≤ i ∨ 8 ≤ s) : SameControl d (odPut e i s v) :=
  h.trans ⟨fun _ _ _ _ _ => odGet_odPut_other _ _ (by omega), fun _ => rfl, fun _ => rfl, rfl⟩

theorem SameControl.odAdd {i s n : Nat} (hs : s < 256) (hi : i < 0x3000 ∨ 0x3014 ≤ i ∨ 8 ≤ s) : SameControl d (odAdd e i s n) :=
  h.odPut hs hi

theorem SameControl.berthEvent {b k info : Nat} : SameControl d (berthEvent e b k info) := by
  obtain ⟨o, m, q, p, v, u, he⟩ := onlyEvents_sharedEvent e (0x200 + 16 * b + k) info 1
  refine h.trans ⟨fun i s h1 h2 h3 => ?_, fun x => ?_, fun x => ?_, ?_⟩
  · have hlow : 256 * i + s < 256 * 0x8110 := by omega
    rw [Machine.berthEvent, odGet_sharedEvent_low _ _ _ _ hlow]
  · rw [Machine.berthEvent, he]; rfl
  · rw [Machine.berthEvent, he]; rfl
  · rw [Machine.berthEvent, he]

theorem SameControl.addDiscard {r : Discard} : SameControl d (addDiscard e r) := by
  rw [Machine.addDiscard]
  split
  · exact h
  · have hhub : ∀ x, SameControl d { e with hub := x } := fun x => h.aside rfl rfl rfl
    refine (hhub _).odAdd ?_ ?_ <;> omega

theorem SameControl.swapUnits {b : Nat} : SameControl d (swapUnits e b) := by
  rw [Machine.swapUnits]
  split
  · exact h
  · dsimp only
    rw [putTables]
    refine .modBerth (.modBerth (.setPorts h) fun _ => ?_) fun _ => ?_ <;> rfl

theorem SameControl.showAdapt {b : Nat} : SameControl d (showAdapt e b) := h.odPut (by omega) (by omega)

theorem SameControl.cutTokens {b cause qid : Nat} {ts : List Token} : SameControl d (cutTokens e b cause qid ts) := by
  rw [Machine.cutTokens]
  split
  · exact h
  · exact h.addDiscard

theorem SameControl.setStreamState {n st : Nat} : SameControl d (setStreamState e n st) := by
  rw [Machine.setStreamState]
  split
  · exact h
  · exact .berthEvent (h.odPut (by omega) (by omega))

theorem SameControl.freeStream {n : Nat} : SameControl d (freeStream e n) := by
  rw [Machine.freeStream]
  dsimp only
  split
  · refine SameControl.setStreamState ?_
    refine SameControl.setStream ?_
    refine h.modBerth fun _ => ?_
    rfl
  · exact h

end Steps

theorem sameControl_onUnits {f : Device → Device} (hf : ∀ d, SameControl d (f d)) (use : Bool) (d : Device) (b : Nat) :
    SameControl d (onUnits use d b f) := by
  rw [onUnits]
  split
  · exact .swapUnits (.trans (.swapUnits (.refl d)) (hf _))
  · exact hf d

theorem sameControl_creditBack (d : Device) (b key k iq n : Nat) : SameControl d (creditBack d b key k iq n) := by
  unfold creditBack
  dsimp only
  split
  · exact .refl d
  · split
    · exact .modBerth (.refl d) fun _ => rfl
    · refine sameControl_onUnits (f := fun d => _) (fun d => ?_) _ d b
      split
      · exact .refl d
      · split <;> exact .aside (.refl d) rfl rfl rfl

/-! Updates aborted (R290) -/

theorem sameControl_abortTile (d : Device) (b key : Nat) (qids : List Nat) : SameControl d (abortTile d b key qids) := by
  rw [abortTile]
  refine .trans (.setTile (.foldl (fun d q => ?_) _ d)) (.foldl (fun d q => ?_) _ _)
  · exact .addDiscard (.refl d)
  · exact sameControl_creditBack d b key _ _ _

theorem sameControl_abortUpdate (d : Device) (b : Nat) : SameControl d (abortUpdate d b) := by
  have hfold : ∀ (qids : List Nat) (keys : List Nat), SameControl d (keys.foldl (fun d k => abortTile d b k qids) d) :=
    fun qids keys => .foldl (fun d k => sameControl_abortTile d b k _) keys d
  rw [abortUpdate]
  dsimp only
  split
  · exact .refl d
  · refine .berthEvent (.showAdapt ?_)
    split
    · refine .odAdd (.modBerth (.setEnds (hfold _ _)) fun _ => ?_) (by omega) (by omega)
      rfl
    · refine .modBerth (.setEnds (hfold _ _)) fun _ => ?_
      rfl

/-! Cuts (R313) -/

theorem sameControl_cutTile (d : Device) (b k cause key : Nat) : SameControl d (cutTile d b k cause key) := by
  rw [cutTile]
  refine .setTile (.trans (.foldl (fun d q => .addDiscard (.refl d)) _ d) (.foldl (fun d x => ?_) _ _))
  rw [cutBand]
  exact .ite (.addDiscard (.refl d)) (.refl d)

theorem sameControl_cutUnits (d : Device) (b cause : Nat) : SameControl d (cutUnits d b cause) := by
  rw [cutUnits]
  refine .modBerth (.trans (.trans (.trans (.foldl (fun d p => ?_) _ d) (.foldl (fun d p => ?_) _ _)) (.foldl (fun d p => ?_) _ _))
    (.foldl (fun d p => ?_) _ _)) fun _ => rfl
  · exact .cutTokens (.refl d)
  · exact .aside (.refl d) rfl rfl rfl
  · exact .cutTokens (.refl d)
  · exact .aside (.refl d) rfl rfl rfl

theorem sameControl_cutSlot (d : Device) (b k cause : Nat) : SameControl d (cutSlot d b k cause) :=
  .aside (.trans (.foldl (fun d key => sameControl_cutTile d b k cause key) _ d) (sameControl_cutUnits _ b cause)) rfl rfl rfl

/-! Frames disposed of (R315) -/

theorem sameControl_dropEntry (d : Device) (n : Nat) (e : FsEntry) : SameControl d (dropEntry d n e) :=
  .freeStream (.setStream (.setStream (.refl d)))

theorem sameControl_putEntry (d : Device) (n : Nat) (e : FsEntry) : SameControl d (putEntry d n e) := .setStream (.refl d)

theorem sameControl_foldEntries {f : Device → Nat → FsEntry → Device} (hf : ∀ d n e, SameControl d (f d n e)) (d : Device) (b : Nat) :
    SameControl d (foldEntries d b f) := .foldl (fun d n => .foldl (fun d e => hf d n e) _ d) _ d

theorem sameControl_disposeFrames (d : Device) (b mode : Nat) : SameControl d (disposeFrames d b mode) := by
  rw [disposeFrames]
  split
  · exact sameControl_foldEntries (fun d n e => sameControl_putEntry d n _) d b
  · split
    · exact sameControl_foldEntries (fun d n e => .ite (.refl d) (sameControl_dropEntry d n e)) d b
    · exact .modBerth (sameControl_foldEntries (fun d n e => sameControl_putEntry d n _) d b) fun _ => rfl

end Sys2Proof.Machine
end

section
/-!
# Starting a changeover (12: Epochs, Orderly changeover, Forced changeover)

A berth's changeover is read off a view of it: its changeover record, BSTATE, RUN_SLOT, EPOCH, CO_STATUS and the states of its slots.
-/
namespace Sys2Proof.Machine

/-! The view of a berth -/

structure BerthView where
  co : Changeover
  bstate : Nat
  runSlot : Nat
  epoch : Nat
  status : Nat
  slots : Fin 4 → Nat
  time : Nat

def berthView (d : Device) (x : Nat) : BerthView :=
  { co := coOf d x, bstate := bstate d x, runSlot := runSlot d x, epoch := berthEpoch d x, status := odGet d (0x3010 + x) 7
    slots := fun k => slotState d x k.val, time := d.time }

theorem berthView_sameControl {d e : Device} (h : SameControl d e) {x : Nat} (hx : x < 4) : berthView e x = berthView d x := by
  have hslots : (fun k : Fin 4 => slotState e x k.val) = fun k : Fin 4 => slotState d x k.val :=
    funext fun k => h.od _ _ (by omega) (by omega) (by omega)
  simp only [berthView, bstate, runSlot, berthEpoch, h.co, h.time, hslots, h.od (0x3010 + x) 7 (by omega) (by omega) (by omega),
    h.od (0x3010 + x) 3 (by omega) (by omega) (by omega), h.od (0x3010 + x) 1 (by omega) (by omega) (by omega),
    h.od (0x3010 + x) 4 (by omega) (by omega) (by omega)]

theorem size_changeover : ∀ b < 4, ((odInfo (0x3010 + b) 1).map (·.size)).getD 0 = 1 ∧ ((odInfo (0x3010 + b) 3).map (·.size)).getD 0 = 1 ∧
    ((odInfo (0x3010 + b) 4).map (·.size)).getD 0 = 1 := by decide

/-- A value of a changeover object. -/
theorem odGet_changeover (d : Device) {b s v : Nat} (hb : b < 4) (hs : s = 1 ∨ s = 3 ∨ s = 4) (hv : v < 256) :
    odGet (odPut d (0x3010 + b) s v) (0x3010 + b) s = v := by
  obtain ⟨h1, h3, h4⟩ := size_changeover b hb
  rw [odGet_odPut_same]
  obtain rfl | rfl | rfl := hs
  · rw [h1]; exact Nat.mod_eq_of_lt (by omega)
  · rw [h3]; exact Nat.mod_eq_of_lt (by omega)
  · rw [h4]; exact Nat.mod_eq_of_lt (by omega)

/-- A value of a changeover object of one berth leaves every other berth's view. -/
theorem berthView_changeover_other (d : Device) {b s v x : Nat} (hb : b < 4) (hs : s < 8) (hx : x < 4) (hne : x ≠ b) :
    berthView (odPut d (0x3010 + b) s v) x = berthView d x := by
  have hother : ∀ t, t < 8 → odGet (odPut d (0x3010 + b) s v) (0x3010 + x) t = odGet d (0x3010 + x) t := fun t ht =>
    odGet_odPut_other d v (by omega)
  have hslots : (fun k : Fin 4 => slotState (odPut d (0x3010 + b) s v) x k.val) = fun k : Fin 4 => slotState d x k.val :=
    funext fun k => odGet_odPut_other d v (by omega)
  simp only [berthView, bstate, runSlot, berthEpoch, hslots, hother 1 (by omega), hother 3 (by omega), hother 4 (by omega), hother 7 (by omega)]
  rfl

theorem slots_changeover (d : Device) {b s v : Nat} (hb : b < 4) (hs : s < 8) (x : Nat) (hx : x < 4) :
    (fun k : Fin 4 => slotState (odPut d (0x3010 + b) s v) x k.val) = fun k : Fin 4 => slotState d x k.val :=
  funext fun k => odGet_odPut_other d v (by omega)

theorem berthView_setBstate (d : Device) {b v : Nat} (hb : b < 4) (hv : v < 256) :
    berthView (setBstate d b v) b = { berthView d b with bstate := v } := by
  have hother : ∀ t, t ≠ 3 → t < 8 → odGet (setBstate d b v) (0x3010 + b) t = odGet d (0x3010 + b) t := fun t ht _ =>
    odGet_odPut_other d v (by omega)
  simp only [berthView, bstate, runSlot, berthEpoch, hother 1 (by omega) (by omega), hother 4 (by omega) (by omega),
    hother 7 (by omega) (by omega)]
  rw [setBstate, odGet_changeover d hb (by simp) hv, slots_changeover d hb (by omega) b hb]
  rfl

theorem berthView_runSlot (d : Device) {b v : Nat} (hb : b < 4) (hv : v < 256) :
    berthView (odPut d (0x3010 + b) 1 v) b = { berthView d b with runSlot := v } := by
  have hother : ∀ t, t ≠ 1 → t < 8 → odGet (odPut d (0x3010 + b) 1 v) (0x3010 + b) t = odGet d (0x3010 + b) t := fun t ht _ =>
    odGet_odPut_other d v (by omega)
  simp only [berthView, bstate, runSlot, berthEpoch, hother 3 (by omega) (by omega), hother 4 (by omega) (by omega),
    hother 7 (by omega) (by omega)]
  rw [odGet_changeover d hb (by simp) hv, slots_changeover d hb (by omega) b hb]
  rfl

theorem berthView_epoch (d : Device) {b v : Nat} (hb : b < 4) (hv : v < 256) :
    berthView (odPut d (0x3010 + b) 4 v) b = { berthView d b with epoch := v } := by
  have hother : ∀ t, t ≠ 4 → t < 8 → odGet (odPut d (0x3010 + b) 4 v) (0x3010 + b) t = odGet d (0x3010 + b) t := fun t ht _ =>
    odGet_odPut_other d v (by omega)
  simp only [berthView, bstate, runSlot, berthEpoch, hother 3 (by omega) (by omega), hother 1 (by omega) (by omega),
    hother 7 (by omega) (by omega)]
  rw [odGet_changeover d hb (by simp) hv, slots_changeover d hb (by omega) b hb]
  rfl

theorem berthView_coStatus_zero (d : Device) {b : Nat} (hb : b < 4) : berthView (coStatus d b 0) b = { berthView d b with status := 0 } := by
  have hother : ∀ t, t ≠ 7 → t < 8 → odGet (coStatus d b 0) (0x3010 + b) t = odGet d (0x3010 + b) t := fun t ht _ =>
    odGet_odPut_other d 0 (by omega)
  simp only [berthView, bstate, runSlot, berthEpoch, hother 3 (by omega) (by omega), hother 1 (by omega) (by omega),
    hother 4 (by omega) (by omega)]
  rw [coStatus, odGet_odPut_same, Nat.zero_mod, slots_changeover d hb (by omega) b hb]
  rfl

theorem berthView_modBerth (d : Device) (b : Nat) (f : Berth → Berth) : berthView (modBerth d b f) b =
    { berthView d b with co := (f (berthAt d b)).co } := by
  have hco : coOf (modBerth d b f) b = (f (berthAt d b)).co := by rw [coOf, berthAt_modBerth_same]
  rw [berthView, hco]
  rfl

theorem berthView_modBerth_other (d : Device) {b x : Nat} (f : Berth → Berth) (hne : x ≠ b) : berthView (modBerth d b f) x = berthView d x := by
  have hco : coOf (modBerth d b f) x = coOf d x := by rw [coOf, berthAt_modBerth_other _ _ hne, coOf]
  rw [berthView, hco]
  rfl

theorem onlyEvents_time {d e : Device} (h : OnlyEvents d e) : e.time = d.time ∧ ∀ x, coOf e x = coOf d x := by
  obtain ⟨_, _, _, _, _, _, rfl⟩ := h
  exact ⟨rfl, fun _ => rfl⟩

theorem berthView_setSlotState (d : Device) {b st : Nat} (k : Fin 4) (hb : b < 4) (hst : st < 256) :
    berthView (setSlotState d b k.val st) b = { berthView d b with slots := Function.update (berthView d b).slots k st } := by
  obtain ⟨htime, hco⟩ := onlyEvents_time (onlyEvents_setSlotState d b k.val st)
  have hother : ∀ t, t < 8 → odGet (setSlotState d b k.val st) (0x3010 + b) t = odGet d (0x3010 + b) t := fun t ht =>
    odGet_setSlotState_other d hb (by omega) (by omega)
  have hslots : (fun j : Fin 4 => slotState (setSlotState d b k.val st) b j.val) = Function.update (berthView d b).slots k st := by
    funext j
    by_cases hj : j = k
    · subst hj
      rw [Function.update_self, slotState_setSlotState_same d hb j.isLt hst]
    · rw [Function.update_of_ne hj]
      exact odGet_setSlotState_other d hb (fun h => hj (Fin.ext (by omega))) (by omega)
  simp only [berthView, bstate, runSlot, berthEpoch, htime, hco, hother 1 (by omega), hother 3 (by omega), hother 4 (by omega),
    hother 7 (by omega)]
  simp only [hslots, berthView]

theorem berthView_setSlotState_other (d : Device) {b k st x : Nat} (hb : b < 4) (hk : k < 4) (hx : x < 4) (hne : x ≠ b) :
    berthView (setSlotState d b k st) x = berthView d x := by
  obtain ⟨htime, hco⟩ := onlyEvents_time (onlyEvents_setSlotState d b k st)
  have hother : ∀ t, t < 8 → odGet (setSlotState d b k st) (0x3010 + x) t = odGet d (0x3010 + x) t := fun t ht =>
    odGet_setSlotState_other d hb (by omega) (by omega)
  have hslots : (fun j : Fin 4 => slotState (setSlotState d b k st) x j.val) = fun j : Fin 4 => slotState d x j.val :=
    funext fun j => odGet_setSlotState_other d hb (by omega) (by omega)
  simp only [berthView, bstate, runSlot, berthEpoch, htime, hco, hslots, hother 1 (by omega), hother 3 (by omega), hother 4 (by omega),
    hother 7 (by omega)]

/-! The start of a switch -/

/-- The changeover record of a switch that begins. -/
def startedCo (k mode : Nat) (halted : Bool) (e : BitVec 2) (time : Nat) : Changeover :=
  { active := true, mode := mode, target := k, epoch := e, since := time, arriveHalted := halted }

/-- What the start of a switch to slot k makes of a berth's view. -/
def begun (k mode : Nat) (halted : Bool) (e : BitVec 2) (v : BerthView) : BerthView := { v with
  co := startedCo k mode halted e v.time
  bstate := if v.bstate = 0 then 1 else 3
  status := 0
  slots := if h : k < 4 then Function.update v.slots ⟨k, h⟩ 5 else v.slots }

theorem beginSwitch_eq (d : Device) (b k mode : Nat) (halted : Bool) (e : BitVec 2) : beginSwitch d b k mode halted e =
    coStatus (abortUpdate (if k < 4 then
        setSlotState (setSlotState (modBerth (setBstate d b (if bstate d b = 0 then 1 else 3)) b
          fun x => { x with co := startedCo k mode halted e d.time }) b k 4) b k 5
      else modBerth (setBstate d b (if bstate d b = 0 then 1 else 3)) b fun x => { x with co := startedCo k mode halted e d.time }) b) b 0 := rfl

/-- A cut of a berth's live planes cuts the running slot and then, in a changeover to another one, the incoming slot too. -/
theorem cutLive_eq (d : Device) (b cause : Nat) : ∃ e, SameControl d e ∧ cutLive d b cause =
    if (berthAt d b).co.active ∧ (berthAt d b).co.target < 4 ∧ (berthAt d b).co.target ≠ runSlot d b then
      setSlotState (cutSlot e b (berthAt d b).co.target cause) b (berthAt d b).co.target 4 else e := by
  have hcut : ∀ e : Device, SameControl d e → SameControl d (if (berthAt e b).incoming.isSome then
      modBerth (onUnits true e b (cutUnits · b cause)) b (fun x => { x with incoming := none }) else e) := by
    intro e h
    split
    · refine .modBerth (h.trans (sameControl_onUnits (fun d => sameControl_cutUnits d b cause) true e b)) fun _ => ?_
      rfl
    · exact h
  have hout : SameControl d (if runSlot d b < 4 then cutSlot d b (runSlot d b) cause else d) := .ite (sameControl_cutSlot d b _ cause) (.refl d)
  have hboth := hcut _ hout
  have hco := hboth.co b
  rw [coOf, coOf] at hco
  refine ⟨_, hboth, ?_⟩
  rw [cutLive]
  rw [hco]

section Switch
variable {b : Nat} (hb : b < 4)
include hb

theorem berthView_beginSwitch (d : Device) (k mode : Nat) (halted : Bool) (e : BitVec 2) :
    berthView (beginSwitch d b k mode halted e) b = begun k mode halted e (berthView d b) := by
  have hst : (if bstate d b = 0 then 1 else 3) < 256 := by split <;> omega
  have hco : berthView (modBerth (setBstate d b (if bstate d b = 0 then 1 else 3)) b fun x => { x with co := startedCo k mode halted e d.time }) b =
      { berthView d b with bstate := if bstate d b = 0 then 1 else 3, co := startedCo k mode halted e d.time } := by
    rw [berthView_modBerth, berthView_setBstate d hb hst]
  rw [beginSwitch_eq, berthView_coStatus_zero _ hb, berthView_sameControl (sameControl_abortUpdate _ b) hb]
  by_cases hk : k < 4
  · rw [if_pos hk, berthView_setSlotState _ ⟨k, hk⟩ hb (by omega), berthView_setSlotState _ ⟨k, hk⟩ hb (by omega), hco, begun, dif_pos hk]
    simp only [Function.update_idem]
    rfl
  · rw [if_neg hk, hco, begun, dif_neg hk]
    rfl

theorem berthView_beginSwitch_other (d : Device) (k mode : Nat) (halted : Bool) (e : BitVec 2) {x : Nat} (hx : x < 4) (hne : x ≠ b) :
    berthView (beginSwitch d b k mode halted e) x = berthView d x := by
  have hco : berthView (modBerth (setBstate d b (if bstate d b = 0 then 1 else 3)) b fun x => { x with co := startedCo k mode halted e d.time }) x =
      berthView d x := by
    rw [berthView_modBerth_other _ _ hne, setBstate, berthView_changeover_other _ hb (by omega) hx hne]
  rw [beginSwitch_eq, coStatus, berthView_changeover_other _ hb (by omega) hx hne, berthView_sameControl (sameControl_abortUpdate _ b) hx]
  by_cases hk : k < 4
  · rw [if_pos hk, berthView_setSlotState_other _ hb hk hx hne, berthView_setSlotState_other _ hb hk hx hne, hco]
  · rw [if_neg hk, hco]

/-! Cuts -/

/-- A cut of a berth's live planes leaves its view but for the incoming slot, which is LOADED again. -/
theorem berthView_cutLive (d : Device) (cause : Nat) : (∃ s, berthView (cutLive d b cause) b = { berthView d b with slots := s }) ∧
    ∀ x < 4, x ≠ b → berthView (cutLive d b cause) x = berthView d x := by
  obtain ⟨e, hboth, heq⟩ := cutLive_eq d b cause
  rw [heq]
  split
  next hinc =>
    have hsame := hboth.trans (sameControl_cutSlot e b (berthAt d b).co.target cause)
    refine ⟨⟨Function.update (berthView d b).slots ⟨(berthAt d b).co.target, hinc.2.1⟩ 4, ?_⟩, fun x hx hne => ?_⟩
    · rw [berthView_setSlotState _ ⟨(berthAt d b).co.target, hinc.2.1⟩ hb (by omega), berthView_sameControl hsame hb]
    · rw [berthView_setSlotState_other _ hb hinc.2.1 hx hne, berthView_sameControl hsame hx]
  next => exact ⟨⟨(berthView d b).slots, berthView_sameControl hboth hb⟩, fun x hx _ => berthView_sameControl hboth hx⟩

/-- The running slot of a berth, if it has one, is LOADED again. -/
def outLoaded (d : Device) (b : Nat) : Device := if runSlot d b < 4 then setSlotState d b (runSlot d b) 4 else d

theorem berthView_outLoaded (d : Device) : (∃ s, berthView (outLoaded d b) b = { berthView d b with slots := s } ∧
      ∀ h : (berthView d b).runSlot < 4, s ⟨(berthView d b).runSlot, h⟩ = 4) ∧
    ∀ x < 4, x ≠ b → berthView (outLoaded d b) x = berthView d x := by
  rw [outLoaded]
  split
  next h =>
    refine ⟨⟨Function.update (berthView d b).slots ⟨runSlot d b, h⟩ 4, berthView_setSlotState d ⟨runSlot d b, h⟩ hb (by omega), fun _ => ?_⟩,
      fun x hx hne => berthView_setSlotState_other _ hb h hx hne⟩
    exact Function.update_self _ _ _
  next h => exact ⟨⟨(berthView d b).slots, rfl, fun h' => absurd h' h⟩, fun _ _ _ => rfl⟩

/-- The view of a berth that has gone IDLE. -/
theorem berthView_goIdle (d : Device) : (∃ s, berthView (goIdle d b) b = { berthView d b with bstate := 0, runSlot := 0xFF, co := {}, slots := s }) ∧
    ∀ x < 4, x ≠ b → berthView (goIdle d b) x = berthView d x := by
  obtain ⟨⟨s, hs, -⟩, hother⟩ := berthView_outLoaded hb d
  have heq : goIdle d b = showAdapt (modBerth (odPut (setBstate (outLoaded d b) b 0) (0x3010 + b) 1 0xFF) b
    (fun x => { x with co := {}, unitSlot := none, incoming := none, feederOpen := false, haltDone := false })) b := rfl
  rw [heq]
  refine ⟨⟨s, ?_⟩, fun x hx hne => ?_⟩
  · rw [berthView_sameControl (.showAdapt (.refl _)) hb, berthView_modBerth, berthView_runSlot _ hb (by omega),
      berthView_setBstate _ hb (by omega), hs]
  · rw [berthView_sameControl (.showAdapt (.refl _)) hx, berthView_modBerth_other _ _ hne,
      berthView_changeover_other _ hb (by omega) hx hne, setBstate, berthView_changeover_other _ hb (by omega) hx hne, hother x hx hne]

/-! Forced switches -/

/-- A berth whose live planes have been cut and whose frames have been disposed of. -/
def cutAndDisposed (d : Device) (b mode : Nat) : Device := disposeFrames (cutLive (abortUpdate d b) b 1) b mode

theorem berthView_cutAndDisposed (d : Device) (mode : Nat) :
    (∃ s, berthView (cutAndDisposed d b mode) b = { berthView d b with slots := s }) ∧
      ∀ x < 4, x ≠ b → berthView (cutAndDisposed d b mode) x = berthView d x := by
  obtain ⟨⟨s, hs⟩, hother⟩ := berthView_cutLive hb (abortUpdate d b) 1
  have habort := fun {x : Nat} (hx : x < 4) => berthView_sameControl (sameControl_abortUpdate d b) hx
  refine ⟨⟨s, ?_⟩, fun x hx hne => ?_⟩
  · rw [cutAndDisposed, berthView_sameControl (sameControl_disposeFrames _ b mode) hb, hs, habort hb]
  · rw [cutAndDisposed, berthView_sameControl (sameControl_disposeFrames _ b mode) hx, hother x hx hne, habort hx]

/-- A forced switch to a slot: cut, then begun like any other (R313, R315). -/
theorem berthView_forceSwitch (d : Device) {k : Nat} (hk : k ≠ 15) (mode : Nat) (halted : Bool) (e : BitVec 2) :
    (∃ s, berthView (forceSwitch d b k mode halted e) b = begun k mode halted e { berthView d b with co := {}, slots := s } ∧
      ∀ h : (berthView d b).runSlot < 4, s ⟨(berthView d b).runSlot, h⟩ = 4) ∧
    ∀ x < 4, x ≠ b → berthView (forceSwitch d b k mode halted e) x = berthView d x := by
  have heq : forceSwitch d b k mode halted e = beginSwitch (modBerth (outLoaded (cutAndDisposed d b mode) b) b
      (fun x => { x with co := {}, haltDone := false })) b k mode halted e := by
    rw [forceSwitch]
    exact if_neg hk
  obtain ⟨⟨s, hs⟩, hcut⟩ := berthView_cutAndDisposed hb d mode
  obtain ⟨⟨s', hs', hloaded⟩, hout⟩ := berthView_outLoaded hb (cutAndDisposed d b mode)
  rw [hs] at hs' hloaded
  rw [heq]
  refine ⟨⟨s', ?_, hloaded⟩, fun x hx hne => ?_⟩
  · rw [berthView_beginSwitch hb, berthView_modBerth, hs']
  · rw [berthView_beginSwitch_other hb _ _ _ _ _ hx hne, berthView_modBerth_other _ _ hne, hout x hx hne, hcut x hx hne]

/-- A forced stop (R315). -/
theorem berthView_forceStop (d : Device) (mode : Nat) (halted : Bool) (e : BitVec 2) :
    (∃ s, berthView (forceSwitch d b 15 mode halted e) b =
      { berthView d b with bstate := 0, runSlot := 0xFF, co := {}, slots := s, epoch := e.toNat }) ∧
    ∀ x < 4, x ≠ b → berthView (forceSwitch d b 15 mode halted e) x = berthView d x := by
  have heq : forceSwitch d b 15 mode halted e = odPut (goIdle (cutAndDisposed d b mode) b) (0x3010 + b) 4 e.toNat := by
    rw [forceSwitch]
    exact if_pos rfl
  obtain ⟨⟨s, hs⟩, hcut⟩ := berthView_cutAndDisposed hb d mode
  obtain ⟨⟨s', hs'⟩, hidle⟩ := berthView_goIdle hb (cutAndDisposed d b mode)
  rw [heq]
  refine ⟨⟨s', ?_⟩, fun x hx hne => ?_⟩
  · rw [berthView_epoch _ hb (by have := e.isLt; omega), hs', hs]
  · rw [berthView_changeover_other _ hb (by omega) hx hne, hidle x hx hne, hcut x hx hne]

end Switch

/-! A forced stop leaves the slots' contents -/

theorem slots_modBerth (d : Device) (b : Nat) {f : Berth → Berth} (hf : ∀ x, (f x).slots = x.slots) (y : Nat) :
    (berthAt (modBerth d b f) y).slots = (berthAt d y).slots := by
  by_cases h : y = b
  · subst h
    rw [berthAt_modBerth_same, hf]
  · rw [berthAt_modBerth_other _ _ h]

theorem slots_setSlotState (d : Device) (x k st y : Nat) : (berthAt (setSlotState d x k st) y).slots = (berthAt d y).slots :=
  congrArg Berth.slots ((onlyEvents_setSlotState d x k st).berthAt y)

theorem slots_cutLive (d : Device) (b cause y : Nat) : (berthAt (cutLive d b cause) y).slots = (berthAt d y).slots := by
  obtain ⟨e, hboth, heq⟩ := cutLive_eq d b cause
  rw [heq]
  split
  · rw [slots_setSlotState, (hboth.trans (sameControl_cutSlot ..)).slots]
  · rw [hboth.slots]

theorem slots_goIdle (d : Device) (b y : Nat) : (berthAt (goIdle d b) y).slots = (berthAt d y).slots := by
  have heq : goIdle d b = showAdapt (modBerth (odPut (setBstate (outLoaded d b) b 0) (0x3010 + b) 1 0xFF) b
    (fun x => { x with co := {}, unitSlot := none, incoming := none, feederOpen := false, haltDone := false })) b := rfl
  rw [heq, (SameControl.showAdapt (.refl _)).slots, slots_modBerth _ _ (fun _ => by rfl)]
  change (berthAt (outLoaded d b) y).slots = _
  rw [outLoaded]
  split
  · exact slots_setSlotState ..
  · rfl

theorem slots_forceStop (d : Device) (b mode : Nat) (halted : Bool) (e : BitVec 2) (y : Nat) :
    (berthAt (forceSwitch d b 15 mode halted e) y).slots = (berthAt d y).slots := by
  have heq : forceSwitch d b 15 mode halted e = odPut (goIdle (cutAndDisposed d b mode) b) (0x3010 + b) 4 e.toNat := by
    rw [forceSwitch]
    exact if_pos rfl
  rw [heq, berthAt_odPut, slots_goIdle, cutAndDisposed, (sameControl_disposeFrames _ b mode).slots, slots_cutLive, (sameControl_abortUpdate d b).slots]

/-! Every berth of a pipeline -/

/-- Work done berth by berth that changes each berth's own view alone. -/
theorem foldl_berthView {f : Device → Nat → Device} {R : BerthView → BerthView → Prop}
    (hf : ∀ d b, b < 4 → R (berthView d b) (berthView (f d b) b) ∧ ∀ x < 4, x ≠ b → berthView (f d b) x = berthView d x)
    {ps : List Nat} (hnodup : ps.Nodup) (hps : ∀ x ∈ ps, x < 4) (d : Device) :
    (∀ x ∈ ps, R (berthView d x) (berthView (ps.foldl f d) x)) ∧ ∀ x < 4, x ∉ ps → berthView (ps.foldl f d) x = berthView d x := by
  induction ps generalizing d with
  | nil => exact ⟨fun x hx => absurd hx List.not_mem_nil, fun _ _ _ => rfl⟩
  | cons b ps ih =>
    obtain ⟨hown, hother⟩ := hf d b (hps b List.mem_cons_self)
    obtain ⟨hnot, hnodup⟩ := List.nodup_cons.mp hnodup
    obtain ⟨hin, hout⟩ := ih hnodup (fun x hx => hps x (List.mem_cons_of_mem _ hx)) (f d b)
    rw [List.foldl_cons]
    refine ⟨fun x hx => ?_, fun x hx hn => ?_⟩
    · obtain rfl | hx' := List.mem_cons.mp hx
      · rw [hout x (hps x List.mem_cons_self) hnot]
        exact hown
      · have hne : x ≠ b := fun h => hnot (h ▸ hx')
        rw [← hother x (hps x hx) hne]
        exact hin x hx'
    · rw [List.mem_cons, not_or] at hn
      rw [hout x hx hn.2, hother x hx hn.1]

end Sys2Proof.Machine
end

section
/-! The changeover commands (R311 to R316): what refuses one, and what one begins on every berth of its pipeline. -/
namespace Sys2Proof.Machine

/-! A berth that has been woken -/

theorem sameControl_wakeBerth (d : Device) (b : Nat) : SameControl d (wakeBerth d b) := by
  rw [wakeBerth]
  refine .odPut (.modBerth (.refl d) fun _ => ?_) (by omega) (by omega)
  rfl

/-- Waking a berth leaves its slots, its repair and its scan area. -/
theorem berthAt_wakeBerth (d : Device) (b x : Nat) : (berthAt (wakeBerth d b) x).slots = (berthAt d x).slots ∧
    (berthAt (wakeBerth d b) x).repair = (berthAt d x).repair ∧ (berthAt (wakeBerth d b) x).scan = (berthAt d x).scan := by
  rw [wakeBerth, berthAt_odPut]
  by_cases h : x = b
  · subst h
    rw [berthAt_modBerth_same]
    exact ⟨rfl, rfl, rfl⟩
  · rw [berthAt_modBerth_other _ _ h]
    exact ⟨rfl, rfl, rfl⟩

theorem pipelineBerths_wakeBerth (d : Device) (b x k : Nat) : pipelineBerths (wakeBerth d b) x k = pipelineBerths d x k := by
  rw [pipelineBerths, pipelineBerths, slotAt, slotAt, (berthAt_wakeBerth d b x).1]

theorem repairBusy_wakeBerth (d : Device) (b x : Nat) : repairBusy (wakeBerth d b) x = repairBusy d x := by
  rw [repairBusy, repairBusy, (berthAt_wakeBerth d b x).2.1]

section Woken
variable (d : Device) (b : Nat) {x : Nat} (hx : x < 4)
include hx

theorem berthView_wakeBerth : berthView (wakeBerth d b) x = berthView d x := berthView_sameControl (sameControl_wakeBerth d b) hx

theorem bstate_wakeBerth : bstate (wakeBerth d b) x = bstate d x := congrArg BerthView.bstate (berthView_wakeBerth d b hx)

theorem runSlot_wakeBerth : runSlot (wakeBerth d b) x = runSlot d x := congrArg BerthView.runSlot (berthView_wakeBerth d b hx)

theorem co_wakeBerth : (berthAt (wakeBerth d b) x).co = (berthAt d x).co := congrArg BerthView.co (berthView_wakeBerth d b hx)

theorem slotState_wakeBerth {k : Nat} (hk : k < 4) : slotState (wakeBerth d b) x k = slotState d x k :=
  congrFun (congrArg BerthView.slots (berthView_wakeBerth d b hx)) ⟨k, hk⟩

theorem nextEpoch_wakeBerth : nextEpoch (wakeBerth d b) x = nextEpoch d x := by
  have h : berthEpoch (wakeBerth d b) x = berthEpoch d x := congrArg BerthView.epoch (berthView_wakeBerth d b hx)
  rw [nextEpoch, nextEpoch, h]

theorem scanMatches_wakeBerth : scanMatches (wakeBerth d b) x = scanMatches d x := by
  rw [scanMatches, scanMatches, runSlot_wakeBerth d b hx, slotAt, slotAt, (berthAt_wakeBerth d b x).1, (berthAt_wakeBerth d b x).2.2]

end Woken

/-! Orderly changeovers (R311) -/

/-- The berth cannot take an orderly command (R318). -/
def orderlyBusy (d : Device) (b : Nat) : Prop :=
  (berthAt d b).co.active = true ∨ repairBusy d b = true ∨ bstate d b = 4 ∨ bstate d b = 5

theorem orderlyBusy_wakeBerth (d : Device) {b : Nat} (hb : b < 4) : orderlyBusy (wakeBerth d b) b ↔ orderlyBusy d b := by
  rw [orderlyBusy, orderlyBusy, co_wakeBerth d b hb, repairBusy_wakeBerth, bstate_wakeBerth d b hb]

section Orderly
variable {d : Device} {b k : Nat} (hb : b < 4)

theorem orderly_unpowered (hk : k < 4) (h : availW d < 120) : orderly d b k = d := if_pos ⟨hk, h⟩

include hb

theorem orderly_busy (h : ¬ (k < 4 ∧ availW d < 120)) (hbusy : orderlyBusy d b) : orderly d b k = coStatus (wakeBerth d b) b 0x0901 := by
  rw [orderly, if_neg h]
  exact if_pos ((orderlyBusy_wakeBerth d hb).2 hbusy)

/-- A command that finds its berth free. -/
theorem orderly_free (h : ¬ (k < 4 ∧ availW d < 120)) (hbusy : ¬ orderlyBusy d b) : orderly d b k =
    if k < 4 ∧ slotState d b k ≠ 4 then coStatus (wakeBerth d b) b 0x0902
    else if k = 15 ∧ bstate d b = 0 then coStatus (wakeBerth d b) b 0
    else (pipelineBerths d b (if k = 15 then runSlot d b else k)).foldl (fun e x => beginSwitch e x k 0 false (nextEpoch d b)) (wakeBerth d b) := by
  have hfree : ¬ orderlyBusy (wakeBerth d b) b := fun h => hbusy ((orderlyBusy_wakeBerth d hb).1 h)
  have hslot : (k < 4 ∧ slotState (wakeBerth d b) b k ≠ 4) ↔ (k < 4 ∧ slotState d b k ≠ 4) :=
    and_congr_right fun hk => by rw [slotState_wakeBerth d b hb hk]
  rw [orderly, if_neg h]
  refine (if_neg hfree).trans ?_
  rw [nextEpoch_wakeBerth d b hb, pipelineBerths_wakeBerth, runSlot_wakeBerth d b hb, bstate_wakeBerth d b hb]
  simp only [hslot]

theorem orderly_unloaded (h : ¬ (k < 4 ∧ availW d < 120)) (hbusy : ¬ orderlyBusy d b) (hk : k < 4) (hs : slotState d b k ≠ 4) :
    orderly d b k = coStatus (wakeBerth d b) b 0x0902 := by
  rw [orderly_free hb h hbusy, if_pos ⟨hk, hs⟩]

theorem orderly_idle (hbusy : ¬ orderlyBusy d b) (hs : bstate d b = 0) : orderly d b 15 = coStatus (wakeBerth d b) b 0 := by
  rw [orderly_free hb (by omega) hbusy, if_neg (by omega), if_pos ⟨rfl, hs⟩]

theorem orderly_begins (h : ¬ (k < 4 ∧ availW d < 120)) (hbusy : ¬ orderlyBusy d b) (hslot : k < 4 → slotState d b k = 4)
    (hstop : k = 15 → bstate d b ≠ 0) : orderly d b k =
      (pipelineBerths d b (if k = 15 then runSlot d b else k)).foldl (fun e x => beginSwitch e x k 0 false (nextEpoch d b)) (wakeBerth d b) := by
  rw [orderly_free hb h hbusy, if_neg (fun hs => hs.2 (hslot hs.1)), if_neg (fun hs => hstop hs.1 hs.2)]

end Orderly

/-- What an orderly changeover or stop begins on each berth of its pipeline. -/
theorem berthView_orderly (d : Device) (b k : Nat) (e : BitVec 2) {ps : List Nat} (hnodup : ps.Nodup) (hps : ∀ x ∈ ps, x < 4) :
    ∀ x ∈ ps, berthView (ps.foldl (fun d x => beginSwitch d x k 0 false e) (wakeBerth d b)) x = begun k 0 false e (berthView d x) := by
  intro x hx
  have h := (foldl_berthView (f := fun d x => beginSwitch d x k 0 false e) (R := fun v v' => v' = begun k 0 false e v)
    (fun d b hb => ⟨berthView_beginSwitch hb d k 0 false e, fun x hx hne => berthView_beginSwitch_other hb d k 0 false e hx hne⟩)
    hnodup hps (wakeBerth d b)).1 x hx
  rw [h, berthView_wakeBerth d b (hps x hx)]

/-! Forced changeovers (R313 to R316) -/

section Forced
variable {d : Device} {b k mode : Nat} {halted : Bool} (hb : b < 4) (h : ¬ (k < 4 ∧ availW d < 120)) (hrepair : repairBusy d b = false)
  (hstate : bstate d b ≠ 5)
include hb h hrepair hstate

theorem forced_unmatched (hm : mode = 3) (hno : bstate d b ≠ 4 ∨ scanMatches d b = false) :
    forced d b k mode halted = coStatus (wakeBerth d b) b 0x0905 := by
  have hbusy : ¬ (repairBusy (wakeBerth d b) b = true ∨ bstate (wakeBerth d b) b = 5) := by
    rw [repairBusy_wakeBerth, bstate_wakeBerth d b hb, hrepair]
    rintro (h | h)
    · exact absurd h (by decide)
    · exact hstate h
  have hscan : (!(decide (bstate (wakeBerth d b) b = 4) && scanMatches (wakeBerth d b) b)) = true := by
    rw [bstate_wakeBerth d b hb, scanMatches_wakeBerth d b hb]
    obtain h | h := hno
    · rw [decide_eq_false h]; rfl
    · rw [h, Bool.and_false]; rfl
  rw [forced, if_neg h]
  dsimp only
  rw [if_neg hbusy, if_pos ⟨hm, hscan⟩]

theorem forced_begins (hm : mode = 3 → bstate d b = 4 ∧ scanMatches d b = true)
    (hslot : k < 4 → slotState d b k = 4 ∨ runSlot d b = k) : forced d b k mode halted =
      (pipelineBerths d b (if k = 15 then runSlot d b else k)).foldl (fun e x => forceSwitch e x k mode halted (nextEpoch d b)) (wakeBerth d b) := by
  have hbusy : ¬ (repairBusy (wakeBerth d b) b = true ∨ bstate (wakeBerth d b) b = 5) := by
    rw [repairBusy_wakeBerth, bstate_wakeBerth d b hb, hrepair]
    rintro (h | h)
    · exact absurd h (by decide)
    · exact hstate h
  have hscan : ¬ (mode = 3 ∧ (!(decide (bstate (wakeBerth d b) b = 4) && scanMatches (wakeBerth d b) b)) = true) := by
    rw [bstate_wakeBerth d b hb, scanMatches_wakeBerth d b hb]
    rintro ⟨h3, hno⟩
    obtain ⟨h4, hs⟩ := hm h3
    rw [decide_eq_true h4, hs] at hno
    exact absurd hno (by decide)
  have hload : ¬ (k < 4 ∧ slotState (wakeBerth d b) b k ≠ 4 ∧ ¬ (runSlot (wakeBerth d b) b = k)) := by
    rintro ⟨hk, h4, hr⟩
    rw [slotState_wakeBerth d b hb hk] at h4
    rw [runSlot_wakeBerth d b hb] at hr
    exact (hslot hk).elim h4 hr
  rw [forced, if_neg h]
  dsimp only
  rw [if_neg hbusy, if_neg hscan, if_neg hload, nextEpoch_wakeBerth d b hb, pipelineBerths_wakeBerth, runSlot_wakeBerth d b hb]

end Forced

/-- What a forced changeover begins on each berth of its pipeline. -/
theorem berthView_forced (d : Device) (b : Nat) {k : Nat} (hk : k ≠ 15) (mode : Nat) (halted : Bool) (e : BitVec 2) {ps : List Nat}
    (hnodup : ps.Nodup) (hps : ∀ x ∈ ps, x < 4) :
    ∀ x ∈ ps, ∃ s, berthView (ps.foldl (fun d x => forceSwitch d x k mode halted e) (wakeBerth d b)) x =
        begun k mode halted e { berthView d x with co := {}, slots := s } ∧
      ∀ h : (berthView d x).runSlot < 4, s ⟨(berthView d x).runSlot, h⟩ = 4 := by
  intro x hx
  have h := (foldl_berthView (f := fun d x => forceSwitch d x k mode halted e)
    (R := fun v v' => ∃ s, v' = begun k mode halted e { v with co := {}, slots := s } ∧ ∀ h : v.runSlot < 4, s ⟨v.runSlot, h⟩ = 4)
    (fun d b hb => berthView_forceSwitch hb d hk mode halted e) hnodup hps (wakeBerth d b)).1 x hx
  rwa [berthView_wakeBerth d b (hps x hx)] at h

/-- What a forced stop leaves on each berth of its pipeline. -/
theorem berthView_forcedStop (d : Device) (b mode : Nat) (halted : Bool) (e : BitVec 2) {ps : List Nat} (hnodup : ps.Nodup)
    (hps : ∀ x ∈ ps, x < 4) :
    ∀ x ∈ ps, ∃ s, berthView (ps.foldl (fun d x => forceSwitch d x 15 mode halted e) (wakeBerth d b)) x =
      { berthView d x with bstate := 0, runSlot := 0xFF, co := {}, slots := s, epoch := e.toNat } := by
  intro x hx
  have h := (foldl_berthView (f := fun d x => forceSwitch d x 15 mode halted e)
    (R := fun v v' => ∃ s, v' = { v with bstate := 0, runSlot := 0xFF, co := {}, slots := s, epoch := e.toNat })
    (fun d b hb => berthView_forceStop hb d mode halted e) hnodup hps (wakeBerth d b)).1 x hx
  rwa [berthView_wakeBerth d b (hps x hx)] at h

/-! Cut planes (R313) -/

/-- An input queue after a cut. -/
def cutRing (q : InQueue) : InQueue := { q with
  discc := inc32 q.discc q.occ
  returned := inc32 q.returned q.occ
  occ := 0
  held := 0
  reserved := 0
  mark := false }

theorem occ_cutPlane (p : Plane) (n : Nat) : (iqAt (cutPlane p) n).occ = 0 := by
  have h : iqAt (cutPlane p) n = cutRing (iqAt p n) := Tab.get_map cutRing {} p.iq n
  rw [h]
  rfl

/-- A context after a cut. -/
def cutContext (x : Context) : Context := if x.state = .idle then x else { x with state := .halt, bandOpen := false, holdCount := 0 }

theorem state_cutPlane (p : Plane) (c : Nat) : (ctxAt (cutPlane p) c).state = if (ctxAt p c).state = .idle then .idle else .halt := by
  have h : ctxAt (cutPlane p) c = cutContext (ctxAt p c) := Tab.get_map cutContext {} p.ctx c
  rw [h, cutContext]
  split
  · assumption
  · rfl

/-! The obligation -/

theorem exec_orderly (b k : Fin 4) (s : State) : exec (.changeoverOrderly b k) s = .next { s with dev := orderly s.dev b.val k.val } :=
  onDev_eq (fun d => orderly d b.val k.val) s

/-- A stop command: drained in mode 0, cut in every other. -/
def stopped (d : Device) (b mode : Nat) : Device := if mode = 0 then orderly d b 15 else forced d b 15 mode false

theorem exec_stop (b mode : Fin 4) (s : State) : exec (.changeoverStop b mode) s = .next { s with dev := stopped s.dev b.val mode.val } :=
  onDev_eq (fun d => stopped d b.val mode.val) s

theorem exec_forced {p : (Fin 4 → Fin 4 → Bool → Instr) × Nat}
    (hp : p ∈ [(Instr.changeoverForcedRefeed, 1), (Instr.changeoverForcedDrop, 2), (Instr.changeoverForcedHold, 3)])
    (b k : Fin 4) (halted : Bool) (s : State) : exec (p.1 b k halted) s = .next { s with dev := forced s.dev b.val k.val p.2 halted } := by
  simp only [List.mem_cons, List.not_mem_nil, or_false] at hp
  obtain rfl | rfl | rfl := hp <;> rfl

/-- Settles O48. -/
theorem changeoverCommands : Obligations.ChangeoverCommands := by
  unfold Obligations.ChangeoverCommands
  dsimp only
  refine ⟨fun b k s => ⟨fun hw => ?_, fun hw hbusy => ?_, fun hw hco hrep h4 h5 => ⟨fun hs => ?_, fun hs hnodup hps => ?_⟩⟩,
    fun p hp b k halted s hw hrep h5 => ⟨fun h3 hno => ?_, fun hm hslot hnodup hps => ?_⟩,
    fun b s hco hrep h4 h5 => ⟨fun h0 => ?_, fun h0 hnodup hps => ?_⟩,
    fun b mode s hmode hrep h5 hm hnodup hps => ?_,
    fun p => ⟨rfl, rfl, occ_cutPlane p, state_cutPlane p, rfl⟩⟩
  · rw [exec_orderly, orderly_unpowered k.isLt hw]
  · rw [exec_orderly, orderly_busy b.isLt (by omega) hbusy]
  · have hfree : ¬ orderlyBusy s.dev b.val := by simp [orderlyBusy, hco, hrep, h4, h5]
    rw [exec_orderly, orderly_unloaded b.isLt (by omega) hfree k.isLt hs]
  · have hfree : ¬ orderlyBusy s.dev b.val := by simp [orderlyBusy, hco, hrep, h4, h5]
    have hk := k.isLt
    refine ⟨_, exec_orderly b k s, fun x hx => ?_⟩
    rw [orderly_begins b.isLt (by omega) hfree (fun _ => hs) (by omega), if_neg (by omega)]
    have hv := berthView_orderly s.dev b.val k.val (nextEpoch s.dev b.val) hnodup hps x hx
    generalize (pipelineBerths s.dev b.val k.val).foldl _ _ = e at hv
    have hco := congrArg BerthView.co hv
    have hslots : (fun j : Fin 4 => slotState e x j.val) = Function.update (berthView s.dev x).slots ⟨k.val, hk⟩ 5 := by
      have h := congrArg BerthView.slots hv
      rwa [begun, dif_pos hk] at h
    have hslot := congrFun hslots k
    rw [Function.update_self] at hslot
    exact ⟨congrArg Changeover.active hco, congrArg Changeover.mode hco, congrArg Changeover.target hco, congrArg Changeover.epoch hco,
      congrArg Changeover.since hco, hslot, congrArg BerthView.bstate hv, congrArg BerthView.runSlot hv, congrArg BerthView.status hv⟩
  · rw [exec_forced hp, forced_unmatched b.isLt (by omega) hrep h5 h3 hno]
  · have hk := k.isLt
    refine ⟨_, exec_forced hp b k halted s, fun x hx => ?_⟩
    rw [forced_begins b.isLt (by omega) hrep h5 hm (fun _ => hslot), if_neg (by omega)]
    obtain ⟨sl, hv, hout⟩ := berthView_forced s.dev b.val (by omega : k.val ≠ 15) p.2 halted (nextEpoch s.dev b.val) hnodup hps x hx
    generalize (pipelineBerths s.dev b.val k.val).foldl _ _ = e at hv
    have hco := congrArg BerthView.co hv
    have hslots : (fun j : Fin 4 => slotState e x j.val) = Function.update sl ⟨k.val, hk⟩ 5 := by
      have h := congrArg BerthView.slots hv
      rwa [begun, dif_pos hk] at h
    refine ⟨congrArg Changeover.active hco, congrArg Changeover.mode hco, congrArg Changeover.target hco, congrArg Changeover.stage hco,
      congrArg Changeover.arriveHalted hco, congrArg Changeover.epoch hco, ?_, fun hr hne => ?_⟩
    · have h := congrFun hslots k
      rwa [Function.update_self] at h
    · have h := congrFun hslots ⟨runSlot s.dev x, hr⟩
      rw [Function.update_of_ne (fun h => hne (congrArg Fin.val h))] at h
      exact h.trans (hout hr)
  · have hfree : ¬ orderlyBusy s.dev b.val := by simp [orderlyBusy, hco, hrep, h4, h5]
    rw [exec_stop, ← orderly_idle b.isLt hfree h0]
    rfl
  · have hfree : ¬ orderlyBusy s.dev b.val := by simp [orderlyBusy, hco, hrep, h4, h5]
    refine ⟨_, exec_stop b 0 s, fun x hx => ?_⟩
    rw [stopped, if_pos (show (0 : Fin 4).val = 0 from rfl), orderly_begins b.isLt (by omega) hfree (by omega) (fun _ => h0), if_pos rfl]
    have hv := berthView_orderly s.dev b.val 15 (nextEpoch s.dev b.val) hnodup hps x hx
    generalize (pipelineBerths s.dev b.val (runSlot s.dev b.val)).foldl _ _ = e at hv
    have hco := congrArg BerthView.co hv
    exact ⟨congrArg Changeover.active hco, congrArg Changeover.mode hco, congrArg Changeover.target hco, congrArg BerthView.runSlot hv⟩
  · have hmode' : mode.val ≠ 0 := fun h => hmode (Fin.ext h)
    refine ⟨_, exec_stop b mode s, fun x hx => ?_⟩
    rw [stopped, if_neg hmode', forced_begins (k := 15) b.isLt (by omega) hrep h5 (fun h => hm (Fin.ext h)) (by omega), if_pos rfl]
    obtain ⟨sl, hv⟩ := berthView_forcedStop s.dev b.val mode.val false (nextEpoch s.dev b.val) hnodup hps x hx
    generalize (pipelineBerths s.dev b.val (runSlot s.dev b.val)).foldl _ _ = e at hv
    exact ⟨congrArg BerthView.bstate hv, congrArg BerthView.runSlot hv, congrArg BerthView.epoch hv,
      congrArg Changeover.active (congrArg BerthView.co hv)⟩

end Sys2Proof.Machine
end

section
/-! BERTH reset (R459): the restart of the slot that ran begins on every berth that the image's pipeline lists, and on one that it lists
twice it begins twice. -/
namespace Sys2Proof.Machine

/-! What the rebuilt spares and reloaded slots leave -/

theorem slots_modTile (d : Device) (b k : Nat) (f : Tile → Tile) (x : Nat) : (berthAt (modTile d b k f) x).slots = (berthAt d x).slots := by
  rw [modTile, setTile]
  by_cases h : x = b
  · subst h
    rw [berthAt_modBerth_same]
  · rw [berthAt_modBerth_other _ _ h]

theorem slots_foldl {α : Type} {f : Device → α → Device} {x : Nat} (hf : ∀ d a, (berthAt (f d a) x).slots = (berthAt d x).slots)
    (l : List α) (d : Device) : (berthAt (l.foldl f d) x).slots = (berthAt d x).slots := by
  induction l generalizing d with
  | nil => rfl
  | cons a l ih => rw [List.foldl_cons, ih, hf]

theorem slots_rebuildSpare (n b : Nat) (d : Device) (c x : Nat) : (berthAt (rebuildSpare n b d c) x).slots = (berthAt d x).slots := by
  have hreport : ∀ e : Device, (berthAt (if Config.spareBad b c n then berthReport e b 20 (tileTag b c 20) (tileTag b c 20) 0 else e) x).slots =
      (berthAt e x).slots := fun e => by split <;> rfl
  rw [rebuildSpare]
  rw [hreport, slots_modTile]
  rfl

theorem slots_rebuildSpares (d : Device) (b x : Nat) : (berthAt (rebuildSpares d b) x).slots = (berthAt d x).slots := by
  rw [rebuildSpares_eq]
  exact slots_foldl (fun d c => slots_rebuildSpare _ b d c x) (List.range 20) d

theorem slots_reloadSlots (d : Device) (b x : Nat) : (berthAt (reloadSlots d b) x).slots = (berthAt d x).slots := by
  rw [reloadSlots]
  refine slots_foldl (fun d k => ?_) _ d
  split
  · rfl
  · refine (slots_foldl (fun d p => ?_) _ _).trans ?_
    · exact slots_modTile d b _ _ x
    · exact slots_foldl (fun d p => slots_modTile d b _ _ x) _ d

theorem sameControl_setCause (d : Device) (bits berths : Nat) : SameControl d (setCause d bits berths) :=
  .odPut (.odPut (.odPut (.refl d) (by omega) (by omega)) (by omega) (by omega)) (by omega) (by omega)

/-! A pipeline that lists its own berth -/

/-- Slot 0 of berth 0 runs, and its image names berth 0 as a partner of the pipeline. -/
def selfPartnerState : State :=
  { State.reset with dev := { State.reset.dev with
      od := [(256 * 0x3010 + 1, 0), (256 * 0x8400 + 8, 0)]
      berths := [(0, { slots := [(0, { image := some { partners := [0] } })] })] } }

/-- A restart that begins twice on a berth leaves it in CHANGEOVER, not STARTING. -/
theorem bstate_twice (d : Device) {b : Nat} (hb : b < 4) (k mode : Nat) (e : BitVec 2) (h : bstate d b = 0) :
    bstate (beginSwitch (beginSwitch d b k mode false e) b k mode false e) b = 3 := by
  have hv : berthView (beginSwitch (beginSwitch d b k mode false e) b k mode false e) b = begun k mode false e (begun k mode false e (berthView d b)) := by
    rw [berthView_beginSwitch hb, berthView_beginSwitch hb]
  have h0 : (berthView d b).bstate = 0 := h
  have hstate : (begun k mode false e (begun k mode false e (berthView d b))).bstate = 3 := by
    simp only [begun, h0]
    rfl
  exact (congrArg BerthView.bstate hv).trans hstate

/-- The berths that an image's pipeline lists besides its own. -/
def partnersOf (d : Device) (b k : Nat) : List Nat := ((slotAt d b k).image.map (·.partners)).getD []

theorem partnersOf_congr {d e : Device} {b : Nat} (h : (berthAt e b).slots = (berthAt d b).slots) (k : Nat) : partnersOf e b k = partnersOf d b k := by
  rw [partnersOf, partnersOf, slotAt, slotAt, h]

/-- A berth that has been reset, with its cause (R459). -/
def resetMarked (d : Device) (b : Nat) : Device :=
  setCause (setBstate (odPut (odPut (odPut d (0x8410 + b) 1 0) (0x8020 + b) 1 0) (0x3010 + b) 7 0) b 0) 32 (2 ^ b)

/-- The restart that a BERTH reset begins. -/
def restarted (d : Device) (b run : Nat) : Device :=
  (pipelineBerths d b run).foldl (fun d' x => beginSwitch d' x run 1 false (nextEpoch d b)) (odPut d (0x3010 + b) 1 0xFF)

/-- A BERTH reset of a running slot is a restart behind changes that keep the slots of the stopped berth. -/
theorem berthResetAll_restarts (d : Device) {b : Nat} (h : runSlot d b < 4) : ∃ x, berthResetAll d b = restarted (resetMarked x b) b (runSlot d b) ∧
    (berthAt x b).slots = (berthAt (stopForReset d b) b).slots := by
  rw [berthResetAll]
  dsimp only
  rw [if_pos h]
  generalize stopForReset d b = z
  generalize hz : modBerth z b freshBerth = w
  have hfresh : (berthAt w b).slots = (berthAt z b).slots := by
    rw [← hz, berthAt_modBerth_same]
    rfl
  generalize hy : odReset _ _ = y
  have hberths : y.berths = w.berths := by
    rw [← hy]
    rfl
  have hslots : (berthAt y b).slots = (berthAt z b).slots := by
    rw [← hfresh, berthAt, berthAt, hberths]
  refine ⟨reloadSlots (rebuildSpares y b) b, ?_, ?_⟩
  · rw [restarted, resetMarked]
  · rw [slots_reloadSlots, slots_rebuildSpares, hslots]

theorem bstate_resetMarked (d : Device) {b : Nat} (hb : b < 4) : bstate (odPut (resetMarked d b) (0x3010 + b) 1 0xFF) b = 0 := by
  have hv := berthView_runSlot (resetMarked d b) (v := 0xFF) hb (by omega)
  rw [resetMarked, berthView_sameControl (sameControl_setCause _ _ _) hb, berthView_setBstate _ hb (by omega)] at hv
  exact congrArg BerthView.bstate hv

theorem bstate_restarted {d : Device} {b k : Nat} (hb : b < 4) (h : partnersOf d b k = [b]) : bstate (restarted (resetMarked d b) b k) b = 3 := by
  have hberth : berthAt (resetMarked d b) b = berthAt d b := by
    rw [resetMarked, setCause, setBstate]
    simp only [berthAt_odPut]
  have hpipe : pipelineBerths (resetMarked d b) b k = [b, b] := by
    rw [pipelineBerths, slotAt, hberth]
    exact congrArg (List.cons b) h
  rw [restarted, hpipe]
  exact bstate_twice _ hb k 1 _ (bstate_resetMarked d hb)

theorem selfPartner_partners : partnersOf (stopForReset (wakeBerth selfPartnerState.dev 0) 0) 0 0 = [0] := by decide +kernel

theorem selfPartner_runs : runSlot (wakeBerth selfPartnerState.dev 0) 0 = 0 := by decide +kernel

theorem bstate_selfPartner : bstate (berthResetAll (wakeBerth selfPartnerState.dev 0) 0) 0 = 3 := by
  have hrun : runSlot (wakeBerth selfPartnerState.dev 0) 0 < 4 := by
    rw [selfPartner_runs]
    decide
  obtain ⟨x, hx, hslots⟩ := berthResetAll_restarts (wakeBerth selfPartnerState.dev 0) hrun
  rw [hx, selfPartner_runs]
  exact bstate_restarted (by decide) ((partnersOf_congr hslots 0).trans selfPartner_partners)

/-- Refutes O50: a BERTH reset leaves a berth that its own pipeline lists twice in CHANGEOVER. -/
theorem not_haltScanReset : ¬ Obligations.HaltScanReset := by
  unfold Obligations.HaltScanReset
  rintro ⟨-, -, -, -, -, -, h⟩
  obtain ⟨e, he, -, -, -, -, -, -, -, hrun⟩ := h 0 selfPartnerState (by decide +kernel)
  have hexec : exec (.berthReset 0) selfPartnerState =
      .next { selfPartnerState with dev := berthResetAll (wakeBerth selfPartnerState.dev 0) 0 } :=
    onDev_guarded_pos (fun d => berthResetAll (wakeBerth d 0) 0) (by decide +kernel)
  rw [hexec] at he
  injection he with he
  have hsame : berthResetAll (wakeBerth selfPartnerState.dev 0) 0 = e := congrArg State.dev he
  obtain ⟨hone, -⟩ := hrun (by decide +kernel)
  rw [← hsame] at hone
  exact absurd (bstate_selfPartner.symm.trans hone) (by decide)

end Sys2Proof.Machine
end

section
/-! Credit timeouts, a loaded spare, and test mode (R426, R429, R439, R440). -/

namespace Sys2Proof.Machine

/-! ### Credit timeouts -/

theorem workOf_headWork (s : State) (t : TileId) (c : Fin 4) : SameWork (workOf s.dev t.b.val (keyOf s.dev t) c.val) (headWork s t c) :=
  sameWork_readPopped _

/-- The tile whose context c waits for credits from `now` on. -/
def timerRestarted (c now : Nat) (t : Tile) : Tile :=
  setPlane t t.run (setCtx (planeAt t t.run) c { ctxAt (planeAt t t.run) c with waitFrom := now })

theorem contextTimeout_late {d : Device} {t : TileId} {c q : Nat} (hs : contextStarved d t.b.val (keyOf d t) c = true)
    (hq : wOq (workOf d t.b.val (keyOf d t) c).w = q)
    (hl : (workOf d t.b.val (keyOf d t) c).ctx.waitFrom + ctoFclk d ≤ (berthAt d t.b.val).cto) :
    contextTimeout d t c q = modTile (berthReport d t.b.val 7 (oqConsumer d t.b.val (oqAt (workOf d t.b.val (keyOf d t) c).pl q))
      (tileTag t.b.val t.col.val t.row.val) (oqAt (workOf d t.b.val (keyOf d t) c).pl q).qid) t.b.val (keyOf d t)
      (timerRestarted c (berthAt d t.b.val).cto) := by
  rw [contextTimeout, if_pos]
  · simp only [berthReport, berthAt_report]
    rfl
  · simp [hs, hq, hl]

theorem unitTimeout_late {d : Device} {pk : Nat} (hl : endLate d (pk / 1280) (endAt d pk) = true) (ep : BitVec 14) :
    unitTimeout d pk ep = setEnd (berthReport d (pk / 1280) 7 (tileTag (pk / 1280) (portAt d pk).dcol (portAt d pk).drow)
      (tag 7 (pk / 1280) ep.toNat) (endAt d pk).qid) pk { endAt d pk with waitFrom := (berthAt d (pk / 1280)).cto } := by
  rw [unitTimeout, if_pos hl]
  simp only [restartEnd, berthReport, berthAt_report, endAt_report]

theorem senderTimeout_late {d : Device} {pk : Nat} (hs : senderStarved d pk (portAt d pk) = true)
    (hl : endLate d (pk / 1280) (portAt d pk).uend = true) :
    senderTimeout d pk = setPort (berthReport d (pk / 1280) 7 (portConsumer d pk) (tag 7 (pk / 1280) (keyEp pk).toNat) (portAt d pk).uend.qid) pk
      { portAt d pk with uend := { (portAt d pk).uend with waitFrom := (berthAt d (pk / 1280)).cto } } := by
  rw [senderTimeout, if_pos (by rw [hs, hl]; rfl)]
  simp only [berthReport, berthAt_report]

theorem exec_creditTimeout {who : Producer} {s : State} (h : timersRun s.dev (producerBerth who) = true) (q : Fin 16) :
    exec (.creditTimeout who q) s = .next { s with dev := creditTimeout s.dev who q.val } :=
  onDev_guarded_pos (fun d => creditTimeout d who q.val) h

theorem bothUnits_of_one {d : Device} {b : Nat} {f : Device → Device} (h : (berthAt (f d) b).incoming = none) : bothUnits d b f = f d := by
  simp [bothUnits, h]

theorem portKey_berth (b : Fin 4) (st : Fin 20) (p : Fin 64) : portKey b.val st.val p.val / 1280 = b.val := by
  simp only [portKey]
  omega

/-! ### A loaded spare -/

theorem planes_writeBlock (t : Tile) (bm : Nat) (cs : List Host.Cell) : (writeBlock t bm cs).planes = t.planes := rfl

theorem planes_loadBytes (t : Tile) (a : Nat) (bs : List Byte) : (loadBytes t a bs).planes = t.planes := rfl

theorem planes_writeContent (img : Image) (lk : Nat) (t : Tile) : (writeContent img lk t).planes = t.planes := by
  rw [writeContent]
  refine (keep_foldl (R := Tile.planes) (fun t r _ => ?_) _).trans (keep_foldl (R := Tile.planes) (fun t c _ => ?_) t)
  · split <;> rfl
  · split <;> rfl

theorem planes_resetScaleTables (img : Image) (lk : Nat) (t : Tile) : (resetScaleTables img lk t).planes = t.planes :=
  keep_foldl (R := Tile.planes) (fun t r _ => by split <;> rfl) t

theorem planes_freshRecords (l : HeadLayer) (t : Tile) : (freshRecords l t).planes = t.planes :=
  keep_foldl (R := Tile.planes) (step := fun t i => { t with mem := memWriteNat t.mem (32768 * l.states.1 + 16 * l.states.2.1 + 64 * i + 48) 2 0x0101 })
    (fun _ _ _ => rfl) _

theorem planes_headContent (img : Image) (lk : Nat) (t : Tile) : (headContent img lk t).planes = t.planes := by
  rw [headContent]
  split
  · split
    · dsimp only
      exact (keep_foldl (R := Tile.planes) (fun t (q : Nat × Nat) _ => planes_writeBlock t q.2 (blockBytes t.mem q.1)) _).trans
        (keep_foldl (R := Tile.planes) (fun t l _ => planes_freshRecords l t) t)
    · rfl
  · rfl

theorem planes_tablesFromMirror (x : Berth) (img : Image) (k lk : Nat) (t : Tile) : (tablesFromMirror x img k lk t).planes = t.planes :=
  keep_foldl (R := Tile.planes) (fun t r _ => by
    split
    · exact keep_foldl (R := Tile.planes) (fun t (e : Nat × Nat) _ => planes_loadBytes t (r.base + 8 * (e.1 % 1024)) (leBytes 8 e.2)) t
    · rfl) t

theorem planes_applyCopies (cs : List PlaneCopy) (lk : Nat) (t : Tile) : (applyCopies cs lk t).planes = t.planes :=
  keep_foldl (R := Tile.planes) (fun t c _ => by split <;> rfl) t

theorem planes_undefinedSide (a : AdaptReg) (t : Tile) : (undefinedSide a t).planes = t.planes := by
  rw [undefinedSide]
  generalize patternMem = m
  exact keep_foldl (R := Tile.planes) (fun t (q : Nat × Nat) _ => planes_writeBlock t q.2 (blockBytes m q.2)) t

theorem planeAt_congr {t u : Tile} (h : u.planes = t.planes) (n : Nat) : planeAt u n = planeAt t n := by rw [planeAt, planeAt, h]

/-- A tile that is loaded with slot k's plane holds it; the planes of the other slots stay. -/
theorem planeAt_loadTile {img : Image} {lk : Nat} (h : (Tab.find img.planes lk).isSome = true) (k : Nat) (t : Tile) :
    (planeAt (loadTile img k lk t) k).loaded = true ∧ ∀ n, n ≠ k → planeAt (loadTile img k lk t) n = planeAt t n := by
  obtain ⟨p, hp⟩ := Option.isSome_iff_exists.1 h
  rw [loadTile, hp]
  refine ⟨congrArg Plane.loaded (planeAt_setPlane_same _ k _), fun n hn => (planeAt_setPlane_other _ _ hn).trans ?_⟩
  exact planeAt_congr ((planes_headContent ..).trans ((planes_resetScaleTables ..).trans (planes_writeContent ..))) n

theorem planeAt_loadTile_other (img : Image) (k lk : Nat) (t : Tile) {n : Nat} (hn : n ≠ k) : planeAt (loadTile img k lk t) n = planeAt t n := by
  cases h : Tab.find img.planes lk with
  | some p => exact (planeAt_loadTile (by rw [h]; rfl) k t).2 n hn
  | none => rw [loadTile, h]

/-- The set-up of a head tile leaves which planes are loaded. -/
theorem loaded_setupHead (d : Device) (b k lk : Nat) (img : Image) (spare : Bool) (t : Tile) (n : Nat) :
    (planeAt (setupHead d b k lk img spare t) n).loaded = (planeAt t n).loaded := by
  have hset (q : Plane) (hq : q.loaded = (planeAt t k).loaded) : (planeAt (setPlane t k q) n).loaded = (planeAt t n).loaded := by
    by_cases hn : n = k
    · subst hn
      rw [planeAt_setPlane_same, hq]
    · rw [planeAt_setPlane_other _ _ hn]
  rw [setupHead]
  split
  · dsimp only
    split
    · rw [planeAt_congr ((planes_undefinedSide ..).trans (planes_applyCopies ..))]
      exact hset _ rfl
    · rw [planeAt_congr (planes_applyCopies ..)]
      exact hset _ rfl
  · rfl

/-- Slot k's part in the load of a position. -/
def slotPlaced (b lk key : Nat) (spare : Bool) (d : Device) (k : Nat) : Device :=
  match (slotAt d b k).image with
  | none => d
  | some img => modTile d b key (fun t =>
      { setupHead d b k lk img spare (tablesFromMirror (berthAt d b) img k lk (loadTile img k lk t)) with run := runSlot d b })

theorem loadPosition_eq (d : Device) (b col row : Nat) (spare : Bool) : loadPosition d b col row spare =
    (List.range 4).foldl (slotPlaced b (tileKey col row) (physKey d b col row) spare) d := rfl

/-- The tile that serves the position holds slot k's plane. -/
def Holds (b key k : Nat) (d : Device) : Prop := (planeAt (tileAt d b key) k).loaded = true

theorem slots_slotPlaced (b lk key : Nat) (spare : Bool) (d : Device) (k : Nat) :
    (berthAt (slotPlaced b lk key spare d k) b).slots = (berthAt d b).slots := by
  rw [slotPlaced]
  split
  · rfl
  · exact slots_modTile ..

theorem holds_slotPlaced_same {b lk key k : Nat} {spare : Bool} {d : Device} {img : Image} (hi : (slotAt d b k).image = some img)
    (hf : (Tab.find img.planes lk).isSome = true) : Holds b key k (slotPlaced b lk key spare d k) := by
  simp only [Holds, slotPlaced, hi, tileAt_modTile_same]
  refine (loaded_setupHead ..).trans ((congrArg Plane.loaded (planeAt_congr (planes_tablesFromMirror ..) k)).trans ?_)
  exact (planeAt_loadTile hf k _).1

theorem holds_slotPlaced_other {b lk key j k : Nat} {spare : Bool} {d : Device} (hne : k ≠ j) (h : Holds b key k d) :
    Holds b key k (slotPlaced b lk key spare d j) := by
  rw [Holds] at h ⊢
  rw [slotPlaced]
  split
  · exact h
  · rw [tileAt_modTile_same]
    refine (loaded_setupHead ..).trans ((congrArg Plane.loaded (planeAt_congr (planes_tablesFromMirror ..) k)).trans ?_)
    rw [planeAt_loadTile_other _ _ _ _ hne, h]

theorem slotAt_congr {d e : Device} {b : Nat} (h : (berthAt e b).slots = (berthAt d b).slots) (k : Nat) : slotAt e b k = slotAt d b k := by
  rw [slotAt, slotAt, h]

/-- A fold that works on slot after slot leaves every slot that it has worked on held. -/
theorem holds_foldl {b lk key k : Nat} {spare : Bool} {img : Image} (hf : (Tab.find img.planes lk).isSome = true) (ks : List Nat)
    (d : Device) (hi : (slotAt d b k).image = some img) (h : k ∈ ks ∨ Holds b key k d) :
    Holds b key k (ks.foldl (slotPlaced b lk key spare) d) := by
  induction ks generalizing d with
  | nil => exact h.resolve_left (by simp)
  | cons j ks ih =>
    refine ih _ (by rw [slotAt_congr (slots_slotPlaced ..), hi]) ?_
    by_cases hj : k = j
    · subst hj
      exact .inr (holds_slotPlaced_same hi hf)
    · exact (h.imp (fun h => (List.mem_cons.1 h).resolve_left hj) (holds_slotPlaced_other hj))

theorem loadPosition_holds {d : Device} {b col row k : Nat} {img : Image} (hk : k < 4) (hi : (slotAt d b k).image = some img)
    (hf : (Tab.find img.planes (tileKey col row)).isSome = true) (spare : Bool) :
    Holds b (physKey d b col row) k (loadPosition d b col row spare) := by
  rw [loadPosition_eq]
  exact holds_foldl hf _ d hi (.inl (List.mem_range.2 hk))

/-! The restart that follows -/

/-- What a restart leaves of a berth: its tiles, and a repair whose spare has been loaded. -/
def SpareDone (b : Nat) (d e : Device) : Prop :=
  (∀ key, tileAt e b key = tileAt d b key) ∧ ((berthAt d b).repair.spare = none → (berthAt e b).repair.spare = none)

section

variable {b : Nat} {d e : Device}

theorem SpareDone.refl (d : Device) : SpareDone b d d := ⟨fun _ => rfl, id⟩

theorem SpareDone.odPut (h : SpareDone b d e) {i s v : Nat} : SpareDone b d (odPut e i s v) := h

theorem SpareDone.setSlotState (h : SpareDone b d e) {x k st : Nat} : SpareDone b d (setSlotState e x k st) := by
  have hb (y : Nat) : berthAt (Machine.setSlotState e x k st) y = berthAt e y := (onlyEvents_setSlotState e x k st).berthAt y
  simpa only [SpareDone, tileAt, hb] using h

theorem SpareDone.modBerth (h : SpareDone b d e) {x : Nat} {f : Berth → Berth} (ht : ∀ y, (f y).tiles = y.tiles)
    (hs : ∀ y, y.repair.spare = none → (f y).repair.spare = none) : SpareDone b d (modBerth e x f) := by
  by_cases hx : b = x
  · subst hx
    exact ⟨fun key => by rw [tileAt, berthAt_modBerth_same, ht]; exact h.1 key, fun hn => by rw [berthAt_modBerth_same]; exact hs _ (h.2 hn)⟩
  · exact ⟨fun key => by rw [tileAt, berthAt_modBerth_other _ _ hx]; exact h.1 key, fun hn => by rw [berthAt_modBerth_other _ _ hx]; exact h.2 hn⟩

theorem SpareDone.setBstate (h : SpareDone b d e) {x v : Nat} : SpareDone b d (setBstate e x v) := h
theorem SpareDone.showAdapt (h : SpareDone b d e) {x : Nat} : SpareDone b d (showAdapt e x) := h
theorem SpareDone.repairState (h : SpareDone b d e) {x v : Nat} : SpareDone b d (repairState e x v) := h

theorem SpareDone.setCo (h : SpareDone b d e) {x : Nat} {c : Changeover} : SpareDone b d (setCo e x c) :=
  h.modBerth (f := fun y => { y with co := c }) (fun _ => rfl) fun _ hn => hn

theorem SpareDone.setRepair_none (h : SpareDone b d e) {x : Nat} : SpareDone b d (setRepair e x {}) :=
  h.modBerth (f := fun y => { y with repair := {} }) (fun _ => rfl) fun _ _ => rfl

theorem SpareDone.goIdle (h : SpareDone b d e) {x : Nat} : SpareDone b d (goIdle e x) := by
  rw [Machine.goIdle]
  refine .showAdapt (.modBerth (.odPut (.setBstate ?before)) ?tiles ?spare)
  case before =>
    split
    · exact h.setSlotState
    · exact h
  case tiles => exact fun _ => rfl
  case spare => exact fun _ hn => hn

end

theorem spareDone_restartBerth (b : Nat) (d : Device) (x : Nat) : SpareDone b d (restartBerth d x) := by
  rw [restartBerth]
  dsimp only
  generalize (if (coOf d x).active = true then (coOf d x).target else runSlot d x) = target
  split
  · refine .repairState (.setBstate (.modBerth (.setCo (.setSlotState (.refl d))) ?tiles ?spare))
    case tiles => exact fun _ => rfl
    case spare => exact fun _ _ => rfl
  · exact .setRepair_none (.repairState (.odPut (.goIdle (.refl d))))

theorem spareDone_foldl (b : Nat) (xs : List Nat) (d : Device) : SpareDone b d (xs.foldl restartBerth d) := by
  induction xs generalizing d with
  | nil => exact .refl d
  | cons x xs ih =>
    have h := spareDone_restartBerth b d x
    exact ⟨fun key => ((ih _).1 key).trans (h.1 key), fun hn => (ih _).2 (h.2 hn)⟩

/-- Berth b's repair no longer waits for its spare. -/
def spareLoaded (d : Device) (b : Nat) : Device := modBerth d b (fun x => { x with repair := { x.repair with spare := none } })

/-- The restart that follows the load of a spare, if the repair is not deferred. -/
def restartAfterLoad (d : Device) (b : Nat) : Device :=
  if odGet d (0x8020 + b) 1 = 6 then d
  else match recordAt d (odGet d (0x8020 + b) 2) with
    | none => restartBerth d b
    | some r => (repairBerths d r).foldl restartBerth d

theorem spareDone_restartAfterLoad (d : Device) (b : Nat) : SpareDone b d (restartAfterLoad d b) := by
  rw [restartAfterLoad]
  split
  · exact .refl d
  · split
    · exact spareDone_restartBerth ..
    · exact spareDone_foldl ..

theorem exec_spareLoadDone {b : Fin 4} {col : Fin 20} {s : State} (ha : (berthAt s.dev b.val).repair.active = true)
    (hc : (berthAt s.dev b.val).repair.spare = some col.val) : exec (.spareLoadDone b col) s =
      .next { s with dev := restartAfterLoad (spareLoaded (loadPosition s.dev b.val col.val (spareRow s.dev b.val col.val) true) b.val) b.val } :=
  onDev_guarded_pos (fun d => restartAfterLoad (spareLoaded (loadPosition d b.val col.val (spareRow d b.val col.val) true) b.val) b.val)
    (by simp [ha, hc])

theorem holds_spareLoadDone {d : Device} {b col row k : Nat} {img : Image} (hk : k < 4) (hi : (slotAt d b k).image = some img)
    (hf : (Tab.find img.planes (tileKey col row)).isSome = true) :
    Holds b (physKey d b col row) k (restartAfterLoad (spareLoaded (loadPosition d b col row true) b) b) := by
  have h := loadPosition_holds (d := d) hk hi hf true
  rw [Holds, (spareDone_restartAfterLoad _ b).1, spareLoaded, tileAt, berthAt_modBerth_same]
  exact h

theorem spare_spareLoadDone (d : Device) (b : Nat) : (berthAt (restartAfterLoad (spareLoaded d b) b) b).repair.spare = none :=
  (spareDone_restartAfterLoad _ b).2 (by rw [spareLoaded, berthAt_modBerth_same])

/-! ### Test mode -/

theorem size_injected : ∀ i < 16, ((odInfo (0xF010 + i) 7).map (·.size)).getD 0 = 4 := by decide +kernel

theorem odGet_injected (d : Device) (i : Fin 16) : odGet (odAdd d (0xF010 + i.val) 7 1) (0xF010 + i.val) 7 =
    min (odGet d (0xF010 + i.val) 7 + 1) 4294967295 := by
  rw [odGet_odAdd_same, size_injected i.val i.isLt]
  rfl

theorem size_testMode : ((odInfo 0xF000 1).map (·.size)).getD 0 = 1 := by decide +kernel

/-- What an injection does to the hub: a report of its own, or an error that the hub awaits. -/
def Injected (d : Device) (src : Nat) (e : Device) : Prop :=
  e.od = d.od ∧
  ((∃ r, e.hub.reports = d.hub.reports ++ [r] ∧ r.inj = true ∧ r.source = src ∧ e.hub.injected = d.hub.injected)
    ∨ (e.hub.reports = d.hub.reports ∧ e.hub.injected = d.hub.injected ++ [src]))

theorem Injected.ite {d e f : Device} {src : Nat} {p : Prop} [Decidable p] (he : Injected d src e) (hf : Injected d src f) :
    Injected d src (if p then e else f) := by
  split
  · exact he
  · exact hf

/-- An error that the hub awaits. -/
theorem injected_awaited (d : Device) (src : Nat) {e : Device} (ho : e.od = d.od) (hh : e.hub = d.hub) :
    Injected d src { e with hub := { e.hub with injected := e.hub.injected ++ [src] } } :=
  ⟨ho, .inr ⟨by rw [← hh], by rw [← hh]⟩⟩

theorem injected_inject (d : Device) (src : Nat) (target : U32) (detail : Nat) : Injected d src (inject d src target detail) := by
  rw [inject]
  refine .ite (injected_awaited d src rfl rfl) (.ite (injected_awaited d src rfl rfl) (.ite (injected_awaited d src rfl rfl)
    (.ite (injected_awaited d src rfl rfl) (.ite (injected_awaited d src rfl rfl) (.ite (injected_awaited d src rfl rfl)
    (.ite (injected_awaited d src rfl rfl) ?_))))))
  exact ⟨rfl, .inl ⟨_, rfl, rfl, rfl, rfl⟩⟩

/-- The armed points after point i has injected once more. -/
def armedAfter (d : Device) (i n : Nat) : Tab Nat :=
  if n = 2 ^ 32 then d.armed else if n ≤ 1 then Tab.erase d.armed i else Tab.set d.armed i (n - 1)

theorem injectionFire_armed {d : Device} {i m : Nat} (hf : Tab.find d.armed i = some m) (hi : injectable (odGet d (0xF010 + i) 1) = true) :
    injectionFire d i = inject { odAdd d (0xF010 + i) 7 1 with armed := armedAfter d i m } (odGet d (0xF010 + i) 1)
      (BitVec.ofNat 32 (odGet (odAdd d (0xF010 + i) 7 1) (0xF010 + i) 2)) (odGet (odAdd d (0xF010 + i) 7 1) (0xF010 + i) 3) := by
  rw [injectionFire, hf]
  simp only [hi, Bool.not_true, Bool.false_eq_true, if_false]
  rfl

/-! ### The ends' timers -/

theorem waitFrom_timerRestarted (c now : Nat) (t : Tile) :
    (ctxAt (planeAt (timerRestarted c now t) (timerRestarted c now t).run) c).waitFrom = now ∧ (timerRestarted c now t).mem = t.mem := by
  refine ⟨?_, rfl⟩
  change (ctxAt (planeAt (timerRestarted c now t) t.run) c).waitFrom = now
  rw [timerRestarted, planeAt_setPlane_same, ctxAt_setCtx_same]

theorem unitSide_timeout {d : Device} {b pk : Nat} (hb : pk / 1280 = b) (hin : (berthAt d b).incoming = none) (hs : unitStarved (endAt d pk) = true)
    (hl : endLate d b (endAt d pk) = true) :
    bothUnits d b (fun d => if unitStarved (endAt d pk) then unitTimeout d pk (portAt d pk).peer else d) =
      setEnd (berthReport d b 7 (tileTag b (portAt d pk).dcol (portAt d pk).drow)
        (tag 7 b (portAt d pk).peer.toNat) (endAt d pk).qid) pk { endAt d pk with waitFrom := (berthAt d b).cto } := by
  subst hb
  have h := unitTimeout_late hl (portAt d pk).peer
  refine (bothUnits_of_one ?_).trans ?_
  all_goals rw [if_pos hs, h]
  simpa [berthReport] using hin

theorem senderSide_timeout {d : Device} {b pk : Nat} (hb : pk / 1280 = b) (hin : (berthAt d b).incoming = none) (hs : senderStarved d pk (portAt d pk) = true)
    (hl : endLate d b (portAt d pk).uend = true) :
    bothUnits d b (fun d => senderTimeout d pk) =
      setPort (berthReport d b 7 (portConsumer d pk) (tag 7 b (keyEp pk).toNat) (portAt d pk).uend.qid) pk
        { portAt d pk with uend := { (portAt d pk).uend with waitFrom := (berthAt d b).cto } } := by
  subst hb
  have h := senderTimeout_late hs hl
  refine (bothUnits_of_one ?_).trans h
  rw [h]
  simpa [berthReport] using hin

/-! ### The obligation -/

/-- Settles O55. -/
theorem timeoutsAndTestMode : Obligations.TimeoutsAndTestMode := by
  unfold Obligations.TimeoutsAndTestMode
  dsimp only
  refine ⟨?context, ?unit, ?engine, ?spare, ?enter, ?points, ?fall⟩
  case context =>
    intro t c q s hrun hstarved hq hlate
    obtain ⟨hpl, _, hctx, hw, _, hmem, _⟩ := workOf_headWork s t c
    rw [hw] at hq
    rw [hctx] at hlate
    rw [exec_creditTimeout (who := .context t c) hrun q, creditTimeout, contextTimeout_late hstarved hq hlate, hpl, hmem]
    refine ⟨_, _, rfl, rfl, rfl, rfl, rfl, rfl, ?_⟩
    rw [tileAt_modTile_same]
    exact waitFrom_timerRestarted c.val _ _
  case unit =>
    intro b st p q s hrun hin
    have hb := portKey_berth b st p
    refine ⟨fun hstarved hlate => ?_, fun hstarved hlate => ?_⟩
    · rw [exec_creditTimeout (who := .unit b st p) hrun q, creditTimeout, unitSide_timeout hb hin hstarved hlate]
      exact ⟨_, _, rfl, rfl, rfl, rfl, endAt_setEnd_same ..⟩
    · rw [exec_creditTimeout (who := .endpoint b st p) hrun q, creditTimeout, senderSide_timeout hb hin hstarved hlate]
      exact ⟨_, _, rfl, rfl, rfl, rfl, congrArg StationPort.uend (portAt_setPort_same ..)⟩
  case engine =>
    intro b g pt q s hrun hswitched hstarved hlate
    rw [exec_creditTimeout (who := .engine b g pt) hrun q, creditTimeout, onEngine, hswitched, onUnits, if_neg Bool.false_ne_true,
      if_pos hstarved, unitTimeout_late hlate]
    exact ⟨_, _, rfl, rfl, rfl, endAt_setEnd_same ..⟩
  case spare =>
    intro b col s ha hc
    refine ⟨_, exec_spareLoadDone ha hc, spare_spareLoadDone .., fun k hk img hi hf => ?_⟩
    exact holds_spareLoadDone hk hi hf
  case enter =>
    intro role auth v s
    have hexec : exec (.testEnter role auth v) s = .next { s with dev := testEnter s.dev role auth v.toNat } := rfl
    rw [hexec]
    refine ⟨fun h => ?_, fun h => ?_⟩
    · rw [testEnter, if_pos (by simpa [and_assoc] using h)]
      refine ⟨_, _, rfl, ?_, rfl, rfl, rfl⟩
      exact (odGet_odPut_same s.dev 0xF000 1 1).trans (by rw [size_testMode]; rfl)
    · rw [testEnter, if_neg (by simpa [and_assoc] using h)]
  case points =>
    intro i s
    have harm : exec (.injectionArm i) s = .next { s with dev := injectionArm s.dev i.val } := rfl
    have hfire : exec (.injectionFire i) s = .next { s with dev := injectionFire s.dev i.val } := rfl
    rw [harm, hfire]
    refine ⟨fun ht hn => ?_, fun h => ?_, rfl, fun hf => ?_, fun m hf hi => ?_⟩
    · rw [injectionArm, if_pos (by simpa [ht] using hn)]
    · rw [injectionArm, if_neg (by rcases h with h | h <;> rw [h] <;> simp)]
    · rw [injectionFire, hf]
    · rw [injectionFire_armed hf hi]
      obtain ⟨hod, hhub⟩ := injected_inject { odAdd s.dev (0xF010 + i.val) 7 1 with armed := armedAfter s.dev i.val m }
        (odGet s.dev (0xF010 + i.val) 1) (BitVec.ofNat 32 (odGet (odAdd s.dev (0xF010 + i.val) 7 1) (0xF010 + i.val) 2))
        (odGet (odAdd s.dev (0xF010 + i.val) 7 1) (0xF010 + i.val) 3)
      exact ⟨_, rfl, (odGet_congr hod _ _).trans (odGet_injected s.dev i), hhub⟩
  case fall => exact fun s => ⟨_, rfl, rfl, rfl, rfl, rfl⟩

end Sys2Proof.Machine
end

section
/-! The Folsa ports (chapter 13): enable and training, frames out and in, the control records, and the loss of a link. -/

namespace Sys2Proof.Machine

/-! ### The ports' records -/

theorem folsaAt_congr {d e : Device} (h : e.folsa = d.folsa) (p : Nat) : folsaAt e p = folsaAt d p := by rw [folsaAt, folsaAt, h]

theorem size_folsa (p : Fin 2) : ((odInfo (0x8900 + p.val) 1).map (·.size)).getD 0 = 1 ∧ ((odInfo (0x8900 + p.val) 2).map (·.size)).getD 0 = 1 ∧
    ((odInfo (0x8900 + p.val) 3).map (·.size)).getD 0 = 1 ∧ ((odInfo (0x8900 + p.val) 5).map (·.size)).getD 0 = 8 ∧
    ((odInfo (0x8900 + p.val) 0x0A).map (·.size)).getD 0 = 4 := by
  revert p
  decide +kernel

theorem odGet_setFState_other (d : Device) (p v : Nat) {s : Nat} (h : s ≠ 2) : odGet (setFState d p v) (0x8900 + p) s = odGet d (0x8900 + p) s :=
  odGet_odPut_other d v (by omega)

theorem fState_setFState (d : Device) (p : Fin 2) {v : Nat} (hv : v < 256) : fState (setFState d p.val v) p.val = v := by
  have h := odGet_odPut_same d (0x8900 + p.val) 2 v
  rw [(size_folsa p).2.1] at h
  exact h.trans (Nat.mod_eq_of_lt hv)

/-! ### Enable and training -/

theorem enableFolsa_on {d : Device} {p : Nat} (h : odFlag d (0x8900 + p) 1 = true) : enableFolsa d p = d := if_pos h

/-- A port's record right after ENABLE has been set. -/
def enabledPort (f : Folsa) : Folsa := { channels := f.channels, tt := f.tt, flows := f.flows, cable := f.cable }

theorem enableFolsa_off {d : Device} {p : Nat} (h : odFlag d (0x8900 + p) 1 = false) : enableFolsa d p =
    setFState (setFolsa (odStore d (0x8900 + p) 1 1) p (enabledPort (folsaAt d p))) p 1 := by
  rw [enableFolsa, if_neg (by rw [h]; exact Bool.false_ne_true)]
  rfl

theorem folsa_odStore (d : Device) (i s v : Nat) : (odStore d i s v).folsa = d.folsa := by
  rw [odStore]
  split <;> rfl

/-- A trained port sends HELLO. -/
def portTrained (d : Device) (p : Nat) : Device :=
  modFolsa (setFState d p 2) p (fun f => { f with control := helloRecord d p :: f.control })

theorem exec_folsaTrained {p : Fin 2} {s : State} (hl : folsaLive s.dev = true) (hc : (folsaAt s.dev p.val).cable = true)
    (hs : fState s.dev p.val = 1 ∨ fState s.dev p.val = 4) : exec (.folsaTrained p) s = .next { s with dev := portTrained s.dev p.val } :=
  onDev_guarded_pos (fun d => portTrained d p.val)
    (by rcases hs with hs | hs <;> simp [hl, hc, hs])

/-! ### Frames out -/

/-- A filled slot changes a port's queues and laps alone. -/
def OnlySlots (f g : Folsa) : Prop := ∃ c k l n, g = { f with channels := c, control := k, lap := l, lent := n }

theorem OnlySlots.trans {f g h : Folsa} : OnlySlots f g → OnlySlots g h → OnlySlots f h := by
  rintro ⟨c, k, l, n, rfl⟩ ⟨c', k', l', n', rfl⟩
  exact ⟨_, _, _, _, rfl⟩

theorem onlySlots_fillSlot (up : Bool) (f : Folsa) : OnlySlots f (fillSlot up f).1 := by
  rw [fillSlot]
  dsimp only
  split
  · split <;> exact ⟨_, _, _, _, rfl⟩
  · split
    · exact ⟨_, _, _, _, rfl⟩
    · split
      · split <;> exact ⟨_, _, _, _, rfl⟩
      · exact ⟨_, _, _, _, rfl⟩

theorem onlySlots_fillSlots (up : Bool) (n : Nat) (f : Folsa) : OnlySlots f (fillSlots up n f).1 := by
  induction n generalizing f with
  | zero => exact ⟨_, _, _, _, rfl⟩
  | succ n ih =>
    have h := onlySlots_fillSlot up f
    rw [fillSlots]
    split
    all_goals
      next heq =>
        rw [heq] at h
        exact h.trans (ih _)

/-- A port whose buffer of 256 frames is full fills no slot, but its laps go on. -/
def slotsToSend (f : Folsa) (up : Bool) : Folsa × List SlotOut :=
  if (unacked f).length < 256 then fillSlots up 14 f else ({ f with lap := (f.lap + 14) % 256 }, [])

theorem onlySlots_slotsToSend (f : Folsa) (up : Bool) : OnlySlots f (slotsToSend f up).1 := by
  rw [slotsToSend]
  split
  · exact onlySlots_fillSlots up 14 f
  · exact ⟨_, _, _, _, rfl⟩

theorem sendFrame_idle {f : Folsa} {up : Bool} (hr : f.resend = []) (he : (slotsToSend f up).2.isEmpty = true) : sendFrame f up =
    { (slotsToSend f up).1 with retryReq := false, line := frameBytes f.seq (f.rxNext - 1) f.retryReq none [] } := by
  rw [sendFrame]
  split
  next h => exact absurd (hr.symm.trans h) (List.cons_ne_nil _ _).symm
  next => exact if_pos he

/-- The record of a new frame in the retry buffer. -/
def frameSent (f : Folsa) (stamp : Option (Nat × BitVec 16)) (ss : List SlotOut) : FolsaSent :=
  { seq := f.seq + 1, bytes := frameBytes (f.seq + 1) (f.rxNext - 1) f.retryReq stamp ss, toks := ss.filter (fun s => s.1 ≠ 63) }

theorem sendFrame_new {f : Folsa} {up : Bool} (hr : f.resend = []) (he : (slotsToSend f up).2.isEmpty = false) : ∃ cs n stamp sent,
    sent = keepSent ((slotsToSend f up).1.sent ++ [frameSent f stamp (slotsToSend f up).2]) ∧
    sendFrame f up = { (slotsToSend f up).1 with
      channels := cs
      lastStampSeq := n
      seq := f.seq + 1
      retryReq := false
      line := frameBytes (f.seq + 1) (f.rxNext - 1) f.retryReq stamp (slotsToSend f up).2
      sent := sent } := by
  rw [sendFrame]
  split
  next h => exact absurd (hr.symm.trans h) (List.cons_ne_nil _ _).symm
  next => exact ⟨_, _, _, _, rfl, if_neg (Bool.eq_false_iff.1 he)⟩

theorem unacked_lt_of_slots {f : Folsa} {up : Bool} (he : (slotsToSend f up).2.isEmpty = false) : (unacked f).length < 256 := by
  by_contra h
  rw [slotsToSend, if_neg h] at he
  exact Bool.noConfusion he

/-- What a send does: a resend, an idle frame, or a new frame. -/
theorem sendFrame_spec (f : Folsa) (up : Bool) : (sendFrame f up).rxNext = f.rxNext ∧ (sendFrame f up).retryReq = false ∧
    (f.resend = [] → frameGood (sendFrame f up).line = true ∧
      ((sendFrame f up).sent = f.sent ∨ ((unacked f).length < 256 ∧ (sendFrame f up).seq = f.seq + 1 ∧
        ∃ x, (sendFrame f up).sent = keepSent (f.sent ++ [x]) ∧ x.seq = f.seq + 1 ∧ x.bytes = (sendFrame f up).line ∧ x.acked = false))) := by
  obtain ⟨c, k, l, n, hg⟩ := onlySlots_slotsToSend f up
  cases hr : f.resend with
  | cons r rs =>
    rw [sendFrame, hr]
    exact ⟨rfl, rfl, fun h => absurd h (List.cons_ne_nil r rs)⟩
  | nil =>
    cases he : (slotsToSend f up).2.isEmpty with
    | true =>
      rw [sendFrame_idle hr he, hg]
      exact ⟨rfl, rfl, fun _ => ⟨frameGood_frameBytes .., .inl rfl⟩⟩
    | false =>
      obtain ⟨cs, n, stamp, sent, hsent, hnew⟩ := sendFrame_new hr he
      rw [show (slotsToSend f up).1.sent = f.sent by rw [hg]] at hsent
      have hrx : (slotsToSend f up).1.rxNext = f.rxNext := by rw [hg]
      rw [hnew]
      refine ⟨hrx, rfl, fun _ => ⟨frameGood_frameBytes .., .inr ⟨unacked_lt_of_slots he, rfl, frameSent f stamp (slotsToSend f up).2, ?_⟩⟩⟩
      exact ⟨hsent, rfl, rfl, rfl⟩

/-! ### Frames in -/

/-- A port is up or on its way up. -/
def Linked (d : Device) (p : Nat) : Prop := fState d p = 2 ∨ fState d p = 3 ∨ fState d p = 5

theorem linked_guard {d : Device} {p : Nat} (hl : folsaLive d = true) (h : Linked d p) :
    (folsaLive d && (decide (fState d p = 2) || decide (fState d p = 3) || decide (fState d p = 5))) = true := by
  rcases h with h | h | h <;> simp [hl, h]

theorem exec_folsaFrameReceive {p : Fin 2} {s : State} (hl : folsaLive s.dev = true) (h : Linked s.dev p.val) (bytes : List Byte) :
    exec (.folsaFrameReceive p bytes) s = .next { s with dev := folsaFrame s.dev p.val bytes } :=
  onDev_guarded_pos (fun d => folsaFrame d p.val bytes) (linked_guard hl h)

theorem folsaFrame_bad {d : Device} {bs : List Byte} (h : frameGood bs = false) (p : Nat) :
    folsaFrame d p bs = odAdd (setFolsa d p { folsaAt d p with rxFailing := true, retryReq := true }) (0x8900 + p) 9 1 := by
  rw [folsaFrame, h]
  simp [failFrame]

theorem takeAck_frame (f : Folsa) (bs : List Byte) : (takeAck f bs).rxNext = f.rxNext := by
  rw [takeAck]
  dsimp only
  split <;> rfl

theorem folsaFrame_idle {d : Device} {p : Nat} {bs : List Byte} (hg : frameGood bs = true) (hn : nbits (leAt bs 0 8) 55 52 = 0)
    (hs : BitVec.ofNat 16 (nbits (leAt bs 0 8) 15 0) = (folsaAt d p).rxNext - 1) :
    folsaFrame d p bs = setFolsa d p (takeAck (folsaAt d p) bs) := by
  rw [folsaFrame, hg]
  simp [modFolsa, hn, hs, takeAck_frame]

/-- The port's record once a frame in sequence has been accepted. -/
def frameAccepted (f : Folsa) (bs : List Byte) : Folsa := { takeAck f bs with rxNext := f.rxNext + 1, rxFailing := false }

theorem folsaFrame_next {d : Device} {p : Nat} {bs : List Byte} (hg : frameGood bs = true) (hn : nbits (leAt bs 0 8) 55 52 ≠ 0)
    (hs : BitVec.ofNat 16 (nbits (leAt bs 0 8) 15 0) = (folsaAt d p).rxNext) :
    folsaFrame d p bs = takeSlots (setFolsa (setFolsa d p (takeAck (folsaAt d p) bs)) p (frameAccepted (folsaAt d p) bs)) p bs := by
  rw [folsaFrame, hg]
  simp [modFolsa, hn, hs, takeAck_frame, frameAccepted]

/-- The sequence and retry state of a port. -/
def sequence (p : Nat) (d : Device) : BitVec 16 × Bool × List FolsaSent × List FolsaSent :=
  let f := folsaAt d p
  (f.rxNext, f.rxFailing, f.sent, f.resend)

theorem sequence_congr {d e : Device} (h : e.folsa = d.folsa) (p : Nat) : sequence p e = sequence p d := by
  rw [sequence, sequence, folsaAt_congr h]

/-- A change of the port's channels or records. -/
theorem sequence_modFolsa {d : Device} {p : Nat} {f : Folsa → Folsa} (hf : ∀ x, ((f x).rxNext, (f x).rxFailing, (f x).sent, (f x).resend) =
    (x.rxNext, x.rxFailing, x.sent, x.resend)) : sequence p (modFolsa d p f) = sequence p d := by
  rw [sequence, modFolsa, folsaAt_setFolsa_same]
  exact hf _

theorem folsa_addDiscard (d : Device) (r : Discard) : (addDiscard d r).folsa = d.folsa := by
  have h (x : Hub) : (odAdd { d with hub := x } 0x8031 0 1).folsa = d.folsa := rfl
  rw [addDiscard]
  split
  · rfl
  · exact h _

theorem folsa_enqueueLink (d : Device) (key : Nat) (f : ShFlit) (via cls : Nat) : (enqueueLink d key f via cls).folsa = d.folsa := by
  rw [enqueueLink]
  split_ifs <;> rfl

theorem folsa_sendShuttle (d : Device) (f : ShFlit) : (sendShuttle d f).folsa = d.folsa := folsa_enqueueLink ..

theorem sequence_ite {p : Nat} {c : Prop} [Decidable c] {x : BitVec 16 × Bool × List FolsaSent × List FolsaSent} {d e : Device}
    (hd : sequence p d = x) (he : sequence p e = x) : sequence p (if c then d else e) = x := by
  split
  · exact hd
  · exact he

theorem sequence_withChannel (d : Device) (p ch : Nat) (c : FolsaChannel) :
    sequence p (modFolsa d p (fun f => { f with channels := Tab.set f.channels ch c })) = sequence p d := by
  refine sequence_modFolsa ?_
  exact fun _ => rfl

theorem sequence_remoteNotice (d : Device) (p b : Nat) (new : BitVec 2) : sequence p (remoteNotice d p b new) = sequence p d := by
  refine (sequence_congr (d := modFolsa d p (fun f => { f with notices := Tab.set f.notices b new })) rfl p).trans (sequence_modFolsa ?_)
  exact fun _ => rfl

theorem sequence_channelToken (bs : List Byte) (p : Nat) (d : Device) (k ch : Nat) (tok : Token) :
    sequence p (channelToken bs p d k ch tok) = sequence p d := by
  rw [channelToken]
  refine sequence_ite (sequence_congr (folsa_addDiscard _ _) p) (sequence_ite (sequence_ite ?mark (sequence_remoteNotice ..)) (sequence_ite ?_ ?_))
  case mark => exact sequence_congr (folsa_sendShuttle ..) p
  · exact (sequence_withChannel ..).trans (sequence_ite rfl rfl)
  · exact (sequence_congr (folsa_sendShuttle ..) p).trans ((sequence_withChannel ..).trans (sequence_ite rfl rfl))

theorem sequence_takeSlots (d : Device) (p : Nat) (bs : List Byte) : sequence p (takeSlots d p bs) = sequence p d := by
  refine keep_foldl (R := sequence p) (fun d s _ => ?_) d
  split
  · refine sequence_modFolsa fun x => ?_
    split_ifs <;> rfl
  · split
    · exact sequence_channelToken ..
    · rfl

theorem takeAck_sent (f : Folsa) (bs : List Byte) : (takeAck f bs).sent =
    f.sent.map (fun x => { x with acked := x.acked || decide ((BitVec.ofNat 16 (nbits (leAt bs 0 8) 31 16) - x.seq).toNat < 32768) }) := by
  rw [takeAck]
  dsimp only
  split <;> rfl

theorem unacked_takeAck (f : Folsa) (bs : List Byte) : unacked (takeAck f bs) = f.sent.filter (fun x =>
    !x.acked && decide (32768 ≤ (BitVec.ofNat 16 (nbits (leAt bs 0 8) 31 16) - x.seq).toNat)) := by
  rw [unacked, takeAck_sent]
  induction f.sent with
  | nil => rfl
  | cons x xs ih =>
    obtain ⟨q, b, t, acked⟩ := x
    cases acked <;> by_cases h : (BitVec.ofNat 16 (nbits (leAt bs 0 8) 31 16) - q).toNat < 32768
    all_goals simp_all

/-! ### HELLO -/

/-- Records queued for the peers: the objects stay, and of each port's record all but its control queue. -/
def OnlyControl (d e : Device) : Prop := e.od = d.od ∧ ∀ p, ∃ c, folsaAt e p = { folsaAt d p with control := c }

theorem OnlyControl.refl (d : Device) : OnlyControl d d := ⟨rfl, fun _ => ⟨_, rfl⟩⟩

theorem OnlyControl.trans {d e f : Device} (h : OnlyControl d e) (k : OnlyControl e f) : OnlyControl d f := by
  refine ⟨k.1.trans h.1, fun p => ?_⟩
  obtain ⟨c, hc⟩ := h.2 p
  obtain ⟨c', hc'⟩ := k.2 p
  exact ⟨c', by rw [hc', hc]⟩

theorem OnlyControl.foldl {α : Type} {f : Device → α → Device} (hf : ∀ d a, OnlyControl d (f d a)) (l : List α) (d : Device) :
    OnlyControl d (l.foldl f d) := by
  induction l generalizing d with
  | nil => exact .refl d
  | cons a l ih => exact (hf d a).trans (ih _)

theorem onlyControl_setFolsa (d : Device) (p : Nat) (c : List (List Byte)) : OnlyControl d (setFolsa d p { folsaAt d p with control := c }) := by
  refine ⟨rfl, fun q => ?_⟩
  by_cases h : q = p
  · subst h
    exact ⟨c, folsaAt_setFolsa_same ..⟩
  · exact ⟨_, folsaAt_setFolsa_other _ _ h⟩

theorem onlyControl_sendPairs (d : Device) (b k : Nat) : OnlyControl d (sendPairs d b k) := by
  rw [sendPairs]
  split
  · exact .refl d
  · refine .foldl (fun d p => ?_) _ d
    split
    · exact onlyControl_setFolsa ..
    · exact .refl d

theorem onlyControl_sendAllPairs (d : Device) : OnlyControl d (sendAllPairs d) := by
  refine .foldl (fun d b => .foldl (fun d k => ?_) _ d) _ d
  split
  · exact onlyControl_sendPairs ..
  · exact .refl d

/-- The objects of a port that has come UP. -/
def upObjects (d : Device) (p v : Nat) (r : List Byte) : Device :=
  odPut (odPut (odPut (setFState d p 3) (0x8900 + p) 3 v) (0x8900 + p) 5 (helloModule r).toNat) (0x8900 + p) 6 (leAt r 12 4)

/-- The record of a port that has come UP. -/
def upPort (r : List Byte) (f : Folsa) : Folsa :=
  { f with firstPeer := some (f.firstPeer.getD (helloModule r)), peerClaims := [], halfPairs := [], downSince := none }

theorem onlyControl_linkUp (d : Device) (p v : Nat) (r : List Byte) : OnlyControl (modFolsa (upObjects d p v r) p (upPort r)) (linkUp d p v r) := by
  rw [linkUp]
  refine .trans ?_ (onlyControl_sendAllPairs _)
  split
  · exact onlyControl_setFolsa (modFolsa (upObjects d p v r) p (upPort r)) p _
  · exact .refl _

theorem odGet_upObjects (d : Device) (p : Fin 2) {v : Nat} (hv : v < 256) (r : List Byte) : fState (upObjects d p.val v r) p.val = 3 ∧
    odGet (upObjects d p.val v r) (0x8900 + p.val) 3 = v ∧ odGet (upObjects d p.val v r) (0x8900 + p.val) 5 = (helloModule r).toNat := by
  obtain ⟨-, h2, h3, h5, -⟩ := size_folsa p
  have hm := (helloModule r).isLt
  refine ⟨?_, ?_, ?_⟩
  · rw [fState, upObjects, odGet_odPut_other _ _ (by omega), odGet_odPut_other _ _ (by omega), odGet_odPut_other _ _ (by omega)]
    exact fState_setFState d p (by omega)
  · rw [upObjects, odGet_odPut_other _ _ (by omega), odGet_odPut_other _ _ (by omega), odGet_odPut_same, h3]
    omega
  · rw [upObjects, odGet_odPut_other _ _ (by omega), odGet_odPut_same, h5]
    exact Nat.mod_eq_of_lt hm

theorem helloVersion_le (r : List Byte) : helloVersion r ≤ 2 := by
  rw [helloVersion]
  split <;> omega

theorem exec_hello {p : Fin 2} {s : State} {r : List Byte} {rs : List (List Byte)} (hr : (folsaAt s.dev p.val).hello = r :: rs)
    (hs : fState s.dev p.val = 2 ∨ fState s.dev p.val = 3) (hp : peerChanged (folsaAt s.dev p.val) r = false) :
    exec (.hello p) s = .next { s with dev := helloDone (setFolsa s.dev p.val { folsaAt s.dev p.val with hello := rs }) p.val r } := by
  change execHello p s = _
  rw [execHello, onDev_eq]
  dsimp only
  rw [hr]
  dsimp only
  rw [if_pos]
  rcases hs with hs | hs <;> simp [hs, hp]

theorem helloDone_none {d : Device} {p : Nat} {r : List Byte} (h : helloVersion r = 0) :
    helloDone d p r = odPut (setFState d p 5) (0x8900 + p) 3 0 := by
  rw [helloDone]
  exact if_pos h

theorem helloDone_up {d : Device} {p : Nat} {r : List Byte} (h : helloVersion r ≠ 0) : helloDone d p r = linkUp d p (helloVersion r) r := by
  rw [helloDone]
  exact if_neg h

theorem helloDone_up_spec (d : Device) (p : Fin 2) {r : List Byte} (h : helloVersion r ≠ 0) : let e := helloDone d p.val r
    fState e p.val = 3 ∧ odGet e (0x8900 + p.val) 3 = helloVersion r ∧ odGet e (0x8900 + p.val) 5 = (helloModule r).toNat ∧
    (folsaAt e p.val).hello = (folsaAt d p.val).hello ∧ (folsaAt e p.val).downSince = none ∧ (folsaAt e p.val).firstPeer.isSome = true := by
  obtain ⟨hod, hport⟩ := onlyControl_linkUp d p.val (helloVersion r) r
  obtain ⟨c, hc⟩ := hport p.val
  have hv := helloVersion_le r
  obtain ⟨h2, h3, h5⟩ := odGet_upObjects d p (v := helloVersion r) (by omega) r
  intro e
  have hget (t : Nat) : odGet e (0x8900 + p.val) t = odGet (upObjects d p.val (helloVersion r) r) (0x8900 + p.val) t := by
    rw [show e = linkUp d p.val (helloVersion r) r from helloDone_up h]
    exact odGet_congr hod _ _
  have hf : folsaAt e p.val = { upPort r (folsaAt d p.val) with control := c } := by
    rw [show e = linkUp d p.val (helloVersion r) r from helloDone_up h, hc, modFolsa, folsaAt_setFolsa_same]
    rfl
  rw [fState, hget, hget, hget, hf]
  exact ⟨h2, h3, h5, rfl, rfl, rfl⟩

theorem helloDone_none_spec (d : Device) (p : Fin 2) {r : List Byte} (h : helloVersion r = 0) :
    fState (helloDone d p.val r) p.val = 5 ∧ odGet (helloDone d p.val r) (0x8900 + p.val) 3 = 0 ∧
    folsaAt (helloDone d p.val r) p.val = folsaAt d p.val := by
  rw [helloDone_none h]
  refine ⟨?_, ?_, rfl⟩
  · rw [fState, odGet_odPut_other _ _ (by omega)]
    exact fState_setFState d p (by omega)
  · rw [odGet_odPut_same, Nat.zero_mod]

/-! ### SEM and PAIR -/

theorem exec_sem {p : Fin 2} {s : State} {r : List Byte} {rs : List (List Byte)} (hr : (folsaAt s.dev p.val).sems = r :: rs) :
    exec (.sem p) s = .next { s with dev := takeSem (setFolsa s.dev p.val { folsaAt s.dev p.val with sems := rs }) p.val r } := by
  change execSem p s = _
  rw [execSem, onDev_eq]
  dsimp only
  rw [hr]

theorem takeSem_other {d : Device} {p : Nat} {r : List Byte}
    (h : (Tab.get {} (folsaAt d p).channels (leAt r 1 1)).used = false ∨
      (portAt d (Tab.get {} (folsaAt d p).channels (leAt r 1 1)).port).fin.receiver = true) : takeSem d p r = d := by
  rw [takeSem]
  exact if_pos (by rcases h with h | h <;> simp only [h, Bool.not_false, Bool.true_or, Bool.or_true])

theorem takeSem_sends {d : Device} {p : Nat} {r : List Byte}
    (hu : (Tab.get {} (folsaAt d p).channels (leAt r 1 1)).used = true)
    (hrec : (portAt d (Tab.get {} (folsaAt d p).channels (leAt r 1 1)).port).fin.receiver = false)
    (hrest : (Tab.get {} (folsaAt d p).channels (leAt r 1 1)).restore = false)
    (hfit : semFits (portAt d (Tab.get {} (folsaAt d p).channels (leAt r 1 1)).port).fin (BitVec.ofNat 32 (leAt r 4 4)) (BitVec.ofNat 32 (leAt r 8 4)) = true) :
    takeSem d p r = sendLight d (unitEpoch d (Tab.get {} (folsaAt d p).channels (leAt r 1 1)).berth) (folsaEp p)
      (keyEp (Tab.get {} (folsaAt d p).channels (leAt r 1 1)).port) (BitVec.ofNat 32 (leAt r 4 4)).toNat := by
  rw [takeSem]
  dsimp only
  rw [if_neg (by simp only [hu, hrec, Bool.not_true, Bool.or_self, Bool.false_eq_true, not_false_eq_true]), if_pos hfit,
    if_neg (by simp only [hrest, Bool.false_eq_true, not_false_eq_true])]

theorem exec_pair {p : Fin 2} {s : State} {r : List Byte} {rs : List (List Byte)} (hr : (folsaAt s.dev p.val).pairs = r :: rs) :
    exec (.pair p) s = .next { s with dev := setFolsa s.dev p.val (takePair { folsaAt s.dev p.val with pairs := rs } r) } := by
  change execPair p s = _
  rw [execPair, onDev_eq]
  dsimp only
  rw [hr]

/-- A claim of one channel: it is added unless it stands there already. -/
def claimed (claim : BitVec 128 × BitVec 128) (first last : Nat) (m : Tab (List (BitVec 128 × BitVec 128))) (ch : Nat) :
    Tab (List (BitVec 128 × BitVec 128)) :=
  if first ≤ ch ∧ ch ≤ last then Tab.modify [] m ch (fun l => if l.contains claim then l else l ++ [claim]) else m

theorem mem_claimed_same {claim : BitVec 128 × BitVec 128} {first last ch : Nat} (h : first ≤ ch ∧ ch ≤ last) (m : Tab (List (BitVec 128 × BitVec 128))) :
    claim ∈ Tab.get [] (claimed claim first last m ch) ch := by
  rw [claimed, if_pos h, Tab.modify, Tab.get_set_same]
  split
  next h => exact List.contains_iff_mem.1 h
  next => exact List.mem_append_right _ (List.mem_singleton_self _)

theorem mem_claimed_mono {claim x : BitVec 128 × BitVec 128} {first last c : Nat} (ch : Nat) {m : Tab (List (BitVec 128 × BitVec 128))}
    (h : x ∈ Tab.get [] m c) : x ∈ Tab.get [] (claimed claim first last m ch) c := by
  rw [claimed]
  split
  · by_cases hc : c = ch
    · subst hc
      rw [Tab.modify, Tab.get_set_same]
      split
      · exact h
      · exact List.mem_append_left _ h
    · rwa [Tab.modify, Tab.get_set_other _ _ _ hc]
  · exact h

/-- Every channel of a run holds the claim once the run has been gone through. -/
theorem mem_foldl_claimed {claim : BitVec 128 × BitVec 128} {first last c : Nat} (hc : first ≤ c ∧ c ≤ last) (chs : List Nat)
    (m : Tab (List (BitVec 128 × BitVec 128))) (h : c ∈ chs ∨ claim ∈ Tab.get [] m c) :
    claim ∈ Tab.get [] (chs.foldl (claimed claim first last) m) c := by
  induction chs generalizing m with
  | nil => exact h.resolve_left List.not_mem_nil
  | cons ch chs ih =>
    refine ih _ ?_
    rcases h with h | h
    · rcases List.mem_cons.1 h with rfl | h
      · exact .inr (mem_claimed_same hc m)
      · exact .inl h
    · exact .inr (mem_claimed_mono ch h)

/-- Two halves claim the channels of their run. -/
theorem takePair_claims {f : Folsa} {r h : List Byte} (hr : 128 ≤ leAt r 1 1)
    (hh : f.halfPairs.find? (fun h => decide (leAt h 1 1 = leAt r 1 1 % 128) && decide (leAt h 2 2 = leAt r 2 2)) = some h) :
    (takePair f r).peerClaims = (List.range 63).foldl
      (claimed (BitVec.ofNat 128 (leAt h 4 16), BitVec.ofNat 128 (leAt r 4 16)) (leAt r 1 1 % 128) (leAt r 2 1)) f.peerClaims := by
  rw [takePair]
  dsimp only
  rw [if_neg (by omega), hh]
  rfl

/-! ### Loss of the link -/

/-- The record of a port that has gone DOWN. -/
def downPort (time : Nat) (f : Folsa) : Folsa :=
  { restoreTokens f with control := [], seq := 0, sent := [], resend := [], rxNext := 1, rxFailing := false, retryReq := false,
                         failSeq := 0, fails := 0, hello := [], downSince := some (f.downSince.getD time) }

theorem linkDown_eq (d : Device) (p : Nat) : linkDown d p =
    report (odAdd (setFState (modFolsa d p (downPort d.time)) p 4) (0x8900 + p) 0x0A 1) (0x083 + p) (tag 4 0 p) (tag 4 0 p) 0 := rfl

theorem restore_downPort (time : Nat) (f : Folsa) : ∀ x ∈ (downPort time f).channels, x.2.restore = true := by
  intro x hx
  obtain ⟨y, -, rfl⟩ := List.mem_map.1 hx
  rfl

theorem exec_folsaLinkDown {p : Fin 2} {cause : DownCause} {s : State} (hl : folsaLive s.dev = true) (h : Linked s.dev p.val)
    (hc : downCause (folsaAt s.dev p.val) cause = true) : exec (.folsaLinkDown p cause) s = .next { s with dev := linkDown s.dev p.val } :=
  onDev_guarded_pos (fun d => linkDown d p.val) (by rw [linked_guard hl h, hc]; rfl)

theorem odGet_linkDown (d : Device) (p : Fin 2) : fState (linkDown d p.val) p.val = 4 ∧
    odGet (linkDown d p.val) (0x8900 + p.val) 0x0A = min (odGet d (0x8900 + p.val) 0x0A + 1) 4294967295 := by
  rw [linkDown_eq]
  constructor
  · change odGet (odAdd _ _ _ _) _ _ = _
    rw [odGet_odAdd_other _ _ (by omega)]
    exact fState_setFState _ p (by omega)
  · change odGet (odAdd _ _ _ _) _ _ = _
    rw [odGet_odAdd_same, odGet_setFState_other _ _ _ (by decide), (size_folsa p).2.2.2.2]
    rfl

/-! ### The hold time -/

/-- A berth that a forced stop has reached. -/
def Stopped (d : Device) (x : Nat) : Prop := bstate d x = 0 ∧ runSlot d x = 0xFF

/-- Berth x has its view and its slots of before, or it has been stopped. -/
def Settled (s d : Device) (x : Nat) : Prop :=
  (berthView d x = berthView s x ∧ (berthAt d x).slots = (berthAt s x).slots) ∨ Stopped d x

theorem stopped_congr {d e : Device} {x : Nat} (h : berthView e x = berthView d x) (hs : Stopped d x) : Stopped e x := by
  obtain ⟨hb, hr⟩ := hs
  have h1 := congrArg BerthView.bstate h
  have h2 := congrArg BerthView.runSlot h
  exact ⟨h1.trans hb, h2.trans hr⟩

theorem stopped_forceStop (d : Device) {x : Nat} (hx : x < 4) (mode : Nat) (halted : Bool) (e : BitVec 2) :
    Stopped (forceSwitch d x 15 mode halted e) x := by
  obtain ⟨⟨s, hs⟩, -⟩ := berthView_forceStop hx d mode halted e
  have h1 := congrArg BerthView.bstate hs
  have h2 := congrArg BerthView.runSlot hs
  exact ⟨h1, h2⟩

/-- A forced stop of berth x in the pipeline of berth b. -/
def stopOne (b : Nat) (d : Device) (x : Nat) : Device := forceSwitch d x 15 2 false (nextEpoch d b)

theorem settled_stopOne {s d : Device} {x y : Nat} (hx : x < 4) (hy : y < 4) (b : Nat) (h : Settled s d x) : Settled s (stopOne b d y) x := by
  by_cases hxy : x = y
  · subst hxy
    exact .inr (stopped_forceStop d hx 2 false _)
  · have hview := (berthView_forceStop hy d 2 false (nextEpoch d b)).2 x hx hxy
    have hslots := slots_forceStop d y 2 false (nextEpoch d b) x
    exact h.imp (fun h => ⟨hview.trans h.1, hslots.trans h.2⟩) (stopped_congr hview)

theorem stopped_stays {d : Device} {x y : Nat} (hx : x < 4) (hy : y < 4) (b : Nat) (h : Stopped d x) : Stopped (stopOne b d y) x := by
  by_cases hxy : x = y
  · subst hxy
    exact stopped_forceStop d hx 2 false _
  · exact stopped_congr ((berthView_forceStop hy d 2 false (nextEpoch d b)).2 x hx hxy) h

theorem foldl_stopped {s : Device} {b : Nat} {ys : List Nat} (hys : ∀ y ∈ ys, y < 4) (d : Device) {x : Nat} (hx : x < 4) :
    (Settled s d x → Settled s (ys.foldl (stopOne b) d) x) ∧ (x ∈ ys ∨ Stopped d x → Stopped (ys.foldl (stopOne b) d) x) := by
  induction ys generalizing d with
  | nil => exact ⟨id, fun h => h.resolve_left List.not_mem_nil⟩
  | cons y ys ih =>
    have hy := hys y List.mem_cons_self
    obtain ⟨h1, h2⟩ := ih (fun z hz => hys z (List.mem_cons_of_mem _ hz)) (stopOne b d y)
    rw [List.foldl_cons]
    refine ⟨fun h => h1 (settled_stopOne hx hy b h), fun h => h2 ?_⟩
    rcases h with h | h
    · rcases List.mem_cons.1 h with rfl | h
      · exact .inr (stopped_forceStop d hx 2 false _)
      · exact .inl h
    · exact .inr (stopped_stays hx hy b h)

/-- The hold time's stop of the pipeline of one berth. -/
def pipelineStopped (d : Device) (b : Nat) : Device :=
  if runSlot d b < 4 then (pipelineBerths d b (runSlot d b)).foldl (stopOne b) d else d

theorem holdTimeout_eq (d : Device) (p : Nat) :
    holdTimeout d p = modFolsa ((portBerths d p).foldl pipelineStopped d) p (fun f => { f with downSince := none }) := rfl

theorem pipelineBerths_congr {s d : Device} {b : Nat} (h : (berthAt d b).slots = (berthAt s b).slots) (k : Nat) :
    pipelineBerths d b k = pipelineBerths s b k := by rw [pipelineBerths, pipelineBerths, slotAt, slotAt, h]

/-- Once the berth's turn has come, it has been stopped; a berth that has not stopped yet still has its pipeline of before. -/
theorem pipelineStopped_spec {s d : Device} {b : Nat} (hb : b < 4) (hrun : runSlot s b < 4)
    (hps : ∀ x ∈ pipelineBerths s b (runSlot s b), x < 4) (hset : ∀ x < 4, Settled s d x) :
    (∀ x < 4, Settled s (pipelineStopped d b) x) ∧ Stopped (pipelineStopped d b) b ∧ ∀ x < 4, Stopped d x → Stopped (pipelineStopped d b) x := by
  rw [pipelineStopped]
  rcases hset b hb with ⟨hview, hslots⟩ | hstop
  · have hr : runSlot d b = runSlot s b := congrArg BerthView.runSlot hview
    rw [if_pos (by rw [hr]; exact hrun), pipelineBerths_congr hslots, hr]
    refine ⟨fun x hx => (foldl_stopped hps d hx).1 (hset x hx), (foldl_stopped (s := s) hps d hb).2 (.inl List.mem_cons_self),
      fun x hx h => (foldl_stopped (s := s) hps d hx).2 (.inr h)⟩
  · rw [if_neg (by rw [hstop.2]; decide)]
    exact ⟨hset, hstop, fun _ _ h => h⟩

theorem foldl_pipelineStopped {s : Device} {bs : List Nat} (hbs : ∀ b ∈ bs, b < 4 ∧ runSlot s b < 4 ∧ ∀ x ∈ pipelineBerths s b (runSlot s b), x < 4)
    (d : Device) (hset : ∀ x < 4, Settled s d x) {b : Nat} (h : b ∈ bs ∨ b < 4 ∧ Stopped d b) : Stopped (bs.foldl pipelineStopped d) b := by
  induction bs generalizing d with
  | nil => exact (h.resolve_left List.not_mem_nil).2
  | cons c bs ih =>
    obtain ⟨hc, hrun, hps⟩ := hbs c List.mem_cons_self
    obtain ⟨hset', hstop, hkeep⟩ := pipelineStopped_spec hc hrun hps hset
    refine ih (fun x hx => hbs x (List.mem_cons_of_mem _ hx)) _ hset' ?_
    rcases h with h | ⟨hb, h⟩
    · rcases List.mem_cons.1 h with rfl | h
      · exact .inr ⟨hc, hstop⟩
      · exact .inl h
    · exact .inr ⟨hb, hkeep b hb h⟩

theorem exec_linkHoldTimeout {p : Fin 2} {s : State} {t : Nat} (hs : fState s.dev p.val ≠ 3) (ht : (folsaAt s.dev p.val).downSince = some t)
    (hl : t + 100000 * odGet s.dev (0x8900 + p.val) 4 ≤ s.dev.time) :
    exec (.linkHoldTimeout p) s = .next { s with dev := holdTimeout s.dev p.val } :=
  onDev_guarded_pos (fun d => holdTimeout d p.val) (by simp [hs, ht, msCounts, hl])

theorem mem_portBerths {d : Device} {p b : Nat} (h : b ∈ portBerths d p) : b < 4 ∧ runSlot d b < 4 := by
  obtain ⟨hb, hr⟩ := List.mem_filter.1 h
  rw [Bool.and_eq_true, decide_eq_true_eq] at hr
  exact ⟨List.mem_range.1 hb, hr.1⟩

/-! ### The obligation -/

/-- Settles O52. -/
theorem folsaCommands : Obligations.FolsaCommands := by
  unfold Obligations.FolsaCommands
  dsimp only
  refine ⟨?enable, ?frames, ?ack, ?hello, ?sem, ?pair, ?down, ?hold⟩
  case enable =>
    intro p s
    obtain ⟨h1, -⟩ := size_folsa p
    have hexec : exec (.folsaEnable p) s = .next { s with dev := enableFolsa s.dev p.val } := rfl
    rw [hexec]
    refine ⟨fun hoff => ?_, fun hon => ?_, rfl, fun hl hc hs => ⟨_, exec_folsaTrained hl hc hs, ?_, ?_⟩⟩
    · rw [enableFolsa_off hoff]
      refine ⟨_, rfl, ?_, fState_setFState _ p (by omega), ?_, fun n hn => ?_⟩
      · rw [odFlag, odGet_setFState_other _ _ _ (by decide)]
        change decide (odGet (odStore s.dev (0x8900 + p.val) 1 1) (0x8900 + p.val) 1 % 2 = 1) = true
        rw [odGet_odStore, odGet_odPut_same, h1]
        rfl
      · exact folsaAt_setFolsa_same _ _ _
      · exact (folsaAt_setFolsa_other _ _ hn).trans (folsaAt_congr (folsa_odStore ..) n)
    · rw [enableFolsa_on hon]
    · exact fState_setFState s.dev p (by omega)
    · exact congrArg Folsa.control (folsaAt_setFolsa_same _ _ _)
  case frames =>
    intro p s hl hlinked
    obtain ⟨hrx, hretry, hsend⟩ := sendFrame_spec (folsaAt s.dev p.val) (decide (fState s.dev p.val = 3))
    refine ⟨⟨onDev_guarded_pos (fun d => modFolsa d p.val (fun f => sendFrame f (decide (fState d p.val = 3)))) (linked_guard hl hlinked),
      hrx, hretry, hsend⟩, fun bytes hbad => ?_, fun bytes hgood => ⟨fun hn hs => ?_, fun hn hs => ?_⟩⟩
    all_goals rw [exec_folsaFrameReceive hl hlinked]
    · rw [folsaFrame_bad hbad]
    · rw [folsaFrame_idle hgood hn hs]
    · rw [folsaFrame_next hgood hn hs]
      have hseq := sequence_takeSlots (setFolsa (setFolsa s.dev p.val (takeAck (folsaAt s.dev p.val) bytes)) p.val
        (frameAccepted (folsaAt s.dev p.val) bytes)) p.val bytes
      rw [sequence, sequence, folsaAt_setFolsa_same, Prod.mk.injEq, Prod.mk.injEq, Prod.mk.injEq] at hseq
      exact ⟨_, rfl, hseq⟩
  case ack =>
    refine fun f bytes => ⟨unacked_takeAck f bytes, ?_⟩
    rw [takeAck_sent, List.map_map]
    rfl
  case hello =>
    intro p s r rs hr hs hp
    refine ⟨_, exec_hello hr hs hp, ?_⟩
    by_cases hv : helloVersion r = 0
    · obtain ⟨hf, h3, hsame⟩ := helloDone_none_spec (setFolsa s.dev p.val { folsaAt s.dev p.val with hello := rs }) p hv
      rw [hsame, h3, hv, folsaAt_setFolsa_same]
      exact ⟨rfl, rfl, fun _ => hf, fun h => absurd rfl h⟩
    · obtain ⟨hf, h3, h5, hh, hd, hfirst⟩ := helloDone_up_spec (setFolsa s.dev p.val { folsaAt s.dev p.val with hello := rs }) p hv
      rw [hh, folsaAt_setFolsa_same]
      exact ⟨rfl, h3, fun h => absurd h hv, fun _ => ⟨hf, h5, hd, hfirst⟩⟩
  case sem =>
    intro p s r rs hr
    rw [exec_sem hr]
    refine ⟨fun h => ?_, fun hu hrec hrest hfit => ?_⟩
    · refine congrArg (fun d => Host.Outcome.next { s with dev := d }) (takeSem_other ?_)
      rw [folsaAt_setFolsa_same]
      exact h
    · have hsame := folsaAt_setFolsa_same s.dev p.val { folsaAt s.dev p.val with sems := rs }
      rw [takeSem_sends, hsame]
      all_goals rw [hsame]
      · exact hu
      · exact hrec
      · exact hrest
      · exact hfit
  case pair =>
    intro p s r rs hr
    refine ⟨exec_pair hr, fun h hlast hfind ch hch hlo hhi => ?_⟩
    rw [takePair_claims (f := { folsaAt s.dev p.val with pairs := rs }) hlast hfind]
    exact mem_foldl_claimed ⟨hlo, hhi⟩ _ _ (.inl (List.mem_range.2 hch))
  case down =>
    intro p cause s hl hlinked hc
    obtain ⟨hf, hcount⟩ := odGet_linkDown s.dev p
    have hport : folsaAt (linkDown s.dev p.val) p.val = downPort s.dev.time (folsaAt s.dev p.val) := folsaAt_setFolsa_same ..
    refine ⟨_, _, exec_folsaLinkDown hl hlinked hc, hf, hcount, rfl, rfl, rfl, ?_⟩
    rw [hport]
    exact ⟨rfl, rfl, restore_downPort _ _, rfl⟩
  case hold =>
    intro p s t hs ht hl hps
    refine ⟨_, exec_linkHoldTimeout hs ht hl, ?_, fun b hb => ?_⟩
    · rw [holdTimeout_eq, modFolsa, folsaAt_setFolsa_same]
    · exact foldl_pipelineStopped (fun b hb => ⟨(mem_portBerths hb).1, (mem_portBerths hb).2, hps b hb⟩) s.dev (fun _ _ => .inl ⟨rfl, rfl⟩) (.inl hb)

end Sys2Proof.Machine
end

section
/-! Adaptation (chapter 11): target items, the start of an update, snapshots and swaps, pause, abort and rollback. -/

namespace Sys2Proof.Machine

/-! ### Items taken from a host-produced queue -/

/-- What the consumption of items leaves: berths, time, firmware, the queue's enable, and the objects but for the counters of lost
events. -/
structure Consumed (q : Nat) (d e : Device) : Prop where
  berths : e.berths = d.berths
  time : e.time = d.time
  fw : e.fw = d.fw
  enabled : (ringOf e q).enabled = (ringOf d q).enabled
  od : ∀ i s, 256 * i + s < 256 * 0x8120 ∨ 256 * 0x8128 ≤ 256 * i + s → odGet e i s = odGet d i s

theorem Consumed.refl (q : Nat) (d : Device) : Consumed q d d := ⟨rfl, rfl, rfl, rfl, fun _ _ _ => rfl⟩

theorem Consumed.trans {q : Nat} {d e f : Device} (h : Consumed q d e) (k : Consumed q e f) : Consumed q d f :=
  ⟨k.berths.trans h.berths, k.time.trans h.time, k.fw.trans h.fw, k.enabled.trans h.enabled, fun i s hi => (k.od i s hi).trans (h.od i s hi)⟩

theorem consumed_setRing (q : Nat) (d : Device) {r : Ring} (h : r.enabled = (ringOf d q).enabled) : Consumed q d (setRing d q r) :=
  ⟨rfl, rfl, rfl, by rw [ringOf_setRing_same, h], fun _ _ _ => rfl⟩

theorem consumed_writeStatus (q : Nat) (d : Device) : Consumed q d (writeStatus d q) := by
  obtain ⟨m, hm⟩ := writeStatus_frame d q
  rw [hm]
  exact ⟨rfl, rfl, rfl, rfl, fun _ _ _ => rfl⟩

theorem consumed_deliver (q : Nat) (d : Device) (key target info count : Nat) : Consumed q d (deliver d key target info count) := by
  have h := onlyEvents_deliver d key target info count
  refine ⟨h.berths, (onlyEvents_time h).1, ?_, by rw [h.ringOf], fun i s hi => odGet_deliver d key target info count hi⟩
  obtain ⟨_, _, _, _, _, _, he⟩ := h
  rw [he]

theorem consumed_queueEvent (q : Nat) (d : Device) : Consumed q d (queueEvent d q) := by
  obtain he | he := queueEvent_cases d q <;> rw [he]
  · refine .trans ?_ (consumed_deliver ..)
    exact consumed_setRing q d rfl
  · exact .refl q d

theorem consumed_consumeItem (q : Nat) (d : Device) (n : Nat) (gap : Bool) : Consumed q d (consumeItem d q n gap) := by
  refine .trans (.trans ?_ (consumed_writeStatus ..)) (consumed_queueEvent ..)
  exact consumed_setRing q d rfl

theorem consumed_takeHostGaps (q n : Nat) (d : Device) : Consumed q d (takeHostGaps n d q) := by
  induction n generalizing d with
  | zero => exact .refl q d
  | succ n ih =>
    rw [takeHostGaps]
    split
    · exact (consumed_consumeItem ..).trans (ih _)
    · exact .refl q d

theorem consumed_dropHostGaps (q : Nat) (d : Device) : Consumed q d (dropHostGaps d q) := consumed_takeHostGaps ..

section Consumed
variable {q : Nat} {d e : Device} (h : Consumed q d e)
include h

theorem Consumed.berthAt (x : Nat) : berthAt e x = berthAt d x := by rw [Machine.berthAt, h.berths]; rfl

theorem Consumed.adaptOf (x : Nat) : adaptOf e x = adaptOf d x := by rw [Machine.adaptOf, h.berthAt]; rfl

theorem Consumed.runSlot {b : Nat} (hb : b < 4) : runSlot e b = runSlot d b := h.od _ _ (by omega)

theorem Consumed.runImgid {b : Nat} (hb : b < 4) : (slotAt e b (Machine.runSlot e b)).imgid = (slotAt d b (Machine.runSlot d b)).imgid := by
  rw [slotAt, h.berthAt, h.runSlot hb]
  rfl

end Consumed

/-! ### Target items -/

theorem acceptTarget_marker {d : Device} {b q : Nat} {h : HeadDecl} {item : List Byte} (hm : leAt item 0 1 = 0xFE) :
    acceptTarget d b q h item = consumeItem d q (targetEntries d q item) true := by
  rw [acceptTarget]
  simp [markerBytes, hm]

theorem acceptTarget_good {d : Device} {b q : Nat} {h : HeadDecl} {item : List Byte} (hb : b < 4) (hm : leAt item 0 1 ≠ 0xFE)
    (hg : targetGood h (slotAt d b (runSlot d b)).imgid item = true) :
    acceptTarget d b q h item = showAdapt (modAdapt (consumeItem d q (targetEntries d q item) false) b
      (fun a => { a with accepted := a.accepted ++ [(d.time, item)] })) b := by
  have hc := consumed_consumeItem q d (targetEntries d q item) false
  rw [acceptTarget, show markerBytes (leAt item 0 1) = false from decide_eq_false hm]
  rw [if_neg Bool.false_ne_true, hc.runImgid hb, if_pos hg, hc.time]

theorem acceptTarget_bad {d : Device} {b q : Nat} {h : HeadDecl} {item : List Byte} (hb : b < 4) (hm : leAt item 0 1 ≠ 0xFE)
    (hg : targetGood h (slotAt d b (runSlot d b)).imgid item = false) :
    acceptTarget d b q h item = odAdd (consumeItem d q (targetEntries d q item) false) (0x8810 + b) 9 1 := by
  have hc := consumed_consumeItem q d (targetEntries d q item) false
  rw [acceptTarget, show markerBytes (leAt item 0 1) = false from decide_eq_false hm]
  rw [if_neg Bool.false_ne_true, hc.runImgid hb, if_neg (by rw [hg]; exact Bool.false_ne_true)]

theorem adaptOf_modAdapt (d : Device) (b : Nat) (f : Adapt → Adapt) : adaptOf (modAdapt d b f) b = f (adaptOf d b) := by
  rw [adaptOf, modAdapt, berthAt_modBerth_same]
  rfl

theorem exec_targetItem {b : Fin 4} {item : List Byte} {s : State} {h : HeadDecl} (hh : headOf s.dev b.val = some h) (hf : firmwareReady s.dev = true)
    {q : Nat} (hq : odGet s.dev (0x8800 + b.val) 2 = q) (hlt : q < 16384) (hen : (ringOf s.dev q).enabled = true) (hdir : qDir s.dev q = 1)
    (hitem : item ≠ []) (hheld : targetEntries (dropHostGaps s.dev q) q item ≤ ringHeld (ringOf (dropHostGaps s.dev q) q)) :
    exec (.targetItemAccept b item) s = .next { s with dev := acceptTarget (dropHostGaps s.dev q) b.val q h item } := by
  have hc := consumed_dropHostGaps q s.dev
  have hfw : firmwareReady (dropHostGaps s.dev q) = true := by rw [firmwareReady, hc.fw]; exact hf
  have hdir' : qDir (dropHostGaps s.dev q) q = 1 := (hc.od _ _ (by omega)).trans hdir
  have hne : item.isEmpty = false := List.isEmpty_eq_false_iff.2 hitem
  change execTargetItemAccept b item s = _
  rw [execTargetItemAccept, onDev_eq]
  dsimp only
  rw [hh, hq]
  dsimp only
  rw [if_pos hf, if_pos (by simp [hfw, hlt, hc.enabled, hen, hdir', hne, hheld])]

/-- 0x8810 + b: the objects of a berth's adaptation. -/
theorem size_adapt (b : Fin 4) : ((odInfo (0x8810 + b.val) 1).map (·.size)).getD 0 = 1 ∧ ((odInfo (0x8810 + b.val) 7).map (·.size)).getD 0 = 4 ∧
    ((odInfo (0x8810 + b.val) 9).map (·.size)).getD 0 = 4 := by
  revert b
  decide +kernel

/-! ### The state that is shown -/

theorem adaptState_le (d : Device) (b : Nat) : adaptState d b ≤ 5 := by
  rw [adaptState]
  split_ifs <;> omega

theorem adaptOf_showAdapt (d : Device) (b x : Nat) : adaptOf (showAdapt d b) x = adaptOf d x := rfl

theorem odGet_showAdapt_same (d : Device) (b : Fin 4) : odGet (showAdapt d b.val) (0x8810 + b.val) 1 = adaptState d b.val := by
  have h := adaptState_le d b.val
  rw [showAdapt, odGet_odPut_same, (size_adapt b).1]
  exact Nat.mod_eq_of_lt (by omega)

theorem odGet_showAdapt_other (d : Device) (b : Nat) {i s : Nat} (h : 256 * i + s ≠ 256 * (0x8810 + b) + 1) :
    odGet (showAdapt d b) i s = odGet d i s := odGet_odPut_other _ _ h

theorem headOf_showAdapt (d : Device) (b : Nat) : headOf (showAdapt d b) b = headOf d b := by
  have hr : runSlot (showAdapt d b) b = runSlot d b := odGet_showAdapt_other d b (by omega)
  rw [headOf, hr]
  rfl

theorem adaptState_showAdapt (d : Device) (b : Nat) : adaptState (showAdapt d b) b = adaptState d b := by
  rw [adaptState, adaptState, headOf_showAdapt, odFlag, odGet_showAdapt_other d b (by omega)]
  rfl

/-! ### What tiles' work leaves of the adaptation -/

/-- The adaptation records, the slots, device time, and the objects but for those of faults and events are the same. -/
structure AdaptKept (d e : Device) : Prop where
  od : ∀ i s, 256 * i + s < 256 * 0x8000 ∨ 256 * 0x8200 ≤ 256 * i + s → odGet e i s = odGet d i s
  adapt : ∀ x, adaptOf e x = adaptOf d x
  time : e.time = d.time

theorem AdaptKept.refl (d : Device) : AdaptKept d d := ⟨fun _ _ _ => rfl, fun _ => rfl, rfl⟩

theorem AdaptKept.trans {d e f : Device} (h : AdaptKept d e) (k : AdaptKept e f) : AdaptKept d f :=
  ⟨fun i s hi => (k.od i s hi).trans (h.od i s hi), fun x => (k.adapt x).trans (h.adapt x), k.time.trans h.time⟩

theorem AdaptKept.foldl {α : Type} {f : Device → α → Device} (hf : ∀ d a, AdaptKept d (f d a)) (l : List α) (d : Device) :
    AdaptKept d (l.foldl f d) := by
  induction l generalizing d with
  | nil => exact .refl d
  | cons a l ih => exact (hf d a).trans (ih _)

section Steps
variable {d e : Device} (h : AdaptKept d e)
include h

theorem AdaptKept.aside {f : Device} (hod : f.od = e.od) (hb : f.berths = e.berths) (ht : f.time = e.time) : AdaptKept d f :=
  h.trans ⟨fun _ _ _ => odGet_congr hod _ _, fun x => by rw [adaptOf, adaptOf, berthAt, berthAt, hb], ht⟩

theorem AdaptKept.modBerth {b : Nat} {f : Berth → Berth} (hf : ∀ x, (f x).adapt = x.adapt) : AdaptKept d (modBerth e b f) := by
  refine h.trans ⟨fun _ _ _ => rfl, fun x => ?_, rfl⟩
  rw [adaptOf, adaptOf]
  by_cases hx : x = b
  · subst hx
    rw [berthAt_modBerth_same, hf]
  · rw [berthAt_modBerth_other _ _ hx]

theorem AdaptKept.setTile {b k : Nat} {t : Tile} : AdaptKept d (setTile e b k t) := h.modBerth fun _ => rfl

theorem AdaptKept.modTile {b k : Nat} {f : Tile → Tile} : AdaptKept d (modTile e b k f) := h.setTile

theorem AdaptKept.setEnds {m : Tab UEnd} : AdaptKept d { e with ends := m } := h.aside rfl rfl rfl

theorem AdaptKept.berthReport {b i info : Nat} {blame reporter : U32} : AdaptKept d (berthReport e b i blame reporter info) := h.aside rfl rfl rfl

theorem AdaptKept.addDiscard {r : Discard} : AdaptKept d (addDiscard e r) := by
  rw [Machine.addDiscard]
  split
  · exact h
  · have hhub (x : Hub) : AdaptKept e (odAdd { e with hub := x } 0x8031 0 1) :=
      ⟨fun i s hi => odGet_odAdd_other _ _ (by omega), fun _ => rfl, rfl⟩
    exact h.trans (hhub _)

theorem AdaptKept.swapUnits {b : Nat} : AdaptKept d (swapUnits e b) := by
  have hports (m : Tab StationPort) (n : Tab UEnd) : AdaptKept d { e with ports := m, ends := n } := h.aside rfl rfl rfl
  rw [Machine.swapUnits]
  split
  · exact h
  · dsimp only
    rw [putTables]
    refine .modBerth (.modBerth (hports _ _) fun _ => ?_) fun _ => ?_ <;> rfl

theorem AdaptKept.event {n info count : Nat} (hn : n < 1024) : AdaptKept d (sharedEvent e n info count) := by
  have hev := onlyEvents_sharedEvent e n info count
  exact h.trans ⟨fun i s hi => odGet_sharedEvent _ _ _ hn (by omega), fun x => by rw [adaptOf, hev.berthAt]; rfl, (onlyEvents_time hev).1⟩

end Steps

theorem adaptKept_onUnits {f : Device → Device} (hf : ∀ d, AdaptKept d (f d)) (use : Bool) (d : Device) (b : Nat) :
    AdaptKept d (onUnits use d b f) := by
  rw [onUnits]
  split
  · exact .swapUnits (.trans (.swapUnits (.refl d)) (hf _))
  · exact hf d

theorem adaptKept_creditBack (d : Device) (b key k iq n : Nat) : AdaptKept d (creditBack d b key k iq n) := by
  unfold creditBack
  dsimp only
  split
  · exact .refl d
  · split
    · exact .modBerth (.refl d) fun _ => rfl
    · refine adaptKept_onUnits (f := fun d => _) (fun d => ?_) _ d b
      split
      · exact .refl d
      · split <;> exact .aside (.refl d) rfl rfl rfl

theorem adaptKept_abortTile (d : Device) (b key : Nat) (qids : List Nat) : AdaptKept d (abortTile d b key qids) := by
  rw [abortTile]
  refine .trans (.setTile (.foldl (fun d q => ?_) _ d)) (.foldl (fun d q => ?_) _ _)
  · exact .addDiscard (.refl d)
  · exact adaptKept_creditBack d b key _ _ _

theorem adaptKept_sendEnd (d : Device) (k : Nat) (ts : List Token) : AdaptKept d (sendEnd d k ts) := by
  obtain ⟨⟨_, _, he⟩, -⟩ := sendEnd_frame d k ts
  rw [he]
  exact .aside (.refl d) rfl rfl rfl

/-! ### Updates -/

theorem adaptKept_gradScales (d : Device) (b : Nat) (h : HeadDecl) : AdaptKept d (gradScales d b h).1 := by
  rw [gradScales]
  refine .trans (.foldl (fun d g => .foldl (fun d c => ?_) _ d) _ d) (.foldl (fun d k => .modTile (.refl d)) _ _)
  rw [writeRecordScale]
  dsimp only
  split
  · exact .setTile (.refl d)
  · exact .berthReport (.setTile (.refl d))
  · exact .berthReport (.refl d)

theorem adaptKept_layerRegisters (d : Device) (b : Nat) (h : HeadDecl) (gs : List GradTensor) : AdaptKept d (layerRegisters d b h gs) :=
  .foldl (fun d _ => .modTile (.refl d)) _ d

theorem adaptKept_setGrads (d : Device) (b : Nat) (gs : List GradTensor) : AdaptKept d (setGrads d b gs) := by
  have h (x : Slot) : AdaptKept d (setSlot d b (runSlot d b) x) := .modBerth (.refl d) fun _ => rfl
  exact h _

/-- The device before the record of an update that starts: new gradient scales, registers of the layers, contexts that start again. -/
def updatePrepared (d : Device) (b : Nat) (h : HeadDecl) : Device :=
  let g := gradScales d b h
  let e := setGrads (layerRegisters g.1 b h g.2) b g.2
  h.tiles.foldl (fun d k => modTile d b (physKey d b (k / 32) (k % 32)) (restartActx (berthAt e b).cto)) e

theorem adaptKept_updatePrepared (d : Device) (b : Nat) (h : HeadDecl) : AdaptKept d (updatePrepared d b h) :=
  .trans (.trans (.trans (adaptKept_gradScales d b h) (adaptKept_layerRegisters ..)) (adaptKept_setGrads ..))
    (.foldl (fun d _ => .modTile (.refl d)) _ _)

/-- The record of update `no`, which starts at `time` with n items. -/
def updateRecord (h : HeadDecl) (no time n : Nat) (a : Adapt) : Adapt :=
  { a with
    accepted := a.accepted.drop h.batch
    updateNo := no
    lastStart := time
    started := true
    n := n
    bad := false
    gradSum := 0
    updating := true
    snapshotTaken := false }

theorem startUpdate_eq (d : Device) (b : Nat) (h : HeadDecl) : ∃ j k ss ts, startUpdate d b h =
    showAdapt (sendEnd (sendEnd (modAdapt (updatePrepared d b h) b (updateRecord h ((adaptOf (updatePrepared d b h) b).updateNo + 1)
      (updatePrepared d b h).time (((adaptOf (updatePrepared d b h) b).accepted.take h.batch).map (·.2)).length)) j ss) k ts) b :=
  ⟨_, _, _, _, rfl⟩

theorem adaptOf_startUpdate (d : Device) (b : Nat) (h : HeadDecl) : adaptOf (startUpdate d b h) b =
    updateRecord h ((adaptOf d b).updateNo + 1) d.time (min h.batch (adaptOf d b).accepted.length) (adaptOf d b) := by
  obtain ⟨j, k, ss, ts, he⟩ := startUpdate_eq d b h
  have hk := adaptKept_updatePrepared d b h
  rw [he, adaptOf_showAdapt, (adaptKept_sendEnd ..).adapt, (adaptKept_sendEnd ..).adapt, adaptOf_modAdapt, hk.adapt, hk.time,
    List.length_map, List.length_take]

theorem state_startUpdate (d : Device) (b : Fin 4) {h : HeadDecl} (hc : (adaptOf d b.val).committing = false)
    (hr : (adaptOf d b.val).rollback.isSome = false) : odGet (startUpdate d b.val h) (0x8810 + b.val) 1 = 3 := by
  have ha := adaptOf_startUpdate d b.val h
  obtain ⟨j, k, ss, ts, he⟩ := startUpdate_eq d b.val h
  rw [he, adaptOf_showAdapt] at ha
  rw [he, odGet_showAdapt_same, adaptState]
  rw [ha, if_neg (by simp [updateRecord, hc, hr])]
  exact if_pos rfl

theorem exec_updateStart {b : Fin 4} {s : State} {h : HeadDecl} (hh : headOf s.dev b.val = some h) : exec (.updateStart b) s =
    .next { s with dev := if updateDue s.dev b.val h then startUpdate s.dev b.val h else s.dev } := by
  change execUpdateStart b s = _
  rw [execUpdateStart, onDev_eq, hh]

theorem updateDue_idle {d : Device} {b : Nat} {h : HeadDecl} (hd : updateDue d b h = true) :
    (adaptOf d b).committing = false ∧ (adaptOf d b).rollback.isSome = false := by
  simp only [updateDue, Bool.and_eq_true, Bool.not_eq_true'] at hd
  obtain ⟨⟨⟨⟨⟨-, hc⟩, hr⟩, -⟩, -⟩, -⟩ := hd
  refine ⟨hc, ?_⟩
  rw [Option.isNone_iff_eq_none] at hr
  rw [hr]
  rfl

/-! ### Holds of head tiles -/

/-- The tile's running plane is held, and its swap is armed with G = g. -/
def Armed (b g k : Nat) (d : Device) : Prop :=
  (planeAt (tileAt d b k) (tileAt d b k).run).adapt.hold = true ∧ (planeAt (tileAt d b k) (tileAt d b k).run).swap.g = BitVec.ofNat 32 g

/-- The tile with HOLD written, and G = g. -/
def armedTile (g : Nat) (t : Tile) : Tile :=
  let p := planeAt t t.run
  setPlane t t.run { p with adapt := { p.adapt with hold := true }, swap := { p.swap with g := BitVec.ofNat 32 g } }

theorem armed_armedTile_same (d : Device) (b g k : Nat) : Armed b g k (modTile d b k (armedTile g)) := by
  rw [Armed, tileAt_modTile_same]
  change (planeAt (armedTile g (tileAt d b k)) (tileAt d b k).run).adapt.hold = true ∧ (planeAt (armedTile g (tileAt d b k)) (tileAt d b k).run).swap.g = _
  rw [armedTile, planeAt_setPlane_same]
  exact ⟨rfl, rfl⟩

theorem armHold_eq (d : Device) (b g : Nat) (tiles : List Nat) :
    armHold d b g tiles = (headKeys d b tiles).foldl (fun d k => modTile d b k (armedTile g)) d := by
  rw [headKeys, List.foldl_map, armHold]
  have h (e : Device) (he : ∀ col row, physKey e b col row = physKey d b col row) :
      tiles.foldl (fun d k => modTile d b (physKey d b (k / 32) (k % 32)) (armedTile g)) e =
        tiles.foldl (fun x k => modTile x b (physKey d b (k / 32) (k % 32)) (armedTile g)) e := by
    induction tiles generalizing e with
    | nil => rfl
    | cons k tiles ih =>
      rw [List.foldl_cons, List.foldl_cons, he]
      exact ih _ he
  exact h d fun _ _ => rfl

theorem armed_foldl (b g : Nat) (keys : List Nat) (d : Device) {k : Nat} (h : k ∈ keys ∨ Armed b g k d) :
    Armed b g k (keys.foldl (fun d k => modTile d b k (armedTile g)) d) := by
  induction keys generalizing d with
  | nil => exact h.resolve_left List.not_mem_nil
  | cons j keys ih =>
    refine ih _ ?_
    by_cases hj : k = j
    · subst hj
      exact .inr (armed_armedTile_same d b g k)
    · refine h.imp (fun h => (List.mem_cons.1 h).resolve_left hj) fun h => ?_
      rw [Armed, tileAt_modTile_other _ _ _ hj]
      exact h

theorem armed_armHold (d : Device) (b g : Nat) {tiles : List Nat} {k : Nat} (h : k ∈ headKeys d b tiles) : Armed b g k (armHold d b g tiles) := by
  rw [armHold_eq]
  exact armed_foldl b g _ d (.inl h)

theorem adaptKept_armHold (d : Device) (b g : Nat) (tiles : List Nat) : AdaptKept d (armHold d b g tiles) :=
  .foldl (fun d _ => .modTile (.refl d)) _ d

/-- The record of an epoch that waits for its swap. -/
def epochWaits (e : Epoch) (a : Adapt) : Adapt := { a with snapshotTaken := true, pendingEpoch := some e }

theorem prepareSwap_eq (d : Device) (b : Nat) (h : HeadDecl) (e : Epoch) :
    prepareSwap d b h e = showAdapt (armHold (modAdapt d b (epochWaits e)) b 0 h.entryTiles) b := rfl

theorem adaptOf_prepareSwap (d : Device) (b : Nat) (h : HeadDecl) (e : Epoch) : adaptOf (prepareSwap d b h e) b = epochWaits e (adaptOf d b) := by
  rw [prepareSwap_eq, adaptOf_showAdapt, (adaptKept_armHold ..).adapt, adaptOf_modAdapt]

theorem armed_prepareSwap (d : Device) (b : Nat) {h : HeadDecl} (e : Epoch) {k : Nat} (hk : k ∈ headKeys d b h.entryTiles) :
    Armed b 0 k (prepareSwap d b h e) := armed_armHold (modAdapt d b (epochWaits e)) b 0 hk

theorem exec_epochSnapshot {b : Fin 4} {s : State} {h : HeadDecl} (hh : headOf s.dev b.val = some h)
    (hc : (adaptOf s.dev b.val).committing = true) (ht : (adaptOf s.dev b.val).snapshotTaken = false) : exec (.epochSnapshotDone b) s =
      .next { s with dev := prepareSwap s.dev b.val h (newEpoch s.dev b.val (snapshotPlanes s.dev b.val h)) } := by
  change execEpochSnapshotDone b s = _
  rw [execEpochSnapshotDone, onDev_eq, hh]
  dsimp only
  rw [if_pos (by simp [hc, ht])]

/-- The greatest FPC of some tiles. -/
def greatestFpc (d : Device) (b : Nat) (keys : List Nat) : Nat :=
  (keys.map (fun k => (planeAt (tileAt d b k) (tileAt d b k).run).swap.fpc.toNat)).foldl max 0

theorem le_foldl_max (l : List Nat) (a : Nat) : a ≤ l.foldl max a ∧ ∀ x ∈ l, x ≤ l.foldl max a := by
  induction l generalizing a with
  | nil => exact ⟨le_rfl, fun x hx => absurd hx List.not_mem_nil⟩
  | cons y l ih =>
    obtain ⟨hm, hl⟩ := ih (max a y)
    refine ⟨(le_max_left a y).trans hm, fun x hx => ?_⟩
    rcases List.mem_cons.1 hx with rfl | hx
    · exact (le_max_right a x).trans hm
    · exact hl x hx

theorem le_greatestFpc (d : Device) (b : Nat) {keys : List Nat} {k : Nat} (h : k ∈ keys) :
    (planeAt (tileAt d b k) (tileAt d b k).run).swap.fpc.toNat ≤ greatestFpc d b keys :=
  (le_foldl_max _ 0).2 _ (List.mem_map_of_mem h)

/-- The head tiles armed with the greatest FPC of the entry tiles. -/
def swapArmed (d : Device) (b : Nat) (h : HeadDecl) : Device :=
  let gm := greatestFpc d b (headKeys d b h.entryTiles)
  modAdapt (armHold d b gm h.tiles) b (fun a => { a with gm := gm })

theorem exec_entryTilesHeld {b : Fin 4} {s : State} {h : HeadDecl} (hh : headOf s.dev b.val = some h)
    (hp : (adaptOf s.dev b.val).pendingEpoch.isSome = true) (hne : h.entryTiles ≠ [])
    (hheld : ∀ k ∈ headKeys s.dev b.val h.entryTiles, tileHeld (tileAt s.dev b.val k) = true) :
    exec (.entryTilesHeld b) s = .next { s with dev := swapArmed s.dev b.val h } := by
  change execEntryTilesHeld b s = _
  rw [execEntryTilesHeld, onDev_eq, hh]
  dsimp only
  rw [if_pos]
  · rfl
  · have hkeys : (headKeys s.dev b.val h.entryTiles).isEmpty = false := by
      rw [headKeys]
      exact List.isEmpty_eq_false_iff.2 (fun h0 => hne (List.map_eq_nil_iff.1 h0))
    rw [hp, hkeys, List.all_eq_true.2 hheld]
    rfl

theorem gm_swapArmed (d : Device) (b : Nat) (h : HeadDecl) : (adaptOf (swapArmed d b h) b).gm = greatestFpc d b (headKeys d b h.entryTiles) := by
  rw [swapArmed, adaptOf_modAdapt]

theorem tileAt_modAdapt (d : Device) (b : Nat) (f : Adapt → Adapt) (k : Nat) : tileAt (modAdapt d b f) b k = tileAt d b k := by
  rw [tileAt, modAdapt, berthAt_modBerth_same]
  rfl

theorem armed_swapArmed (d : Device) (b : Nat) {h : HeadDecl} {k : Nat} (hk : k ∈ headKeys d b h.tiles) :
    Armed b (greatestFpc d b (headKeys d b h.entryTiles)) k (swapArmed d b h) := by
  rw [Armed, swapArmed, tileAt_modAdapt]
  exact armed_armHold d b _ hk

/-! ### Abort and rollback -/

/-- The record of an adaptation without its update, commit and rollback. -/
def abandoned (a : Adapt) : Adapt :=
  { a with
    updating := false
    committing := false
    n := 0
    bad := false
    rollback := none
    pendingEpoch := none
    snapshotTaken := false }

/-- The device whose tiles and ends have given up an update. -/
def tilesAborted (d : Device) (b : Nat) : Device :=
  let keys := ((headOf d b).map (fun h => h.tiles.map (fun k => physKey d b (k / 32) (k % 32)))).getD []
  let e := keys.foldl (fun e k => abortTile e b k (adaptQids d b)) d
  { e with ends := List.map (fun (p : Nat × UEnd) =>
      if p.1 / 1280 = b && (adaptQids d b).contains p.2.qid && decide (0 < p.2.credmax) then (p.1, { p.2 with tokens := [] }) else p) e.ends }

theorem adaptKept_tilesAborted (d : Device) (b : Nat) : AdaptKept d (tilesAborted d b) :=
  .setEnds (.foldl (fun d k => adaptKept_abortTile d b k _) _ d)

theorem abortUpdate_idle {d : Device} {b : Nat} (h : ((adaptOf d b).updating || (adaptOf d b).committing || (adaptOf d b).rollback.isSome) = false) :
    abortUpdate d b = d := by
  rw [abortUpdate]
  exact if_pos (by rw [adaptOf] at h; rw [h]; rfl)

theorem abortUpdate_busy {d : Device} {b : Nat} (h : ((adaptOf d b).updating || (adaptOf d b).committing || (adaptOf d b).rollback.isSome) = true) :
    abortUpdate d b = berthEvent (showAdapt (if (adaptOf d b).updating || (adaptOf d b).committing then
      odAdd (modAdapt (tilesAborted d b) b abandoned) (0x8810 + b) 7 1 else modAdapt (tilesAborted d b) b abandoned) b) b 3 0 := by
  rw [abortUpdate]
  exact if_neg (by rw [adaptOf] at h; rw [h]; decide)

theorem abortUpdate_busy_spec {d : Device} (b : Fin 4)
    (h : ((adaptOf d b.val).updating || (adaptOf d b.val).committing || (adaptOf d b.val).rollback.isSome) = true) :
    adaptOf (abortUpdate d b.val) b.val = abandoned (adaptOf d b.val) ∧
    odGet (abortUpdate d b.val) (0x8810 + b.val) 7 = (if (adaptOf d b.val).updating || (adaptOf d b.val).committing then
      min (odGet d (0x8810 + b.val) 7 + 1) 4294967295 else odGet d (0x8810 + b.val) 7) ∧
    odGet (abortUpdate d b.val) (0x8810 + b.val) 2 = odGet d (0x8810 + b.val) 2 := by
  have ht := adaptKept_tilesAborted d b.val
  have hev (e : Device) := AdaptKept.event (.refl e) (n := 0x200 + 16 * b.val + 3) (info := 0) (count := 1) (by omega)
  have hrec : adaptOf (modAdapt (tilesAborted d b.val) b.val abandoned) b.val = abandoned (adaptOf d b.val) := by
    rw [adaptOf_modAdapt, ht.adapt]
  have hod (s : Nat) (hs : s < 256) : odGet (modAdapt (tilesAborted d b.val) b.val abandoned) (0x8810 + b.val) s = odGet d (0x8810 + b.val) s :=
    ht.od _ _ (by omega)
  rw [abortUpdate_busy h, berthEvent]
  refine ⟨?_, ?_, ?_⟩
  · rw [(hev _).adapt, adaptOf_showAdapt]
    split
    · exact hrec
    · exact hrec
  · rw [(hev _).od _ _ (by omega), odGet_showAdapt_other _ _ (by omega)]
    split
    · rw [odGet_odAdd_same, hod 7 (by omega), (size_adapt b).2.1]
      rfl
    · exact hod 7 (by omega)
  · rw [(hev _).od _ _ (by omega), odGet_showAdapt_other _ _ (by omega)]
    split
    · rw [odGet_odAdd_other _ _ (by omega)]
      exact hod 2 (by omega)
    · exact hod 2 (by omega)

/-- Whatever ran, no update runs after an abort; the epochs and the items stay. -/
theorem adaptOf_abortUpdate (d : Device) (b : Fin 4) : (adaptOf (abortUpdate d b.val) b.val).updating = false ∧
    (adaptOf (abortUpdate d b.val) b.val).ring = (adaptOf d b.val).ring ∧
    odGet (abortUpdate d b.val) (0x8810 + b.val) 2 = odGet d (0x8810 + b.val) 2 := by
  cases h : ((adaptOf d b.val).updating || (adaptOf d b.val).committing || (adaptOf d b.val).rollback.isSome) with
  | true =>
    obtain ⟨ha, -, h2⟩ := abortUpdate_busy_spec b h
    rw [ha, h2]
    exact ⟨rfl, rfl, rfl⟩
  | false =>
    rw [abortUpdate_idle h]
    simp only [Bool.or_eq_false_iff] at h
    exact ⟨h.1.1, rfl, rfl⟩

/-- The device in which the copies of a rollback have been loaded. -/
def rollbackLoaded (d : Device) (b k : Nat) (cs : List PlaneCopy) : Device :=
  modAdapt (loadInactive (abortUpdate d b) b cs) b (fun a => { a with rollback := some k })

theorem installEpoch_eq (d : Device) (b k : Nat) (h : HeadDecl) (cs : List PlaneCopy) :
    installEpoch d b k h cs = prepareSwap (rollbackLoaded d b k cs) b h (newEpoch (rollbackLoaded d b k cs) b cs) := rfl

theorem adaptKept_loadInactive (d : Device) (b : Nat) (cs : List PlaneCopy) : AdaptKept d (loadInactive d b cs) :=
  .foldl (fun d _ => .modTile (.refl d)) _ d

theorem adaptOf_rollbackLoaded (d : Device) (b : Fin 4) (k : Nat) (cs : List PlaneCopy) : adaptOf (rollbackLoaded d b.val k cs) b.val =
    { adaptOf (abortUpdate d b.val) b.val with rollback := some k } := by
  rw [rollbackLoaded, adaptOf_modAdapt, (adaptKept_loadInactive ..).adapt]

theorem runSlot_rollbackLoaded (d : Device) (b : Fin 4) (k : Nat) (cs : List PlaneCopy) :
    runSlot (rollbackLoaded d b.val k cs) b.val = runSlot d b.val :=
  ((adaptKept_loadInactive _ _ cs).od _ _ (by omega)).trans ((sameControl_abortUpdate d b.val).od _ _ (by omega) (by omega) (by omega))

/-- The next epoch after a rollback has been loaded has the number that follows the slot's last one. -/
theorem newEpoch_rollbackLoaded (d : Device) (b : Fin 4) (k : Nat) (cs : List PlaneCopy) :
    (newEpoch (rollbackLoaded d b.val k cs) b.val cs).slot = runSlot d b.val ∧
    (newEpoch (rollbackLoaded d b.val k cs) b.val cs).number = slotEpoch d b.val (runSlot d b.val) + 1 := by
  have hring : (berthAt (rollbackLoaded d b.val k cs) b.val).adapt.ring = (berthAt d b.val).adapt.ring := by
    have h := adaptOf_rollbackLoaded d b k cs
    rw [adaptOf] at h
    rw [h]
    exact (adaptOf_abortUpdate d b).2.1
  refine ⟨runSlot_rollbackLoaded d b k cs, ?_⟩
  rw [newEpoch, slotEpoch, slotEpoch, slotRing, slotRing, runSlot_rollbackLoaded, hring]

theorem odGet_installEpoch (d : Device) (b : Fin 4) (k : Nat) (h : HeadDecl) (cs : List PlaneCopy) :
    odGet (installEpoch d b.val k h cs) (0x8810 + b.val) 2 = odGet d (0x8810 + b.val) 2 := by
  rw [installEpoch_eq, prepareSwap_eq, odGet_showAdapt_other _ _ (by omega), (adaptKept_armHold ..).od _ _ (by omega)]
  exact ((adaptKept_loadInactive _ _ cs).od _ _ (by omega)).trans (adaptOf_abortUpdate d b).2.2

theorem rollback_installs {d : Device} {b cmd k : Nat} {h : HeadDecl} (hh : headOf d b = some h) (hk : rollbackEpoch d b cmd = some k)
    (hb : rollbackBusy d b = false) : rollback d b cmd = installEpoch d b k h (epochCopies d b k h) := by
  rw [rollback, hh, hk]
  exact if_neg (by rw [hb]; exact Bool.false_ne_true)

theorem rollback_refused {d : Device} {b cmd : Nat} {h : HeadDecl} (hh : headOf d b = some h)
    (hr : rollbackEpoch d b cmd = none ∨ rollbackBusy d b = true) : rollback d b cmd = d := by
  rw [rollback, hh]
  cases hk : rollbackEpoch d b cmd with
  | none => rfl
  | some k => exact if_pos (hr.resolve_left (by rw [hk]; exact Option.some_ne_none k))

/-! ### The obligation -/

/-- Settles O51. -/
theorem adaptationCommands : Obligations.AdaptationCommands := by
  unfold Obligations.AdaptationCommands
  dsimp only
  refine ⟨?item, ?start, ?snapshot, ?held, ?pause, ?abort, ?roll⟩
  case item =>
    intro b item s h hh hf hlt hen hdir hitem hheld
    have hc := consumed_dropHostGaps (odGet s.dev (0x8800 + b.val) 2) s.dev
    have hne := consumed_consumeItem (odGet s.dev (0x8800 + b.val) 2) (dropHostGaps s.dev (odGet s.dev (0x8800 + b.val) 2))
      (targetEntries (dropHostGaps s.dev (odGet s.dev (0x8800 + b.val) 2)) (odGet s.dev (0x8800 + b.val) 2) item) false
    rw [exec_targetItem hh hf rfl hlt hen hdir hitem hheld]
    refine ⟨fun hm => ?_, fun hm hg => ?_, fun hm hg => ?_⟩
    · rw [acceptTarget_marker hm]
    · rw [← hc.runImgid b.isLt] at hg
      rw [acceptTarget_good b.isLt hm hg]
      refine ⟨_, rfl, ?_⟩
      rw [adaptOf_showAdapt, adaptOf_modAdapt, hne.adaptOf, hc.adaptOf, hc.time]
    · rw [← hc.runImgid b.isLt] at hg
      rw [acceptTarget_bad b.isLt hm hg]
      refine ⟨_, rfl, (hne.adaptOf _).trans (hc.adaptOf _), ?_⟩
      rw [odGet_odAdd_same, (size_adapt b).2.2, hne.od _ _ (by omega), hc.od _ _ (by omega)]
      rfl
  case start =>
    intro b s h hh
    rw [exec_updateStart hh]
    refine ⟨fun hd => ?_, fun hd => ?_⟩
    · obtain ⟨hcommit, hroll⟩ := updateDue_idle hd
      rw [if_pos hd]
      refine ⟨_, rfl, state_startUpdate s.dev b hcommit hroll, ?_⟩
      rw [adaptOf_startUpdate]
      exact ⟨rfl, rfl, rfl, rfl, rfl, rfl, rfl, rfl⟩
    · rw [hd, if_neg Bool.false_ne_true]
  case snapshot =>
    intro b s h hh hcommit htaken
    refine ⟨_, newEpoch s.dev b.val (snapshotPlanes s.dev b.val h), exec_epochSnapshot hh hcommit htaken, ?_⟩
    rw [adaptOf_prepareSwap]
    exact ⟨rfl, rfl, rfl, rfl, rfl, rfl, rfl, fun k hk => armed_prepareSwap _ _ _ hk⟩
  case held =>
    intro b s h hh hp hne hheld
    refine ⟨_, exec_entryTilesHeld hh hp hne hheld, ?_⟩
    rw [gm_swapArmed]
    exact ⟨fun k hk => le_greatestFpc s.dev b.val hk, fun k hk => armed_swapArmed s.dev b.val hk⟩
  case pause =>
    intro p hp b s
    have hshow (f : Adapt → Adapt) : let e := showAdapt (modAdapt s.dev b.val f) b.val
        adaptOf e b.val = f (adaptOf s.dev b.val) ∧ odGet e (0x8810 + b.val) 1 = adaptState e b.val ∧ e.hub = s.dev.hub ∧ e.queues = s.dev.queues :=
      ⟨adaptOf_modAdapt .., (odGet_showAdapt_same _ b).trans (adaptState_showAdapt ..).symm, rfl, rfl⟩
    simp only [List.mem_cons, List.not_mem_nil, or_false] at hp
    rcases hp with rfl | rfl
    · exact ⟨_, rfl, hshow _⟩
    · exact ⟨_, rfl, hshow _⟩
  case abort =>
    intro b s hbusy
    obtain ⟨ha, h7, h2⟩ := abortUpdate_busy_spec b hbusy
    refine ⟨showAdapt (abortUpdate s.dev b.val) b.val, rfl, ?_, ?_, ?_⟩
    · rw [adaptOf_showAdapt, ha]
      exact ⟨rfl, rfl, rfl, rfl, rfl, rfl, rfl⟩
    · rw [odGet_showAdapt_other _ _ (by omega), h7]
    · rw [odGet_showAdapt_other _ _ (by omega), h2]
  case roll =>
    intro p hp b s h k hh
    have hexec : exec (p.1 b) s = .next { s with dev := rollback s.dev b.val p.2 } := by
      simp only [List.mem_cons, List.not_mem_nil, or_false] at hp
      rcases hp with rfl | rfl | rfl <;> rfl
    rw [hexec]
    refine ⟨fun hk hb => ?_, fun hr => ?_⟩
    · rw [rollback_installs hh hk hb]
      obtain ⟨hslot, hnumber⟩ := newEpoch_rollbackLoaded s.dev b k (epochCopies s.dev b.val k h)
      refine ⟨_, newEpoch (rollbackLoaded s.dev b.val k (epochCopies s.dev b.val k h)) b.val (epochCopies s.dev b.val k h), rfl, ?_⟩
      rw [odGet_installEpoch, installEpoch_eq, adaptOf_prepareSwap, adaptOf_rollbackLoaded]
      exact ⟨rfl, rfl, hnumber, hslot, rfl, (adaptOf_abortUpdate s.dev b).1, rfl⟩
    · rw [rollback_refused hh hr]

end Sys2Proof.Machine
end

section
/-! Release stage 2 of a slot that arrives halted (R305, R322): SLOT_STATE 6 is an event, and the counter of its occurrences is the
object value that the model reads as the spare map of a column far beyond the twentieth. A plane of an image that stands there is
written to one tile, and the spare map names another one afterwards. -/

namespace Sys2Proof.Machine

/-- The column whose entry in the spare map of berth 0 has the key of the occurrence counter of berth 0's slot events. -/
def strayColumn : Nat := 256 * (0x8114 - 0x3110) + 5

/-- An image with one plane, in row 0 of that column. -/
def strayImage : Image := { planes := [(32 * strayColumn, {})] }

/-- Berth 0 is in release stage 1 of that image's slot, which arrives halted; 127 slot events have occurred. -/
def strayPlaneState : State :=
  { State.reset with dev := {
      berths := [(0, { co := { active := true, target := 0, stage := 1, mode := 1, arriveHalted := true }
                       slots := [(0, { image := some strayImage })] })]
      od := [(256 * 0x8114 + 6, 127)] } }

theorem plane_stray : (planeAt (tileAt (releaseWrites strayPlaneState.dev 0) 0 (physKey (releaseWrites strayPlaneState.dev 0) 0
    (32 * strayColumn / 32) (32 * strayColumn % 32))) (coOf strayPlaneState.dev 0).target).live = false := by
  decide +kernel

/-- Refutes O49: with the 128th slot event the spare map moves the plane's position to the spare, whose plane is not live. -/
theorem not_releaseAndDrain : ¬ Obligations.ReleaseAndDrain := by
  unfold Obligations.ReleaseAndDrain
  rintro ⟨h, -⟩
  obtain ⟨-, hstage, -⟩ := h 0 strayPlaneState (by decide +kernel) (by decide +kernel)
  obtain ⟨e, he, -, hplanes, -⟩ := hstage strayImage (by decide +kernel) (by decide +kernel)
  have hexec : exec (.releaseStageWriteEnables 0) strayPlaneState = .next { strayPlaneState with dev := releaseWrites strayPlaneState.dev 0 } :=
    onDev_guarded_pos (fun d => releaseWrites d 0) (by decide +kernel)
  rw [hexec] at he
  injection he with he
  have hsame : releaseWrites strayPlaneState.dev 0 = e := congrArg State.dev he
  obtain ⟨hlive, -⟩ := hplanes (32 * strayColumn, {}) (by decide +kernel)
  rw [← hsame] at hlive
  exact absurd (plane_stray.symm.trans hlive) (by decide)

end Sys2Proof.Machine
end

section
/-!
# The issue of a step (02: Step table and sequencer)

What follows the commit of a step on its own tile: its tokens leave or arrive at the same tile, its pops return credits, and its
reports and counts are made. None of it touches what the issue has set: the banks, the position and state of every context, the
output credits, and the steps in flight.
-/
namespace Sys2Proof.Machine

/-! ### What is left of a tile -/

/-- The contexts' positions and states and the output credits are the same. -/
def PlanePassed (p p' : Plane) : Prop :=
  (∀ c, (ctxAt p' c).ptr = (ctxAt p c).ptr ∧ (ctxAt p' c).state = (ctxAt p c).state) ∧ ∀ q, (oqAt p' q).cred = (oqAt p q).cred

theorem PlanePassed.refl (p : Plane) : PlanePassed p p := ⟨fun _ => ⟨rfl, rfl⟩, fun _ => rfl⟩

theorem PlanePassed.trans {p q r : Plane} (h : PlanePassed p q) (k : PlanePassed q r) : PlanePassed p r :=
  ⟨fun c => ⟨(k.1 c).1.trans (h.1 c).1, (k.1 c).2.trans (h.1 c).2⟩, fun n => (k.2 n).trans (h.2 n)⟩

/-- A plane whose contexts and output queues are those of another. -/
theorem planePassed_of_eq {p p' : Plane} (hc : p'.ctx = p.ctx) (hq : p'.oq = p.oq) : PlanePassed p p' :=
  ⟨fun c => by simp only [ctxAt, hc, and_self], fun n => by simp only [oqAt, hq]⟩

/-- Contexts that change nothing but when they began to wait. -/
theorem planePassed_restartWaits (cto : Nat) (before p : Plane) : PlanePassed p (restartWaits cto before p) := by
  refine ⟨fun c => ?_, fun _ => rfl⟩
  have hmap : (restartWaits cto before p).ctx = List.map (fun x => (x.1,
      (fun n (y : Context) => if !headInputs before n && headInputs p n then { y with waitFrom := cto } else y) x.1 x.2)) p.ctx := by
    rw [restartWaits]
    refine List.map_congr_left fun x _ => ?_
    by_cases h : (!headInputs before x.1 && headInputs p x.1) = true
    · simp only [h, if_true]
    · simp only [h, if_false, Bool.false_eq_true]
  rw [ctxAt, ctxAt, hmap]
  obtain h | ⟨h, h'⟩ := Tab.get_mapKeyed {} (fun n (y : Context) => if !headInputs before n && headInputs p n then { y with waitFrom := cto } else y) p.ctx c
  · rw [h]
    split <;> exact ⟨rfl, rfl⟩
  · rw [h, h']
    exact ⟨rfl, rfl⟩

/-- What the issue of a step has set on its tile stays; the steps in flight stay under U. -/
structure TilePassed (U : Prop) (t t' : Tile) : Prop where
  run : t'.run = t.run
  banks : t'.banks = t.banks
  csdelta : t'.csdelta = t.csdelta
  lastCtx : t'.lastCtx = t.lastCtx
  inflight : U → t'.inflight = t.inflight
  plane : ∀ k, PlanePassed (planeAt t k) (planeAt t' k)

section Tile
variable {U : Prop}

theorem TilePassed.refl (t : Tile) : TilePassed U t t := ⟨rfl, rfl, rfl, rfl, fun _ => rfl, fun _ => .refl _⟩

theorem TilePassed.trans {t u v : Tile} (h : TilePassed U t u) (k : TilePassed U u v) : TilePassed U t v :=
  ⟨k.run.trans h.run, k.banks.trans h.banks, k.csdelta.trans h.csdelta, k.lastCtx.trans h.lastCtx,
    fun hu => (k.inflight hu).trans (h.inflight hu), fun n => (h.plane n).trans (k.plane n)⟩

/-- Parts of a tile that nothing here names. -/
theorem TilePassed.beside {t u v : Tile} (h : TilePassed U t u) (hrun : v.run = u.run) (hbanks : v.banks = u.banks) (hcs : v.csdelta = u.csdelta)
    (hlast : v.lastCtx = u.lastCtx) (hfl : v.inflight = u.inflight) (hp : v.planes = u.planes) : TilePassed U t v :=
  h.trans ⟨hrun, hbanks, hcs, hlast, fun _ => hfl, fun k => by rw [planeAt, planeAt, hp]; exact .refl _⟩

theorem TilePassed.setPlane {t u : Tile} (h : TilePassed U t u) {k : Nat} {p : Plane} (hp : PlanePassed (planeAt u k) p) :
    TilePassed U t (setPlane u k p) := by
  refine h.trans ⟨rfl, rfl, rfl, rfl, fun _ => rfl, fun n => ?_⟩
  by_cases hn : n = k
  · subst hn
    rw [planeAt_setPlane_same]
    exact hp
  · rw [planeAt_setPlane_other _ _ hn]
    exact .refl _

/-- A change of every output queue that keeps their credits. -/
theorem cred_map {g : OutQueue → OutQueue} (hd : g {} = {}) (hc : ∀ q, (g q).cred = q.cred) (m : Tab OutQueue) (q : Nat) :
    (Tab.get {} (Tab.map g m) q).cred = (Tab.get {} m q).cred := by
  have h := Tab.get_map g {} m q
  rw [hd] at h
  rw [h, hc]

/-- What a credit message for `dest` does to an output queue. -/
def toldCredits (dest : BitVec 14) (n : Nat) (q : OutQueue) : OutQueue :=
  if !q.shut && decide (q.dest = dest) && decide (0 < q.credmax) then { q with creditIn := q.creditIn ++ creditMessages n } else q

theorem toldCredits_empty (dest : BitVec 14) (n : Nat) : toldCredits dest n {} = {} := by
  rw [toldCredits, if_neg (by simp)]

theorem toldCredits_cred (dest : BitVec 14) (n : Nat) (q : OutQueue) : (toldCredits dest n q).cred = q.cred := by
  rw [toldCredits]
  split <;> rfl

theorem tilePassed_creditTile (k : Nat) (dest : BitVec 14) (n : Nat) (t : Tile) : TilePassed U t (creditTile k dest n t) := by
  rw [creditTile]
  split
  · refine .setPlane (.refl t) ⟨fun _ => ⟨rfl, rfl⟩, fun q => ?_⟩
    exact cred_map (g := toldCredits dest n) (toldCredits_empty dest n) (toldCredits_cred dest n) (planeAt t k).oq q
  · exact .refl t

theorem planeAt_portBWrite (t : Tile) (a : Nat) (v : Payload) (k : Nat) : planeAt (portBWrite t a v).1 k = planeAt t k := by
  have hp := congrArg Tile.planes (outsideMemory_portBWrite t a v)
  exact planeAt_congr hp k

theorem tilePassed_portBWrite (t : Tile) (a : Nat) (v : Payload) : TilePassed U t (portBWrite t a v).1 := by
  have h := outsideMemory_portBWrite t a v
  have hrun := congrArg Tile.run h
  have hbanks := congrArg Tile.banks h
  have hcs := congrArg Tile.csdelta h
  have hlast := congrArg Tile.lastCtx h
  have hfl := congrArg Tile.inflight h
  have hp := congrArg Tile.planes h
  exact TilePassed.beside (.refl t) hrun hbanks hcs hlast hfl hp

end Tile

/-! ### What is left of the module -/

/-- What lies outside the berths that the work after an issue may touch. -/
def outside (d : Device) : Tab Ring × Tab Stream × Tab Link × Power × List Host.Cell × Nat :=
  (d.queues, d.streams, d.links, d.power, d.hostMem, d.time)

/-- What the work after an issue leaves: on the tile what the issue has set, block memory, banks and steps in flight of every other
tile, HBM, what lies outside the berths, and under P the objects but for the two of the berth. -/
structure Passed (P U : Prop) (b key : Nat) (d e : Device) : Prop where
  own : TilePassed U (tileAt d b key) (tileAt e b key)
  other : ∀ b' k', (b', k') ≠ (b, key) → (tileAt e b' k').mem = (tileAt d b' k').mem ∧ (tileAt e b' k').banks = (tileAt d b' k').banks ∧
    (tileAt e b' k').inflight = (tileAt d b' k').inflight
  hbm : ∀ b', (berthAt e b').hbm = (berthAt d b').hbm
  outside : outside e = outside d
  od : P → ∀ i s, s < 256 → i ≠ 0x3100 + b → i ≠ 0x8810 + b → odGet e i s = odGet d i s

section Passed
variable {P U : Prop} {b key : Nat}

theorem Passed.refl (d : Device) : Passed P U b key d d := ⟨.refl _, fun _ _ _ => ⟨rfl, rfl, rfl⟩, fun _ => rfl, rfl, fun _ _ _ _ _ _ => rfl⟩

theorem Passed.trans {d e f : Device} (h : Passed P U b key d e) (k : Passed P U b key e f) : Passed P U b key d f := by
  refine ⟨h.own.trans k.own, fun b' k' hne => ?_, fun b' => (k.hbm b').trans (h.hbm b'), k.outside.trans h.outside,
    fun hP i s hs h1 h2 => (k.od hP i s hs h1 h2).trans (h.od hP i s hs h1 h2)⟩
  obtain ⟨hm, hb, hf⟩ := h.other b' k' hne
  obtain ⟨km, kb, kf⟩ := k.other b' k' hne
  exact ⟨km.trans hm, kb.trans hb, kf.trans hf⟩

theorem Passed.foldl {α : Type} {f : Device → α → Device} (hf : ∀ d, ∀ a, Passed P U b key d (f d a)) (l : List α) (d : Device) :
    Passed P U b key d (l.foldl f d) := by
  induction l generalizing d with
  | nil => exact .refl d
  | cons a l ih => exact (hf d a).trans (ih _)

theorem Passed.foldl_mem {α : Type} {f : Device → α → Device} {l : List α} (hf : ∀ d, ∀ a ∈ l, Passed P U b key d (f d a)) (d : Device) :
    Passed P U b key d (l.foldl f d) := by
  induction l generalizing d with
  | nil => exact .refl d
  | cons a l ih => exact (hf d a List.mem_cons_self).trans (ih (fun d x hx => hf d x (List.mem_cons_of_mem _ hx)) _)

section Steps
variable {d e : Device} (h : Passed P U b key d e)
include h

/-- What changes neither berths nor objects, nor what is named outside. -/
theorem Passed.aside {f : Device} (hb : f.berths = e.berths) (ho : f.od = e.od) (hout : Machine.outside f = Machine.outside e) :
    Passed P U b key d f := by
  have hberth (x : Nat) : berthAt f x = berthAt e x := by rw [berthAt, berthAt, hb]
  have htile (x k : Nat) : tileAt f x k = tileAt e x k := by rw [tileAt, tileAt, hberth]
  refine h.trans ⟨by rw [htile]; exact .refl _, fun b' k' _ => by rw [htile]; exact ⟨rfl, rfl, rfl⟩, fun b' => by rw [hberth], hout,
    fun _ i s _ _ _ => odGet_congr ho i s⟩

theorem Passed.modBerth {x : Nat} {f : Berth → Berth} (ht : ∀ y, (f y).tiles = y.tiles) (hh : ∀ y, (f y).hbm = y.hbm) :
    Passed P U b key d (modBerth e x f) := by
  have hberth (y : Nat) : (berthAt (Machine.modBerth e x f) y).tiles = (berthAt e y).tiles ∧ (berthAt (Machine.modBerth e x f) y).hbm = (berthAt e y).hbm := by
    by_cases hy : y = x
    · subst hy
      rw [berthAt_modBerth_same]
      exact ⟨ht _, hh _⟩
    · rw [berthAt_modBerth_other _ _ hy]
      exact ⟨rfl, rfl⟩
  have htile (y k : Nat) : tileAt (Machine.modBerth e x f) y k = tileAt e y k := by rw [tileAt, tileAt, (hberth y).1]
  exact h.trans ⟨by rw [htile]; exact .refl _, fun b' k' _ => by rw [htile]; exact ⟨rfl, rfl, rfl⟩, fun b' => (hberth b').2, rfl,
    fun _ _ _ _ _ _ => rfl⟩

theorem Passed.setTile {t : Tile} (ht : TilePassed U (tileAt e b key) t) : Passed P U b key d (setTile e b key t) := by
  refine h.trans ⟨by rw [tileAt_setTile_same]; exact ht, fun b' k' hne => ?_, fun b' => ?_, rfl, fun _ _ _ _ _ _ => rfl⟩
  · by_cases hb : b' = b
    · subst hb
      rw [tileAt_setTile_other _ _ _ fun hk => hne (by rw [hk])]
      exact ⟨rfl, rfl, rfl⟩
    · rw [tileAt_setTile_berth _ _ _ _ hb]
      exact ⟨rfl, rfl, rfl⟩
  · by_cases hb : b' = b
    · subst hb
      rw [Machine.setTile, berthAt_modBerth_same]
    · rw [Machine.setTile, berthAt_modBerth_other _ _ hb]

theorem Passed.modTile {f : Tile → Tile} (hf : ∀ t, TilePassed U t (f t)) : Passed P U b key d (modTile e b key f) := h.setTile (hf _)

theorem Passed.berthReport {x i info : Nat} {blame reporter : U32} : Passed P U b key d (berthReport e x i blame reporter info) :=
  h.aside rfl rfl rfl

theorem Passed.berthCount {s n : Nat} (hs : P → s < 256) : Passed P U b key d (berthCount e b s n) := by
  refine h.trans ⟨.refl _, fun _ _ _ => ⟨rfl, rfl, rfl⟩, fun _ => rfl, rfl, fun hP i s' hs' h1 _ => ?_⟩
  have := hs hP
  exact odGet_odAdd_other _ _ (by omega)

theorem Passed.adaptCount {s n : Nat} (hs : P → s < 256) : Passed P U b key d (odAdd e (0x8810 + b) s n) := by
  refine h.trans ⟨.refl _, fun _ _ _ => ⟨rfl, rfl, rfl⟩, fun _ => rfl, rfl, fun hP i s' hs' _ h2 => ?_⟩
  have := hs hP
  exact odGet_odAdd_other _ _ (by omega)

theorem Passed.setPort {k : Nat} {x : StationPort} : Passed P U b key d (setPort e k x) := h.aside rfl rfl rfl

theorem Passed.swapUnits {x : Nat} : Passed P U b key d (swapUnits e x) := by
  have hports (m : Tab StationPort) (n : Tab UEnd) : Passed P U b key d { e with ports := m, ends := n } := h.aside rfl rfl rfl
  rw [Machine.swapUnits]
  split
  · exact h
  · dsimp only
    rw [putTables]
    refine .modBerth (.modBerth (hports _ _) ?_ ?_) ?_ ?_ <;> exact fun _ => rfl

end Steps

theorem passed_onUnits {f : Device → Device} (hf : ∀ d, Passed P U b key d (f d)) (use : Bool) (d : Device) (x : Nat) :
    Passed P U b key d (onUnits use d x f) := by
  rw [onUnits]
  split
  · exact .swapUnits (.trans (.swapUnits (.refl d)) (hf _))
  · exact hf d

/-! ### Credits, pops and tokens -/

theorem passed_creditTiles (d : Device) (k : Nat) (dest : BitVec 14) (n : Nat) :
    Passed P U b key d (modBerth d b (fun x => { x with tiles := Tab.map (creditTile k dest n) x.tiles })) := by
  have hsame (m : Nat) : tileAt (modBerth d b (fun x => { x with tiles := Tab.map (creditTile k dest n) x.tiles })) b m =
      creditTile k dest n (tileAt d b m) := by
    rw [tileAt, berthAt_modBerth_same]
    exact Tab.get_map (creditTile k dest n) {} (berthAt d b).tiles m
  refine ⟨by rw [hsame]; exact tilePassed_creditTile .., fun b' k' _ => ?_, fun b' => ?_, rfl, fun _ _ _ _ _ _ => rfl⟩
  · by_cases hb : b' = b
    · subst hb
      rw [hsame]
      have h := bare_creditTile k dest n (tileAt d b' k')
      have hm := congrArg Tile.mem h
      have hb := congrArg Tile.banks h
      have hf := congrArg Tile.inflight h
      exact ⟨hm, hb, hf⟩
    · rw [tileAt, berthAt_modBerth_other _ _ hb]
      exact ⟨rfl, rfl, rfl⟩
  · by_cases hb : b' = b
    · subst hb
      rw [berthAt_modBerth_same]
    · rw [berthAt_modBerth_other _ _ hb]

theorem passed_creditBack (d : Device) (k iq n : Nat) : Passed P U b key d (creditBack d b key k iq n) := by
  unfold creditBack
  dsimp only
  split
  · exact .refl d
  · split
    · exact passed_creditTiles ..
    · refine passed_onUnits (f := fun d => _) (fun d => ?_) _ d b
      split
      · exact .refl d
      · split <;> exact .setPort (.refl d)

theorem passed_popRing (d : Device) (k iq n : Nat) : Passed P U b key d (popRing d b key k iq n) := by
  rw [popRing]
  split
  · exact .refl d
  · refine .trans (.modTile (.refl d) fun t => ?_) (passed_creditBack ..)
    exact TilePassed.setPlane (.refl t) (planePassed_of_eq rfl rfl)

theorem passed_noteRinged (d : Device) (k iq : Nat) : Passed P U b key d (noteRinged d b key k iq) := by
  rw [noteRinged, byPlane]
  refine passed_onUnits (fun d => ?_) _ d b
  split
  · exact .refl d
  · split
    · exact .setPort (.refl d)
    · exact .refl d

theorem tiles_noteRinged (d : Device) (b key k iq m : Nat) : tileAt (noteRinged d b key k iq) b m = tileAt d b m := by
  rw [noteRinged, byPlane]
  refine congrArg (fun m' => Tab.get {} m' m) (tiles_onUnits fun d => ?_)
  split
  · rfl
  · split <;> rfl

theorem passed_arriveToken (d : Device) (k iq : Nat) (tok : Token) : Passed P U b key d (arriveToken d b key k iq tok) := by
  rw [arriveToken]
  refine .trans ?_ (.foldl (fun d g => .berthReport (.refl d)) _ _)
  refine .modBerth (.setTile (passed_noteRinged d k iq) ?_) (fun _ => rfl) (fun _ => rfl)
  rw [tiles_noteRinged]
  refine .setPlane (tilePassed_portBWrite ..) ?_
  refine .trans ?_ (planePassed_restartWaits ..)
  rw [planeAt_portBWrite]
  exact planePassed_of_eq rfl rfl

end Passed

section Passed
variable {P U : Prop} {b key : Nat}

/-! ### The parts of a commit that follow the issue -/

theorem tilePassed_sendTile (t : Tile) (f : Flit) : TilePassed U t (sendTile t f) := .beside (.refl t) rfl rfl rfl rfl rfl rfl

theorem planePassed_setOq (p : Plane) {n : Nat} {q : OutQueue} (hq : q.cred = (oqAt p n).cred) : PlanePassed p (setOq p n q) := by
  refine ⟨fun _ => ⟨rfl, rfl⟩, fun m => ?_⟩
  by_cases hm : m = n
  · subst hm
    rw [oqAt_setOq_same, hq]
  · rw [oqAt_setOq_other _ _ hm]

theorem passed_emitToken (k oq : Nat) (d : Device) (tok : Token) : Passed P U b key d (emitToken b key k oq d tok) := by
  have hpop : Passed P U b key d (modTile d b key (fun t => setPlane t k (setOq (planeAt t k) oq
      { oqAt (planeAt (tileAt d b key) k) oq with
        reserved := (oqAt (planeAt (tileAt d b key) k) oq).reserved - 1
        produced := (oqAt (planeAt (tileAt d b key) k) oq).produced + 1 }))) :=
    .setTile (.refl d) (.setPlane (.refl _) (planePassed_setOq _ rfl))
  rw [emitToken]
  split
  · exact hpop.trans (passed_arriveToken ..)
  · exact .modTile hpop fun t => tilePassed_sendTile _ _

theorem passed_hurdleStart (d : Device) (x : Nat) (scope : Scope) (hid : Nat) : Passed P U b key d (hurdleStart d x scope hid) := by
  unfold hurdleStart
  cases scope with
  | module => exact .aside (.refl d) rfl rfl rfl
  | berth => refine .modBerth (.refl d) ?_ ?_ <;> exact fun _ => rfl
  | pipeline => refine .modBerth (.refl d) ?_ ?_ <;> exact fun _ => rfl

theorem passed_popHeld (d : Device) (hmask : Nat) : Passed P U b key d (popHeld d b key hmask) := by
  rw [popHeld]
  refine .foldl (fun d iq => ?_) _ d
  dsimp only
  split
  · refine .trans (.modTile (.refl d) fun t => ?_) (passed_popRing ..)
    exact TilePassed.setPlane (.refl t) (planePassed_of_eq rfl rfl)
  · exact .refl d

theorem passed_retireQueue (d : Device) (k : Nat) (f : InFlight) (iq n : Nat) : Passed P U b key d (retireQueue d b key k f iq n) := by
  rw [retireQueue]
  split
  · exact .setTile (.refl d) (.setPlane (.refl _) (planePassed_of_eq rfl rfl))
  · exact passed_popRing ..

/-- The end of a step that has no unit: it leaves the steps in flight again, which the statement then says nothing of. -/
theorem passed_finishStep (d : Device) (f : InFlight) (hU : ¬ U) (hP : P → f.satSub < 256) : Passed P U b key d (finishStep d b key f) := by
  have hout : Passed P U b key d (modTile d b key (fun t => { t with
      inflight := t.inflight.erase f
      bud := if f.budget then t.bud - f.cycles else t.bud })) :=
    .modTile (.refl d) fun _ => ⟨rfl, rfl, rfl, rfl, fun hu => absurd hu hU, fun _ => .refl _⟩
  have hret := ((hout.trans (passed_retireQueue _ (tileAt d b key).run f f.iqa f.na)).trans
    (passed_retireQueue _ (tileAt d b key).run f f.iqb f.nb)).trans (passed_retireQueue _ (tileAt d b key).run f f.siq f.ns)
  rw [finishStep]
  split
  · exact hret
  · exact .berthCount hret hP

/-- The reports, counts, mirrors and sums of a step. -/
theorem passed_stepEffects (d : Device) (x : Xe) (hP : P → ∀ p ∈ x.cnts ++ x.acnts, p.1 < 256) :
    Passed P U b key d (stepEffects d b key x) := by
  have hreps : Passed P U b key d (x.reps.foldl (fun e r => berthReport e b r.1 (physTag d b key) (physTag d b key) r.2) d) :=
    .foldl (fun e _ => .berthReport (.refl e)) x.reps d
  have hcnts := hreps.trans (.foldl_mem (f := fun d c => berthCount d b c.1 c.2) (l := x.cnts)
    (fun d p hp => .berthCount (.refl d) fun h => hP h p (List.mem_append_left _ hp)) _)
  have hacnts := hcnts.trans (.foldl_mem (f := fun d c => odAdd d (0x8810 + b) c.1 c.2) (l := x.acnts)
    (fun d p hp => .adaptCount (.refl d) fun h => hP h p (List.mem_append_right _ hp)) _)
  rw [stepEffects]
  refine .modBerth hacnts ?_ ?_ <;> exact fun _ => rfl

end Passed

/-! ### The work that is issued -/

/-- What the issue reads of a step's work is the same. -/
structure IssuedAs (x y : Xe) : Prop where
  c : y.c = x.c
  w : y.w = x.w
  hurdle : y.hurdle = x.hurdle
  rerun : y.rerun = x.rerun
  ptr : y.ctx.ptr = x.ctx.ptr
  cnts : y.cnts = x.cnts
  acnts : y.acnts = x.acnts
  satSub : y.satSub = x.satSub
  run : y.t.run = x.t.run
  banks : y.t.banks = x.t.banks
  csdelta : y.t.csdelta = x.t.csdelta
  inflight : y.t.inflight = x.t.inflight
  counters : y.pl.k = x.pl.k
  oq : y.pl.oq = x.pl.oq

theorem IssuedAs.refl (x : Xe) : IssuedAs x x := ⟨rfl, rfl, rfl, rfl, rfl, rfl, rfl, rfl, rfl, rfl, rfl, rfl, rfl, rfl⟩

theorem IssuedAs.trans {x y z : Xe} (h : IssuedAs x y) (k : IssuedAs y z) : IssuedAs x z :=
  ⟨k.c.trans h.c, k.w.trans h.w, k.hurdle.trans h.hurdle, k.rerun.trans h.rerun, k.ptr.trans h.ptr, k.cnts.trans h.cnts,
    k.acnts.trans h.acnts, k.satSub.trans h.satSub, k.run.trans h.run, k.banks.trans h.banks, k.csdelta.trans h.csdelta,
    k.inflight.trans h.inflight, k.counters.trans h.counters, k.oq.trans h.oq⟩

theorem issuedAs_portAWrite (x : Xe) (g : Nat) : IssuedAs x (portAWrite x g) := by
  simp only [portAWrite]
  split <;> constructor <;> rfl

theorem issuedAs_touchGranule (x : Xe) (g : Nat) : IssuedAs x (touchGranule x g) := by
  simp only [touchGranule]
  split <;> constructor <;> rfl

theorem issuedAs_writeWord (x : Xe) (a v : Nat) : IssuedAs x (writeWord x a v) := by
  refine ((issuedAs_portAWrite x (2 * a)).trans (issuedAs_portAWrite _ (2 * a + 1))).trans ?_
  constructor <;> rfl

theorem issuedAs_writePart (x : Xe) (a : Nat) (bs : List Byte) : IssuedAs x (writePart x a bs) := by
  refine (issuedAs_touchGranule x (a / 8)).trans ?_
  simp only [writePart]
  split
  · exact .refl _
  · refine (issuedAs_portAWrite _ (a / 8)).trans ?_
    constructor <;> rfl

/-- The count of the tokens held is not read by the issue. -/
theorem IssuedAs.counted {x y : Xe} (h : IssuedAs x y) {n : Nat} : IssuedAs x { y with ctx := { y.ctx with holdCount := n } } :=
  ⟨h.c, h.w, h.hurdle, h.rerun, h.ptr, h.cnts, h.acnts, h.satSub, h.run, h.banks, h.csdelta, h.inflight, h.counters, h.oq⟩

theorem issuedAs_holdTokens (x : Xe) (ts : List Token) : IssuedAs x (holdTokens x ts) := by
  rw [holdTokens]
  induction ts generalizing x with
  | nil => exact .refl x
  | cons t ts ih =>
    rw [List.foldl_cons]
    refine .trans ?_ (ih _)
    dsimp only
    exact .counted (((issuedAs_writeWord ..).trans (issuedAs_writeWord ..)).trans (issuedAs_writePart ..))

/-- The work of a step after it has stored the tokens of its open band. -/
def storedWork (x : Xe) : Xe := if toHold x then holdTokens { x with ctx := { x.ctx with holdOq := wOq x.w } } (sealTokens x) else x

/-- The work of a step after that, and after a re-run has given back the units it holds. -/
def heldWork (x0 x : Xe) : Xe :=
  if (storedWork x).rerun then { storedWork x with pl := rewindHeld (storedWork x).pl x0.ctx.hmask } else storedWork x

theorem issuedAs_storedWork (x : Xe) : IssuedAs x (storedWork x) := by
  rw [storedWork]
  split
  · refine .trans ?_ (issuedAs_holdTokens ..)
    constructor <;> rfl
  · exact .refl x

theorem issuedAs_heldWork (x0 x : Xe) : IssuedAs x (heldWork x0 x) := by
  rw [heldWork]
  split
  · refine (issuedAs_storedWork x).trans ?_
    constructor <;> rfl
  · exact issuedAs_storedWork x

/-! ### The issue on its tile -/

theorem issueNext_snd (p : Plane) (w : BitVec 128) : (issueNext p w).2 =
    if wLoopen w ∧ (counterAt p (wLoopk w)).value = (counterAt p (wLoopk w)).limit then wExit w else wNext w := by
  cases hw : wLoopen w with
  | false =>
    rw [issueNext_of_not_loopen p hw]
    rfl
  | true =>
    rw [issueNext, hw]
    by_cases hv : (counterAt p (wLoopk w)).value = (counterAt p (wLoopk w)).limit
    · simp only [hv, Bool.not_true, Bool.false_eq_true, if_false, if_true, and_self]
    · simp only [hv, Bool.not_true, Bool.false_eq_true, if_false, and_false]

/-- The next step is a matter of the step's word and the loop counters. -/
theorem issueNext_snd_congr {p q : Plane} (h : q.k = p.k) (w : BitVec 128) : (issueNext q w).2 = (issueNext p w).2 := by
  rw [issueNext_snd, issueNext_snd, counterAt, counterAt, h]

theorem oq_issueNext (p : Plane) (w : BitVec 128) : (issueNext p w).1.oq = p.oq := by
  obtain ⟨m, hm⟩ := issueNext_frame p w
  rw [hm]

/-- The plane with the step's credits and units taken, and an entry counted for the head. -/
def takenPlane (x0 x : Xe) : Plane :=
  let n := reserveTokens x0
  let p := setOq x.pl (wOq x.w) { oqAt x.pl (wOq x.w) with
    cred := (oqAt x.pl (wOq x.w)).cred - n
    reserved := (oqAt x.pl (wOq x.w)).reserved + n }
  let p := reserveIn (reserveIn (reserveIn p (wIqa x.w) (naTokens x0)) (wIqb x.w) (nbTokens x0)) (fld x.w 51 48) (siqTokens x.w)
  if p.adapt.aen && decide (p.adapt.hctx = x.c) && atEntry x0 then { p with swap := { p.swap with fpc := p.swap.fpc + 1 } } else p

theorem oq_reserveIn (p : Plane) (iq n : Nat) : (reserveIn p iq n).oq = p.oq := by
  rw [reserveIn]
  split <;> rfl

theorem k_reserveIn (p : Plane) (iq n : Nat) : (reserveIn p iq n).k = p.k := by
  rw [reserveIn]
  split <;> rfl

theorem cred_takenPlane (x0 x : Xe) : (oqAt (takenPlane x0 x) (wOq x.w)).cred = (oqAt x.pl (wOq x.w)).cred - reserveTokens x0 := by
  have hoq : (takenPlane x0 x).oq = (setOq x.pl (wOq x.w) { oqAt x.pl (wOq x.w) with
      cred := (oqAt x.pl (wOq x.w)).cred - reserveTokens x0
      reserved := (oqAt x.pl (wOq x.w)).reserved + reserveTokens x0 }).oq := by
    rw [takenPlane]
    split <;> simp only [oq_reserveIn]
  rw [oqAt, hoq]
  exact congrArg OutQueue.cred (oqAt_setOq_same ..)

theorem k_takenPlane (x0 x : Xe) : (takenPlane x0 x).k = x.pl.k := by
  rw [takenPlane]
  split <;> simp only [k_reserveIn] <;> rfl

/-- The context goes to the step that its counters name, or back where a re-run begins. -/
theorem ctx_issuedPlane (x0 x : Xe) (cto : Nat) : (ctxAt (issuedPlane x0 x cto) x.c).ptr = (if x.rerun then x.ctx.ptr else (issueNext x.pl x.w).2) ∧
    (ctxAt (issuedPlane x0 x cto) x.c).state = (if x.hurdle then .hurdle else .ready) := by
  have h : issuedPlane x0 x cto = setCtx (if x.rerun then (takenPlane x0 x, x.ctx.ptr) else issueNext (takenPlane x0 x) x.w).1 x.c
      { x.ctx with
        ptr := (if x.rerun then (takenPlane x0 x, x.ctx.ptr) else issueNext (takenPlane x0 x) x.w).2
        state := if x.hurdle then .hurdle else .ready
        waitFrom := cto } := rfl
  rw [h, ctxAt_setCtx_same, ← issueNext_snd_congr (k_takenPlane x0 x)]
  refine ⟨?_, rfl⟩
  dsimp only
  split <;> rfl

theorem cred_issuedPlane (x0 x : Xe) (cto : Nat) : (oqAt (issuedPlane x0 x cto) (wOq x.w)).cred = (oqAt x.pl (wOq x.w)).cred - reserveTokens x0 := by
  have h : (issuedPlane x0 x cto).oq = (if x.rerun then (takenPlane x0 x, x.ctx.ptr) else issueNext (takenPlane x0 x) x.w).1.oq := rfl
  rw [← cred_takenPlane, oqAt, oqAt, h]
  split
  · rfl
  · rw [oq_issueNext]

theorem planeAt_issuedTile (x0 x : Xe) (u : ExecUnit) (fclk cto : Nat) : planeAt (issuedTile x0 x u fclk cto) x.t.run = issuedPlane x0 x cto :=
  planeAt_setPlane_same ..

/-! ### The commit of a step -/

variable {P U : Prop} {b key : Nat}

theorem passed_ite {c : Prop} [Decidable c] {d e f : Device} (he : Passed P U b key d e) (hf : Passed P U b key d f) :
    Passed P U b key d (if c then e else f) := by
  split
  · exact he
  · exact hf

theorem passed_of_not {c : Prop} [Decidable c] {d e f : Device} (hc : ¬ c) (hf : Passed P U b key d f) :
    Passed P U b key d (if c then e else f) := by
  rwa [if_neg hc]

/-- After the issue a commit leaves what the issue has set. -/
theorem passed_commitStep (d : Device) (u : ExecUnit) (x0 x : Xe) (hU : U → u ≠ .none) (hP : P → ∀ p ∈ x.cnts ++ x.acnts, p.1 < 256)
    (hsat : P → x.satSub < 256) : Passed P U b key
    (setTile d b key (issuedTile x0 (heldWork x0 x) u (berthAt d b).fclk (berthAt d b).cto)) (commitStep d b key u x0 x) := by
  have hsame := issuedAs_heldWork x0 x
  have heffects := passed_stepEffects (P := P) (U := U) (b := b) (key := key)
    (setTile d b key (issuedTile x0 (heldWork x0 x) u (berthAt d b).fclk (berthAt d b).cto)) (heldWork x0 x)
    (by rw [hsame.cnts, hsame.acnts]; exact hP)
  have hsent := passed_ite (c := toHold x = true) heffects
    (heffects.trans (.foldl (passed_emitToken (heldWork x0 x).t.run (wOq (heldWork x0 x).w)) (sealTokens x) _))
  have hreleased := hsent.trans (.foldl (passed_emitToken (heldWork x0 x).t.run (heldWork x0 x).ctx.holdOq) (heldWork x0 x).release _)
  have hpopped := passed_ite (c := wOpcode (heldWork x0 x).w = 0x04 ∧ !(heldWork x0 x).rerun) (hreleased.trans (passed_popHeld _ x0.ctx.hmask))
    hreleased
  have hstarted := hpopped.trans (passed_hurdleStart _ b (heldWork x0 x).ctx.scope (heldWork x0 x).ctx.hid)
  by_cases hu : u = .none
  · have hfinished := hpopped.trans (passed_finishStep _ (flightOf x0 (heldWork x0 x) u (berthAt d b).fclk) (fun h => hU h hu)
      (by rw [flightOf, hsame.satSub]; exact hsat))
    exact passed_ite hstarted (passed_ite hfinished hpopped)
  · exact passed_ite hstarted (passed_of_not hu hpopped)

/-! ### O1 -/

theorem outside_eq_iff {d e : Device} : outside e = outside d ↔ e.queues = d.queues ∧ e.streams = d.streams ∧ e.links = d.links ∧
    e.power = d.power ∧ e.hostMem = d.hostMem ∧ e.time = d.time := by
  simp only [outside, Prod.mk.injEq]

/-- What the issue of a step makes of its own tile. -/
theorem issued_own {t : Tile} {x0 z : Xe} {u : ExecUnit} {fclk cto : Nat} (h : TilePassed (u ≠ .none) (issuedTile x0 (heldWork x0 z) u fclk cto) t) :
    t.run = z.t.run ∧ t.banks = z.t.banks ∧ t.csdelta = z.t.csdelta ∧ t.lastCtx = z.c ∧
    (ctxAt (planeAt t z.t.run) z.c).ptr = (if z.rerun then z.ctx.ptr else (issueNext z.pl z.w).2) ∧
    (ctxAt (planeAt t z.t.run) z.c).state = (if z.hurdle then .hurdle else .ready) ∧
    (oqAt (planeAt t z.t.run) (wOq z.w)).cred = (oqAt z.pl (wOq z.w)).cred - reserveTokens x0 ∧
    (u ≠ .none → t.inflight = z.t.inflight ++ [flightOf x0 (heldWork x0 z) u fclk]) := by
  have hsame := issuedAs_heldWork x0 z
  have hcred := cred_issuedPlane x0 (heldWork x0 z) cto
  obtain ⟨hptr, hstate⟩ := ctx_issuedPlane x0 (heldWork x0 z) cto
  have hplane := h.plane z.t.run
  rw [← hsame.run, planeAt_issuedTile, hsame.run] at hplane
  rw [hsame.c, hsame.rerun, hsame.ptr, hsame.w, issueNext_snd_congr hsame.counters] at hptr
  rw [hsame.c, hsame.hurdle] at hstate
  rw [hsame.w, oqAt, oqAt, hsame.oq] at hcred
  exact ⟨h.run.trans hsame.run, h.banks.trans hsame.banks, h.csdelta.trans hsame.csdelta, h.lastCtx.trans hsame.c,
    (hplane.1 z.c).1.trans hptr, (hplane.1 z.c).2.trans hstate, (hplane.2 _).trans hcred,
    fun hu => (h.inflight hu).trans (by rw [← hsame.inflight]; rfl)⟩

/-- Settles O1: the work is committed on the step's own tile, and nothing that follows on the tile or in the module — its tokens, its
pops with their credits, its reports and counts — touches what the issue has set. -/
theorem tileStepIssues : Obligations.TileStepIssues := by
  unfold Obligations.TileStepIssues
  dsimp only
  intro f hf t c s z hhead hcan hz hbanks hturn
  refine ⟨_, exec_of_issues hf hhead hcan hz hbanks hturn, ?_⟩
  have hpassed := passed_commitStep (P := (∀ p ∈ z.cnts ++ z.acnts, p.1 < 256) ∧ z.satSub < 256) (U := f.unit ≠ .none) (b := t.b.val)
    (key := keyOf s.dev t) s.dev f.unit (headWork s t c) z id And.left And.right
  have hsame := issuedAs_heldWork (headWork s t c) z
  have hset := hpassed.own
  rw [tileAt_setTile_same] at hset
  obtain ⟨hrun, hbank, hcs, hlast, hptr, hstate, hcred, hflight⟩ := issued_own hset
  obtain ⟨hqueues, hstreams, hlinks, hpower, hmemory, htime⟩ := outside_eq_iff.1 hpassed.outside
  refine ⟨hrun, hbank, hcs, hlast, hptr, hstate, hcred, fun hu => ⟨_, hflight hu, hsame.c, rfl, rfl, rfl⟩, fun b' k' hne => ?_, fun b' => ?_,
    hqueues, hstreams, hlinks, hpower, hmemory, htime, fun hsubs hsat i sub hsub h1 h2 => hpassed.od ⟨hsubs, hsat⟩ i sub hsub h1 h2⟩
  · have hother := hpassed.other b' k' hne
    have htile : tileAt (setTile s.dev t.b.val (keyOf s.dev t) (issuedTile (headWork s t c) (heldWork (headWork s t c) z) f.unit
        (berthAt s.dev t.b.val).fclk (berthAt s.dev t.b.val).cto)) b' k' = tileAt s.dev b' k' := by
      by_cases hb : b' = t.b.val
      · subst hb
        exact tileAt_setTile_other _ _ _ fun hk => hne (by rw [hk])
      · exact tileAt_setTile_berth _ _ _ _ hb
    rwa [htile] at hother
  · rw [hpassed.hbm]
    by_cases hb : b' = t.b.val
    · subst hb
      rw [setTile, berthAt_modBerth_same]
    · rw [setTile, berthAt_modBerth_other _ _ hb]

end Sys2Proof.Machine
end

section
/-!
# Card events (19: Auxiliary power connector, System header, SFP56 cages, Power input and sequencing)

What the commands of O59 do. Those that let the cores start read the flash, and a record that reads as damaged changes objects
(R403); the spec says nothing of which records do, and neither does the model.
-/
namespace Sys2Proof.Machine

/-! ### The auxiliary cable -/

theorem cableRead_kept {d : Device} {mv : Nat} (s0 s1 : Bool) (h : cablePresent d = false ∨ 10800 < mv) :
    cableRead d mv s0 s1 = setRails { d with power := { d.power with cableMv := mv, sense0 := s0, sense1 := s1 } } := by
  have hno : ¬ (cablePresent d && decide (mv ≤ 10800)) = true := by
    obtain h | h := h
    · simp [h]
    · simp [Nat.not_le.mpr h]
  rw [cableRead, if_neg hno]

theorem availW_setRails (d : Device) : availW (setRails d) = availW d := rfl

theorem availW_unplugged {d : Device} (h : d.power.cableMv = 0) : availW d = 66 := by
  simp [availW, cablePresent, h]

/-- AVAIL by the sense pins (R467). -/
theorem availW_sensed (d : Device) : availW d = if 10800 < d.power.cableMv then (if d.power.sense0 = true ∧ d.power.sense1 = true then 216 else 300)
    else 66 := by
  by_cases hmv : 10800 < d.power.cableMv
  · cases h0 : d.power.sense0 <;> cases h1 : d.power.sense1 <;> simp [availW, cablePresent, cableDecoded, hmv, h0, h1]
  · simp [availW, cablePresent, hmv]

/-- The berths that a lost cable stops. -/
def runningBerths (d : Device) : List Nat := (List.range 4).filter (fun b => decide (runSlot d b < 4))

theorem mem_runningBerths {d : Device} {b : Nat} : b ∈ runningBerths d ↔ b < 4 ∧ runSlot d b < 4 := by
  simp [runningBerths]

/-- The module with every running berth stopped, its fed frames dropped. -/
def berthsStopped (d : Device) : Device :=
  (runningBerths d).foldl (fun d b => forceSwitch (wakeBerth d b) b 15 2 false (nextEpoch d b)) d

/-- The report of a cable lost at work. -/
def cableReported (d : Device) : Device :=
  odAdd (report { d with power := { d.power with fR := 2400, want := 2400 } } 0x08A (tag 10 0 9) (tag 10 0 9) 0x100) 0x8450 7 1

theorem cableLoss_eq (d : Device) : cableLoss d = setRails { (if (runningBerths d).isEmpty then berthsStopped d else cableReported (berthsStopped d)) with
    power := { (if (runningBerths d).isEmpty then berthsStopped d else cableReported (berthsStopped d)).power with cableMv := 0 } } := rfl

theorem berthView_berthsStopped (d : Device) {b : Nat} (hb : b < 4) (hrun : runSlot d b < 4) :
    bstate (berthsStopped d) b = 0 ∧ runSlot (berthsStopped d) b = 0xFF := by
  have hstop : ∀ d x, x < 4 →
      ((berthView (forceSwitch (wakeBerth d x) x 15 2 false (nextEpoch d x)) x).bstate = 0 ∧
        (berthView (forceSwitch (wakeBerth d x) x 15 2 false (nextEpoch d x)) x).runSlot = 0xFF) ∧
      ∀ y < 4, y ≠ x → berthView (forceSwitch (wakeBerth d x) x 15 2 false (nextEpoch d x)) y = berthView d y := by
    intro d x hx
    obtain ⟨⟨s, hs⟩, hother⟩ := berthView_forceStop hx (wakeBerth d x) 2 false (nextEpoch d x)
    refine ⟨by rw [hs]; exact ⟨rfl, rfl⟩, fun y hy hne => ?_⟩
    rw [hother y hy hne, berthView_wakeBerth d x hy]
  have hnodup : (runningBerths d).Nodup := List.nodup_range.filter _
  exact (foldl_berthView (f := fun d b => forceSwitch (wakeBerth d b) b 15 2 false (nextEpoch d b))
    (R := fun _ v => v.bstate = 0 ∧ v.runSlot = 0xFF) hstop hnodup (fun x hx => (mem_runningBerths.1 hx).1) d).1 b
    (mem_runningBerths.2 ⟨hb, hrun⟩)

theorem changeover_cableReported (d : Device) {b : Nat} (hb : b < 4) : bstate (cableReported d) b = bstate d b ∧
    runSlot (cableReported d) b = runSlot d b :=
  ⟨odGet_odAdd_other _ _ (by omega), odGet_odAdd_other _ _ (by omega)⟩

/-- The loss of the cable (R468). -/
theorem cableLoss_spec (d : Device) : (cableLoss d).power.cableMv = 0 ∧ availW (cableLoss d) = 66 ∧ (cableLoss d).power.fabric = false ∧
    (∀ b < 4, runSlot d b < 4 → bstate (cableLoss d) b = 0 ∧ runSlot (cableLoss d) b = 0xFF) ∧
    ((∃ b < 4, runSlot d b < 4) → (cableLoss d).power.fR = 2400 ∧ ∃ r ∈ (cableLoss d).hub.reports, r.source = 0x08A ∧ r.info = 0x100) ∧
    ((∀ b < 4, 4 ≤ runSlot d b) → (cableLoss d).power.fR = d.power.fR ∧ (cableLoss d).hub = d.hub) := by
  have hnone : (∃ b < 4, runSlot d b < 4) → ¬ (runningBerths d).isEmpty = true := by
    rintro ⟨b, hb, hrun⟩ he
    have hmem := mem_runningBerths.2 ⟨hb, hrun⟩
    rw [List.isEmpty_iff.mp he] at hmem
    exact List.not_mem_nil hmem
  rw [cableLoss_eq]
  generalize hx : (if (runningBerths d).isEmpty then berthsStopped d else cableReported (berthsStopped d)) = x
  have havail : availW { x with power := { x.power with cableMv := 0 } } = 66 := availW_unplugged rfl
  refine ⟨rfl, havail, ?_, fun b hb hrun => ?_, fun hsome => ?_, fun hidle => ?_⟩
  · simp only [setRails, havail]
    simp
  · change bstate x b = 0 ∧ runSlot x b = 0xFF
    rw [← hx, if_neg (hnone ⟨b, hb, hrun⟩), (changeover_cableReported _ hb).1, (changeover_cableReported _ hb).2]
    exact berthView_berthsStopped d hb hrun
  · change x.power.fR = 2400 ∧ ∃ r ∈ x.hub.reports, _
    rw [← hx, if_neg (hnone hsome)]
    exact ⟨rfl, _, List.mem_append_right _ List.mem_cons_self, rfl, rfl⟩
  · change x.power.fR = d.power.fR ∧ x.hub = d.hub
    have hnil : runningBerths d = [] := List.filter_eq_nil_iff.mpr fun b hb => by
      have := hidle b (List.mem_range.mp hb)
      simpa using this
    rw [← hx, if_pos (by rw [hnil]; rfl), berthsStopped, hnil]
    exact ⟨rfl, rfl⟩

/-! ### Bus mastering -/

/-- Objects, events and host memory may change, and vectors may be signalled; no signal is taken back. -/
structure Signalled (d e : Device) : Prop where
  busMaster : e.pcie.busMaster = d.pcie.busMaster
  unmasked : e.pcie.unmasked = d.pcie.unmasked
  signalled : d.pcie.signalled ⊆ e.pcie.signalled
  streams : e.streams = d.streams

theorem Signalled.refl (d : Device) : Signalled d d := ⟨rfl, rfl, fun _ h => h, rfl⟩

theorem Signalled.trans {d e f : Device} (h : Signalled d e) (k : Signalled e f) : Signalled d f :=
  ⟨k.busMaster.trans h.busMaster, k.unmasked.trans h.unmasked, fun _ hx => k.signalled (h.signalled hx), k.streams.trans h.streams⟩

theorem Signalled.foldl {α : Type} {f : Device → α → Device} (hf : ∀ d a, Signalled d (f d a)) (l : List α) (d : Device) : Signalled d (l.foldl f d) := by
  induction l generalizing d with
  | nil => exact .refl d
  | cons a l ih => exact (hf d a).trans (ih _)

theorem signalled_signalVector (d : Device) (v : Nat) : Signalled d (signalVector d v) := by
  rw [signalVector]
  split
  · exact ⟨rfl, rfl, fun _ h => List.mem_append_left _ h, rfl⟩
  · split
    · exact .refl d
    · exact ⟨rfl, rfl, fun _ h => h, rfl⟩

theorem signalled_evqStatus (d : Device) (h : Nat) : Signalled d (evqStatus d h) := by
  obtain ⟨m, hm⟩ := evqStatus_frame d h
  rw [hm]
  exact ⟨rfl, rfl, fun _ h => h, rfl⟩

theorem signalled_writeStatus (d : Device) (q : Nat) : Signalled d (writeStatus d q) := by
  obtain ⟨m, hm⟩ := writeStatus_frame d q
  rw [hm]
  exact ⟨rfl, rfl, fun _ h => h, rfl⟩

theorem signalled_evqInterrupt (d : Device) (h : Nat) : Signalled d (evqInterrupt d h) := by
  rw [evqInterrupt]
  split
  · have harm : Signalled d (setEvq d h { evqAt d h with arm := false }) := ⟨rfl, rfl, fun _ h => h, rfl⟩
    exact harm.trans (signalled_signalVector _ h)
  · exact .refl d

theorem signalled_evqWrite (d : Device) (h : Nat) (r : BitVec 128) : Signalled d (evqWrite d h r) := by
  rw [evqWrite]
  refine .trans (.trans ?_ (signalled_evqStatus _ h)) (signalled_evqInterrupt _ h)
  exact ⟨rfl, rfl, fun _ h => h, rfl⟩

theorem signalled_enterPending (d : Device) (h : Nat) : Signalled d (enterPending d h) := by
  rw [enterPending]
  split
  · exact .refl d
  · split
    · exact .refl d
    · refine .trans ?_ (signalled_evqWrite _ h _)
      exact ⟨rfl, rfl, fun _ h => h, rfl⟩

theorem signalled_enterAll (n : Nat) (d : Device) (h : Nat) : Signalled d (enterAll n d h) := by
  induction n generalizing d with
  | zero => exact .refl d
  | succ n ih =>
    rw [enterAll]
    split
    · exact .refl d
    · exact (signalled_enterPending d h).trans (ih _)

/-- A vector that is no longer held pending is signalled, where it may be. -/
def signalHeld (d : Device) (v : Nat) : Device :=
  signalVector { d with pcie := { d.pcie with pending := d.pcie.pending.filter (· ≠ v) } } v

theorem signalled_signalHeld (d : Device) (v : Nat) : Signalled d (signalHeld d v) := by
  refine .trans ?_ (signalled_signalVector _ v)
  exact ⟨rfl, rfl, fun _ h => h, rfl⟩

theorem mem_signalHeld {d : Device} {v : Nat} (hm : d.pcie.busMaster = true) (hv : v ∈ d.pcie.unmasked) : v ∈ (signalHeld d v).pcie.signalled := by
  rw [signalHeld, signalVector, if_pos (by simp [hm, hv])]
  exact List.mem_append_right _ List.mem_cons_self

theorem mem_foldl_signalHeld {vs : List Nat} {d : Device} (hm : d.pcie.busMaster = true) (hvs : ∀ v ∈ vs, v ∈ d.pcie.unmasked) :
    ∀ v ∈ vs, v ∈ (vs.foldl signalHeld d).pcie.signalled := by
  induction vs generalizing d with
  | nil => exact fun _ h => absurd h List.not_mem_nil
  | cons w vs ih =>
    intro v hv
    have hw := signalled_signalHeld d w
    rw [List.foldl_cons]
    obtain rfl | hv := List.mem_cons.mp hv
    · exact (Signalled.foldl signalled_signalHeld vs _).signalled (mem_signalHeld hm (hvs v List.mem_cons_self))
    · exact ih (by rw [hw.busMaster, hm]) (fun u hu => by rw [hw.unmasked]; exact hvs u (List.mem_cons_of_mem _ hu)) v hv

/-! ### Starts of the cores -/

/-- No record of a kept object reads as damaged. -/
def FlashReadsGood : Prop := ∀ k n, classP k = true → Config.flashDamaged k n = false

theorem damagedKeys_eq_nil (hgood : FlashReadsGood) (d : Device) : damagedKeys d = [] := by
  have hnil : d.flash.filter (fun e => classP e.1 && Config.flashDamaged e.1 d.drawn) = [] := List.filter_eq_nil_iff.mpr fun e _ => by
    cases hc : classP e.1 with
    | false => simp
    | true => simp [hgood e.1 d.drawn hc]
  rw [damagedKeys, hnil]
  rfl

theorem od_startCores (hgood : FlashReadsGood) (d : Device) : (startCores d).od = d.od := by
  rw [startCores]
  split
  · rw [readFlash_eq, if_pos (by rw [damagedKeys_eq_nil hgood]; rfl)]
  · rfl

/-! ### The cages -/

/-- The cage after a module has been put into it. -/
def cageFilled (d : Device) (c rate : Nat) : SfpPort :=
  let p := { sfpAt d c with present := true, rate := rate, link := false, held := false }
  { p with txDisable := !cageReady d c p, unfit := decide (rate < odGet d (0x2000 + c) 2) }

/-- A module put into a cage. -/
theorem sfpInsert_spec (d : Device) (c rate : Nat) :
    ((sfpAt (sfpInsert d c rate) c).present = true ∧ (sfpAt (sfpInsert d c rate) c).rate = rate ∧ (sfpAt (sfpInsert d c rate) c).link = false ∧
      (sfpAt (sfpInsert d c rate) c).held = false ∧ (sfpAt (sfpInsert d c rate) c).out = (sfpAt d c).out ∧
      (sfpAt (sfpInsert d c rate) c).txDisable = !(odFlag d (0x2000 + c) 1 && d.fw.running && decide (odGet d (0x2000 + c) 2 ≤ rate))) ∧
    (∀ n, n ≠ c → sfpAt (sfpInsert d c rate) n = sfpAt d n) ∧ (sfpInsert d c rate).berths = d.berths := by
  have hsfp : (sfpInsert d c rate).sfp = (setSfp d c (cageFilled d c rate)).sfp := by
    rw [sfpInsert]
    split <;> rfl
  have hberths : (sfpInsert d c rate).berths = d.berths := by
    rw [sfpInsert]
    split <;> rfl
  have hat (n : Nat) : sfpAt (sfpInsert d c rate) n = sfpAt (setSfp d c (cageFilled d c rate)) n := by rw [sfpAt, sfpAt, hsfp]
  refine ⟨?_, fun n hn => by rw [hat, sfpAt_setSfp_other _ _ hn], hberths⟩
  rw [hat, sfpAt_setSfp_same]
  refine ⟨rfl, rfl, rfl, rfl, rfl, ?_⟩
  change (!(odFlag d (0x2000 + c) 1 && d.fw.running && true && decide (odGet d (0x2000 + c) 2 ≤ rate))) = _
  rw [Bool.and_true]

theorem exec_sfpLink {c : Fin 2} {up : Bool} {s : State}
    (h : (odFlag s.dev (0x2000 + c.val) 1 && (!up || ((sfpAt s.dev c.val).present && !(sfpAt s.dev c.val).txDisable))) = true) :
    exec (.sfpPortLinkChange c up) s = .next { s with dev := setSfp s.dev c.val { sfpAt s.dev c.val with
      link := up, held := (sfpAt s.dev c.val).held && !up } } :=
  onDev_guarded_pos (fun d => setSfp d c.val { sfpAt d c.val with link := up, held := (sfpAt d c.val).held && !up }) h

/-! ### Bus mastering, continued -/

/-- The module with Bus Master Enable set. -/
def masterOn (d : Device) : Device := { d with pcie := { d.pcie with busMaster := true } }

/-- Then the unmasked vectors that were held pending are signalled. -/
def vectorsSent (d : Device) : Device :=
  (d.pcie.pending.filter (fun v => d.pcie.unmasked.contains v)).foldl signalHeld (masterOn d)

/-- After that the event queues' status blocks are written, and their pending records enter. -/
def recordsSent (d : Device) : Device :=
  (List.range 32).foldl (fun d h => enterAll d.pendingEv.length (evqStatus d h) h) (vectorsSent d)

theorem busMaster_eq (d : Device) : busMaster d true = (recordsSent d).queues.foldl (fun d q => writeStatus d q.1) (recordsSent d) := by
  rw [busMaster]
  exact if_pos rfl

theorem signalled_vectorsSent (d : Device) : Signalled (masterOn d) (vectorsSent d) := by
  rw [vectorsSent]
  exact .foldl signalled_signalHeld _ _

theorem mem_vectorsSent {d : Device} {v : Nat} (hp : v ∈ d.pcie.pending) (hu : v ∈ d.pcie.unmasked) : v ∈ (vectorsSent d).pcie.signalled := by
  rw [vectorsSent]
  exact mem_foldl_signalHeld (d := masterOn d) rfl (fun w hw => List.contains_iff_mem.mp (List.mem_filter.mp hw).2) v
    (List.mem_filter.mpr ⟨hp, List.contains_iff_mem.mpr hu⟩)

theorem signalled_recordsSent (d : Device) : Signalled (vectorsSent d) (recordsSent d) := by
  rw [recordsSent]
  exact Signalled.foldl (f := fun d h => enterAll d.pendingEv.length (evqStatus d h) h)
    (fun d h => (signalled_evqStatus d h).trans (signalled_enterAll _ _ h)) _ _

theorem signalled_busMaster (d : Device) : Signalled (vectorsSent d) (busMaster d true) := by
  rw [busMaster_eq]
  refine (signalled_recordsSent d).trans ?_
  exact Signalled.foldl (f := fun d (q : Nat × Ring) => writeStatus d q.1) (fun d q => signalled_writeStatus d q.1) _ _

theorem busMaster_on (d : Device) : (busMaster d true).pcie.busMaster = true ∧
    (∀ v ∈ d.pcie.pending, v ∈ d.pcie.unmasked → v ∈ (busMaster d true).pcie.signalled) ∧ (busMaster d true).streams = d.streams := by
  have hmaster := signalled_vectorsSent d
  have hafter := signalled_busMaster d
  refine ⟨?_, fun v hp hu => hafter.signalled (mem_vectorsSent hp hu), ?_⟩
  · rw [hafter.busMaster, hmaster.busMaster, masterOn]
  · rw [hafter.streams, hmaster.streams, masterOn]

theorem raw_dropped (m : Tab Stream) (n : Nat) : (Tab.get ({} : Stream) (Tab.map (fun (s : Stream) => { s with raw := none }) m) n).raw = none := by
  have h := Tab.get_map (fun (s : Stream) => { s with raw := none }) {} m n
  have h' := congrArg Stream.raw h
  exact h'

/-! ### PERST_N and slot power -/

/-- The module as PERST_N rises, before its cores start. -/
def perstRisen (d : Device) (straps : BitVec 3) (testEn : Bool) : Device :=
  { sampleStraps d straps testEn with power := { (sampleStraps d straps testEn).power with perstLow := false } }

theorem exec_perstNRise {straps : BitVec 3} {testEn : Bool} {s : State} (h : (s.dev.power.aux && s.dev.power.perstLow) = true) :
    exec (.perstNRise straps testEn) s = .next { s with dev := startCores (perstRisen s.dev straps testEn) } :=
  onDev_guarded_pos (fun d => startCores (perstRisen d straps testEn)) h

/-- What a start of the cores leaves besides objects. -/
theorem startCores_sides (d : Device) : (startCores d).power = d.power ∧ (startCores d).berths = d.berths ∧ (startCores d).time = d.time := by
  obtain ⟨o, f, n, w, u, h⟩ := startCores_frame d
  rw [h]
  exact ⟨rfl, rfl, rfl⟩

theorem startCores_starts {d : Device} (h : (d.power.aux && d.power.control && !d.power.perstLow && decide (mstate d = 0)) = true) :
    (startCores d).fw.running = true ∧ (startCores d).fw.fwstate = 1 ∧ (startCores d).pcie.up = true := by
  rw [startCores, if_pos h]
  obtain ⟨e, ⟨o, rfl⟩, he⟩ := readFlash_frame { d with fw := { d.fw with running := true, fwstate := 1, bootAt := d.time }, pcie := { d.pcie with up := true } }
  rw [he]
  exact ⟨rfl, rfl, rfl⟩

theorem startCores_off {d : Device} (h : d.power.control = false) : startCores d = d := by
  rw [startCores, if_neg (by simp [h])]

/-- Slot power that becomes valid (R478). -/
theorem slotValid_spec (d : Device) : (slotValid d).power.slot12 = true ∧ (slotValid d).power.control = (d.power.aux && decide (mstate d = 0)) ∧
    (d.power.control = false → (slotValid d).power.control = true → (slotValid d).power.fR = 2400 ∧ (slotValid d).power.want = 2400) := by
  have hcontrol : (setRails { d with power := { d.power with slot12 := true } }).power.control = (d.power.aux && decide (mstate d = 0)) := by
    change (d.power.aux && true && decide (mstate d = 0)) = _
    rw [Bool.and_true]
  rw [slotValid]
  split
  · next h =>
    rw [(startCores_sides _).1]
    exact ⟨rfl, hcontrol, fun _ _ => ⟨rfl, rfl⟩⟩
  · next h =>
    refine ⟨rfl, hcontrol, fun hoff hon => absurd ?_ h⟩
    rw [hon, hoff]
    rfl

theorem od_slotValid (hgood : FlashReadsGood) (d : Device) : (slotValid d).od = d.od := by
  rw [slotValid]
  split
  · exact od_startCores hgood _
  · rfl

/-! ### O59 rests on the flash -/

/-- A start of the cores that finds a record of a kept object damaged sets cause 8 (R403). -/
theorem cause_startCores {d : Device} (h : (d.power.aux && d.power.control && !d.power.perstLow && decide (mstate d = 0)) = true)
    {x : Nat × Nat} (hx : x ∈ d.flash) (hk : classP x.1 = true) (hbad : Config.flashDamaged x.1 d.drawn = true) :
    (odGet (startCores d) 0x1010 1).testBit 8 = true := by
  obtain ⟨-, -, hcause, -⟩ := startCores_keeps d
  refine hcause x hx fun hmem => ?_
  rw [startCores, if_pos h, flash_readFlash] at hmem
  have hkey : x.1 ∈ damagedKeys d := List.mem_map_of_mem (List.mem_filter.mpr ⟨hx, by rw [hk, hbad]; rfl⟩)
  have hkept := (List.mem_filter.mp hmem).2
  rw [Bool.not_eq_true', List.contains_eq_mem, decide_eq_false_iff_not] at hkept
  exact hkept hkey

/-- The module with slot power, before its cores start. -/
def slotPowered (d : Device) : Device :=
  let e := setRails { d with power := { d.power with slot12 := true } }
  { e with power := { e.power with fR := 2400, want := 2400 } }

/-- The aux domain alone is powered, no cause is set, and flash holds one record, under the given key and draw. -/
def flashStart (k n : Nat) : Device :=
  { od := [(256 * 0x1010 + 1, 0), (256 * 0x8400 + 8, 0)]
    flash := [(k, 0)]
    drawn := n
    power := { perstLow := false } }

/-- A damaged record of a kept object sets cause 8 as slot power becomes valid. -/
theorem od_flashStart {k n : Nat} (hk : classP k = true) (hbad : Config.flashDamaged k n = true) :
    (slotValid (flashStart k n)).od ≠ (flashStart k n).od := by
  intro hod
  have hstart : slotValid (flashStart k n) = startCores (slotPowered (flashStart k n)) := by
    rw [slotValid]
    exact if_pos rfl
  have hset := cause_startCores (d := slotPowered (flashStart k n)) rfl List.mem_cons_self hk hbad
  rw [← hstart, odGet_congr hod] at hset
  have hnone : odGet (flashStart k n) 0x1010 1 = 0 := rfl
  rw [hnone] at hset
  exact absurd hset (by decide)

/-- There are kept objects, so that `FlashReadsGood` does speak of something. -/
theorem exists_classP : ∃ k, classP k = true := ⟨256 * 0x1000, by decide⟩

/-- O59 stays open: it holds exactly where no record of a kept object ever reads as damaged (R403), and `Config.flashDamaged` is opaque,
so that neither the right side nor its negation can be proved. Two clauses are at fault, the values of the objects after PERST_N rises
and after slot power becomes valid; every other clause holds without the hypothesis. -/
theorem cardEvents_iff : Obligations.CardEvents ↔ FlashReadsGood := by
  refine ⟨fun h k n hk => ?_, fun hgood => ?_⟩
  · obtain ⟨-, -, -, -, -, hslot, -⟩ := h
    obtain ⟨e, he, -, -, -, hod⟩ := hslot { dev := flashStart k n, pending := [] }
    injection he with he
    have hsame : slotValid (flashStart k n) = e := congrArg State.dev he
    rw [← hsame] at hod
    by_contra hbad
    exact od_flashStart hk (Bool.not_eq_false _ ▸ hbad) hod
  · unfold Obligations.CardEvents
    dsimp only
    refine ⟨fun mv s0 s1 s haux hcable => ?_, fun s => ⟨fun h => ?_, fun h => ?_⟩, fun rail s hc hr => ?_, fun c s => ⟨fun rate => ?_, rfl, rfl,
      fun hen => ⟨fun hp ht => ?_, ?_⟩⟩, fun straps testEn s haux hperst => ?_, fun s => ?_, fun s => ⟨?_, ?_⟩⟩
    · refine ⟨cableRead s.dev mv s0 s1, onDev_guarded_pos (fun d => cableRead d mv s0 s1) haux, ?_⟩
      rw [cableRead_kept s0 s1 hcable]
      refine ⟨rfl, rfl, rfl, (availW_sensed _).trans rfl, ?_, rfl, rfl, rfl⟩
      change (s.dev.power.aux && s.dev.power.slot12 && decide (mstate s.dev = 0)) = _
      rw [haux, Bool.true_and]
    · exact onDev_guarded_neg cableLoss (by simp [h])
    · exact ⟨cableLoss s.dev, onDev_guarded_pos cableLoss h, cableLoss_spec s.dev⟩
    · have hr' : rail.val ≠ 0 := fun h => hr (Fin.ext h)
      exact ⟨_, _, onDev_guarded_pos (fun d => report d 0x08A (tag 10 0 rail.val) (tag 10 0 rail.val) rail.val) (by simp [hc, hr']),
        rfl, rfl, rfl, rfl, rfl⟩
    · exact ⟨sfpInsert s.dev c.val rate, rfl, sfpInsert_spec s.dev c.val rate⟩
    · exact (exec_sfpLink (by simp [hen, hp, ht])).trans (by rw [Bool.not_true, Bool.and_false])
    · exact (exec_sfpLink (by simp [hen])).trans (by rw [Bool.not_false, Bool.and_true])
    · refine ⟨_, exec_perstNRise (by simp [haux, hperst]), ?_⟩
      obtain ⟨hpower, hberths, htime⟩ := startCores_sides (perstRisen s.dev straps testEn)
      refine ⟨by rw [hpower]; rfl, by rw [hpower]; rfl, by rw [hpower]; rfl, od_startCores hgood _, hberths, htime, fun hc hm => ?_, fun hc => ?_⟩
      · refine startCores_starts ?_
        change (s.dev.power.aux && s.dev.power.control && !false && decide (mstate s.dev = 0)) = true
        simp [haux, hc, hm]
      · rw [startCores_off (d := perstRisen s.dev straps testEn) hc]
        exact ⟨rfl, rfl⟩
    · exact ⟨slotValid s.dev, rfl, (slotValid_spec s.dev).1, (slotValid_spec s.dev).2.1, (slotValid_spec s.dev).2.2, od_slotValid hgood s.dev⟩
    · exact ⟨_, rfl, rfl, rfl, raw_dropped s.dev.streams, rfl, rfl⟩
    · exact ⟨busMaster s.dev true, rfl, busMaster_on s.dev⟩

end Sys2Proof.Machine
end
